-- ==== Sys2Proof/Word.lean ====
section
/-! DEFINITION. The word types of the module: bytes, 16-bit, 32-bit and 64-bit words, and byte strings. -/

namespace Sys2Proof

/-- One byte of a frame, message, image or record. -/
abbrev Byte := BitVec 8

/-- A 16-bit field (a cell-group voltage, a temperature, Table 0.6). -/
abbrev Half := BitVec 16

/-- A 32-bit register of the register window (00_scope.md, "Notation and formats"). -/
abbrev Word := BitVec 32

/-- A 64-bit word of a stream queue (R327). -/
abbrev Quad := BitVec 64

/-- A byte string, the byte at the lowest address first. -/
abbrev Bytes := List Byte

/-- A 4B/5B code group, its leftmost bit the most significant one (R43). -/
abbrev Group := BitVec 5

/-- What a lane carries, bit by bit in the order of transmission (R43, R44). -/
abbrev Bits := List Bool

/-- The bits of an IEEE 754 binary32 number (R143, R193). -/
abbrev F32 := BitVec 32

end Sys2Proof
end

