-- ==== Sys2Proof/Syntax.lean ====
section
/-! DEFINITION. The commands of the block: one constructor of `Instr` for each row of spec/opcode_table.json. The table gives no
operands; those here are the fields of the spec's own message, frame or measurement (DESIGN CHOICE, log entry 2). -/

namespace Sys2Proof

/-- The two lanes of a monitor port (02, "Physical layer"). -/
inductive Lane where
  | N | S
  deriving DecidableEq, Repr

/-- The two uplinks (R306). -/
inductive Link where
  | A | B
  deriving DecidableEq, Repr

/-- The two modules of a pair (R399). -/
inductive Role where
  | A | B
  deriving DecidableEq, Repr

/-- A mailbox REQUEST as it reaches the supervisor: the session context whose record carried it, its TAG, and whether every
payload field that Table 11.3 shows as 0 is 0 (R343). -/
structure Req where
  ctx : Byte
  tag : Half
  zeros : Bool
  deriving DecidableEq, Repr

/-- The address and UDP port of a host (R315). -/
structure HostAddr where
  v6 : Bool := false
  ip : BitVec 128 := 0
  port : Nat := 0
  deriving DecidableEq, Repr

/-- The header and tag of a protected record from a host (Table 10.3): its length in bytes, whether VER and TYPE are known,
CTX, GEN, SEQ, the GCM tag, and where it came from. -/
structure RecHdr where
  len : Nat
  known : Bool
  ctx : Byte
  gen : Byte
  seq : Nat
  tag : BitVec 128
  src : HostAddr := {}
  deriving DecidableEq, Repr

/-- A HELLO record (Table 10.4): whether VER and the length are right, CRED_ID, requested role, R_I, X_I, and where it came from. -/
structure HelloRec where
  wellFormed : Bool
  credId : Half
  role : Byte
  ri : Bytes
  xi : Bytes
  src : HostAddr := {}
  deriving DecidableEq, Repr

/-- A CONFIRM record (Table 10.4): its MAC_I, and where it came from. -/
structure ConfirmRec where
  macI : Bytes
  src : HostAddr := {}
  deriving DecidableEq, Repr

/-- The identity of a monitor unit (Table 3.2). -/
structure UnitIdent where
  serial : Nat
  vendor : Half
  model : Half
  hwRev : Byte
  packId : Nat
  bleedImax : Nat
  owCaps : Byte
  deriving DecidableEq, Repr

/-- A command in a slot of a DOWN frame (Table 2.6). -/
structure DownCmd where
  dst : Byte
  cseq : Byte
  opc : Byte
  data : Bytes
  deriving DecidableEq, Repr

/-- What one port receives in the cycle that a LINK_CYCLE opens: what lane N takes in in the down-S window and lane S in the down-N
window, bit by bit, and the time from the down-N reference edge to its return at lane S in ps (R62, R67, R70). In a split port of a pair,
what PEER brings of the other end and no field of Table 14.3 holds (DESIGN CHOICE, log entry 54): this service cycle is handed to this module
(R79, R410); the units that the peer has addressed, on a standby as soon as the holder's walk is over (R369), on the holder when the peer has
finished its part (R410). -/
structure LinkObs where
  rxN : Bits
  rxS : Bits
  ringPs : Option Nat
  handed : Bool := false
  peer : Option (List (Nat × UnitIdent)) := none
  deriving DecidableEq, Repr

/-- A temperature sensor as a converter finds it: open, shorted, or its resistance in 0.1 ohm (R92, R122). -/
inductive Sensor where
  | opened
  | shorted
  | tenths (r : Nat)
  deriving DecidableEq, Repr

/-- The string voltages sampled at an instant, in mV, and the converter faults (R129); whether QUE lags, so that the frame waits for it
(R20, R434). -/
structure VoltObs where
  vStr : Int
  vLnk : Int
  strFault : Bool
  lnkFault : Bool
  queLags : Bool := false
  deriving DecidableEq, Repr

/-- The fast window comparators of the enabled channels: some comparator beyond BREAK_I, beyond NEVER_BREAK, beyond
HW_OC_LEVEL (R252, R254). -/
structure CmpObs where
  aboveBreak : Bool
  aboveNever : Bool
  aboveHw : Bool
  deriving DecidableEq, Repr

/-- One result of the current channels (R122 to R127): shunt input in nV, shunt link fault, Hall signal and reference in µV,
Hall supply within its limits, shunt NTC, comparators. -/
structure CurObs where
  vSh : Int
  shFault : Bool
  vSig : Int
  vRef : Int
  hallSupOk : Bool
  ntc : Sensor
  cmp : CmpObs
  deriving DecidableEq, Repr

/-- The settled values of one injector cycle (R136): currents in pA at the end of each half, fitted time constant in µs, string
voltage in each half in mV, pole voltages in mV. -/
structure InsObs where
  iPlus : Int
  iMinus : Int
  tauUs : Nat
  vStrPos : Int
  vStrNeg : Int
  vPos : Int
  vNeg : Int
  deriving DecidableEq, Repr

/-- One pole voltage sample (R138): pole voltages in mV. -/
structure PoleObs where
  vPos : Int
  vNeg : Int
  deriving DecidableEq, Repr

/-- The edges of one carrier period of a phase in 125 ps from its valley (R290): where a low output of the period before ends, which is c_on;
the high interval; where the low interval begins, to end at the next period's c_on. None: the output stays low for the interval (R291). -/
structure PwmEdges where
  lowOff : Int
  high : Option (Int × Int) := none
  lowOn : Option Int := none
  deriving DecidableEq, Repr

/-- PWM0H, PWM0L, PWM1H, PWM1L and GATE_EN as a module drives them or the arbiter passes them on (R402); none: both outputs of the phase low. -/
structure Stage where
  pwm0 : Option PwmEdges := none
  pwm1 : Option PwmEdges := none
  gate : Bool := false
  deriving DecidableEq, Repr

/-- The fast inputs summed over one update period (R274): sums of codes of CI0, CI1, CV0, CV1; the mean CHANTER voltage in µV
(R296); whether the last 10 conversions all exceeded 10.5 V (R297), whether none of them did (R298); the level of GD_FAULT_N; whether
one of the last 3 CI samples lies beyond PH_OC_LIM or at a rail (R281). -/
structure LoopObs where
  ci0 : Int
  ci1 : Int
  cv0 : Int
  cv1 : Int
  chUv : Int
  chOver : Bool
  chIn : Bool
  gdN : Bool
  ciOut : Bool
  deriving DecidableEq, Repr

/-- A SUB_BIND request (Table 11.7). -/
structure BindReq where
  queue : Nat
  itype : Nat
  first : Nat
  count : Nat
  decim : Nat
  qcap : Nat
  qwin : Nat
  tailTmo : Nat
  deriving DecidableEq, Repr

/-- A UDP datagram as received (R314, R315): destination port, payload length, checksum zero, over IPv4, an IP fragment or with IP options. -/
structure Datagram where
  port : Nat
  len : Nat
  zeroSum : Bool
  v4 : Bool
  frag : Bool
  deriving DecidableEq, Repr

/-- What an Ethernet frame carries above its header (R307, R314, R315, R324). -/
inductive EthBody where
  /-- a UDP datagram that holds a MAILBOX record with this header and this plaintext body (one message) -/
  | mailbox (dg : Datagram) (hdr : RecHdr) (body : Bytes)
  /-- any other UDP datagram -/
  | udp (dg : Datagram)
  /-- anything else -/
  | other
  deriving DecidableEq, Repr

/-- A received Ethernet frame: source MAC, length of the MAC client data, VLAN identifier of a tag (none: untagged), the RCT
(sequence number, LanId) when a valid one is present, the frame check sequence good. -/
structure EthFrame where
  src : Nat
  len : Nat
  vid : Option Nat
  rct : Option (Nat × Nat)
  fcsOk : Bool
  body : EthBody
  deriving DecidableEq, Repr

/-- A master seen on a PTP port (R317): clockIdentity, clockClass, clockAccuracy, stepsRemoved, the domain of its messages, and the other
members of its data set: priority1, offsetScaledLogVariance, priority2, the identity of the port that sends it. -/
structure Master where
  gm : Nat
  cls : Nat
  acc : Nat
  steps : Nat
  domain : Nat := 0
  prio1 : Nat := 128
  variance : Nat := 0
  prio2 : Nat := 128
  sender : Nat := 0
  deriving DecidableEq, Repr

/-- A Sync with its Follow_Up (Table 10.1): PTP time less module time in ns, the domain, the logarithm of the interval. -/
structure SyncMsg where
  phaseErr : Int
  domain : Nat
  logInt : Int
  deriving DecidableEq, Repr

/-- What a PTP port lacks (R318): mean path delays for 3 s, else Syncs for 3 intervals. -/
structure PtpLoss where
  link : Link
  pdelay : Bool
  deriving DecidableEq, Repr

/-- The read-back of a contactor's channel, B or A, differs from its command or agrees again (R239). -/
structure Readback where
  chB : Bool
  differs : Bool
  deriving DecidableEq, Repr

/-- What the arbiter sees of a module's fitness: the module, the other module's five signals at that moment (R402, R424); of a module that is
FIT, whether it has been so throughout the last 10 ms; of one that is not, whether its BREATH is lost. -/
structure FitReport where
  m : Role
  other : Stage := {}
  long : Bool := true
  noBreath : Bool := false
  deriving DecidableEq, Repr

/-- An error that a scrub of LPDDR4 found: uncorrectable, in a word that the SPC uses (R467, Table 16.8). -/
structure ScrubError where
  ue : Bool
  spc : Bool := false
  deriving DecidableEq, Repr

/-- A window at a unit's interface, bit by bit: the side that it comes in from, and what has come in (R43, R44). -/
structure LinkRx where
  lane : Lane
  rx : Bits
  deriving DecidableEq, Repr

/-- A PEER STATUS frame (Table 14.3), field by field. The command that brings it also holds the receipt of its reference edge, in ps after
the receiver's instant before (R406). -/
structure PeerStatus where
  instant : Nat
  role : Nat
  select : Bool
  health : Bool
  power : Nat
  tripped : Bool
  connect : Nat
  openActive : Bool
  locked : Bool
  channels : Byte
  ctlState : Nat
  src : Nat
  bankReq : Nat
  why : Byte
  spHost : Int
  upd : Nat
  out : Int
  lastDir : Int
  tZero : Nat
  u1 : Int
  u2 : Int
  u3 : Int
  bal : Int
  d : Int
  iSel : Int
  rxStamp : Int
  need : BitVec 144
  firstInstant : Nat
  epochOk : Nat
  mapCrc : Word
  ring : BitVec 48
  deriving DecidableEq, Repr

/-- A PEER HELLO frame (Table 14.2). -/
structure PeerHello where
  role : Nat
  serial : Nat
  proto : Nat
  mapCrc : Word
  deriving DecidableEq, Repr

/-- One command slot of a DOWN frame as a unit receives it (Table 2.6): DST, CSEQ, OPC, LEN and the 8 DATA bytes. -/
structure LinkCmd where
  dst : Byte
  cseq : Byte
  opc : Byte
  len : Nat
  data : Bytes
  deriving DecidableEq, Repr

/-- What a unit's converters read at a sample (R90, R91): 16 input voltages in 100 µV (signed, before clipping), 4 temperature sensors, the
stack voltage in mV; then what its interfaces receive from farther units in the two up windows of the cycle: the S side in the up-N
window, the N side in the up-S window (R48, R49). -/
structure UnitObs where
  v : List Int
  t : List Sensor
  vstk : Int
  upN : Bits := []
  upS : Bits := []
  deriving DecidableEq, Repr

/-- The commands: one constructor per row of spec/opcode_table.json, in the table's order. -/
inductive Instr where
  -- host mailbox commands (Table 11.3)
  | identGet (r : Req)
  | capGet (r : Req)
  | timeGet (r : Req)
  | stateGet (r : Req)
  | stateSet (r : Req) (target : Byte) (nvOk : Bool)
  | cfgOpen (r : Req) (len : Nat)
  | cfgWrite (r : Req) (off : Nat) (data : Bytes)
  | cfgAdmit (r : Req) (cut : Bool)
  | cfgRevert (r : Req) (cut : Bool)
  | cfgRead (r : Req) (slot : Byte) (off len : Nat)
  | cfgInfo (r : Req)
  | subBind (r : Req) (b : BindReq)
  | subUnbind (r : Req) (q : Byte)
  | subList (r : Req)
  | noticeSub (r : Req) (mask : Word)
  | estGroups (r : Req) (first count : Half)
  | estString (r : Req)
  | impBins (r : Req) (g : Half)
  | impModels (r : Req) (first count : Half)
  | estSave (r : Req) (nvOk : Bool)
  | balLearn (r : Req)
  | balLearnAbort (r : Req)
  | balGroups (r : Req) (first count : Half)
  | proConnect (r : Req)
  | proDisconnect (r : Req)
  | proTripReset (r : Req)
  | proClassClear (r : Req) (slot : Byte)
  | proStatus (r : Req)
  | ctlStart (r : Req)
  | ctlStop (r : Req)
  | ctlFaultClear (r : Req)
  | ctlTone (r : Req) (tones : List (Nat × Nat))
  | ctlSetpoint (r : Req) (sp : Word) (src : Byte)
  | recInfo (r : Req)
  | recRead (r : Req) (first : Nat) (count : Byte)
  | updOpen (r : Req) (len : Nat)
  | updWrite (r : Req) (off : Nat) (data : Bytes)
  | updActivate (r : Req)
  | updInfo (r : Req)
  | lcyGet (r : Req)
  | lcySet (r : Req) (target : Byte) (confirm : Word)
  | credSet (r : Req) (id : Half) (role : Byte) (key : Bytes)
  | credDel (r : Req) (id : Half)
  | paiStatus (r : Req)
  | paiHandover (r : Req)
  | regRead (r : Req) (addr : Word) (count : Half)
  | regWrite (r : Req) (addr value : Word)
  | enumPort (r : Req) (low : Word) (high : Half)
  | unitDiag (r : Req) (unit page : Byte)
  | atbSet (r : Req) (bus : Byte) (node : Half)
  -- sessions and stream queues
  | hello (h : HelloRec)
  | confirm (ctx gen : Byte) (x : ConfirmRec)
  | hostClose (h : RecHdr) (body : Bytes)
  | streamAck (h : RecHdr) (body : Bytes)
  | hsTimeout (ctx : Byte)
  | sesIdleTimeout (ctx : Byte)
  | sesLifetimeExpiry (ctx : Byte)
  | sesClose (r : Req) (w : Word)
  | streamRecordSend (q : Fin 64) (bad : Option (Nat × Bool)) (timeout : Bool)
  | queTailTmo (q : Fin 64)
  | sopLimits
  -- uplinks, supply and plant time
  | ethernetFrameReceived (l : Link) (f : EthFrame)
  | prpSupervision
  | nodeForgetTime (mac : Nat)
  | icmpEchoRequest (v6 : Bool) (bytes : Nat)
  | arpRequest (ip : Word)
  | neighbourSolicitation (ip : BitVec 128)
  | dhcpv4Reply (addr mask gw : Word)
  | linkStateChange (l : Link) (up : Bool)
  | tc10SleepRequest (l : Link)
  | tc10Wake (l : Link)
  | feedLost (f : Link) (mv : Nat)
  | feedBack (f : Link) (mv : Nat)
  | supplyLost (mv : Nat)
  | holdupLoadShed
  | holdupEnd
  | powerUp (f : Link) (testModeLow : Bool)
  | sync (l : Link) (x : SyncMsg)
  | announce (l : Link) (m : Master) (better : Bool)
  | announceReceiptTimeout (l : Link)
  | ptpValidTimeout (x : PtpLoss)
  | pdelayReqTimer
  | pdelayReq (l : Link)
  | pdelayResp (l : Link) (delay : Nat)
  -- monitor link, module side
  | linkCycle (obs : List LinkObs)
  | upBlockReceived (p : Fin 48) (lane : Lane) (rx : Bits)
  | echoReceived (p : Fin 48) (lane : Lane) (rx : Bits) (tTx tRx : Nat)
  | cmdTimeout (p : Fin 48) (c : Fin 3)
  | ringBroken (p : Fin 48)
  | ringRestored (p : Fin 48)
  | laneDown (p : Fin 48) (lane : Lane)
  | unitStale (p : Fin 48) (c : Fin 3)
  | frameStarvation
  -- sampling and string measurement
  | frameClose (v : VoltObs)
  | currentResult (x : CurObs)
  | zeroDone
  | lowcadEnter
  | lowcadExit
  | insCycleEnd (x : InsObs)
  | insPoleSample (x : PoleObs)
  | insForeignClear
  -- estimator, impedance, balancing
  | estimatorTick
  | learnedDataSave (whole nvOk : Bool)
  | impFrame
  | stepHoldEnd
  | windowClose
  | windowDone
  | planningRound
  | bleedDurationExpiry (p : Fin 48) (c : Fin 3)
  | owPeriodStart (c : Fin 3)
  -- protection
  | persistenceExpiry (code : Fin 29) (idx : Nat)
  | refCheck (ppm : Nat)
  | hwOc (x : CmpObs)
  | comparatorBelowLevel (x : CmpObs)
  | breakWaitExpiry
  | kfInputChange (levels : BitVec 4)
  | kfWindowExpiry (k : Fin 4)
  | readbackMismatch (k : Fin 4) (x : Readback)
  | weldTestTimer
  | prechgTmaxExpiry
  | k3OverlapExpiry
  | prechgCoolExpiry
  | discRampMaxExpiry
  | proSupplyFault
  | proRestart
  -- control engine
  | loopUpdate (x : LoopObs)
  | gdFault
  | ciMismatchCheck
  | chanterEdge (rising : Bool) (ps : Nat)
  | chanterLost
  | hostSpStale
  | sopStale
  | stopTmaxExpiry
  | toneSetStart
  -- supervisor, activation, wipe
  | spcReset (cause : Fin 4)
  | spcRestartDone
  | activationPauseEnd
  | wipeDone (verified : Bool)
  -- redundant pair
  | peerHello (h : PeerHello)
  | peerStatus (f : PeerStatus) (rx : Int)
  | peerFwd (unit : Byte) (body : Bytes) (late : Bool)
  | peerCopy (epoch offset len : Nat) (data : Bytes)
  | peerCopyEnd (epoch len : Nat) (crc : Word)
  | peerTrip (code : Byte) (instant : Word)
  | peerDown
  | selectGained
  | selectLost
  | handoverTimeout
  | arbiterNotFit (x : FitReport)
  -- event recorder and health
  | recEvent
  | flushStart
  | flushRecordWritten (verified : Bool)
  | snapshot
  | timeMark
  | optimeTick
  | housekeepingRound (temps : List (Option Int))
  | dramScrub (bad : List ScrubError)
  | eccError (mem : Fin 4) (ue : Bool) (idx : Nat)
  -- islands and crossings
  | crossingValueDelivered (x : Byte)
  | crossingPulseDelivered (x : Byte)
  | crossingResetIndication (i : Fin 17)
  | rehandshakeDone (i : Fin 17)
  | islandWake (i : Fin 17) (ns : Nat)
  | islandClockStop (i : Fin 17)
  -- register operations with rows of their own
  | eventFlagClear (r : Req) (blk : Fin 68) (mask : Half) (sets : Half)
  | eventReadLatch (r : Req) (blk : Fin 68)
  | groupRecordLatch (r : Req) (g : Fin 768)
  | modelRecordLatch (r : Req) (g : Fin 768)
  | smpInstLoRead (r : Req)
  | recLoRead (r : Req) (which : Fin 4)
  | prtCntClr (r : Req) (p : Fin 48) (w : Word)
  | forceNOff (r : Req) (p : Fin 48) (w : Word)
  | forceSOff (r : Req) (p : Fin 48) (w : Word)
  | zeroReq (r : Req) (w : Word)
  | lowcadHold (r : Req) (w : Word)
  | insModeWrite (r : Req) (w : Word)
  | saveReq (r : Req) (w : Word)
  | learnFreeze (r : Req) (w : Word)
  | estRetainWrite (r : Req) (hi : Bool) (w : Word)
  | winRestart (r : Req) (w : Word)
  | stepInhibit (r : Req) (w : Word)
  | impGselWrite (r : Req) (w : Word)
  | balModeWrite (r : Req) (w : Word)
  | balEn (r : Req) (w : Word)
  | owNow (r : Req) (w : Word)
  | owPause (r : Req) (w : Word)
  | bellTest (r : Req) (w : Word)
  | bankReq (r : Req) (w : Word)
  | srcWrite (r : Req) (w : Word)
  | ctlSpHostWrite (r : Req) (w : Word)
  | aoHostWrite (r : Req) (w : Word)
  | uplCntClr (r : Req) (w : Word)
  | linkAOff (r : Req) (w : Word)
  | linkBOff (r : Req) (w : Word)
  | sesCntClr (r : Req) (w : Word)
  | queCntClr (r : Req) (w : Word)
  | queueFlush (r : Req) (q : Fin 64) (w : Word)
  | holdOff (r : Req) (w : Word)
  | paiCntClr (r : Req) (w : Word)
  | debugEn (r : Req) (w : Word)
  | xngCntClr (r : Req) (w : Word)
  | evcntClr (r : Req) (w : Word)
  | flushReq (r : Req) (w : Word)
  | recCntClr (r : Req) (w : Word)
  | hkpCntClr (r : Req) (w : Word)
  -- monitor units
  | downFrame (p : Fin 48) (c : Fin 3) (x : LinkRx)
  | unitSample (p : Fin 48) (c : Fin 3) (x : UnitObs)
  | bulkFrame (p : Fin 48) (c : Fin 3) (lane : Lane) (lead frame tail : Bits)
  | addrAssign (p : Fin 48) (c : Fin 3) (i : Fin 3)
  | identRead (p : Fin 48) (c : Fin 3) (i : Fin 3)
  | corrSet (p : Fin 48) (c : Fin 3) (i : Fin 3)
  | delayProbe (p : Fin 48) (c : Fin 3) (i : Fin 3)
  | chainSet (p : Fin 48) (c : Fin 3) (i : Fin 3)
  | unitReset (p : Fin 48) (c : Fin 3) (i : Fin 3)
  | packIdSet (p : Fin 48) (c : Fin 3) (i : Fin 3)
  | loadBegin (p : Fin 48) (c : Fin 3) (i : Fin 3)
  | loadCheck (p : Fin 48) (c : Fin 3) (i : Fin 3)
  | loadStart (p : Fin 48) (c : Fin 3) (i : Fin 3)
  | inputCfg (p : Fin 48) (c : Fin 3) (i : Fin 3)
  | tsensCfg (p : Fin 48) (c : Fin 3) (i : Fin 3)
  | bleedMode (p : Fin 48) (c : Fin 3) (i : Fin 3)
  | bleedSet (p : Fin 48) (c : Fin 3) (i : Fin 3)
  | bleedStop (p : Fin 48) (c : Fin 3) (i : Fin 3)
  | owTest (p : Fin 48) (c : Fin 3) (i : Fin 3)
  | owStop (p : Fin 48) (c : Fin 3) (i : Fin 3)
  | diagRead (p : Fin 48) (c : Fin 3) (i : Fin 3)
  | bleedTimerExpiry (p : Fin 48) (c : Fin 3) (n : Fin 16)
  | owSourceOff (p : Fin 48) (c : Fin 3)
  | unitBleedTimeout (p : Fin 48) (c : Fin 3)
  | unitDroneTimeout (p : Fin 48) (c : Fin 3)
  | unitSleepTimeout (p : Fin 48) (c : Fin 3)
  | unitWatchdog (p : Fin 48) (c : Fin 3)
  | unitWake (p : Fin 48) (c : Fin 3)
  | unitHot (p : Fin 48) (c : Fin 3) (dieTemp : Int)
  | unitPowerUp (p : Fin 48) (c : Fin 3)
  -- rows at the end of the table
  | phOc (rail : Bool)
  | phaseValley (k : Fin 2)
  | chanterBack
  | peerCycle
  | arbiterFit (x : FitReport)
  | pairGeSettle
  | unitImageStart (p : Fin 48) (c : Fin 3)
  | unknownOpcode (r : Req) (opcode : Half)
  | networkFault
  deriving DecidableEq, Repr

end Sys2Proof
end

