-- ==== Sys2Proof/Config.lean ====
section
/-! DEFINITION. What the spec names but does not give: uninterpreted functions and free values. None of them has a body, so
nothing can be proved about a value of theirs; each is named in notes/assumptions. -/

namespace Sys2Proof.Config

/-- Random bytes (R_M, the X25519 secret key, the random key of R323): the n-th free byte (DESIGN CHOICE, log entry 4). -/
opaque freeByte : Nat → Byte

/-- A 32-bit value that the spec leaves open, taken at a fresh number each time (DESIGN CHOICE, log entry 4). -/
opaque freeWord : Nat → Word

/-- A signed value that the spec leaves open, taken at a fresh number each time (DESIGN CHOICE, log entry 4). -/
opaque freeInt : Nat → Int

/-- X25519 (RFC 7748): scalar, point (R322; DESIGN CHOICE, log entry 5). -/
opaque x25519 : Bytes → Bytes → Bytes

/-- X25519 public key of a secret key (R321; DESIGN CHOICE, log entry 5). -/
opaque x25519Base : Bytes → Bytes

/-- HKDF-SHA-256 extract: salt, input key (R322; DESIGN CHOICE, log entry 5). -/
opaque hkdfExtract : Bytes → Bytes → Bytes

/-- HKDF-SHA-256 expand: key, info, length (R322; DESIGN CHOICE, log entry 5). -/
opaque hkdfExpand : Bytes → Bytes → Nat → Bytes

/-- SHA-256 (R322, R389; DESIGN CHOICE, log entry 5). -/
opaque sha256 : Bytes → Bytes

/-- HMAC-SHA-256: key, message (R322; DESIGN CHOICE, log entry 5). -/
opaque hmacSha256 : Bytes → Bytes → Bytes

/-- The AES-256-GCM tag of a record: key, nonce, additional data, plaintext body (R321; DESIGN CHOICE, log entry 5). -/
opaque gcmTag : Bytes → Bytes → Bytes → Bytes → BitVec 128

/-- The AES-256-GCM ciphertext of a record: key, nonce, additional data, plaintext body (R321; DESIGN CHOICE, log entry 5). -/
opaque gcmCipher : Bytes → Bytes → Bytes → Bytes → Bytes

/-- Ed25519 verification (RFC 8032): message, signature, under the key of the factory data (R389, R393; DESIGN CHOICE, log entry 5). -/
opaque ed25519Ok : Bytes → Bytes → Bytes → Bool

/-- The binary32 exponential: IEEE 754 does not fix its rounding, nor does R143 (DESIGN CHOICE, log entry 6). -/
opaque expF32 : F32 → F32

/-- The binary32 cosine of a number of turns (R193; DESIGN CHOICE, log entry 6). -/
opaque cosTurns : Rat → F32

/-- The binary32 sine of a number of turns (R193; DESIGN CHOICE, log entry 6). -/
opaque sinTurns : Rat → F32

/-- The binary32 phase of a complex number, in turns, in (-1/2, 1/2] (R194; DESIGN CHOICE, log entry 6). -/
opaque phaseTurns : F32 → F32 → F32

/-- The error of the tone sine of R301 in 2^-24 of the amplitude, for a phase: free within the bound that R301 sets
(DESIGN CHOICE, log entry 6). It lies in 0..16 and is read as -8..8. -/
opaque sineError : Nat → Fin 17

/-- The boot code revision of a unit (Table 3.2, BOOT_REV), by its serial number: the spec gives no value (DESIGN CHOICE, log entry 7). -/
opaque bootRev : Nat → Half

/-- The FW_ID that a unit's maker takes from an image (Table 3.2): never 0, so it is read as this plus 1 (DESIGN CHOICE, log entry 7). -/
opaque fwIdent : Bytes → Fin 4294967295

end Sys2Proof.Config
end

