-- ==== Sys2Proof/Machine/State.lean ====
section
/-! DEFINITION. The state of the block as plain data: every register, counter, buffer, flag, pin and piece of non-volatile data that
the spec gives the module, its monitor units and the arbiter of a pair, the queue of waiting commands, and the state after reset.
A field's docstring names the rule or table that gives it. INVENTORY.md, "State", lists the reset values. -/

namespace Sys2Proof.Machine

open Sys2Proof

/-- What stops the machine. -/
inductive Fault where
  /-- A feed voltage beyond the ±60 V of Table 17.3: "A stress beyond Table 17.3 may damage it" (R472), and no effect is given.
  Raised by FEED_BACK. Safe: the model stops where the spec says nothing. -/
  | absoluteMaximum
  deriving DecidableEq, Repr

/-- A command without a meaning. -/
inductive Refusal where
  /-- A row of the table that the model does not give a meaning yet. Raised by an arm of `exec` alone. Safe. -/
  | notModelled (mnemonic : String)
  deriving DecidableEq, Repr

/-- The W1C flags of one EVENT register, the 8-bit counter of flag n in bits [8n+7:8n], and the counters latched by the last read
of EVENT (R437, R438). -/
structure Ev where
  flags : BitVec 16 := 0
  cnt : BitVec 128 := 0
  latch : Option (BitVec 128) := none
  deriving DecidableEq, Repr

/-! ## Monitor ports (02) -/

/-- A command waiting for a slot of a DOWN frame (R55): its priority (1 planner stop, 3 other planner, 4 supervisor), DST, opcode
and payload. -/
structure LinkReq where
  pri : Nat
  dst : Byte
  opc : Byte
  data : Bytes
  deriving DecidableEq, Repr

/-- The command in flight to one unit (R55, R56, R59): the request, its CSEQ, the retries made, the cycles since it was sent or
last answered PENDING, and whether a retry waits for a slot. -/
structure InFlight where
  req : LinkReq
  cseq : Byte
  tries : Nat := 0
  age : Nat := 0
  again : Bool := false
  deriving DecidableEq, Repr

/-- An UP block as accepted by the port or the aggregator (Table 2.7), without the response fields. -/
structure Block where
  src : Byte := 0
  status : Half := 0
  v : List Half := []
  t : List Half := []
  vstk : Half := 0
  deriving DecidableEq, Repr

/-- One unit position of a port, as the module sees it (Table 2.12, R60 to R70). -/
structure Pos where
  present : Bool := false
  loaded : Bool := false
  flywheel : Bool := false
  droneS : Bool := false
  stale : Bool := false
  /-- cycles since a block was last accepted from lane N (16 and more: not reached, Table 2.12) -/
  ageN : Nat := 16
  ageS : Nat := 16
  /-- consecutive instants without an accepted block (R64) -/
  missRun : Nat := 0
  /-- the block accepted for the instant in course, with its raw bytes and lane; one that came too late for its frame (R60, R61) -/
  got : Option (Block × Bytes × Lane) := none
  late : Option Bytes := none
  /-- the delays in use in ps (Table 2.13); none reads VALID = 0 -/
  dlyN : Option Nat := none
  dlyS : Option Nat := none
  /-- addressed from lane S (R72, step 3) -/
  viaS : Bool := false
  skewUnv : Bool := false
  ident : Option UnitIdent := none
  noImage : Bool := false
  cmd : Option InFlight := none
  /-- the next CSEQ of the unit's series (R56) -/
  cseq : Byte := 0
  deriving DecidableEq, Repr

/-- An ADDR_ASSIGN in flight (R72): the address it carries, its CSEQ, the retries made, the cycles since it was sent, and the IDENT_READ
that asks before a retry whether a unit holds the address: its CSEQ and the cycles since. -/
structure Assign where
  addr : Byte
  cseq : Byte
  tries : Nat := 0
  age : Nat := 0
  check : Option (Byte × Nat) := none
  deriving DecidableEq, Repr

/-- What the module does on a port in service cycles (Table 12.5, steps 3 to 6; R72, R89, R105): waits for lock, resets the units, walks
the chain, leaves the far side of a split port to the peer, reads the identities, measures, writes chain length and corrections, loads
(LOAD_BEGIN and the segments, LOAD_CHECK, a gap-fill pass, LOAD_START), leaves the far side's load to the peer, waits for the image to start,
configures the units, is ready to sample; on a standby, follows the holder (R369). -/
inductive SvcPhase where
  | off | lock | reset | walk | handWalk | identity | measure | write | load | check | fill | start | handLoad | wait | config | ready | follow
  deriving DecidableEq, Repr

/-- One or more service cycles: a frame without a command; commands in one frame, whose answers are awaited; the segments of an image
from one to the last, one BULK frame in a cycle; a cycle handed to the peer (R79). -/
inductive SvcJob where
  | idle
  | cmds (lane : Lane) (reqs : List LinkReq)
  | bulk (lane : Lane) (dst : Byte) (image : Bytes) (seg : Nat)
  | hand
  deriving DecidableEq, Repr

/-- One image to load on a port (R105): DST of its commands and segments, the positions that take it. -/
structure Load where
  dst : Byte
  units : List Nat
  image : Bytes
  deriving DecidableEq, Repr

/-- The service cycles of a port: the lane in use, cycles of the phase, units addressed from each lane, a walk at its end, the ring closed,
repetitions of the measurement (R68), the loads still to do, the present one first, its gap-fill passes made, per position the
segments missing and the first of them (LOAD_CHECK), the positions that failed to load. -/
structure Svc where
  phase : SvcPhase := .off
  lane : Lane := .N
  n : Nat := 0
  asg : Option Assign := none
  nN : Nat := 0
  nS : Nat := 0
  ended : Bool := false
  closed : Bool := false
  jobs : List SvcJob := []
  redo : Nat := 0
  loads : List Load := []
  pass : Nat := 0
  gaps : List (Nat × Nat × Nat) := []
  failed : List Nat := []
  deriving DecidableEq, Repr

/-- One monitor port (Tables 2.9 to 2.14, R62, R65, R70). -/
structure Port where
  cad : Nat := 0
  forceN : Bool := false
  forceS : Bool := false
  kFound : Nat := 0
  ring : Nat := 3
  breakSeg : Nat := 0
  link : Nat := 0
  tooLong : Bool := false
  provisional : Bool := false
  lockN : Bool := false
  lockS : Bool := false
  pos : List Pos := [{}, {}, {}]
  /-- D_ring as last measured, in ps (PRT_RINGDLY) -/
  ringDly : Option Nat := none
  /-- D_ring as measured in service cycles (R70) -/
  ringService : Option Nat := none
  /-- the counters at 0x050 to 0x07C in register order (Table 2.14) -/
  cnt : List Word := List.replicate 12 0
  /-- consecutive cycles in which a frame failed to return, and good ones (R62) -/
  badRun : Nat := 0
  goodRun : Nat := 0
  /-- the returns of the last good cycles in ps, newest first (R70) -/
  returns : List Nat := []
  /-- the ring was INCOMPLETE since it was last CLOSED (R70) -/
  wasIncomplete : Bool := false
  /-- cycles without a valid frame on each lane (R65) -/
  quietN : Nat := 0
  quietS : Nat := 0
  downN : Bool := false
  downS : Bool := false
  /-- in the cycle in course: a valid frame was decoded on each lane, a window found each receiver locked (R44, R65) -/
  seenN : Bool := false
  seenS : Bool := false
  lkN : Bool := false
  lkS : Bool := false
  /-- INSTANT of the last DOWN frame (R76) -/
  lastIdx : Option Nat := none
  /-- the DOWN frame of the cycle came back (R62): whole, on each lane -/
  backN : Bool := false
  backS : Bool := false
  svc : Svc := {}
  /-- BREAK_SEG of the last BROKEN period (R70) -/
  lastBreak : Nat := 0
  /-- the next CSEQ of the broadcast and of the 0xFE series (R56) -/
  cseqAll : Byte := 0
  cseqFirst : Byte := 0
  waiting : List LinkReq := []
  deriving DecidableEq, Repr

/-! ## Monitor units (03) -/

/-- The states of Table 3.1. -/
inductive UnitState where
  | sleep | bootUnaddressed | bootAddressed | loading | running
  deriving DecidableEq, Repr

/-- A response of a unit (Table 2.7, bytes 48 to 59): RSEQ, ROPC, RSTAT, RDATA. -/
structure Resp where
  cseq : Byte
  opc : Byte
  stat : Byte
  data : Bytes := []
  deriving DecidableEq, Repr

/-- A running open-wire test (R101): wires, current code, polarity, samples still to take, the CSEQ to answer; the sources are not
yet on (they switch on after the instant of the command's cycle), and the wires whose sources of a test replaced are still on. -/
structure OwTest where
  wires : BitVec 24
  code : Nat
  pol : Bool
  left : Nat
  cseq : Byte
  first : Bool := true
  old : BitVec 24 := 0
  deriving DecidableEq, Repr

/-- A temperature sensor's curve (R92): R26 in ohm, B in K. -/
structure SensorCurve where
  r26 : Nat := 10000
  b : Nat := 3435
  deriving DecidableEq, Repr

/-- One monitor unit (03). `p` and `c` of its place in State.units are the place where it is wired; its address is what it was
assigned. -/
structure MUnit where
  st : UnitState := .sleep
  addr : Byte := 0
  chain : Nat := 0
  corrN : Option Nat := none
  corrS : Option Nat := none
  ident : UnitIdent := ⟨0, 0, 0, 0, 0, 0, 2⟩
  cause : Nat := 0
  /-- LOAD_BEGIN length and CRC, segments held by number, LOAD_START accepted (R106, R107) -/
  loadLen : Nat := 0
  loadCrc : Word := 0
  segs : List (Nat × Bytes) := []
  starting : Bool := false
  /-- LOAD_BEGIN came in this cycle: BULK frames count from the next one (R106) -/
  begun : Bool := false
  fwCrc : Word := 0
  fwId : Word := 0
  /-- UNIT_RESET is executed after the up windows of its cycle (R87) -/
  resetDue : Bool := false
  /-- chain length and corrections as configured from the instant after the command (R89) -/
  cfgChain : Nat := 0
  cfgCorrN : Option Nat := none
  cfgCorrS : Option Nat := none
  /-- masks, sensor curves and mode in force, and as configured from the instant after the command (R89) -/
  inMask : Half := 0
  tMask : BitVec 4 := 0
  cfgIn : Half := 0
  cfgT : BitVec 4 := 0
  cfgComp : Bool := false
  sensor : List SensorCurve := [{}, {}, {}, {}]
  cfgSensor : List SensorCurve := [{}, {}, {}, {}]
  comp : Bool := false
  /-- end of each group's bleed timer on the unit's own clock, in ns; none: not running (R95) -/
  timers : List (Option Nat) := List.replicate 16 none
  ow : Option OwTest := none
  hot : Bool := false
  /-- the unit's own clock in ns since it left reset (R94) -/
  clock : Nat := 0
  /-- INSTANT and CAD of the last valid DOWN frame, and the unit's clock at its reference edge (R63, R103) -/
  instant : Nat := 0
  cad : Nat := 0
  edgeAt : Nat := 0
  /-- valid copies received since the last sample: active from N, active from S, passive from N, passive from S (R63, R77) -/
  edgeN : Bool := false
  edgeS : Bool := false
  passN : Bool := false
  passS : Bool := false
  /-- the frame in course may be obeyed (R84), carries BLEED_STOP (R98) -/
  obey : Bool := false
  stopFrame : Bool := false
  /-- in a service cycle, only the units that the frame's commands reach transmit: it has ENUM, or a DELAY_PROBE (R54) -/
  hush : Bool := false
  framePort : Nat := 0
  frameLane : Lane := .N
  /-- the command slots of the last valid DOWN frame of the cycle (Table 2.6) -/
  slots : List LinkCmd := []
  /-- the last commands executed of the two series (R57) -/
  lastOwn : Option Resp := none
  lastAll : Option Byte := none
  /-- the responses waiting for an UP block, oldest first (R58) -/
  resp : List Resp := []
  /-- an answer of the kind ECHO replaces the UP block (R66) -/
  echo : Option Lane := none
  refDev : Int := 0
  crcRx : Nat := 0
  flyCnt : Nat := 0
  portMis : Nat := 0
  wdog : Nat := 0
  deriving DecidableEq, Repr

/-! ## Timebase, current channels, aggregator, insulation (04) -/

/-- A coherent frame (Table 4.5), field by field: lists by group g, by slot u. -/
structure Frame where
  instant : Nat := 0
  time : Nat := 0
  flags : Half := 0
  cur : Half := 0
  iShunt : Int := 0
  iHall : Int := 0
  vStr : Int := 0
  vLnk : Int := 0
  ins : Byte := 0
  v : List Half := []
  gf : List Byte := []
  t : List (List Half) := []
  vstk : List Half := []
  uf : List Byte := []
  deriving DecidableEq, Repr

/-- A tick frame (R22, R115): number, last instant, span in ns, instants, short marker; per group the sum of codes, the count of
present samples and the flags seen; sums and counts of the current channels; charges in pC with their counts of valid results;
sums of the string voltages; the latest temperatures. -/
structure Tick where
  num : Nat := 0
  last : Nat := 0
  span : Nat := 0
  n : Nat := 0
  short : Bool := false
  v : List (Nat × Nat) := []
  gf : List Byte := []
  iShunt : Int := 0
  iHall : Int := 0
  qShunt : Int := 0
  nShunt : Nat := 0
  qHall : Int := 0
  nHall : Nat := 0
  vStr : Int := 0
  vLnk : Int := 0
  vStrOk : Nat := 0
  t : List (List Half) := []
  uf : List Byte := []
  lowCad : Bool := false
  cur : Half := 0
  /-- bleed charge per group in C over the tick (R223), as the planner supplies it -/
  bleed : List Rat := []
  /-- groups that bled in COMPENSATED mode during the tick (R157) -/
  comp : List Bool := []
  deriving DecidableEq, Repr

/-- Current-zero learning in course (R126): results taken, sums of the inputs, channels spoiled. -/
structure ZeroRun where
  n : Nat := 0
  sh : Int := 0
  hall : Int := 0
  spoilSh : Bool := false
  spoilHall : Bool := false
  deriving DecidableEq, Repr

/-- Timebase, current channels and aggregator (Tables 4.1, 4.12 to 4.16; R111 to R134). -/
structure Smp where
  /-- 0 FREE, 1 SLEWING, 2 LOCKED, 3 HOLDOVER -/
  tb : Nat := 0
  /-- module time of the latest instant, in ns, and its index -/
  timeNs : Nat := 0
  instant : Nat := 0
  /-- length in ns of the interval that ended with it (R223) -/
  ival : Nat := 0
  /-- service cycles of 62.5 µs since that instant (R114) -/
  svc : Nat := 0
  /-- the coherent frame of that instant is closed (R19) -/
  closed : Bool := false
  /-- an instant was issued since the timebase started -/
  started : Bool := false
  cad : Nat := 0
  phaseErr : Int := 0
  freqAdj : Int := 0
  slewUp : Bool := false
  /-- consecutive phase errors within 100 ns, beyond 200 ns (R116) -/
  inRun : Nat := 0
  outRun : Nat := 0
  holdTime : Word := 0
  /-- whole milliseconds to add at the next whole millisecond (R118) -/
  relabel : Option Int := none
  /-- the next or present instant carries TIME_STEP (R76, R112) -/
  timeStep : Bool := false
  lowHold : Bool := false
  /-- low-current cadence in force; the module time from which its entry or its exit, once decided, waits for its grid point -/
  lowCad : Bool := false
  lowEnter : Option Nat := none
  lowExit : Option Nat := none
  /-- consecutive results with the selected current below I_LOW (R133) -/
  lowRun : Nat := 0
  zeroReq : Bool := false
  /-- a learning has run or started in this stay in SURVEY or MAINTAIN (R126) -/
  zeroSeen : Bool := false
  zeroCond : Nat := 0
  zeroRun : Option ZeroRun := none
  shuntOfs : Option Int := none
  hallOfs : Option Int := none
  shOvr : Bool := false
  shFault : Bool := false
  /-- results until the channel is valid again, 16 being 1 ms (R127) -/
  shHold : Nat := 0
  hallOvr : Bool := false
  hallFault : Bool := false
  hallHold : Nat := 0
  ntcFault : Bool := false
  /-- the NTC reading as SMP_SHUNT_TEMP shows it -/
  ntcCode : Int := 0
  /-- results since the latest instant, its own included; the last 15 results of both channels, newest first, none: not valid -/
  resSince : Nat := 0
  recent : List (Option Int × Option Int) := []
  /-- shunt temperature in 0.01 K relative to 273.15 K: the last valid one (R125) -/
  tShunt : Option Int := none
  iShunt : Int := 0
  iHall : Int := 0
  vStr : Int := 0
  vLnk : Int := 0
  vStrOk : Bool := false
  vLnkOk : Bool := false
  /-- charge of the tick in course in pC and the counts of valid results (R130) -/
  qShunt : Int := 0
  nShunt : Nat := 0
  qHall : Int := 0
  nHall : Nat := 0
  /-- their parts after the latest instant's own result: shunt, Hall -/
  qAfter : Int × Int := (0, 0)
  nAfter : Nat × Nat := (0, 0)
  /-- the tick in course, and the instant time that closed the last one (R115) -/
  acc : Tick := {}
  lastClose : Option Nat := none
  tickNum : Word := 0
  /-- tick frames waiting for the estimator, oldest first (crossing 0x0F, depth 2) -/
  ticks : List Tick := []
  /-- the last eight coherent frames, newest first (R18) -/
  frames : List Frame := []
  /-- frames that IMP has not processed, oldest first (crossing 0x0D) -/
  impFrames : List Frame := []
  /-- frames that QUE has not taken, oldest first (crossing 0x0E) -/
  queFrames : List Frame := []
  ovrImp : Word := 0
  ovrQue : Word := 0
  /-- SMP_INST_HI as latched (Table 4.16) -/
  instHi : Word := 0
  deriving DecidableEq, Repr

/-- The insulation monitor (Tables 4.17 to 4.19, R135 to R140). -/
structure Ins where
  mode : Nat := 0
  closedMode : Nat := 0
  suspended : Bool := false
  foreign : Bool := false
  unsteady : Bool := false
  cHigh : Bool := false
  overRange : Bool := false
  valid : Bool := false
  posValid : Bool := false
  rIso : Word := 0xFFFFFFFF
  cY : Nat := 0
  pos : Nat := 0
  vPos : Int := 0
  vNeg : Int := 0
  seq : Word := 0
  /-- module times of the counted foreign steps of the last 120 s, newest first, and the sign of the last one (R138) -/
  steps : List Nat := []
  lastUp : Option Bool := none
  /-- the pole samples of the last 200 ms, newest first: sum of the pole voltages and V_STR, in mV -/
  poles : List (Int × Int) := []
  /-- pole samples since the injector's cycle began, and since its last edge (R136, R138) -/
  cyc : Nat := 0
  edge : Nat := 1000
  deriving DecidableEq, Repr

/-! ## Estimator (05) -/

/-- What a group keeps of its last hard anchor (R165, R177): its value, its sigma, the running totals of both channels in pC, the
charge counted since, and whether a gap of either channel, a CHARGE_GAP, a discontinuity or a sensor disagreement came since. -/
structure HardAnchor where
  z : F32
  sigma : F32
  qShunt : Int
  qHall : Int
  counted : F32 := 0
  chGap : Bool := false
  gap : Bool := false
  disc : Bool := false
  disagree : Bool := false
  deriving DecidableEq, Repr

/-- One context (R142 to R184). Numbers of the model are binary32; `p` is the covariance, row by row. -/
structure Ctx where
  valid : Bool := false
  z : F32 := 0
  vf : F32 := 0
  vs : F32 := 0
  h : F32 := 0
  cc : F32 := 0
  p : List F32 := List.replicate 9 0
  cap : F32 := 0
  sSer : F32 := 0
  sFast : F32 := 0
  sSlow : F32 := 0
  dtSelf : F32 := 0
  tv : F32 := 0x43889333
  socRpt : F32 := 0
  /-- operating time since the last anchor, in ns (R162) -/
  age : Nat := 0
  /-- hold timers of FULL, EMPTY, REST and of the re-anchor, in ns (R161, R166) -/
  tFull : Nat := 0
  tEmpty : Nat := 0
  tRest : Nat := 0
  tRe : Nat := 0
  lastAnchor : Nat := 0
  relearnCnt : Nat := 0
  conflict : Bool := false
  cause : Nat := 0
  relearnReq : Bool := false
  retained : Bool := false
  anchorStale : Bool := false
  inserted : Bool := false
  rateLimited : Bool := false
  paramTable : Bool := false
  tempHeld : Bool := false
  suspect : Bool := false
  sopZero : Bool := false
  capped : Bool := false
  flat : Bool := false
  unmeas : Bool := false
  /-- time without a measurement, in ns (R172, R182) -/
  unmeasFor : Nat := 0
  /-- the first measured tick after module start, an insertion or an outage is still to come; the group must be inserted
  (R171, R173, R176) -/
  first : Bool := true
  mustInsert : Bool := false
  /-- an outage of a RETAIN port is over at the next measured tick (R175) -/
  outage : Bool := false
  hard : Option HardAnchor := none
  /-- a latched impedance result: RSER, RFAST, RSLOW at T_REF and 50% (R178) -/
  imp : Option (F32 × F32 × F32) := none
  /-- outputs of the last tick: SOP magnitudes in A, the free voltage, r_eff, SOE in Wh -/
  iCh : F32 := 0
  iDis : F32 := 0
  vFree : F32 := 0
  rEff : F32 := 0
  soe : F32 := 0
  /-- the group record of the last tick (Table 5.11) and what a read of word 0 latched (R188) -/
  words : List Word := List.replicate 16 0
  latch : Option (List Word) := none
  deriving DecidableEq, Repr

/-- The learned data of a group as saved (R169); the dynamic part first. -/
structure LearnedGroup where
  valid : Bool := false
  z : F32 := 0
  cc : F32 := 0
  h : F32 := 0
  sigma : F32 := 0
  age : Nat := 0
  cap : F32 := 0
  sSer : F32 := 0
  sFast : F32 := 0
  sSlow : F32 := 0
  relearnReq : Bool := false
  retained : Bool := false
  deriving DecidableEq, Repr

/-- The learned data of a port (R169): whether an enumeration has stored identities, SERIAL and PACK_ID of each position that held
a unit, RETAIN. -/
structure LearnedPort where
  known : Bool := false
  units : List (Nat × Nat) := []
  retain : Bool := false
  deriving DecidableEq, Repr

/-- One NV copy of the learned data (R169): its order number, whether its CRC is valid, whether it was made on a command to LISTEN
or DORMANT. -/
structure LearnedCopy where
  seq : Nat := 0
  ok : Bool := false
  final : Bool := false
  groups : List LearnedGroup := []
  ports : List LearnedPort := []
  deriving DecidableEq, Repr

/-- The array as a whole (Tables 5.6 to 5.10). -/
structure Est where
  ctx : List Ctx := List.replicate 768 {}
  freeze : Bool := false
  saveBusy : Bool := false
  /-- requests for a save: the whole set; whether it is the one made on a command to LISTEN or DORMANT (R169, R170) -/
  saveWhole : Bool := false
  noCurrent : Bool := false
  gap : Bool := false
  ccSuspect : Bool := false
  anyRetained : Bool := false
  anchorReq : Bool := false
  anyConflict : Bool := false
  limitsZero : Bool := true
  tick : Word := 0
  soc : Word := 0
  soe : Word := 0
  cap : Word := 0
  iCh : Word := 0
  iDis : Word := 0
  pCh : Word := 0
  pDis : Word := 0
  limGroup : Word := 0
  soh : Word := 0
  counts : Word := 0
  skipCnt : Word := 0
  gapCnt : Word := 0
  /-- RETAIN bit of each port (R174) -/
  retain : BitVec 48 := 0
  /-- learned serials and pack identities of each port (R171) -/
  ports : List LearnedPort := List.replicate 48 {}
  /-- running totals of both channels in pC (R165) -/
  qShunt : Int := 0
  qHall : Int := 0
  /-- a tick frame held back over skipped ticks, and the ticks still to skip (R24, R185) -/
  held : Option Tick := none
  skipLeft : Nat := 0
  /-- ticks still missed while microcode is reloaded (R394) -/
  missLeft : Nat := 0
  /-- the throttle request in force: module level, skip, divide (R465) -/
  throttle : Nat × Nat × Bool := (0, 0, false)
  /-- the frame of the last completed tick, from which the planner plans (R213) -/
  lastTick : Tick := {}
  deriving DecidableEq, Repr

/-! ## Impedance engine (06) -/

/-- One active tone of a descriptor (R32): frequency in 0.01 Hz, amplitude in mA, phase in 2^-32 turns. -/
structure Tone where
  freq : Nat
  amp : Nat
  phase : BitVec 32
  deriving DecidableEq, Repr

/-- A tone descriptor of an instant (R32). -/
structure ToneDesc where
  instant : Nat
  tones : List Tone
  deriving DecidableEq, Repr

/-- What the engine keeps of a frame within a segment: its time, voltages, group flags, slot flags, the selected current in mA, whether
it is the Hall result, whether it has a descriptor, the amplitude of its tone at the bin's frequency; `lost` stands for a frame that was not
processed. -/
structure SegFrame where
  time : Nat
  v : List Half
  gf : List Byte
  uf : List Byte
  cur : Option Int
  hall : Bool
  desc : Bool
  tone : Option Nat
  lost : Bool := false
  deriving DecidableEq, Repr

/-- A completed segment of a bin (R193): its first and last module times; per group the transforms of voltage and current (re, im),
none where it was discarded; discarded for want of descriptors or under R194. -/
structure Segment where
  first : Nat
  last : Nat
  groups : List (Option ((F32 × F32) × (F32 × F32)))
  noDesc : Bool := false
  lineBad : Bool := false
  deriving DecidableEq, Repr

/-- One bin's accumulation (R190): frames of the segment in course, newest first; completed segments, newest first. -/
structure BinRun where
  frames : List SegFrame := []
  segs : List Segment := []
  deriving DecidableEq, Repr

/-- A 1 ms mean (R198, R199): the time its millisecond begins, the selected current in mA (its sum while the millisecond is in course,
then its mean), its results, per group the sum and count of codes and whether its samples are valid under Table 6.2 so far, the slot
flags and the channel of its last frame. -/
structure MsMean where
  time : Nat
  cur : Option Rat
  n : Nat
  v : List (Nat × Nat)
  ok : List Bool
  uf : List Byte
  hall : Bool
  deriving DecidableEq, Repr

/-- An accepted step whose hold runs (R198): t_s, I_PRE, the sum and count of the means since. -/
structure StepRun where
  ts : Nat
  iPre : Rat
  sum : Rat := 0
  n : Nat := 0
  deriving DecidableEq, Repr

/-- One row of a fit (R199, R201): a, y, w. -/
structure FitRow where
  a : F32 × F32 × F32
  y : F32
  w : F32
  deriving DecidableEq, Repr

/-- An ended step (R199): its t_s, the time its hold ended, per group its rows as offset in ms and response in ohm, and dI in A. -/
structure StepRows where
  ts : Nat
  ended : Nat
  dI : F32
  groups : List (List (Nat × F32))
  deriving DecidableEq, Repr

/-- What the estimator passes at a completed tick (R200), per group: z, t_v, S_SER, S_FAST, S_SLOW. -/
structure TickState where
  time : Nat
  groups : List (F32 × F32 × F32 × F32 × F32)
  deriving DecidableEq, Repr

/-- A window that closed and whose results are not complete (R204). -/
structure WinRun where
  close : Nat
  win : Word
  segs : List (List Segment)
  steps : List StepRows
  cadence : Nat
  /-- a fresh run has begun since its close (Table 6.3, NONE) -/
  stale : Bool := false
  deriving DecidableEq, Repr

/-- A group's published results (Tables 6.12, 6.13): per bin the three words of the bin window, the header words T_W/GROUP and Z_W,
the model record, and the record as latched (R210). -/
structure ImpGroup where
  bins : List (Word × Word × Word) := List.replicate 8 (0x80000000, 0x80000000, 0)
  hdr0 : Word := 0
  hdr1 : Word := 0
  model : List Word := [0, 0, 0, 0]
  latch : Option (List Word) := none
  deriving DecidableEq, Repr

/-- The engine as a whole (Tables 6.7 to 6.10). -/
structure Imp where
  stepInhibit : Bool := false
  lineLock : Bool := false
  tonesOn : Bool := false
  active : Bool := false
  win : Word := 0
  lineF : Word := 0
  segDrop : Word := 0
  stepCnt : Word := 0
  fitCnt : Word := 0
  gsel : BitVec 10 := 0
  /-- the bin window as latched: 24 words of the bins and the three header words (R209) -/
  window : List Word := ((List.replicate 8 [0x80000000, 0x80000000, 0]).flatten : List Word) ++ [0, 0, 0]
  bins : List BinRun := List.replicate 8 {}
  /-- bins that were LINE_LOST at the last window (edge of LINE_LOST) -/
  lineLost : Bool := false
  /-- descriptors that wait for their frame (crossing 0x14, depth 16) -/
  descs : List ToneDesc := []
  lastCad : Nat := 0
  /-- the instant index of the last frame processed; none: a fresh run begins with the next frame (R190) -/
  last : Option Nat := none
  /-- a configuration was committed: the first instant after it, at module time `runFrom`, begins a fresh run (R190, R380) -/
  runDue : Bool := false
  runFrom : Nat := 0
  /-- module time of the first instant after the last relabel (R201) -/
  jump : Nat := 0
  /-- the millisecond in course, and the whole ones, newest first -/
  ms : Option MsMean := none
  means : List MsMean := []
  step : Option StepRun := none
  /-- module time from which a step may begin: STEP_INHIBIT and WIN_RESTART discard a hold in progress (R198, Table 6.8) -/
  stepFrom : Nat := 0
  steps : List StepRows := []
  ticks : List TickState := []
  /-- number of the last window by module time, and a window whose results are due -/
  winIdx : Nat := 0
  pend : Option WinRun := none
  /-- IMP_WIN of the last window whose results are complete -/
  doneWin : Word := 0
  groups : List ImpGroup := List.replicate 768 {}
  throttled : Bool := false
  /-- the throttle request in force: module level, skip, divide (R465); one that waits for the tick boundary (R25) -/
  throttle : Nat × Nat × Bool := (0, 0, false)
  thrNext : Option (Nat × Nat × Bool) := none
  deriving DecidableEq, Repr

/-! ## Balance planner (07) -/

/-- Learned wire data of a unit (R226): R_W of w0 to w16 in µΩ, ρ in 1/65,536, T_LEARN in 0.01 K. -/
structure WireData where
  rw : List Nat
  rho : Nat
  tLearn : Int
  deriving DecidableEq, Repr

/-- The planner's record of a group (R223, Table 7.7): the module times at which its timer ends and of the instant from which it runs,
the last v_corr in 100 µV, e_g of the last round in mAh, ineligible in it, bled in the previous round, bled in the round in course. -/
structure BleedRec where
  ends : Option Nat := none
  since : Nat := 0
  lastV : Nat := 0
  excess : Nat := 0
  excluded : Bool := false
  bled : Bool := false
  ran : Bool := false
  /-- the group's own duration in ns as planned, and the end of it where it is the shorter one (R218) -/
  want : Nat := 0
  stopAt : Option Nat := none
  /-- charge of the tick in course in C, and marked UNCONFIRMED (R223) -/
  q : Rat := 0
  unconf : Bool := false
  /-- it bled in COMPENSATED mode in the tick in course (R157) -/
  compT : Bool := false
  /-- a frame ended it at `ends`, no expiry: its FET is off at that instant's sample (R98, R224) -/
  cut : Bool := false
  /-- charge in C, UNCONFIRMED and COMPENSATED of the intervals since its BLEED_SET went out, while the answer is awaited (R223) -/
  pq : Rat := 0
  pUnconf : Bool := false
  pComp : Bool := false
  deriving DecidableEq, Repr

/-- A BLEED_SET sent and not answered (R223): slot, mask, duration in 10 ms, module time of the instant that carried it. -/
structure BleedSent where
  slot : Nat
  mask : Half
  dur : Nat
  at_ : Nat
  deriving DecidableEq, Repr

/-- One slot as the planner sees it: wire data, thermal stop, unit mode, not planned in a round that was due when its probe ended (R222). -/
structure BalSlot where
  wire : Option WireData := none
  hot : Bool := false
  comp : Bool := false
  /-- the mode in which the unit samples, and one that the last DOWN frame carried, for the instants after its own (R89) -/
  compOn : Bool := false
  compDue : Option Bool := none
  /-- a probe of R222: 1 requested, 2 the other bleeds stop in the next frame, 3 its BLEED_SET goes in the next frame, 4 it bleeds -/
  probe : Nat := 0
  /-- the input that PRO asked to probe -/
  probeInput : Nat := 0
  noPlan : Bool := false
  /-- stale: BLEED_STOP with the full mask is due when the unit recovers (R230) -/
  stopDue : Bool := false
  deriving DecidableEq, Repr

/-- Wire learning in course (R226): second pass in GATED mode, input, phase (0 rest, 1 bleed before its last 0.5 s, 2 last 0.5 s,
3 rest), module time when the phase ends, sums and counts per group in the phase, means of the first rest and of the bleed,
the ΔV and i found: per input, per group, in volts; the bleed means by input in volts; none: no present sample. -/
structure LearnRun where
  gated : Bool := false
  input : Nat := 0
  phase : Nat := 0
  ends : Nat := 0
  sums : List (Nat × Nat) := []
  rest : List (Option Rat) := []
  bleed : List (Option Rat) := []
  dvComp : List (Nat × List (Option Rat)) := []
  iComp : List (Nat × List (Option Rat)) := []
  dvGated : List (Nat × List (Option Rat)) := []
  deriving DecidableEq, Repr

/-- The planner as a whole (Tables 7.3 to 7.8). -/
structure Bal where
  en : Bool := false
  mode : Bool := false
  modeEff : Bool := false
  roundCnt : Word := 0
  /-- bleed charge of all groups since reset, in C -/
  qTotal : Rat := 0
  recs : List BleedRec := List.replicate 768 {}
  slots : List BalSlot := List.replicate 144 {}
  sent : List BleedSent := []
  /-- module time of the last instant of the last completed tick; a round is to be planned -/
  roundAt : Nat := 0
  roundDue : Bool := false
  /-- commands of the round that wait for the frame after the mode change (R228) -/
  later : List (Nat × LinkReq) := []
  /-- ports whose next DOWN frame carries a single BLEED_STOP (R219, R226, R228) -/
  stopPorts : List Nat := []
  learn : Option LearnRun := none
  /-- plan at the next tick, without waiting for a round (R231) -/
  planNow : Bool := false
  deriving DecidableEq, Repr

/-! ## Protection (08) -/

/-- A chain of groups joined by shared sense wires (R249), its counts toward PAIR_OV and PAIR_UV; it may end at an open wire. -/
structure Chain where
  groups : List Nat
  openEnd : Bool
  ov : Nat := 0
  uv : Nat := 0
  deriving DecidableEq, Repr

/-- A bleed probe (R259): input of the probed group, the SUSPECT wire it judges (none: CELL_DEV), the baseline of the pass that raised
the suspicion (none: taken before the probe), whether its BLEED_SET is out, the instants still to run, its last samples. -/
structure Probe where
  input : Nat
  wire : Option Nat
  /-- the wire is w0 of the unit above, at a shared boundary: its result is that unit's (R259) -/
  above : Bool := false
  base : Option (List (Option Rat))
  sent : Bool := false
  left : Nat := 0
  last : List (List (Option Half)) := []
  deriving DecidableEq, Repr

/-- The open-wire engine of one unit (R255 to R261, slot words of Table 8.7). A row of samples or baselines has 18 places: the group
below the unit's input 0, its inputs 0 to 15, the group above its input 15; wire w lies between places w and w + 1. -/
structure OwUnit where
  openMask : BitVec 17 := 0
  incon : Bool := false
  fault : Half := 0
  /-- INCONCLUSIVE results in a row, per wire -/
  inconCnt : List Nat := List.replicate 17 0
  /-- passes still to run: wire mask and polarity -/
  passes : List (BitVec 24 × Bool) := []
  /-- the pass whose command is handed over, and the instants since the command's instant (none: not sent yet) -/
  pass : Option (BitVec 24 × Bool) := none
  since : Option Nat := none
  /-- instants before the next pass's command may go out (R256) -/
  wait : Nat := 0
  base : List (Option Rat) := []
  /-- the last samples of the pass with OW_ACTIVE, newest first -/
  last : List (List (Option Half)) := []
  /-- a chain stays for this many instants after the sources or the probe end, around these wires or this input (R249) -/
  tail : Nat := 0
  tailWires : BitVec 24 := 0
  tailProbe : Nat := 0
  tailInput : Nat := 0
  /-- SUSPECT wires that wait for a probe, with the baseline of their pass -/
  suspects : List (Nat × List (Option Rat)) := []
  /-- a CELL_DEV investigation of an input, and whether one of its wires was SUSPECT -/
  dev : Option Nat := none
  devSuspect : Bool := false
  probe : Option Probe := none
  deriving DecidableEq, Repr

/-- The protection engine (Tables 8.7 to 8.11). -/
structure Pro where
  armed : Bool := false
  /-- the next evaluation publishes the figures at once (R251) -/
  firstEval : Bool := false
  active : BitVec 29 := 0
  latched : BitVec 29 := 0
  firstCode : Nat := 0
  firstIdx : Nat := 0
  firstVal : Int := 0
  firstInst : Word := 0
  bellTest : Bool := false
  owPause : Bool := false
  conn : Nat := 0
  /-- command of channels A and B and debounced feedback of K1 to K4, bit n - 1 -/
  kA : BitVec 4 := 0
  kB : BitVec 4 := 0
  kf : BitVec 4 := 0
  misA : BitVec 4 := 0
  misB : BitVec 4 := 0
  guardWait : Bool := false
  leftFuse : Bool := false
  aboveBreak : Bool := false
  aboveNever : Bool := false
  aboveHw : Bool := false
  /-- published limits in mA, as computed before rounding (R250, R251) -/
  iCh : Rat := 0
  iDis : Rat := 0
  srcCh : Nat := 0xFF
  srcDis : Nat := 0xFF
  vMax : Nat := 0
  vMaxG : Nat := 0
  vMin : Nat := 0
  vMinG : Nat := 0
  tMax : Half := 0
  tMaxSlot : Nat := 0
  tMaxIn : Nat := 0
  tValid : Bool := false
  tripCnt : Word := 0
  owCnt : Word := 0
  guardCnt : Word := 0
  refOk : Bool := false
  refBad : Nat := 0
  supplyOk : Bool := false
  inReset : Bool := false
  /-- persistence counts per group, per unit and of the string (Table 8.3) -/
  nOv : List Nat := List.replicate 768 0
  nUv : List Nat := List.replicate 768 0
  chains : List Chain := []
  nStack : List Nat := List.replicate 144 0
  nStrOv : Nat := 0
  nOcCh : Nat := 0
  nOcDis : Nat := 0
  /-- time persistences: 0 not running, 1 running, 2 run out, per unit for TEMP_LOST, per group for CELL_DEV; running, of the string -/
  tLost : List Nat := List.replicate 144 0
  /-- valid temperature inputs of each unit in the last frame, the value of TEMP_LOST (R243) -/
  tCount : List Nat := List.replicate 144 0
  devRun : List Nat := List.replicate 768 0
  otRun : Bool := false
  graceRun : Bool := false
  /-- the stale group that the grace runs for: the index of the OPEN (R243) -/
  staleG : Nat := 0
  lossRun : Bool := false
  disRun : Bool := false
  disClear : Bool := false
  shOtRun : Bool := false
  starved : Bool := false
  units : List OwUnit := List.replicate 144 {}
  /-- the voltages of the last 64 frames, newest first; none: no present sample (baselines of R256) -/
  hist : List (List (Option Half)) := []
  /-- connect sequence (R265, R266): V_LNK and WELD threshold at step 1, both channels valid since; precharge begun at, too fast if
  met early, consecutive instants that meet the condition -/
  weldV : Int := 0
  weldOk : Bool := false
  tP : Nat := 0
  farAtTp : Bool := false
  okRun : Nat := 0
  overlap : Bool := false
  cool : Bool := false
  /-- a CONNECT in course was aborted: the CONNECT_STATE it was in, the PRO_FIRST code or 0 (R267) -/
  aborted : Option (Nat × Nat) := none
  /-- contactors found welded since the last reset of K_WELD -/
  welded : BitVec 4 := 0
  /-- feedback that reports open while its contactor is asserted outside the window of its closing, for 1 ms to come (K_FEEDBACK) -/
  dropRun : BitVec 4 := 0
  quietRun : Nat := 0
  /-- a host disconnect runs (R268) -/
  hostDisc : Bool := false
  /-- feedback windows that run after an assertion or a release -/
  closing : BitVec 4 := 0
  released : BitVec 4 := 0
  deriving DecidableEq, Repr

/-! ## Control engine (09) -/

/-- A tone of the running set (R301): frequency in 0.01 Hz, amplitude in mA, a stop command has come, ended. -/
structure CtlTone where
  freq : Nat
  amp : Nat
  /-- module time of the stop command that the tone ends by, at its next wrap (R301) -/
  stopping : Option Nat := none
  ended : Bool := false
  deriving DecidableEq, Repr

/-- The control engine (Tables 9.1, 9.8 to 9.12). Currents in mA, voltages in mV, duties in 2^-24. -/
structure Ctl where
  state : Nat := 0
  stopCause : Nat := 0
  fault : Nat := 0
  /-- module time of the last entry to PARKED or FAULT (R281) -/
  endAt : Nat := 0
  /-- level of GD_FAULT_N and the engine's own enable (R292) -/
  gdN : Bool := false
  enable : Bool := false
  src : Nat := 0
  bankReq : Nat := 0
  bank : Nat := 0
  spHost : Int := 0
  hostStale : Bool := false
  /-- the HOST_SP_HOLD timer runs (R294) -/
  spRun : Bool := false
  srcVal : Int := 0
  out : Int := 0
  ref : Int := 0
  meas : Int := 0
  limCh : Nat := 0
  limDis : Nat := 0
  limSrcCh : Nat := 0
  limSrcDis : Nat := 0
  duty : Int := 0
  u : Int := 0
  clampLo : Bool := false
  clampHi : Bool := false
  vBus : Int := 0
  vStr : Int := 0
  i0 : Int := 0
  i1 : Int := 0
  chFreq : Word := 0
  chVolt : Int := 0
  pulseSkip : Word := 0
  chBad : Word := 0
  aoHost : Nat := 0
  aoOut : Nat := 0
  updCnt : Word := 0
  /-- SOP limits as received over crossing 0x10, in mA, and derate limits over 0x12 -/
  sopCh : Nat := 0
  sopDis : Nat := 0
  sopTick : Nat := 0
  sopStale : Bool := true
  derCh : Nat := 0
  derDis : Nat := 0
  /-- histories of the compensator and limiter (R286, R287, R299) -/
  e1 : Int := 0
  e2 : Int := 0
  e3 : Int := 0
  u1 : Int := 0
  u2 : Int := 0
  u3 : Int := 0
  r1 : Int := 0
  bal : Int := 0
  d0 : Int := 0
  d1 : Int := 0
  lastDir : Int := 0
  tZero : Nat := 0
  /-- module time of the start; an update has run since; duties of the update before the last one; module times of the last valleys;
  phases that have begun (R276, R284) -/
  startAt : Nat := 0
  started : Bool := false
  p0 : Option Int := none
  p1 : Option Int := none
  v0 : Nat := 0
  v1 : Nat := 0
  begun0 : Bool := false
  begun1 : Bool := false
  lat0 : Int := 0
  lat1 : Int := 0
  /-- the latched pattern of each phase from its valley (R290); the pins carry it while
  the engine is STARTING, RUNNING or STOPPING and no PAIR_GE_SETTLE runs (`pai.settle`, R426); none: low -/
  pwm0 : Option PwmEdges := none
  pwm1 : Option PwmEdges := none
  quietRun : Nat := 0
  busRun : Nat := 0
  /-- consecutive update periods with v_bus in its range (R281) -/
  busOk : Nat := 0
  /-- what the fault judgements keep (R280, R281) -/
  ciBad : Bool := false
  mmRun : Nat := 0
  mmBad : Bool := false
  mmSum : Int := 0
  mmN : Nat := 0
  selSum : Int := 0
  selN : Nat := 0
  /-- CHANTER: valid periods in ps, newest first; s_ch of R295 and of R296; valid periods in a row; a rising edge seen since the
  measurement began -/
  periods : List Nat := []
  sCh : Int := 0
  sAna : Int := 0
  validRun : Nat := 0
  edgeSeen : Bool := false
  fallback : Bool := false
  heldCh : Int := 0
  /-- an edge within the last 200 µs, the end of a valid period within the last 500 µs (R297, R298) -/
  edgeOk : Bool := false
  perOk : Bool := false
  /-- when the last edge came, in ns of module time -/
  edgeAt : Nat := 0
  /-- module time at which the last valid period ended (R298) -/
  perAt : Nat := 0
  analogOk : Bool := true
  /-- tones: the set in force, its start in ns of module time, and a set that waits for the next whole millisecond -/
  tones : List CtlTone := []
  toneStart : Nat := 0
  tonesNext : Option (List CtlTone) := none
  toneNextAt : Nat := 0
  /-- module time of the last update at which the final clamp changed r (R302) -/
  clipAt : Option Nat := none
  time : Nat := 0
  /-- images of the configuration in force (R380) wait for the next update -/
  cfgDue : Bool := false
  deriving DecidableEq, Repr

/-! ## Uplinks, sessions, stream queues (10, 11) -/

/-- One uplink as PTP port and link (R306, R309, R317 to R319). -/
structure UpLink where
  up : Bool := false
  off : Bool := false
  /-- voltage at the power interface in mV, current in mA, at or above 36 V, was lost and not yet back -/
  mv : Nat := 0
  ma : Nat := 0
  feedOk : Bool := false
  /-- IEC 61588 port state code; the best master seen; mean path delay in ns, measured within its 3 s; a valid Sync within 3 intervals -/
  ptp : Nat := 0
  master : Option Master := none
  pdelay : Nat := 0
  pdelayOk : Bool := false
  syncOk : Bool := false
  /-- offset of the port's last Sync in ns -/
  offset : Int := 0
  deriving DecidableEq, Repr

/-- A source of the PRP node table with the sequence numbers seen and the module times of their first copies (R312). -/
structure PrpNode where
  mac : Nat
  seen : List (Nat × Nat) := []
  deriving DecidableEq, Repr

/-- The uplinks (Tables 10.8 to 10.10, R307 to R319). -/
structure Upl where
  a : UpLink := {}
  b : UpLink := {}
  /-- selected PTP port: 0 none, 1 A, 2 B; PTP valid; UPL_PTP_DIFF; the grandmaster as published -/
  sel : Nat := 0
  ptpValid : Bool := false
  /-- both ports have heard a master once, or the selection has moved since: the start is over (R317) -/
  ptpStarted : Bool := false
  ptpDiff : Int := 0
  gm : Option Master := none
  /-- UPL_RX_A to UPL_ICMP_DROP in register order -/
  cnt : List Word := List.replicate 10 0
  nodes : List PrpNode := []
  /-- the sequence number of the RCT, which both copies of a frame share (R311) -/
  rctSeq : Half := 0
  ip4 : Word := 0
  ip4Mask : Word := 0
  ip4Gw : Word := 0
  /-- the DHCPv4 client: 0 idle, 1 DISCOVER sent, 2 REQUEST sent for the address offered, 3 bound (R314) -/
  dhcp : Nat := 0
  offered : Word := 0
  /-- the second of module time and the echo answers given in it (R314) -/
  icmpSec : Nat := 0
  icmpN : Nat := 0
  /-- hold-up: 0 none, 1 running, 2 load shed, 3 the final flush has started (Table 16.4) -/
  holdup : Nat := 0
  /-- TC10 sleep was requested (R310) -/
  asleep : Bool := false
  deriving DecidableEq, Repr

/-- A stored answer of a session (R339): TAG, OPCODE, STATUS, payload. -/
structure Stored where
  tag : Half
  op : Nat
  status : Nat
  body : Bytes
  deriving DecidableEq, Repr

/-- One session context (Tables 10.5, 10.15, R322 to R326, R339, R352). -/
structure Sess where
  opened : Bool := false
  half : Bool := false
  gen : Byte := 0
  cred : Half := 0
  role : Nat := 0
  lastRx : Nat := 0
  ri : Bytes := []
  challenge : Bytes := []
  known : Bool := false
  kIn : Bytes := []
  kOut : Bytes := []
  nIn : Bytes := []
  nOut : Bytes := []
  kmI : Bytes := []
  th : Bytes := []
  macM : Bytes := []
  dhZero : Bool := false
  rxHigh : Nat := 0
  rxSeen : BitVec 64 := 0
  txSeq : Nat := 0
  /-- the source of the last valid record from the host (R315) -/
  addr : HostAddr := {}
  mask : Word := 0
  nseq : Word := 0
  store : List Stored := []
  deriving DecidableEq, Repr

/-- A deferred command that runs (R337, R341): opcode, context with its generation, TAG. -/
structure Deferred where
  op : Nat
  ctx : Byte
  gen : Byte
  tag : Half
  /-- module time at which it was accepted (the bounds of Tables 11.3 and 12.3) -/
  at_ : Nat := 0
  /-- UNIT_DIAG: the slot whose unit is asked; ENUM_PORT: the ports -/
  arg : Nat := 0
  deriving DecidableEq, Repr

/-- The session engine (Tables 10.12 to 10.15). -/
structure Ses where
  ctx : List Sess := List.replicate 256 {}
  hsReady : Bool := false
  /-- SES_HS_OK to SES_RX_DISCARD in register order -/
  cnt : List Word := List.replicate 6 0
  helloSec : Nat := 0
  helloN : Nat := 0
  /-- the source of the last HELLO or CONFIRM, to which a REJECT goes -/
  src : HostAddr := {}
  /-- requests that wait to be executed, oldest first: context and TAG (R338) -/
  waiting : List (Byte × Half) := []
  deferred : List Deferred := []
  /-- SOP limits as received over crossing 0x11 (R29) -/
  sopCh : Nat := 0
  sopDis : Nat := 0
  sopAt : Nat := 0
  deriving DecidableEq, Repr

/-- One stream queue (R327 to R333, Table 10.17). A stored word carries its item-start bit. The spill region holds blocks of up to
16 words. -/
structure Queue where
  bound : Bool := false
  ctx : Byte := 0
  itype : Nat := 0
  first : Nat := 0
  count : Nat := 0
  decim : Nat := 1
  qcap : Nat := 0
  qwin : Nat := 32
  tmo : Nat := 10
  rate : Nat := 0
  head : List (Quad × Bool) := []
  spill : List (List (Quad × Bool)) := []
  tail : List (Quad × Bool) := []
  iseq : Word := 0
  windex : Nat := 0
  rseq : Word := 0
  acked : Word := 0
  /-- items lost since the last item kept, and the cause the next item carries (R328, R332, R333) -/
  lost : Word := 0
  cause : Nat := 0
  stalled : Bool := false
  drop : Word := 0
  ce : Word := 0
  unc : Word := 0
  /-- the oldest word has waited QUE_TAIL_TMO (R330) -/
  waited : Bool := false
  /-- frames that waited for QUE when the queue was bound (R351) -/
  old : Nat := 0
  deriving DecidableEq, Repr

/-! ## Configuration, life cycle, firmware, power states (12, 13) -/

/-- PORTS entry (Table 13.2): k_e, SHARED_BOUNDARY, R_BLEED in 0.1 ohm. -/
structure CfgPort where
  ke : Nat := 0
  shared : Bool := true
  rBleed : Nat := 330
  deriving DecidableEq, Repr

/-- SLOTS entry: temperature mask, R26 in 10 ohm, B in K. -/
structure CfgSlot where
  tMask : BitVec 4 := 0
  r26 : Nat := 1000
  b : Nat := 3435
  deriving DecidableEq, Repr

/-- GROUPS entry (Tables 5.2, 13.2); `slot` none: unmapped. -/
structure CfgGroup where
  slot : Option Nat := none
  input : Nat := 0
  model : Nat := 0
  qInit : Nat := 0
  sSer : Nat := 4096
  sFast : Nat := 4096
  sSlow : Nat := 4096
  tsA : Half := 0
  tsB : Half := 0
  wA : Nat := 0
  rTh : Nat := 0
  tauTh : Nat := 0
  deriving DecidableEq, Repr

/-- A model table (Table 5.1): `ocv` by t, branch, n; `imp` by t, m, j; `imax` by t (charge, discharge). -/
structure Model where
  socAx : List Nat := []
  tAx : List Int := []
  ocv : List (List (List Nat)) := []
  flat : List Nat := []
  imp : List (List (List Nat)) := []
  imax : List (Nat × Nat) := []
  vMin : Nat := 0
  vMax : Nat := 0
  vFull : Nat := 0
  vEmpty : Nat := 0
  qNom : Nat := 0
  deriving DecidableEq, Repr

/-- A coefficient bank (R288, Table 9.12). -/
structure Bank where
  b : List Int := [0, 0, 0, 0]
  a : List Int := [0, 0, 0]
  shift : Nat := 0
  order3 : Bool := false
  uMin : Int := 0
  uMax : Int := 0
  deriving DecidableEq, Repr

/-- NETWORK section (Table 13.2). -/
structure NetCfg where
  msA : Nat := 0
  msB : Nat := 0
  ip4Mode : Nat := 1
  domain : Nat := 0
  port : Nat := 47010
  noticeDscp : Nat := 46
  recDscp : Nat := 0
  classMax : Nat := 7
  asymA : Int := 0
  asymB : Int := 0
  idle : Nat := 30
  lifetime : Nat := 24
  ip4 : Word := 0
  mask : Word := 0
  gw : Word := 0
  ip6 : Bytes := List.replicate 16 0
  ip6Len : Nat := 0
  ip6Gw : Bytes := List.replicate 16 0
  deriving DecidableEq, Repr

/-- PAIR section (Table 14.1). -/
structure PairCfg where
  role : Nat
  settle : Nat
  dutyDev : Nat
  peerSerial : Nat
  deriving DecidableEq, Repr

/-- One class of the RECORDER section (R448): enabled, FLUSH, snapshot addresses. -/
structure RecClass where
  enable : Bool := true
  flush : Bool := false
  regs : List Nat := []
  deriving DecidableEq, Repr

/-- A configuration as the engines take it. A scalar section is the list of its items in nano-units or counts, in row order (R375);
none: unset, an item without a default on default settings (R383). -/
structure Cfg where
  version : Nat := 0
  ports : List CfgPort := List.replicate 48 {}
  slots : List CfgSlot := List.replicate 144 {}
  groups : List CfgGroup := List.replicate 768 {}
  models : List Model := []
  bins : List Word := List.replicate 8 0
  banks : List Bank := []
  net : NetCfg := {}
  smp : List (Option Int) := []
  est : List (Option Int) := []
  imp : List (Option Int) := []
  bal : List (Option Int) := []
  pro : List (Option Int) := []
  ctl : List (Option Int) := []
  hkp : List (Option Int) := []
  /-- a CONTROL section was admitted (Table 9.1, OFF) -/
  hasCtl : Bool := false
  pair : Option PairCfg := none
  fill : Nat := 64
  period : Nat := 1
  classes : List RecClass := []
  deriving DecidableEq, Repr

/-- A firmware slot (R389): version, least version, configuration format, the microcode sections by BLOCK_CODE, the unit-image
table; the raw image. -/
structure FwImage where
  ver : Word := 0
  minVer : Word := 0
  cfgFormat : Word := 0x00010000
  ucode : List (Nat × Bytes) := []
  units : List (Half × Half × Byte × Bytes) := []
  raw : Bytes := []
  deriving DecidableEq, Repr

/-- A credential (R320): CRED_ID, role, key. -/
structure Cred where
  id : Half
  role : Nat
  key : Bytes
  deriving DecidableEq, Repr

/-- The factory data (R387): variant (0 S48F, 1 S48M, 2 S24M, 3 S24E), serial, MAC, hardware revision, calibration offsets of the two
current channels (nV, µV), the keys. No life-cycle transition writes it. -/
structure Factory where
  variant : Nat := 0
  serial : Nat := 0
  mac : Nat := 0
  hwRev : Nat := 0
  shuntOfs : Int := 0
  hallOfs : Int := 0
  provKey : Bytes := []
  verifyKey : Bytes := []
  deriving DecidableEq, Repr

/-- The non-volatile store but for the recorder's region (13): configuration slots as image bytes, VERSION_HIGH, life-cycle state,
credentials, firmware slots, staging area, marks and last statuses. -/
structure Nv where
  active : Option Bytes := none
  previous : Option Bytes := none
  /-- sequence number of the slot pointer record (R379) -/
  slotSeq : Nat := 0
  versionHigh : Nat := 0
  activeFailed : Bool := false
  formatStale : Bool := false
  /-- PREVIOUS carries the mark of R384 -/
  prevStale : Bool := false
  lcy : Nat := 0
  lcyLast : Nat := 0
  wipePending : Bool := false
  /-- the state left by the transition whose wipe is pending -/
  wipeFrom : Nat := 0
  creds : List Cred := [{ id := 0, role := 3, key := [] }]
  running : FwImage := {}
  alternate : Option FwImage := none
  /-- staging: length set by UPD_OPEN, bytes written by offset (R390) -/
  stagedLen : Nat := 0
  staged : List (Nat × Byte) := []
  fwMin : Word := 0
  updLast : Nat := 0
  updKind : Nat := 0
  /-- 0 none, 1 install, 2 swap marked (R391) -/
  mark : Nat := 0
  /-- starts of the running firmware without HS_READY (R395) -/
  badStarts : Nat := 0
  newFw : Bool := false
  /-- the two copies of the learned data (R169), wire data by slot (R229) -/
  copyA : LearnedCopy := {}
  copyB : LearnedCopy := {}
  /-- the last save was one made on a command to LISTEN or DORMANT (R170) -/
  lastFinal : Bool := false
  wires : List (Option WireData) := List.replicate 144 none
  /-- the map of the last image that ran: per group its model, slot and input (R176, R384) -/
  lastMap : List (Nat × Option Nat × Nat) := []
  deriving DecidableEq, Repr

/-- The PENDING slot (R376): RAM, by offset. -/
structure Pending where
  len : Nat := 0
  opened : Bool := false
  bytes : List (Nat × Byte) := []
  deriving DecidableEq, Repr

/-- A refusal report (Table 11.6). -/
structure Refused where
  item : Nat := 0
  index : Nat := 0
  quant : Nat := 0
  computed : Int := 0
  allowed : Int := 0
  deriving DecidableEq, Repr

/-- Life cycle and admission, volatile part (Tables 13.12, 13.13). -/
structure Lcy where
  debugEn : Bool := false
  cfgLast : Nat := 0
  report : Refused := {}
  ucodePend : Word := 0
  wipeFail : Bool := false
  defaultsLocked : Bool := false
  /-- the SPC island is in reset or restarting, and why (R34, R392) -/
  spcDown : Bool := false
  /-- the SPC island has not left that reset (R442) -/
  spcInReset : Bool := false
  spcCause : Nat := 0
  /-- the microcode that each engine runs, by BLOCK_CODE (R394) -/
  ucode : List (Nat × Bytes) := []
  deriving DecidableEq, Repr

/-- Power states (Tables 12.7 to 12.9). -/
structure Pwr where
  state : Nat := 1
  target : Option Nat := none
  phase : Nat := 0
  lastStatus : Nat := 0
  /-- conditions as last reported (bit order of Table 12.2) -/
  conds : BitVec 4 := 0
  bootMs : Nat := 0
  startUs : Word := 0
  portOk : BitVec 48 := 0
  transCnt : Word := 0
  /-- module time at which a start-up was accepted; a first frame is awaited; the boot has reached LISTEN -/
  startAt : Nat := 0
  waitFirst : Bool := false
  ready : Bool := false
  /-- the single cycle with FLAGS.BLEED_STOP before the ports stop (R362) -/
  leaving : Bool := false
  /-- whether NV takes the save that STATE_SET to LISTEN or DORMANT makes (R169) -/
  saveOk : Bool := true
  deriving DecidableEq, Repr

/-- Test buses and level inputs (17, Tables 17.14 to 17.16). -/
structure Cap where
  atb0 : Half := 0
  atb1 : Half := 0
  testMode : Bool := false
  /-- stopped for the factory commands (R479) -/
  factoryStop : Bool := false
  di : BitVec 2 := 0
  kfRaw : BitVec 4 := 0
  deriving DecidableEq, Repr

/-! ## The redundant pair (14) -/

/-- The shadow loop's own state after an update (R416). -/
structure ShadowRec where
  /-- the update's time; `ran`: it was one, not the state at the entry into SHADOW -/
  time : Nat
  ran : Bool := true
  u1 : Int
  u2 : Int
  u3 : Int
  bal : Int
  out : Int
  d : Int
  deriving DecidableEq, Repr

/-- An epoch buffer (R419): epoch, data by offset, committed. -/
structure Epoch where
  num : Nat := 0
  data : List (Nat × Byte) := []
  deriving DecidableEq, Repr

/-- The pair unit (Tables 14.5 to 14.9). -/
structure Pai where
  holdOff : Bool := false
  select : Bool := false
  selectValid : Bool := false
  peerUp : Bool := false
  mapMatch : Bool := false
  follower : Bool := false
  aligned : Bool := false
  alignIn : Nat := 0
  alignOut : Nat := 0
  /-- valid HELLO in a row, cycles without a valid STATUS -/
  helloRun : Nat := 0
  quiet : Nat := 0
  handover : Bool := false
  diverge : Bool := false
  devRun : Nat := 0
  okRun : Nat := 0
  /-- the last STATUS received, and one not yet taken by the shadow loop (R416) -/
  peer : Option PeerStatus := none
  peerFresh : Bool := false
  own : List ShadowRec := []
  peerOfs : Int := 0
  peerDly : Int := 0
  epochTx : Word := 0
  epochOk : Word := 0
  epochValid : Bool := false
  epochFails : Word := 0
  fwdTx : Word := 0
  fwdRx : Word := 0
  fwdLate : Word := 0
  selectCnt : Word := 0
  /-- |d - D| of the last 1,600 STATUS frames, newest first (PAI_DUTY_DEV) -/
  devHist : List Nat := []
  peerSn : Nat := 0
  /-- the epoch being received, and the last committed one -/
  buf : Epoch := {}
  good : Epoch := {}
  /-- the epoch being sent: number, content, offset -/
  tx : Option (Nat × Bytes × Nat) := none
  /-- slots without a block in the frame of the previous instant (NEED) -/
  need : BitVec 144 := 0
  /-- ports whose valid DOWN frame of the peer was received in the cycle (RING) -/
  ring : BitVec 48 := 0
  /-- the receipt of the last STATUS, ps after the own instant, and the instant index of that frame (R406) -/
  rxStamp : Int := 0
  rxInst : Nat := 0
  /-- R420 is due at the next tick -/
  takeEpoch : Bool := false
  /-- counts of SELECT gained: whether this is the first -/
  everSelect : Bool := false
  /-- PAIR_GE_SETTLE runs before the pattern is driven (R426) -/
  settle : Bool := false
  /-- UPD_ACTIVATE waits for the peer to take SELECT (R396) -/
  activate : Bool := false
  deriving DecidableEq, Repr

/-- A conforming arbiter (R424): which modules are FIT, which have been so throughout the last 10 ms, which holds SELECT (0 none, 1 A, 2 B). -/
structure Arb where
  fitA : Bool := false
  fitB : Bool := false
  longA : Bool := false
  longB : Bool := false
  holder : Nat := 0
  /-- the module that gets SELECT when the gap of Table 14.4, step 4, is over; 0 none -/
  next : Nat := 0
  /-- the five signals of the other module (R402) -/
  other : Stage := {}
  deriving DecidableEq, Repr

/-! ## Crossings (15) -/

/-- What PRO passes to EST over crossing 0x13 (Table 15.2): the derate limits in mA, the groups that its classifications make INPUT_SUSPECT
(R261), the groups whose bleed it inhibits, the string-wide inhibit (R219), and its probe requests, unit and input (R222). -/
structure ProView where
  chg : Nat := 0
  dis : Nat := 0
  suspect : List Nat := []
  inhibit : List Nat := []
  stringInhibit : Bool := false
  probes : List (Nat × Nat) := []
  deriving DecidableEq, Repr

/-- What a VALUE crossing carries (Table 15.2). -/
inductive XVal where
  /-- an instant index with its reference time (P1, 0x00 to 0x05) -/
  | instant (idx time : Nat)
  /-- the phase error of a Sync in ns (0x20, R318) -/
  | phase (err : Int)
  /-- what PRO passes to EST (0x13) -/
  | prot (v : ProView)
  /-- the results of a window by group (P10, R204) -/
  | results (l : List (Nat × F32 × F32 × F32))
  /-- the state of a completed tick (R200) -/
  | tickState (x : TickState)
  /-- SOP limits of a tick, charge and discharge, in mA (R26, R184) -/
  | sop (tick : Nat) (chg dis : Nat)
  /-- derate limits, charge and discharge, in mA (R250) -/
  | derate (chg dis : Nat)
  /-- insulation result: R_ISO in ohm, status (R140) -/
  | iso (r status : Nat)
  /-- throttle request: module level, TICK_SKIP_MAX, DIVIDE (R465) -/
  | throttle (level skip : Nat) (divide : Bool)
  deriving DecidableEq, Repr

/-- One source-side accumulator of a PULSE crossing (R432): the count in flight and the count waiting. -/
structure Acc where
  fly : Nat := 0
  acc : Nat := 0
  deriving DecidableEq, Repr

/-- One crossing (Table 15.6, R431, R432, R440 to R442). -/
structure Xrec where
  ready : Bool := false
  down : Bool := false
  flush : Word := 0
  loss : Word := 0
  refused : Word := 0
  /-- VALUE: the transfer in flight, the pending value, the source's current value, the value last received -/
  fly : Option XVal := none
  pend : Option XVal := none
  cur : Option XVal := none
  held : Option XVal := none
  /-- PULSE: one accumulator per flag, by its key -/
  accs : List Acc := []
  /-- the first refusal of the DOWN period was raised -/
  refusedOnce : Bool := false
  deriving DecidableEq, Repr

/-- The crossings block (Table 15.4): one record per index 0x00 to 0x50, the longest wake, islands with a stopped clock that a
crossing woke (R439), islands whose present reset has been indicated (R440). -/
structure Xng where
  xrec : List Xrec := List.replicate 81 {}
  wakeMax : Word := 0
  woken : List Nat := []
  told : List Nat := []
  deriving DecidableEq, Repr

/-! ## Event recorder and housekeeping (16) -/

/-- An event on its way to the recorder (P15, R446): the island it comes from, CODE, SOURCE, DATA, the instant index. -/
structure RecEv where
  island : Nat
  code : Nat
  source : Nat
  data : Bytes
  instant : Nat
  deriving DecidableEq, Repr

/-- One record (Table 16.1). `index` is its 64-bit index (R459); `head` holds bytes 16 to 31 of a SNAPSHOT (R449). -/
structure Record where
  pcyc : Nat
  optime : Nat
  code : Nat
  cls : Nat
  flags : Nat
  source : Nat
  rep : Nat := 0
  lastDt : Nat := 0
  instant : Nat := 0
  data : Bytes := []
  index : Nat := 0
  snap : Option Bytes := none
  /-- an uncorrectable error lies in it (R459) -/
  unread : Bool := false
  deriving DecidableEq, Repr

/-- What the recorder's NV region and bookkeeping hold (R445, R455 to R460): its records oldest first, the first index held, the
next index, EXPORT_MARK, PCYC, OPTIME saved at the end of the last flush, how the power cycle ended, and the events counted at
step 3 of Table 16.4. -/
structure RecNv where
  records : List Record := []
  oldest : Nat := 0
  next : Nat := 0
  exportMark : Nat := 0
  pcyc : Nat := 0
  optimeSaved : Nat := 0
  ending : Nat := 0
  heldCount : Nat := 0
  wrapped : Bool := false
  deriving DecidableEq, Repr

/-- The volatile part of the recorder (R450 to R454, Tables 16.9 and 16.10). -/
structure Rec where
  /-- events that wait in the crossings into REC, oldest first (Table 15.2, 0x30 + i) -/
  inq : List RecEv := []
  /-- the ring, oldest first, and how many of its first records the running flush has taken -/
  ring : List Record := []
  taken : Nat := 0
  flushing : Bool := false
  /-- a trigger arrived while a flush ran (R453) -/
  again : Bool := false
  /-- events since the final flush started (Table 16.4, step 3) -/
  later : Nat := 0
  /-- a trigger waits for FLUSH_START -/
  due : Bool := false
  lostOpen : Bool := false
  optime : Nat := 0
  /-- OPTIME at the last time mark, and a mark is due after LOCK_GAINED (R458) -/
  markAt : Nat := 0
  markDue : Bool := false
  /-- accepted records whose snapshot is not read yet: index, class (R449) -/
  snaps : List (Nat × Nat) := []
  lostCnt : Word := 0
  foldCnt : Word := 0
  flushCnt : Word := 0
  unreadOvw : Word := 0
  snapLost : Word := 0
  flushMax : Word := 0
  /-- records written by the running flush (its time is 97 µs each at most, R454) -/
  written : Nat := 0
  /-- latched high halves of REC_NEXT, REC_OLDEST, REC_EXPORT, REC_OPTIME (R468) -/
  hi : List Word := [0, 0, 0, 0]
  deriving DecidableEq, Repr

/-- Housekeeping (R463 to R467, Tables 16.11 and 16.12). -/
structure Hkp where
  /-- readings of the six sensors in 0.01 K relative to 273.15 K; none: invalid -/
  temp : List (Option Int) := [none, none, none, none, none, none]
  /-- r of R464 -/
  rate : List Int := [0, 0, 0, 0, 0, 0]
  slevel : List Nat := [0, 0, 0, 0, 0, 0]
  level : Nat := 0
  /-- readings of the last 600 rounds, newest first, one list of six per round -/
  history : List (List (Option Int)) := []
  /-- HKP_DDR_CE to HKP_NV_UE in register order -/
  ecc : List Word := List.replicate 8 0
  thrTime : Word := 0
  rounds : Word := 0
  impStopped : Bool := false
  throttled : Bool := false
  deriving DecidableEq, Repr

/-! ## What the module sends -/

/-- A message, frame or pin event that the last command made the module or a unit send. -/
inductive Out where
  /-- a RESPONSE: context, TAG, OPCODE, STATUS, payload (R336) -/
  | response (ctx : Byte) (tag : Half) (op status : Nat) (body : Bytes)
  /-- a COMPLETION (R337) -/
  | completion (ctx : Byte) (tag : Half) (op status : Nat) (body : Bytes)
  /-- a NOTICE: context, NCLASS, NTYPE, NSEQ, module time, body (Table 11.8) -/
  | notice (ctx : Byte) (cls typ : Nat) (nseq : Word) (time : Nat) (body : Bytes)
  /-- a STREAM record: context, queue, RSEQ, WSEQ, HDR_OFS, words (Table 10.7) -/
  | stream (ctx : Byte) (q : Nat) (rseq wseq : Word) (hdr : Nat) (words : List Quad)
  /-- a handshake record: CHALLENGE or ACCEPT with context, GEN and body -/
  | challenge (ctx gen : Byte) (body : Bytes)
  | accept (ctx : Byte) (body : Bytes)
  /-- REJECT with a status code -/
  | reject (ctx gen : Byte) (status : Nat)
  /-- CLOSE with its cause (Table 10.4) -/
  | close (ctx : Byte) (cause : Nat)
  /-- a DOWN or BULK frame of a port on a lane: the state in which the scrambler opens the window, the frame with its CRC (R44, R51, R53) -/
  | down (port : Nat) (lane : Lane) (seed : BitVec 11) (frame : Bytes)
  | bulk (port : Nat) (lane : Lane) (seed : BitVec 11) (frame : Bytes)
  /-- the up window of the unit wired at (p, c) toward a lane: scrambler state, its pieces by their first bit of the window (R48, R49) -/
  | up (p c : Nat) (toward : Lane) (seed : BitVec 11) (pieces : List (Nat × List Group))
  /-- an ECHO frame of a unit, back toward the lane of the probe (R66) -/
  | echo (p c : Nat) (lane : Lane) (seed : BitVec 11) (frame : Bytes)
  /-- the frames of a down window as a unit repeats them toward a lane (R49) -/
  | repeats (p c : Nat) (toward : Lane) (seed : BitVec 11) (pieces : List (Nat × List Group))
  /-- a frame on PEER_TX (R403, Table 14.2): the state in which the scrambler opens, PTYPE to the CRC -/
  | peer (seed : BitVec 11) (frame : Bytes)
  /-- an answer or a frame of a protocol on a link: ICMP echo, ARP, neighbour advertisement, Pdelay, PRP supervision -/
  | echoReply (v6 : Bool) (bytes : Nat)
  | arpReply (ip : Word)
  | neighbourAdvert (ip : BitVec 128)
  | supervision (link : Link)
  | pdelayReq (link : Link)
  | pdelayResp (link : Link)
  | pdelayRespFollowUp (link : Link)
  /-- the DHCPv4 client: DISCOVER, and REQUEST of the address offered (R314) -/
  | dhcpDiscover
  | dhcpRequest (addr : Word)
  /-- TC10: sleep request sent on a link, a partner's request rejected, wake of both links -/
  | sleepRequest (link : Link)
  | sleepReject (link : Link)
  deriving DecidableEq, Repr

/-- What a frame on an uplink carries: a record in a UDP datagram to a host from SES_PORT, with its DSCP (R315); a PRP supervision TLV
with its type and MAC address (R313); a message of another protocol. -/
inductive TxBody where
  | record (dst : HostAddr) (port dscp : Nat) (bytes : Bytes)
  | supervision (tlv mac : Nat)
  | protocol (o : Out)
  deriving DecidableEq, Repr

/-- The redundancy control trailer (R311): sequence number, LanId, LSDU size, PRP suffix. -/
structure Rct where
  seq : Half
  lan : Nat
  lsdu : Nat
  suffix : Half := 0x88FB
  deriving DecidableEq, Repr

/-- A frame that the module puts on an uplink: untagged, with its source MAC address (R307, R311). Its destination MAC address is there
where the spec names it: 01-15-4E-00-01-00 for supervision, 01-80-C2-00-00-0E for peer delay (R313, Table 10.1). -/
structure EthTx where
  link : Link
  mac : Nat
  rct : Option Rct
  body : TxBody
  dst : Option Nat := none
  deriving DecidableEq, Repr

/-! ## The state -/

/-- The state of the block. `pending` is the queue of commands, first in, first out; `out` is what the last command sent, `tx` the frames
it put on the uplinks for that; `fresh` numbers the free values taken (the model's own fields; DESIGN CHOICE, log entries 3 and 4). -/
structure State where
  pending : List Instr := []
  out : List Out := []
  tx : List EthTx := []
  fresh : Nat := 0
  fac : Factory := {}
  nv : Nv := {}
  recNv : RecNv := {}
  /-- the committed configuration and the copies in force in PRO, EST with BAL, IMP, CTL, SMP (Table 13.5) -/
  cfg : Cfg := {}
  /-- the NETWORK items in force: those of the last module reset (Table 13.5) -/
  net : NetCfg := {}
  cfgPro : Cfg := {}
  cfgEst : Cfg := {}
  cfgImp : Cfg := {}
  cfgCtl : Cfg := {}
  cfgSmp : Cfg := {}
  /-- the configuration at the close of the window whose results are due (R195) -/
  cfgWin : Cfg := {}
  image : Pending := {}
  /-- event blocks: index b for BLOCK_CODE b, 20 + p for port p -/
  ev : List Ev := List.replicate 68 {}
  cap : Cap := {}
  pwr : Pwr := {}
  lcy : Lcy := {}
  prt : List Port := List.replicate 48 {}
  /-- the units wired to the ports; serial numbers are unique and never 0 (R85) -/
  units : List MUnit := (List.range 144).map fun u => { ident := ⟨u + 1, 1, 0, 0, 0, 0, 2⟩ }
  smp : Smp := {}
  ins : Ins := {}
  est : Est := {}
  imp : Imp := {}
  bal : Bal := {}
  pro : Pro := {}
  ctl : Ctl := {}
  upl : Upl := {}
  ses : Ses := {}
  que : List Queue := List.replicate 64 {}
  pai : Pai := {}
  arb : Arb := {}
  recd : Rec := {}
  hkp : Hkp := {}
  xng : Xng := {}
  deriving DecidableEq, Repr

/-- The block right after reset: every register at the value the spec states for reset, nothing in the queue, the boot not yet run
(POWER_UP runs it). Values that the spec does not state are the model's (DESIGN CHOICE, log entry 1). -/
def State.reset : State := {}

end Sys2Proof.Machine
end

