-- ==== Sys2Proof/Machine/Items.lean ====
section
/-! DEFINITION. The items of the scalar sections (R375): range and default of each, in row order, and the accessors by which every
meaning reads a configuration. Values are integers in the units of R375 (nano-units, counts, codes). -/

namespace Sys2Proof.Machine

open Sys2Proof

/-- The admitted values of an item: a span, a choice, zero or a span in whole steps. -/
inductive Rng where
  | span (lo hi : Int)
  | oneOf (l : List Int)
  | zeroOr (lo hi step : Int)
  deriving DecidableEq, Repr

/-- A value lies in the range. -/
def inRng (r : Rng) (v : Int) : Bool :=
  match r with
  | .span lo hi => decide (lo ≤ v) && decide (v ≤ hi)
  | .oneOf l => l.contains v
  | .zeroOr lo hi step => v == 0 || (decide (lo ≤ v) && decide (v ≤ hi) && v % step == 0)

/-- One item: its range and its default; no default: the item is required where the section is. -/
structure Item where
  rng : Rng
  dflt : Option Int
  deriving DecidableEq, Repr

/-- An item with a span and a default. -/
def it (lo hi d : Int) : Item := ⟨.span lo hi, some d⟩

/-- An item with a span and no default. -/
def itReq (lo hi : Int) : Item := ⟨.span lo hi, none⟩

/-- SAMPLING (Table 13.3). -/
def samplingItems : List Item :=
  [it 0 2 0, it 0 500000000000 0, itReq 1000 10000000, it (-100000) 100000 0, it 0 1 0, itReq 100000 100000000,
   it 1000000000000 100000000000000 10000000000000, it 2000000000000 5000000000000 3435000000000, it 0 2 1, it 0 2 1]

/-- ESTIMATOR (Table 5.3). -/
def estimatorItems : List Item :=
  [it 990000000 1000000000 999500000, it 1000000000 1000000000000 50000000000, it 100000 20000000 1000000,
   it 1000000000 1024000000000 64000000000, it 1000000000 64000000000 4000000000, it 1000 1000000 50000, it 1000 1000000 20000,
   it 100000 50000000 2000000, it 100000 50000000 10000000, it 0 10000000000 50000000, it 0 10000000000 500000000,
   it 100000 20000000 2000000, it 1000000 100000000 10000000, it 1000000 100000000 20000000] ++
  [it 10000000 2000000000 200000000, it 1000000 100000000 10000000, it 300000000000 14400000000000 1800000000000,
   it 100000 10000000 1000000, it 1000000 200000000 50000000, it 10000000000 600000000000 60000000000,
   it 5000000 100000000 15000000, it 3600000000000 31536000000000000 604800000000000, it 0 10000000 200000,
   it 10000000 300000000 50000000, it 1000000 100000000 10000000, it 0 300000000 100000000] ++
  [it 10000000 500000000 50000000, it 200000000 900000000 500000000, it 50000000 1000000000 250000000,
   it 10000000 200000000 50000000, it 10000000 1000000000 100000000, it 1000000000 60000000000 10000000000,
   it 10000000 1000000000 250000000, it 233150000000 333150000000 298150000000]

/-- IMPEDANCE (Table 6.6). -/
def impedanceItems : List Item :=
  [it 500000000 990000000 900000000, it 50000000 50000000000 500000000, it 2 10 3, it 1000000000 2000000000000 50000000000,
   it 10000000000 10000000000000 1000000000000, it 1000000000 500000000000 20000000000, it 100000000 50000000000 2000000000,
   it 1000000000 600000000000 10000000000, it 100000000 600000000000 60000000000, it 10000000 500000000 100000000,
   it 100 10000 1000, it 500000000 10000000000 2000000000, it 10000000 200000000 50000000]

/-- BALANCING (Table 7.2, BAL_ENABLE to ALLOW_ADJACENT). -/
def balancingItems : List Item :=
  [it 0 1 1, it 0 1 0, it 0 1 0, it 10000000000 600000000000 60000000000, it 100000 100000000 1000000,
   it 5000000 200000000 50000000, it 2000000000 4500000000 3100000000, it 303150000000 363150000000 328150000000,
   it 1000000000 20000000000 5000000000, it 100000000 20000000000 4000000000, it 0 1 0]

/-- PROTECTION (Table 8.4). BELL_MASK: bit n for function code n. -/
def protectionItems : List Item :=
  [itReq 1000000000 5000000000000, it 2000000000 5000000000 3750000000, it 1000000000 4000000000 2500000000, it 1 6 3, it 1 6 3,
   it 2000000000 5000000000 3550000000, it 2000000000 5000000000 3650000000, it 1000000000 4000000000 2900000000,
   it 1000000000 4000000000 2700000000, it 303150000000 373150000000 338150000000, it 293150000000 368150000000 323150000000,
   it 233150000000 293150000000 273150000000, it 233150000000 273150000000 253150000000, it 1 4 1,
   it 100000000000 2500000000000 2500000000000, it 10000000 500000000 50000000, it 0 100000000 0] ++
  [itReq 1000000000 10000000000000, itReq 1000000000 10000000000000, itReq 1000000000 10000000000000,
   itReq 1000000000 10000000000000, itReq 1000000000 10000000000000, it 1 160 16, it 0 5000000 5000000,
   it 100000000 100000000000 5000000000, it 1000000 200000000 20000000, it 0 1000000000 500000000, it 0 1000000000 500000000,
   it 10000000 1000000000 100000000, it 333150000000 423150000000 393150000000, it 10000000000000 10000000000000000 250000000000000,
   it 10000000000000 10000000000000000 100000000000000, it 0 1 0, it 0 15 0] ++
  [it 5000000 500000000 50000000, it 5000000 500000000 30000000, it 0 1 1, it 10000000 200000000 100000000,
   it 5000000 100000000 20000000, it 0 1000000000 20000000, it 100000000 10000000000 2000000000,
   it 10000000000 600000000000 60000000000, it 5000000 200000000 20000000, it 0 1 0, it 1000000 100000000 20000000,
   it 10000000 10000000000 1000000000, it 10000000 1000000000 100000000, it 1000000000 3600000000000 60000000000] ++
  [it 4 64 16, it 0 2 1, it 10000000 1000000000 100000000, it 1000000 100000000 20000000, it 10000000 500000000 50000000,
   it 100000000 3000000000 500000000, it 20000000 2000000000 300000000, it 1000000000 600000000000 10000000000,
   it 0 0x1FFFFFFE 0x1FCBFC9E]

/-- CONTROL (Table 9.7). I_CH_CFG and I_DIS_CFG default to I_RATED (`ctlICh`, `ctlIDis`). -/
def controlItems : List Item :=
  [⟨.oneOf [20000000000000, 25000000000000, 40000000000000, 50000000000000, 80000000000000, 100000000000000], none⟩, it 1 2 2,
   it 160 16000 4000, it 160 16000 4000, it 50 2000 200, it 0 16777216 335544, it 0 16777216 16441672, it 0 838861 167772,
   it 0 65535 0, it 0 1 1, it 0 4294901760 0, itReq (-8192) 8191, itReq (-8192) 8191, itReq (-2147483648) 2147483647,
   itReq (-2147483648) 2147483647, itReq (-8192) 8191, itReq (-8192) 8191, itReq (-2147483648) 2147483647,
   itReq (-2147483648) 2147483647] ++
  [itReq 100000000000 2600000000000, itReq 100000000000 2600000000000, itReq 1000000000 5000000000000,
   it 1000000000 100000000000 10000000000, it 5000000 200000000 50000000, itReq 0 5000000000000, itReq 0 5000000000000,
   it 10000000 1000000000000 10000000000, it 10000000 1000000000000 20000000000, it 0 5000000 1000000, it 5000000 200000000 20000000,
   it 1000 100000 10000, it 1000000 100000000 10000000, it 1000000 1000000000 200000000,
   ⟨.zeroOr 10000000 60000000000 1, some 1000000000⟩, it 0 4 0, it 0 3 0] ++
  [⟨.oneOf [1, -1], some 1⟩, ⟨.oneOf [1, 2, 4, 8], some 1⟩, it 0 2 0, it 0 1 0, ⟨.zeroOr 100000000 2000000000000 10000000, some 0⟩,
   ⟨.zeroOr 100000000 2000000000000 10000000, some 0⟩, ⟨.zeroOr 100000000 2000000000000 10000000, some 0⟩,
   ⟨.zeroOr 100000000 2000000000000 10000000, some 0⟩, it 0 20000000 20000000, it 0 2 0, it 233150000000 373150000000 298150000000,
   it 233150000000 373150000000 318150000000]

/-- HOUSEKEEPING (Table 16.7). -/
def housekeepingItems : List Item :=
  [it 0 9 1, it 0 1 1] ++ List.replicate 6 (it 0 1 0) ++ List.replicate 6 (it 313150000000 393150000000 368150000000) ++
  List.replicate 6 (it 323150000000 398150000000 378150000000) ++ List.replicate 6 (it 333150000000 408150000000 388150000000) ++
  List.replicate 6 (it 1000000000 20000000000 5000000000) ++ List.replicate 6 (it 100000000 20000000000 2000000000)

/-- Item `i` of a scalar section: the value given, else the default, else none. -/
def itemOf (tab : List Item) (vals : List (Option Int)) (i : Nat) : Option Int :=
  match vals[i]? with
  | some (some v) => some v
  | _ => (tab[i]?).bind Item.dflt

/-- The same, 0 where the item is unset. -/
def item0 (tab : List Item) (vals : List (Option Int)) (i : Nat) : Int := (itemOf tab vals i).getD 0

/-- Items of the sections of a configuration, by row number. -/
def Cfg.smpI (c : Cfg) (i : Nat) : Int := item0 samplingItems c.smp i
def Cfg.estI (c : Cfg) (i : Nat) : Int := item0 estimatorItems c.est i
def Cfg.impI (c : Cfg) (i : Nat) : Int := item0 impedanceItems c.imp i
def Cfg.balI (c : Cfg) (i : Nat) : Int := item0 balancingItems c.bal i
def Cfg.proI (c : Cfg) (i : Nat) : Int := item0 protectionItems c.pro i
def Cfg.ctlI (c : Cfg) (i : Nat) : Int := item0 controlItems c.ctl i
def Cfg.hkpI (c : Cfg) (i : Nat) : Int := item0 housekeepingItems c.hkp i

/-- SAMPLING by name. SHUNT_RES and I_LOW in n(ohm, A). -/
def Cfg.cadence (c : Cfg) : Nat := (c.smpI 0).toNat
def Cfg.iLow (c : Cfg) : Int := c.smpI 1
def Cfg.shuntRes (c : Cfg) : Option Int := itemOf samplingItems c.smp 2
def Cfg.alphaSh (c : Cfg) : Int := c.smpI 3
def Cfg.hallEn (c : Cfg) : Bool := c.smpI 4 == 1
def Cfg.hallSens (c : Cfg) : Option Int := itemOf samplingItems c.smp 5
/-- SH_NTC_RES in nano-ohm, SH_NTC_B in K. -/
def Cfg.shNtcRes (c : Cfg) : Nat := (c.smpI 6).toNat
def Cfg.shNtcB (c : Cfg) : Rat := (c.smpI 7 : Rat) / 1000000000
def Cfg.insMode (c : Cfg) : Nat := (c.smpI 8).toNat
def Cfg.insClosedMode (c : Cfg) : Nat := (c.smpI 9).toNat

/-- PROTECTION by name. -/
def Cfg.iRatedN (c : Cfg) : Option Int := itemOf protectionItems c.pro 0
/-- I_RATED in mA; 0 while it is unset (R250). -/
def Cfg.iRated (c : Cfg) : Int := c.iRatedN.getD 0 / 1000000
def Cfg.ovTrip (c : Cfg) : Int := c.proI 1
def Cfg.uvTrip (c : Cfg) : Int := c.proI 2
def Cfg.nOv (c : Cfg) : Nat := (c.proI 3).toNat
def Cfg.nUv (c : Cfg) : Nat := (c.proI 4).toNat
def Cfg.ovDerStart (c : Cfg) : Int := c.proI 5
def Cfg.ovDerEnd (c : Cfg) : Int := c.proI 6
def Cfg.uvDerStart (c : Cfg) : Int := c.proI 7
def Cfg.uvDerEnd (c : Cfg) : Int := c.proI 8
def Cfg.tOtTrip (c : Cfg) : Int := c.proI 9
def Cfg.tDerHi (c : Cfg) : Int := c.proI 10
def Cfg.tChMin (c : Cfg) : Int := c.proI 11
def Cfg.tDisMin (c : Cfg) : Int := c.proI 12
def Cfg.tMinValid (c : Cfg) : Nat := (c.proI 13).toNat
def Cfg.strOvTrip (c : Cfg) : Int := c.proI 14
def Cfg.stackTol (c : Cfg) : Int := c.proI 15
def Cfg.staleGrace (c : Cfg) : Int := c.proI 16
def Cfg.ocChTrip (c : Cfg) : Option Int := itemOf protectionItems c.pro 17
def Cfg.ocDisTrip (c : Cfg) : Option Int := itemOf protectionItems c.pro 18
def Cfg.hwOcLevel (c : Cfg) : Option Int := itemOf protectionItems c.pro 19
def Cfg.breakI (c : Cfg) : Option Int := itemOf protectionItems c.pro 20
def Cfg.neverBreak (c : Cfg) : Option Int := itemOf protectionItems c.pro 21
def Cfg.ocN (c : Cfg) : Nat := (c.proI 22).toNat
def Cfg.breakWait (c : Cfg) : Int := c.proI 23
def Cfg.curDevAbs (c : Cfg) : Int := c.proI 24
def Cfg.curDevRel (c : Cfg) : Int := c.proI 25
def Cfg.curDisLim (c : Cfg) : Int := c.proI 26
def Cfg.owLim (c : Cfg) : Int := c.proI 27
def Cfg.curLossT (c : Cfg) : Int := c.proI 28
def Cfg.shOtTrip (c : Cfg) : Int := c.proI 29
def Cfg.insWarn (c : Cfg) : Int := c.proI 30
def Cfg.insTrip (c : Cfg) : Int := c.proI 31
def Cfg.insClosedOpen (c : Cfg) : Bool := c.proI 32 == 1
def Cfg.kfPol (c : Cfg) : BitVec 4 := BitVec.ofInt 4 (c.proI 33)
def Cfg.kfTClose (c : Cfg) : Int := c.proI 34
def Cfg.kfTOpen (c : Cfg) : Int := c.proI 35
def Cfg.prechgTmax (c : Cfg) : Int := c.proI 40
def Cfg.k3Overlap (c : Cfg) : Int := c.proI 42
def Cfg.discRampMax (c : Cfg) : Int := c.proI 45
def Cfg.weldCheck (c : Cfg) : Bool := c.proI 36 == 1
def Cfg.weldDv (c : Cfg) : Int := c.proI 37
def Cfg.prechgDv (c : Cfg) : Int := c.proI 38
def Cfg.prechgTmin (c : Cfg) : Int := c.proI 39
def Cfg.k4En (c : Cfg) : Bool := c.proI 43 == 1
def Cfg.iOpenQuiet (c : Cfg) : Int := c.proI 44
def Cfg.derateRise (c : Cfg) : Int := c.proI 46
def Cfg.owPeriod (c : Cfg) : Int := c.proI 47
def Cfg.owSamples (c : Cfg) : Nat := (c.proI 48).toNat
def Cfg.owCode (c : Cfg) : Nat := (c.proI 49).toNat
def Cfg.owDv (c : Cfg) : Int := c.proI 50
def Cfg.owSumTol (c : Cfg) : Int := c.proI 51
def Cfg.probeT (c : Cfg) : Int := c.proI 52
def Cfg.probeDv (c : Cfg) : Int := c.proI 53
def Cfg.cellDevMax (c : Cfg) : Int := c.proI 54
def Cfg.bellMask (c : Cfg) : BitVec 29 := BitVec.ofInt 29 (c.proI 56)

/-- CONTROL by name; F_SW in Hz, currents in mA, voltages in mV, times in ns. -/
def Cfg.fSw (c : Cfg) : Nat := (c.ctlI 0).toNat / 1000000000
def Cfg.loopRate (c : Cfg) : Nat := (c.ctlI 1).toNat
/-- T_upd in ns; a whole number at every admitted combination (R282, R283). -/
def Cfg.tUpd (c : Cfg) : Nat := 1000000000 / (c.fSw * c.loopRate)
def Cfg.dtH (c : Cfg) : Int := c.ctlI 2
def Cfg.dtL (c : Cfg) : Int := c.ctlI 3
/-- MIN_PULSE in 125 ps units. -/
def Cfg.minPulse (c : Cfg) : Int := c.ctlI 4 * 8
def Cfg.dMin (c : Cfg) : Int := c.ctlI 5
def Cfg.dMax (c : Cfg) : Int := c.ctlI 6
def Cfg.dBalMax (c : Cfg) : Int := c.ctlI 7
def Cfg.kBal (c : Cfg) : Int := c.ctlI 8
def Cfg.ffEn (c : Cfg) : Bool := c.ctlI 9 == 1
def Cfg.ffSlewK (c : Cfg) : Int := c.ctlI 10
def Cfg.vBusMin (c : Cfg) : Int := c.ctlI 19 / 1000000
def Cfg.vBusMax (c : Cfg) : Int := c.ctlI 20 / 1000000
def Cfg.phOcLim (c : Cfg) : Int := c.ctlI 21 / 1000000
def Cfg.ciDevAbs (c : Cfg) : Int := c.ctlI 22
def Cfg.ciDevRel (c : Cfg) : Int := c.ctlI 23
/-- I_CH_CFG and I_DIS_CFG in mA, I_RATED by default. -/
def Cfg.ctlICh (c : Cfg) : Int := match itemOf controlItems c.ctl 24 with | some v => v / 1000000 | none => c.iRated
def Cfg.ctlIDis (c : Cfg) : Int := match itemOf controlItems c.ctl 25 with | some v => v / 1000000 | none => c.iRated
def Cfg.srRise (c : Cfg) : Int := c.ctlI 26
def Cfg.srFall (c : Cfg) : Int := c.ctlI 27
def Cfg.tZero (c : Cfg) : Nat := (c.ctlI 28).toNat
def Cfg.sopHold (c : Cfg) : Int := c.ctlI 29
def Cfg.iPark (c : Cfg) : Int := c.ctlI 31
def Cfg.hostSpHold (c : Cfg) : Int := c.ctlI 33
def Cfg.srcInit (c : Cfg) : Nat := (c.ctlI 34).toNat
def Cfg.bankInit (c : Cfg) : Nat := (c.ctlI 35).toNat
def Cfg.chSign (c : Cfg) : Int := c.ctlI 36
def Cfg.chAvg (c : Cfg) : Nat := (c.ctlI 37).toNat
def Cfg.chFallback (c : Cfg) : Nat := (c.ctlI 38).toNat
def Cfg.chReturn (c : Cfg) : Nat := (c.ctlI 39).toNat
/-- TONE_F of index k in 0.01 Hz. -/
def Cfg.toneF (c : Cfg) (k : Nat) : Nat := (c.ctlI (40 + k)).toNat / 10000000
def Cfg.toneAMax (c : Cfg) : Int := c.ctlI 44
def Cfg.aoMode (c : Cfg) : Nat := (c.ctlI 45).toNat
def Cfg.aoT0 (c : Cfg) : Int := c.ctlI 46
def Cfg.aoT1 (c : Cfg) : Int := c.ctlI 47

/-- BALANCING by name. -/
def Cfg.balEnable (c : Cfg) : Bool := c.balI 0 == 1
def Cfg.balBottom (c : Cfg) : Bool := c.balI 1 == 1
def Cfg.balMode (c : Cfg) : Bool := c.balI 2 == 1
/-- BAL_ROUND in ns. -/
def Cfg.balRound (c : Cfg) : Nat := (c.balI 3).toNat
def Cfg.balDeadband (c : Cfg) : Int := c.balI 4
def Cfg.balSigmaMax (c : Cfg) : Int := c.balI 5
def Cfg.balVMin (c : Cfg) : Int := c.balI 6
def Cfg.balTStop (c : Cfg) : Int := c.balI 7
def Cfg.balTHyst (c : Cfg) : Int := c.balI 8
def Cfg.balPUnit (c : Cfg) : Int := c.balI 9
def Cfg.allowAdj (c : Cfg) : Bool := c.balI 10 == 1

/-- HOUSEKEEPING by name. -/
def Cfg.tickSkipMax (c : Cfg) : Nat := (c.hkpI 0).toNat
def Cfg.thrDivide (c : Cfg) : Bool := c.hkpI 1 == 1
def Cfg.sensRate (c : Cfg) (n : Nat) : Bool := c.hkpI (2 + n) == 1
def Cfg.tWarn (c : Cfg) (n : Nat) : Int := c.hkpI (8 + n)
def Cfg.tThr (c : Cfg) (n : Nat) : Int := c.hkpI (14 + n)
def Cfg.tShut (c : Cfg) (n : Nat) : Int := c.hkpI (20 + n)
def Cfg.tHyst (c : Cfg) (n : Nat) : Int := c.hkpI (26 + n)
def Cfg.rateLim (c : Cfg) (n : Nat) : Int := c.hkpI (32 + n)

/-- Entries by index, with the defaults of R383 beyond the list. -/
def Cfg.port (c : Cfg) (p : Nat) : CfgPort := c.ports.getD p {}
def Cfg.slot (c : Cfg) (u : Nat) : CfgSlot := c.slots.getD u {}
def Cfg.group (c : Cfg) (g : Nat) : CfgGroup := c.groups.getD g {}
def Cfg.model (c : Cfg) (g : Nat) : Model := c.models.getD (c.group g).model {}

/-- The default classes of the recorder (Table 16.3): FLUSH of PROTECTION, CONTROL, POWER and SYSTEM; the snapshot list of
PROTECTION. -/
def defaultClass (k : Nat) : RecClass :=
  if k = 0 then { flush := true, regs := [0x0B0008, 0x0B0020, 0x0B0024, 0x0B0028, 0x0B002C, 0x0B0034, 0x0B0038, 0x0B004C] }
  else { flush := k == 1 || k == 2 || k == 7 }

/-- The recorder's class `k` (R447, R448). -/
def Cfg.recClass (c : Cfg) (k : Nat) : RecClass := (c.classes[k]?).getD (defaultClass k)

/-- The map of a configuration, per group: model, slot, input (R176). -/
def Cfg.map (c : Cfg) : List (Nat × Option Nat × Nat) := c.groups.map fun g => (g.model, g.slot, g.input)

/-- The slot and input of a mapped group. -/
def Cfg.place (c : Cfg) (g : Nat) : Option (Nat × Nat) := ((c.group g).slot).map fun u => (u, (c.group g).input)

/-- The group that the position map places on input `n` of slot `u`. -/
def Cfg.groupAt (c : Cfg) (u n : Nat) : Option Nat :=
  c.groups.findIdx? fun g => g.slot == some u && g.input == n

/-- The group at each place of a slot: the group below input 0, inputs 0 to 15, the group above input 15; across a boundary only
where the boundary wire is shared (R217, R249, R257). -/
def Cfg.places (c : Cfg) (u : Nat) : List (Option Nat) :=
  let sh := (c.port (u / 3)).shared
  let below := if sh && u % 3 != 0 then c.groupAt (u - 1) 15 else none
  let above := if sh && u % 3 != 2 then c.groupAt (u + 1) 0 else none
  below :: ((List.range 16).map (c.groupAt u) ++ [above])

/-- The mapped groups. -/
def Cfg.mapped (c : Cfg) : List Nat := c.groups.zipIdx.filterMap fun e => if e.1.slot.isSome then some e.2 else none

/-- The groups mapped to slot `u`, with their inputs. -/
def Cfg.slotGroups (c : Cfg) (u : Nat) : List (Nat × Nat) :=
  c.groups.zipIdx.filterMap fun e => if e.1.slot == some u then some (e.2, e.1.input) else none

/-- The slots that carry mapped groups. -/
def Cfg.usedSlots (c : Cfg) : List Nat := (List.range 144).filter fun u => c.groups.any fun g => g.slot == some u

end Sys2Proof.Machine
end

