-- ==== Sys2Proof/Machine/Flags.lean ====
section
/-! DEFINITION. Presence of units, derived conditions, and the status word of every block (the word at offset 0x0008, or 0x008 of a
port), which registers, notices and records read. -/

namespace Sys2Proof.Machine

open Sys2Proof

/-- A one-bit field at bit `n`. -/
def bitAt (b : Bool) (n : Nat) : Word := if b then 1#32 <<< n else 0

/-- A numeric field of `w` bits at bit `n`. -/
def fldAt (v w n : Nat) : Word := BitVec.ofNat 32 (v % 2 ^ w) <<< n

/-- An integer as a 32-bit register shows it, saturated to s32. -/
def s32 (v : Int) : Word := BitVec.ofInt 32 (max (-2147483648) (min v 2147483647))

/-- A natural number as a 32-bit register shows it, saturated. -/
def u32 (v : Nat) : Word := BitVec.ofNat 32 (min v 0xFFFFFFFF)

/-! ### Presence (R1, Table 0.2) -/

/-- The control engine is fitted. -/
def hasCtl (s : State) : Bool := s.fac.variant == 0
/-- The impedance engine is fitted. -/
def hasImp (s : State) : Bool := s.fac.variant != 3
/-- The pair unit is fitted. -/
def hasPai (s : State) : Bool := s.fac.variant == 0 || s.fac.variant == 1
/-- Number of monitor ports (R7). -/
def nPorts (s : State) : Nat := if s.fac.variant == 0 || s.fac.variant == 1 then 48 else 24
/-- Number of cell groups. -/
def nGroups (s : State) : Nat := 16 * nPorts s
/-- Port `p` is present. -/
def portPresent (s : State) (p : Nat) : Bool := decide (p < nPorts s)

/-- The block with this BLOCK_CODE is fitted (R2, Table 0.7). -/
def blockPresent (s : State) (b : Nat) : Bool :=
  if b == 9 then hasImp s else if b == 12 then hasCtl s else if b == 16 then hasPai s
  else decide (b ≤ 0x13) && b != 3 && b != 5

/-- The event block exists in this variant: a block by its code, or port `e - 20`. -/
def eventPresent (s : State) (e : Nat) : Bool := if e < 20 then blockPresent s e else portPresent s (e - 20)

/-! ### The pair -/

/-- The engines run on default settings (R383): every image that is run has a VERSION of at least 1. -/
def onDefaults (s : State) : Bool := s.cfg.version == 0

/-- The module runs in a pair: a PAIR section is in force and the pair unit is fitted (R399). -/
def inPair (s : State) : Bool := hasPai s && s.cfg.pair.isSome

/-- The module may command the string: no pair, or it holds SELECT. -/
def commands (s : State) : Bool := !inPair s || s.pai.select

/-- Role in the pair: 0 none, 1 A, 2 B. -/
def role (s : State) : Nat := match s.cfg.pair with | some c => if hasPai s then c.role else 0 | none => 0

/-- The port is split (PRT_CTRL.SPLIT, R399). -/
def split (s : State) (p : Nat) : Bool := inPair s && decide (0 < (s.cfg.port p).ke)

/-- The peer's last STATUS shows the flag while PEER is up. -/
def peerIs (s : State) (f : PeerStatus → Bool) : Bool := s.pai.peerUp && (s.pai.peer.map f).getD false

/-- HEALTH_WHY (R423), as bits 0 to 5 of the byte of PAI_STATUS. -/
def healthWhy (s : State) : Nat :=
  (if s.lcy.spcDown then 1 else 0) + (if s.ctl.state == 6 then 2 else 0) + (if s.pai.handover then 4 else 0) +
  (if s.pai.diverge then 8 else 0) +
  (if !s.pwr.ready || (peerIs s (fun f => f.ctlState == 3 || f.ctlState == 4) && !s.pai.select && s.ctl.state != 5) then 16 else 0) +
  (if s.pai.holdOff then 32 else 0)

/-- BREATH toggles (R422): in every state but DORMANT, not in a reset, under H6 or REF_FAIL. -/
def breath (s : State) : Bool :=
  hasPai s && s.pwr.ready && s.pwr.state != 0 && !s.pro.inReset && !(s.pro.active ||| s.pro.latched).getLsbD 0x1A

/-- HEALTH is driven high while every bit of HEALTH_WHY is 0 (R423). -/
def health (s : State) : Bool := hasPai s && healthWhy s == 0

/-! ### Protection -/

/-- TRIPPED: a function with the action OPEN is latched (R242). -/
def tripped (s : State) : Bool := s.pro.latched != 0

/-- Function `n` is active or latched. -/
def proOn (s : State) (n : Nat) : Bool := s.pro.active.getLsbD n || s.pro.latched.getLsbD n

/-- The string-wide bleed inhibit: STACK_MISMATCH, STALE or REF_FAIL (Table 8.3). -/
def strInhibit (s : State) : Bool := proOn s 0x0B || proOn s 0x0C || proOn s 0x1A

/-- An INHIBIT function is active: INS_FAULT or K_WELD (Table 8.3). -/
def inhibitConnect (s : State) : Bool := s.pro.active.getLsbD 0x16 || s.pro.active.getLsbD 0x18

/-- BELL (R244). -/
def bell (s : State) : Bool :=
  ((s.pro.active ||| s.pro.latched) &&& s.cfgPro.bellMask) != 0 || s.pro.leftFuse || s.pro.bellTest

/-- GATE_EN at the pin: the engine's enable and PRO's trip outputs (R292, R235). -/
def gateEn (s : State) : Bool := s.ctl.enable && s.pro.armed && !tripped s && !s.pro.inReset

/-- Contactor `n` (1 to 4) reports closed (R240). -/
def kfClosed (s : State) (n : Nat) : Bool := s.pro.kf.getLsbD (n - 1)

/-! ### Conditions, current, insulation -/

/-- The four conditions (Table 12.2): TRIPPED, THROTTLED, LOW_CADENCE, DEFAULTS_LOCKED. -/
def conditions (s : State) : BitVec 4 :=
  (if tripped s then 1 else 0) ||| (if s.hkp.throttled then 2 else 0) ||| (if s.smp.lowCad then 4 else 0) |||
  (if s.lcy.defaultsLocked then 8 else 0)

/-- SHUNT_VALID (R127). -/
def shuntValid (s : State) : Bool :=
  s.cfgSmp.shuntRes.isSome && !s.smp.shOvr && !s.smp.shFault && s.smp.shHold == 0

/-- HALL_VALID (R127). -/
def hallValid (s : State) : Bool := s.cfgSmp.hallEn && !s.smp.hallOvr && !s.smp.hallFault && s.smp.hallHold == 0

/-- The selected current in mA (R128); none: neither channel is valid. -/
def iSel (s : State) : Option Int :=
  if shuntValid s then some s.smp.iShunt else if hallValid s then some s.smp.iHall else none

/-- I_SEL_HALL (Table 4.6). -/
def iSelHall (s : State) : Bool := !shuntValid s && hallValid s

/-- The effective insulation mode (R135). -/
def insEff (s : State) : Nat := if kfClosed s 1 || kfClosed s 2 then s.ins.closedMode else s.ins.mode

/-- Units that sample run in SURVEY, RUN and MAINTAIN (Table 12.1). -/
def sampling (s : State) : Bool := s.pwr.state == 2 || s.pwr.state == 3 || s.pwr.state == 4

/-- The injector runs (R135, R139). -/
def injecting (s : State) : Bool := sampling s && insEff s == 2 && commands s && !s.ins.suspended

/-- INS_STATE of the coherent frame (Table 4.5). -/
def insState (s : State) : Byte :=
  BitVec.ofNat 8 (insEff s + (if s.ins.valid then 4 else 0) + (if s.ins.foreign then 8 else 0) + (if s.ins.suspended then 16 else 0))

/-- The sample rate of a cadence in S/s (Table 2.4). -/
def fsOf (cad : Nat) : Nat := if cad == 1 then 4000 else if cad == 2 then 1000 else 16000

/-- The cycle period of a cadence in ns (R111). -/
def tCad (cad : Nat) : Nat := if cad == 1 then 250000 else if cad == 2 then 1000000 else 62500

/-- All conditions of R211 hold. -/
def planning (s : State) : Bool :=
  (s.pwr.state == 3 || s.pwr.state == 4) && s.bal.en && s.cfgEst.balEnable && s.bal.learn.isNone && commands s

/-- Impedance bin `b` of the configuration: enabled, source, frequency in 0.01 Hz (Table 6.11). -/
def binEn (c : Cfg) (b : Nat) : Bool := (c.bins.getD b 0).getLsbD 31
def binSrc (c : Cfg) (b : Nat) : Nat := ((c.bins.getD b 0).extractLsb' 24 2).toNat
def binFreq (c : Cfg) (b : Nat) : Nat := ((c.bins.getD b 0).extractLsb' 0 18).toNat

/-- The bin is measured at the cadence: FREQ ≤ fs / 8 (R191). -/
def binMeasured (c : Cfg) (cad b : Nat) : Bool := decide (8 * binFreq c b ≤ 100 * fsOf cad)

/-! ### Status words -/

def pwrStatus (s : State) : Word :=
  fldAt s.pwr.lastStatus 8 24 ||| fldAt s.pwr.phase 3 16 ||| fldAt (conditions s).toNat 4 8 |||
  fldAt (s.pwr.target.getD 7) 3 4 ||| fldAt s.pwr.state 3 0

/-- The debug port is open (Table 13.6, R480). -/
def debugOpen (s : State) : Bool := s.nv.lcy == 0 || (s.nv.lcy == 3 && s.lcy.debugEn)

def lcyStatus (s : State) : Word :=
  fldAt s.nv.updLast 8 24 ||| fldAt s.lcy.cfgLast 8 16 ||| fldAt s.nv.lcyLast 8 8 ||| bitAt s.nv.activeFailed 7 |||
  bitAt (s.nv.mark != 0) 6 ||| bitAt s.nv.formatStale 5 ||| bitAt (debugOpen s) 4 ||| bitAt s.nv.wipePending 3 ||| fldAt s.nv.lcy 3 0

/-- Bits of the three unit positions of a port. -/
def posBits (p : Port) (f : Pos → Bool) (n : Nat) : Word :=
  bitAt (f (p.pos.getD 0 {})) n ||| bitAt (f (p.pos.getD 1 {})) (n + 1) ||| bitAt (f (p.pos.getD 2 {})) (n + 2)

def prtStatus (s : State) (i : Nat) : Word :=
  let p := s.prt.getD i {}
  fldAt p.cad 2 24 ||| posBits p Pos.flywheel 21 ||| posBits p Pos.droneS 18 ||| posBits p Pos.stale 15 ||| bitAt p.tooLong 14 |||
  bitAt p.provisional 13 ||| bitAt p.lockS 12 ||| bitAt p.lockN 11 ||| fldAt p.breakSeg 2 8 ||| fldAt (s.cfg.port i).ke 2 6 |||
  fldAt p.kFound 2 4 ||| fldAt p.ring 2 2 ||| fldAt p.link 2 0

def smpStatus (s : State) : Word :=
  bitAt (iSelHall s) 9 ||| bitAt (hallValid s) 8 ||| bitAt (shuntValid s) 7 ||| bitAt s.smp.slewUp 6 ||| bitAt s.smp.lowCad 5 |||
  fldAt s.smp.cad 2 3 ||| bitAt (s.smp.tb == 2) 2 ||| fldAt s.smp.tb 2 0

def insStatus (s : State) : Word :=
  bitAt s.ins.posValid 9 ||| bitAt s.ins.unsteady 8 ||| bitAt s.ins.cHigh 7 ||| bitAt s.ins.overRange 6 ||| bitAt s.ins.valid 5 |||
  bitAt s.ins.foreign 4 ||| bitAt s.ins.suspended 3 ||| bitAt (injecting s) 2 ||| fldAt (insEff s) 2 0

def estStatus (s : State) : Word :=
  bitAt s.est.saveBusy 7 ||| bitAt s.est.ccSuspect 6 ||| bitAt s.est.noCurrent 5 ||| bitAt s.est.gap 4 ||| bitAt s.est.anyRetained 3 |||
  bitAt s.est.anchorReq 2 ||| bitAt s.est.anyConflict 1 ||| bitAt s.est.limitsZero 0

def impStatus (s : State) : Word :=
  (List.range 8).foldl (fun w b => w ||| bitAt (binEn s.cfgImp b && binMeasured s.cfgImp s.smp.cad b) (8 + b)) 0 |||
  bitAt s.imp.lineLock 3 ||| bitAt s.imp.tonesOn 2 ||| bitAt s.imp.throttled 1 ||| bitAt s.imp.active 0

/-- Some present unit lacks wire data (Table 7.5, UNLEARNED). -/
def unlearned (s : State) : Bool :=
  (List.range 144).any fun u =>
    ((s.prt.getD (u / 3) {}).pos.getD (u % 3) {}).present && (s.bal.slots.getD u {}).wire.isNone

def balStatus (s : State) : Word :=
  fldAt (s.bal.recs.countP fun r => r.ends.isSome) 10 16 ||| bitAt s.cfgEst.allowAdj 5 ||| bitAt s.bal.learn.isSome 4 |||
  bitAt (match (s.xng.xrec.getD 0x13 {}).held with | some (.prot v) => v.stringInhibit | _ => false) 3 ||| bitAt (unlearned s) 2 ||| bitAt s.bal.modeEff 1 ||| bitAt (planning s) 0

/-- Some wire is classified OPEN_WIRE, some group CELL_FAULT, a pass runs, a probe runs. -/
def owAny (s : State) : Bool := s.pro.units.any fun o => o.openMask != 0
def faultAny (s : State) : Bool := s.pro.units.any fun o => o.fault != 0
def owRunning (s : State) : Bool := s.pro.units.any fun o => o.pass.isSome
def probeRunning (s : State) : Bool := s.pro.units.any fun o => o.probe.isSome

def proStatus (s : State) : Word :=
  fldAt s.pro.conn 4 16 ||| bitAt (tripped s) 15 ||| bitAt (bell s) 14 ||| bitAt (inhibitConnect s) 13 ||| bitAt (strInhibit s) 12 |||
  bitAt (owAny s) 11 ||| bitAt (faultAny s) 10 ||| bitAt (!s.pro.chains.isEmpty) 9 ||| bitAt s.pro.guardWait 8 |||
  bitAt s.pro.leftFuse 7 ||| bitAt s.pro.refOk 6 ||| bitAt s.pro.supplyOk 5 ||| bitAt (owRunning s) 4 ||| bitAt (probeRunning s) 3 |||
  bitAt (commands s) 2 ||| bitAt s.pro.armed 1

/-- SRC_EFF (Table 9.10). -/
def srcEff (s : State) : Nat := if s.ctl.fallback && s.cfgCtl.chFallback == 2 then 0 else s.ctl.src

def ctlStatus (s : State) : Word :=
  fldAt s.ctl.stopCause 4 28 ||| fldAt s.ctl.fault 4 24 ||| bitAt s.ctl.gdN 15 ||| bitAt (gateEn s) 14 |||
  bitAt (!s.ctl.tones.isEmpty) 13 ||| bitAt (s.ctl.lastDir != 0 && s.ctl.out == 0) 12 ||| bitAt s.ctl.clampLo 11 |||
  bitAt s.ctl.clampHi 10 ||| bitAt s.ctl.sopStale 9 ||| bitAt s.ctl.fallback 8 ||| fldAt (srcEff s) 3 5 ||| fldAt s.ctl.bank 2 3 |||
  fldAt s.ctl.state 3 0

def uplStatus (s : State) : Word :=
  bitAt s.upl.ptpValid 14 ||| fldAt s.upl.sel 2 12 ||| fldAt s.upl.b.ptp 4 8 ||| fldAt s.upl.a.ptp 4 4 ||| bitAt s.upl.b.feedOk 3 |||
  bitAt s.upl.a.feedOk 2 ||| bitAt s.upl.b.up 1 ||| bitAt s.upl.a.up 0

/-- Open and half-open contexts. -/
def openCount (s : State) : Nat := s.ses.ctx.countP Sess.opened
def halfCount (s : State) : Nat := s.ses.ctx.countP Sess.half

def sesStatus (s : State) : Word := bitAt s.ses.hsReady 24 ||| fldAt (halfCount s) 6 16 ||| fldAt (openCount s) 9 0

/-- Queues bound. -/
def boundCount (s : State) : Nat := s.que.countP Queue.bound

def queStatus (s : State) : Word := fldAt (boundCount s) 7 0

def paiStatus (s : State) : Word :=
  bitAt (breath s) 20 ||| bitAt (peerIs s PeerStatus.select) 19 ||| bitAt (peerIs s PeerStatus.health) 18 ||| fldAt (role s) 2 16 |||
  fldAt (healthWhy s) 8 8 ||| bitAt (health s) 7 ||| bitAt s.pai.epochValid 6 ||| bitAt s.pai.mapMatch 5 ||| bitAt s.pai.follower 4 |||
  bitAt s.pai.aligned 3 ||| bitAt s.pai.peerUp 2 ||| bitAt s.pai.selectValid 1 ||| bitAt s.pai.select 0

def recStatus (s : State) : Word :=
  bitAt (s.upl.holdup != 0) 12 ||| bitAt s.recNv.wrapped 11 ||| bitAt s.recd.lostOpen 10 ||| bitAt s.recd.flushing 9 |||
  fldAt s.recd.ring.length 9 0

def hkpStatus (s : State) : Word :=
  (List.range 6).foldl (fun w n => w ||| bitAt (s.hkp.temp.getD n none).isSome (16 + n) ||| fldAt (s.hkp.slevel.getD n 0) 2 (4 + 2 * n)) 0
  ||| bitAt s.hkp.impStopped 3 ||| bitAt s.hkp.throttled 2 ||| fldAt s.hkp.level 2 0

/-- The two islands of a crossing (Table 15.2): source and destination, kind, depth; none: no such index. -/
def xngDef (x : Nat) : Option (Nat × Nat × Nat × Nat) :=
  if x ≤ 0x05 then some (9, 3 + x, 0, 0)
  else if x ≤ 0x0B then some (x - 3, 10, 2, 32)
  else if x == 0x0C then some (10, 13, 2, 8)
  else if x == 0x0D then some (10, 12, 2, 8)
  else if x == 0x0E then some (10, 1, 2, 8)
  else if x == 0x0F then some (10, 11, 2, 2)
  else if x == 0x10 then some (11, 14, 0, 0)
  else if x == 0x11 then some (11, 1, 0, 0)
  else if x == 0x12 then some (13, 14, 0, 0)
  else if x == 0x13 then some (13, 11, 0, 0)
  else if x == 0x14 then some (14, 12, 2, 16)
  else if x == 0x15 then some (12, 11, 0, 0)
  else if x == 0x16 then some (11, 12, 0, 0)
  else if x ≤ 0x1C then some (11, x - 0x17 + 3, 2, 8)
  else if x == 0x1D then some (15, 13, 0, 0)
  else if x == 0x1E then some (15, 11, 0, 0)
  else if x == 0x1F then some (15, 12, 0, 0)
  else if x == 0x20 then some (0, 9, 0, 0)
  else if x == 0x21 then some (0, 1, 2, 64)
  else if x == 0x22 then some (1, 0, 2, 64)
  else if x == 0x23 then some (9, 10, 1, 0)
  else if x ≤ 0x29 then some (10, x - 0x24 + 3, 1, 0)
  else if x < 0x30 then none
  else if x ≤ 0x3F then some (x - 0x30, 16, 2, 16)
  else if x ≤ 0x50 then if x == 0x42 then none else some (2, x - 0x40, 3, 0)
  else none

/-- The island exists in this variant: PRT3 to PRT5 on S48, IMP, CTL (Table 1.3). -/
def islandPresent (s : State) (i : Nat) : Bool :=
  if i == 6 || i == 7 || i == 8 then nPorts s == 48 else if i == 12 then hasImp s else if i == 14 then hasCtl s else decide (i ≤ 16)

/-- The crossing exists in this variant (Table 15.2). -/
def xngPresent (s : State) (x : Nat) : Bool :=
  match xngDef x with
  | some (a, b, _, _) => islandPresent s a && islandPresent s b
  | none => false

def xngStatus (s : State) : Word :=
  (List.range 17).foldl (fun w i =>
    w ||| bitAt ((List.range 81).any fun x =>
      (s.xng.xrec.getD x {}).down && (match xngDef x with | some (a, b, _, _) => a == i || b == i | none => false)) i) 0

/-- The level inputs and BELL (Table 17.16). -/
def capPins (s : State) : Word :=
  bitAt (bell s) 9 ||| bitAt (hasPai s && s.pai.select) 8 ||| bitAt s.cap.testMode 7 ||| bitAt (hasCtl s && s.ctl.gdN) 6 |||
  fldAt s.cap.di.toNat 2 4 ||| fldAt s.cap.kfRaw.toNat 4 0

/-- The status word of an event block (R446): block by code, port `e - 20`. -/
def statusWord (s : State) (e : Nat) : Word :=
  if 20 ≤ e then prtStatus s (e - 20) else
  match e with
  | 0x00 => capPins s
  | 0x01 => pwrStatus s
  | 0x02 => lcyStatus s
  | 0x06 => smpStatus s
  | 0x07 => insStatus s
  | 0x08 => estStatus s
  | 0x09 => impStatus s
  | 0x0A => balStatus s
  | 0x0B => proStatus s
  | 0x0C => ctlStatus s
  | 0x0D => uplStatus s
  | 0x0E => sesStatus s
  | 0x0F => queStatus s
  | 0x10 => paiStatus s
  | 0x11 => recStatus s
  | 0x12 => hkpStatus s
  | 0x13 => xngStatus s
  | _ => 0

/-- The island of an event block (Table 1.1, Table 1.3). -/
def islandOf (e : Nat) : Nat :=
  if 20 ≤ e then 3 + (e - 20) / 8 else
  match e with
  | 0x06 => 10
  | 0x07 => 15
  | 0x08 => 11
  | 0x09 => 12
  | 0x0A => 11
  | 0x0B => 13
  | 0x0C => 14
  | 0x0D => 0
  | 0x0E => 1
  | 0x0F => 1
  | 0x11 => 16
  | 0x12 => 15
  | _ => 2

end Sys2Proof.Machine
end

