-- ==== Sys2Proof/Machine/Ops.lean ====
section
/-! DEFINITION. The operations that every meaning shares: access to the indexed parts of State, byte order, events and their way to
the recorder, crossings, notices, items of stream queues. -/

namespace Sys2Proof.Machine

open Sys2Proof

/-! ### Bytes -/

/-- `n` bytes of a number, lowest byte first (R15). -/
def le (n v : Nat) : Bytes := (List.range n).map fun i => BitVec.ofNat 8 (v / 256 ^ i)

/-- The same of an integer in two's complement. -/
def leI (n : Nat) (v : Int) : Bytes := le n (v % (256 ^ n : Nat)).toNat

/-- The four bytes of a word. -/
def leW (w : Word) : Bytes := le 4 w.toNat

/-- The number that bytes spell, lowest byte first. -/
def leNat : Bytes → Nat
  | [] => 0
  | b :: r => b.toNat + 256 * leNat r

/-- The signed number that bytes spell. -/
def leInt (b : Bytes) : Int :=
  let v := leNat b
  if 2 * v < 256 ^ b.length then (v : Int) else (v : Int) - (256 ^ b.length : Nat)

/-- `n` bytes of a string from an offset. -/
def slice (b : Bytes) (off n : Nat) : Bytes := (b.drop off).take n

/-- A string of `n` bytes: cut, or filled with 0. -/
def fit (n : Nat) (b : Bytes) : Bytes := (b ++ List.replicate n 0).take n

/-- 64-bit words of a byte string, the last one filled with 0 (R350). The first argument bounds the number of words. -/
def quadsAux : Nat → Bytes → List Quad
  | 0, _ => []
  | n + 1, b => BitVec.ofNat 64 (leNat (b.take 8)) :: quadsAux n (b.drop 8)

/-- The words that hold a byte string. -/
def quads (b : Bytes) : List Quad := quadsAux ((b.length + 7) / 8) b

/-- Round to the nearest integer, halves away from zero. -/
def roundRat (r : Rat) : Int := if 0 ≤ r then (r + 1 / 2).floor else -((-r + 1 / 2).floor)

/-- Adds to a counter that saturates at 0xFFFF_FFFF. -/
def satAdd (w : Word) (n : Nat) : Word := BitVec.ofNat 32 (min (w.toNat + n) 0xFFFFFFFF)

/-- Removes keys from an association list and puts a new entry in front. -/
def assocSet {α : Type} (k : Nat) (v : α) (l : List (Nat × α)) : List (Nat × α) := (k, v) :: l.filter fun e => e.1 != k

/-! ### Temperature sensors (R92, R122) -/

/-- Brings a fraction into [1, 2) by powers of two; the first argument bounds the steps. -/
def halve : Nat → Nat → Nat → Int → Nat × Nat × Int
  | 0, a, b, k => (a, b, k)
  | n + 1, a, b, k =>
    if 2 * b ≤ a then halve n a (2 * b) (k + 1) else if a < b then halve n (2 * a) b (k - 1) else (a, b, k)

/-- The natural logarithm of a fraction of two positive numbers in 10^-15, by the series of artanh (R92 gives the curve and no way to
solve it; DESIGN CHOICE, log entry 55). -/
def lnFraction (a b : Nat) : Int :=
  match halve 64 a b 0 with
  | (a, b, k) =>
    let y : Int := ((a : Int) - b) * 10 ^ 15 / (a + b)
    let step (e : Int × Int) (i : Nat) : Int × Int := (e.1 * y / 10 ^ 15 * y / 10 ^ 15, e.2 + e.1 / (2 * i + 1))
    2 * ((List.range 24).foldl step (y, 0)).2 + k * 693147180559945

/-- The temperature in 0.01 K relative to 273.15 K at which R26 · exp(B · (1/T - 1/298.15 K)) is a resistance; both resistances in nano-ohm,
B in K. -/
def curveTemp (r26 : Nat) (b : Rat) (r : Nat) : Int :=
  let x : Rat := 100 / 29815 + (lnFraction r r26 : Rat) / 10 ^ 15 / b
  if x ≤ 0 then 32766 else max (-32767) (min (roundRat (100 / x) - 27315) 32766)

/-- A temperature input as coded (Table 3.5): a sensor without resistance is shorted. With R26 or B of 0 no temperature is stated: free
(DESIGN CHOICE, log entry 4). -/
def sensorCode (free : Half) (r26 : Nat) (b : Rat) (x : Sensor) : Half :=
  match x with
  | .opened => 0x8000
  | .shorted => 0x7FFF
  | .tenths r => if r = 0 then 0x7FFF else if r26 = 0 || b = 0 then free else BitVec.ofInt 16 (curveTemp r26 b (100000000 * r))

/-! ### Buffers of bytes by offset (PENDING, staging, epoch) -/

/-- Places a byte in a buffer, kept in rising order of offsets. -/
def putByte (o : Nat) (b : Byte) : List (Nat × Byte) → List (Nat × Byte)
  | [] => [(o, b)]
  | (p, c) :: r => if o < p then (o, b) :: (p, c) :: r else if o = p then (o, b) :: r else (p, c) :: putByte o b r

/-- Places a byte string at an offset. -/
def putBytes (off : Nat) : Bytes → List (Nat × Byte) → List (Nat × Byte)
  | [], buf => buf
  | b :: r, buf => putBytes (off + 1) r (putByte off b buf)

/-- The first `n` bytes of a buffer, where it holds all of them. -/
def bufferBytes (n : Nat) (buf : List (Nat × Byte)) : Option Bytes :=
  let b := buf.filter fun e => decide (e.1 < n)
  if b.length = n then some (b.map Prod.snd) else none

/-- CRC-32 of R45 (polynomial 0x04C11DB7 reflected, initial value and final inversion all ones), one bit, one byte, a string. -/
def crcBit (c : Word) : Word := if c.getLsbD 0 then (c >>> 1) ^^^ 0xEDB88320 else c >>> 1

def crcByte (c : Word) (b : Byte) : Word :=
  crcBit (crcBit (crcBit (crcBit (crcBit (crcBit (crcBit (crcBit (c ^^^ b.zeroExtend 32))))))))

def crc32 (b : Bytes) : Word := b.foldl crcByte 0xFFFFFFFF ^^^ 0xFFFFFFFF

/-! ### Parts of the state -/

def State.port (s : State) (p : Nat) : Port := s.prt.getD p {}
def State.pos (s : State) (p c : Nat) : Pos := (s.port p).pos.getD c {}
def State.posU (s : State) (u : Nat) : Pos := s.pos (u / 3) (u % 3)
def State.unit (s : State) (u : Nat) : MUnit := s.units.getD u {}
def State.ectx (s : State) (g : Nat) : Ctx := s.est.ctx.getD g {}
def State.sess (s : State) (c : Nat) : Sess := s.ses.ctx.getD c {}
def State.queue (s : State) (q : Nat) : Queue := s.que.getD q {}
def State.xr (s : State) (x : Nat) : Xrec := s.xng.xrec.getD x {}
def State.event (s : State) (e : Nat) : Ev := s.ev.getD e {}
def State.owU (s : State) (u : Nat) : OwUnit := s.pro.units.getD u {}

def modPort (p : Nat) (f : Port → Port) (s : State) : State := { s with prt := s.prt.modify p f }
def modPos (p c : Nat) (f : Pos → Pos) (s : State) : State := modPort p (fun x => { x with pos := x.pos.modify c f }) s
def modUnit (u : Nat) (f : MUnit → MUnit) (s : State) : State := { s with units := s.units.modify u f }
def modCtx (g : Nat) (f : Ctx → Ctx) (s : State) : State := { s with est := { s.est with ctx := s.est.ctx.modify g f } }
def modSess (c : Nat) (f : Sess → Sess) (s : State) : State := { s with ses := { s.ses with ctx := s.ses.ctx.modify c f } }
def modQ (q : Nat) (f : Queue → Queue) (s : State) : State := { s with que := s.que.modify q f }
def modX (x : Nat) (f : Xrec → Xrec) (s : State) : State := { s with xng := { s.xng with xrec := s.xng.xrec.modify x f } }
def modEv (e : Nat) (f : Ev → Ev) (s : State) : State := { s with ev := s.ev.modify e f }
def modOw (u : Nat) (f : OwUnit → OwUnit) (s : State) : State := { s with pro := { s.pro with units := s.pro.units.modify u f } }
def modSlot (u : Nat) (f : BalSlot → BalSlot) (s : State) : State := { s with bal := { s.bal with slots := s.bal.slots.modify u f } }
def modBleed (g : Nat) (f : BleedRec → BleedRec) (s : State) : State := { s with bal := { s.bal with recs := s.bal.recs.modify g f } }

/-- Adds 1 to a counter of a list. -/
def bumpAt (l : List Word) (i : Nat) (n : Nat := 1) : List Word := l.modify i fun w => satAdd w n

/-- Applies `f` for every element in turn. -/
def forAll {α : Type} (l : List α) (f : α → State → State) (s : State) : State := l.foldl (fun t a => f a t) s

/-- Applies `f` where the condition holds. -/
def onlyIf (b : Bool) (f : State → State) (s : State) : State := if b then f s else s

/-- A free word (DESIGN CHOICE, log entry 4). -/
def takeWord (s : State) : Word × State := (Config.freeWord s.fresh, { s with fresh := s.fresh + 1 })

/-- Free random bytes (DESIGN CHOICE, log entry 4). -/
def takeBytes (n : Nat) (s : State) : Bytes × State :=
  ((List.range n).map fun i => Config.freeByte (s.fresh + i), { s with fresh := s.fresh + n })

/-! ### Running parts -/

/-- The units that the load shed of Table 16.4 stops run: the boot is over, the module is not DORMANT, no load was shed. -/
def alive (s : State) : Bool := s.pwr.ready && s.pwr.state != 0 && decide (s.upl.holdup < 2)

/-- REC and HKP run, also after the load shed: the boot is over, the module is not DORMANT (R456). -/
def recRuns (s : State) : Bool := s.pwr.ready && s.pwr.state != 0

/-- The supervisor processor runs. -/
def spcUp (s : State) : Bool := alive s && !s.lcy.spcDown

/-- Sends a message. -/
def send (o : Out) (s : State) : State := { s with out := s.out ++ [o] }

/-- Microseconds and milliseconds in ns, and 0.01 s. -/
def ms : Nat := 1000000

/-! ### Events (R13, R436 to R438, R446) -/

/-- Adds 1 to the 8-bit event counter of flag `n`, saturating at 255 (R437). -/
def bumpEvcnt (cnt : BitVec 128) (n : Nat) : BitVec 128 :=
  if cnt.extractLsb' (8 * n) 8 = 255#8 then cnt else cnt + (1#128 <<< (8 * n))

/-- Sets a flag of an event block and counts the set event. -/
def setFlag (e n : Nat) (s : State) : State :=
  modEv e (fun x => { x with flags := x.flags ||| (1#16 <<< n), cnt := bumpEvcnt x.cnt n }) s

/-- The source of a crossing is an island that resets alone: SPC or PRO. What it offers itself while the crossing is DOWN is no refusal: only the
live side's transfers are refused (R441). -/
def resetSource (x : Nat) : Bool := x == 0x12 || x == 0x13 || x == 0x32 || x == 0x3D

/-- A queue entry on a crossing: lost where the crossing is DOWN (REFUSED, R441) or full (FULL, R434). The result tells which flag
of XNG rises: 0 none, 1 REFUSED, 2 QUEUE_FULL. -/
def pushRec (ev : RecEv) (s : State) : State × Nat :=
  let x := 0x30 + ev.island
  if (s.xr x).down && !resetSource x then
    (modX x (fun r => { r with refused := satAdd r.refused 1, refusedOnce := true }) s, if (s.xr x).refusedOnce then 0 else 1)
  else if (s.recd.inq.countP fun v => v.island == ev.island) < 16 then
    ({ s with recd := { s.recd with inq := s.recd.inq ++ [ev] } }, 0)
  else (modX x (fun r => { r with loss := satAdd r.loss 1 }) s, 2)

/-- The latest instant index, 0 while no port samples (Table 16.1): from the first instant on. -/
def recInstant (s : State) : Nat := if s.smp.started && s.prt.any (fun p => p.link == 2) then s.smp.instant else 0

/-- The event of a flag as the recorder receives it (R446). -/
def flagEvent (e n : Nat) (s : State) : RecEv :=
  { island := islandOf e
    code := (if 20 ≤ e then 0x0400 else 256 * e) + n
    source := if 20 ≤ e then e - 20 else 0xFFFF
    data := leW (statusWord s e)
    instant := recInstant s }

/-- A set event of an XNG flag. Its own record may be lost in turn: the first refusal of a DOWN period raises REFUSED (R441), a loss to the full
crossing QUEUE_FULL (R434). The record of that flag counts when it is lost, and raises none again (DESIGN CHOICE, log entry 72). -/
def raiseXng (n : Nat) (s : State) : State :=
  let t := setFlag 0x13 n s
  let again (k : Nat) (t : State) : State := (pushRec (flagEvent 0x13 k (setFlag 0x13 k t)) (setFlag 0x13 k t)).1
  match pushRec (flagEvent 0x13 n t) t with
  | (t, 1) => again 3 t
  | (t, 2) => again 2 t
  | (t, _) => t

/-- An event on its way to the recorder. -/
def record (ev : RecEv) (s : State) : State :=
  match pushRec ev s with
  | (t, 1) => raiseXng 3 t
  | (t, 2) => raiseXng 2 t
  | (t, _) => t

/-- A set event of flag `n` of event block `e` (R446): nothing in a block that is absent; the recorder's own flags make no record. -/
def raise (e n : Nat) (s : State) : State :=
  if !eventPresent s e then s
  else
    let t := setFlag e n s
    if e == 0x11 then t else record (flagEvent e n t) t

/-- Raises where the condition holds. -/
def raiseIf (b : Bool) (e n : Nat) (s : State) : State := if b then raise e n s else s

/-- A record that is no flag (Table 16.2). -/
def recordCode (island code source : Nat) (data : Bytes) (s : State) : State :=
  record { island := island, code := code, source := source, data := data, instant := recInstant s } s

/-- A trigger of a flush (R453). -/
def flushTrigger (s : State) : State :=
  { s with recd := { s.recd with due := true, again := s.recd.again || s.recd.flushing } }

/-! ### Crossings (R431, R432, R441) -/

/-- Counts a refusal of a DOWN crossing; the first of the period raises REFUSED. -/
def refuse (x : Nat) (s : State) : State :=
  let t := modX x (fun r => { r with refused := satAdd r.refused 1, refusedOnce := true }) s
  if (s.xr x).refusedOnce then t else raiseXng 3 t

/-- The source offers a value (R431): it goes out, waits, or replaces the waiting one (OVERWRITE). -/
def offer (x : Nat) (v : XVal) (s : State) : State :=
  let r := s.xr x
  let s := modX x (fun r => { r with cur := some v }) s
  if !xngPresent s x then s
  else if r.down then (if resetSource x then s else refuse x s)
  else if r.fly.isNone then modX x (fun r => { r with fly := some v }) s
  else modX x (fun r => { r with pend := some v, loss := if r.pend.isSome then satAdd r.loss 1 else r.loss }) s

/-- A value whose transfer ends within the command that offers it: the round trip of R433 is far shorter than the time to the next (DEDUCED, log
entry 67). -/
def offerNow (x : Nat) (v : XVal) (s : State) : State :=
  if xngPresent s x then modX x (fun r => { r with cur := some v, held := some v }) s else s

/-- An occurrence at the source of a PULSE crossing, with the accumulator's key: with a transfer of the crossing in flight it stays for the
next one (R432). -/
def pulse (x key : Nat) (s : State) : State :=
  let r := s.xr x
  if !xngPresent s x then s
  else if r.down then refuse x s
  else
    let a := r.accs.getD key ({ fly := 0, acc := 0 } : Sys2Proof.Machine.Acc)
    let put (b : Sys2Proof.Machine.Acc) (t : State) : State :=
      modX x (fun r => { r with accs := (r.accs ++ List.replicate (key + 1 - r.accs.length) ({ fly := 0 } : Sys2Proof.Machine.Acc)).set key b }) t
    if r.accs.all fun b => b.fly == 0 then put { fly := 1, acc := 0 } s
    else if a.acc < 15 then put { a with acc := a.acc + 1 } s
    else raiseXng 1 (modX x (fun r => { r with loss := satAdd r.loss 1 }) s)

/-- The PULSE crossing of a port's island and the key of flag `k` of port `p` (Table 15.2, 0x24 to 0x29). -/
def portPulse (p k : Nat) (s : State) : State := pulse (0x24 + p / 8) (3 * (p % 8) + k) s

/-- What a crossing holds at its destination, unless it is DOWN. -/
def heldUp (s : State) (x : Nat) : Option XVal := if (s.xr x).down then none else (s.xr x).held

/-- The derate limits as CTL (0x12) or EST (0x13) has them: 0 while the crossing is DOWN (R441). -/
def derateAt (s : State) (x : Nat) : Nat × Nat :=
  match heldUp s x with
  | some (.derate c d) => (c, d)
  | some (.prot v) => (v.chg, v.dis)
  | _ => (0, 0)

/-! ### What PRO passes to EST (0x13) -/

/-- A group is classified CELL_FAULT. -/
def cellFault (s : State) (g : Nat) : Bool := match s.cfgPro.place g with
  | none => false
  | some (u, n) => (s.owU u).fault.getLsbD n

/-- A group lies beside an OPEN_WIRE. -/
def besideOpen (s : State) (g : Nat) : Bool :=
  match s.cfgPro.place g with
  | none => false
  | some (u, n) =>
    let o := s.owU u
    let sh := (s.cfgPro.port (u / 3)).shared
    o.openMask.getLsbD n || o.openMask.getLsbD (n + 1) ||
      (sh && n == 0 && u % 3 != 0 && (s.owU (u - 1)).openMask.getLsbD 16) ||
      (sh && n == 15 && u % 3 != 2 && (s.owU (u + 1)).openMask.getLsbD 0)

/-- PRO's bleed inhibit on a group: classified CELL_FAULT, or in the chain around an open wire (Table 8.3). -/
def groupInhibit (s : State) (g : Nat) : Bool :=
  cellFault s g || s.pro.chains.any fun c => c.groups.contains g && c.groups.any (besideOpen s)

/-- A limit as PRO_ICH_DER and the crossings show it: mA, rounded (DESIGN CHOICE, log entry 10). -/
def derMa (r : Rat) : Nat := (roundRat r).toNat

/-- PRO's value for crossing 0x13 as it is now. -/
def proView (s : State) : ProView :=
  let clean := s.pro.units.all fun o => o.openMask == 0 && o.fault == 0
  { chg := if s.pro.armed then derMa s.pro.iCh else 0
    dis := if s.pro.armed then derMa s.pro.iDis else 0
    suspect := if clean then [] else s.cfgPro.mapped.filter fun g => cellFault s g || besideOpen s g
    inhibit := if clean then [] else s.cfgPro.mapped.filter (groupInhibit s)
    stringInhibit := strInhibit s
    probes := s.pro.units.zipIdx.filterMap fun e => e.1.probe.bind fun p => if p.sent then none else some (e.2, p.input) }

/-- PRO offers its value to EST where that has changed. -/
def tellEst (s : State) : State := if (s.xr 0x13).cur = some (.prot (proView s)) then s else offer 0x13 (.prot (proView s)) s

/-- PRO's value as EST last received it: without one, no classification, inhibit or request (R441). -/
def estView (s : State) : ProView := match (s.xr 0x13).held with | some (.prot v) => v | _ => {}

/-- A group's INPUT_SUSPECT for the estimator (R261): beside an OPEN_WIRE, or classified CELL_FAULT. -/
def inputSuspect (s : State) (g : Nat) : Bool := (estView s).suspect.contains g

/-- The planner's inhibits: of one group, of the string (R219). -/
def bleedInhibit (s : State) (g : Nat) : Bool := (estView s).inhibit.contains g
def planInhibit (s : State) : Bool := (estView s).stringInhibit

/-! ### Notices (R352, R353) -/

/-- The session receives notices of the class. -/
def subscribed (x : Sess) (cls : Nat) : Bool := x.opened && x.mask.getLsbD cls

/-- A notice to one context. -/
def noticeTo (cls typ : Nat) (body : Bytes) (c : Nat) (s : State) : State :=
  if subscribed (s.sess c) cls && decide (s.upl.holdup < 2) then
    let n := (s.sess c).nseq + 1
    send (.notice (BitVec.ofNat 8 c) cls typ n s.smp.timeNs body) (modSess c (fun x => { x with nseq := n, txSeq := x.txSeq + 1 }) s)
  else s

/-- A notice to every subscribed session (R352). -/
def notice (cls typ : Nat) (body : Bytes) (s : State) : State := forAll (List.range 256) (noticeTo cls typ body) s

/-- STATE_CHANGED (Table 11.8). -/
def noticeState (prev : Nat) (s : State) : State :=
  notice 0 0x01 [BitVec.ofNat 8 s.pwr.state, BitVec.ofNat 8 (conditions s).toNat, BitVec.ofNat 8 prev, 0] s

/-- After a command: a change of a condition raises COND_CHANGED and sends STATE_CHANGED (Table 12.8, R358). -/
def condCheck (s : State) : State :=
  if conditions s = s.pwr.conds then s
  else
    let t := { s with pwr := { s.pwr with conds := conditions s } }
    noticeState t.pwr.state (raise 0x01 1 t)

/-- What goes out on both uplinks in a frame with an RCT; PTP messages carry none, and a supervision frame is one frame in two copies
(R311, R313). -/
def Out.framed : Out → Bool
  | .response .. | .completion .. | .notice .. | .stream .. | .challenge .. | .accept .. | .reject .. | .close .. => true
  | .echoReply .. | .arpReply _ | .neighbourAdvert _ | .dhcpDiscover | .dhcpRequest _ => true
  | .supervision l => l == .A
  | .down .. | .bulk .. | .up .. | .echo .. | .repeats .. | .peer .. | .pdelayReq _ | .pdelayResp _ | .pdelayRespFollowUp _ | .sleepRequest _ | .sleepReject _ => false

/-- A mailbox message (Table 11.1). -/
def messageBytes (op : Nat) (tag : Half) (kind status : Nat) (body : Bytes) : Bytes :=
  le 2 op ++ le 2 tag.toNat ++ le 1 kind ++ le 1 status ++ le 2 body.length ++ body

/-- The record that a message goes out in (Tables 10.4, 10.7, 11.1 and 11.8): TYPE, context, BODY. REJECT, CHALLENGE and what is no record
of a session have none here. -/
def Out.record : Out → Option (Byte × Byte × Bytes)
  | .response ctx tag op st body => some (0x10, ctx, messageBytes op tag 0x02 st body)
  | .completion ctx tag op st body => some (0x10, ctx, messageBytes op tag 0x03 st body)
  | .notice ctx cls typ nseq time body =>
    some (0x13, ctx, le 1 cls ++ le 1 typ ++ le 2 body.length ++ leW nseq ++ le 8 time ++ body)
  | .stream ctx q rseq wseq hdr ws =>
    some (0x11, ctx, le 1 q ++ [0] ++ le 2 ws.length ++ leW rseq ++ leW wseq ++ le 2 hdr ++ [0, 0] ++ ws.flatMap fun w => le 8 w.toNat)
  | .accept ctx body => some (0x05, ctx, body)
  | .close ctx cause => some (0x14, ctx, le 1 cause ++ [0, 0, 0])
  | _ => none

/-- A protected record with sequence number `seq` under the keys of its session (R321, R322, Table 10.3). -/
def sealRecord (x : Sess) (type ctx : Byte) (seq : Nat) (body : Bytes) : Bytes :=
  let aad := [0x01, type, ctx, x.gen] ++ le 8 seq
  let nonce := x.nOut ++ le 8 seq
  aad ++ Config.gcmCipher x.kOut nonce aad body ++ le 16 (Config.gcmTag x.kOut nonce aad body).toNat

/-- A handshake or REJECT record: SEQ 0, no tag (R321). -/
def plainRecord (type ctx gen : Byte) (body : Bytes) : Bytes := [0x01, type, ctx, gen] ++ le 8 0 ++ body

/-- What a frame carries for a message, and the bytes of its UDP payload. A context that this command freed answers with the keys it had
before, in `prev`; `n` records of the context went before in this command. -/
def Out.txBody (prev s : State) (n : Nat) (o : Out) : TxBody × Nat :=
  match o with
  | .challenge ctx gen body => (.record (s.sess ctx.toNat).addr s.net.port s.net.recDscp (plainRecord 0x02 ctx gen body), 12 + body.length)
  | .reject ctx gen st => (.record s.ses.src s.net.port s.net.recDscp (plainRecord 0x04 ctx gen (le 1 st ++ [0, 0, 0])), 16)
  | .supervision _ => (.supervision 20 s.fac.mac, 0)
  | o =>
    match o.record with
    | some (type, ctx, body) =>
      let x := if (s.sess ctx.toNat).opened then s.sess ctx.toNat else prev.sess ctx.toNat
      (.record (s.sess ctx.toNat).addr s.net.port (if type = 0x13 then s.net.noticeDscp else s.net.recDscp)
        (sealRecord x type ctx ((prev.sess ctx.toNat).txSeq + n + 1) body), 28 + body.length)
    | none => (.protocol o, 0)

/-- The client data of a frame before it is filled: IP and UDP or ICMP headers and what they carry. A DHCPv4 message has 300 bytes
(PRESUMED, log entry 62). -/
def clientData (b : TxBody) (len : Nat) : Nat :=
  match b with
  | .record dst _ _ _ => (if dst.v6 then 48 else 28) + len
  | .protocol (.echoReply v6 n) => (if v6 then 48 else 28) + n
  | .protocol (.neighbourAdvert _) => 72
  | .protocol .dhcpDiscover | .protocol (.dhcpRequest _) => 328
  | .protocol _ | .supervision .. => 46

/-- The LSDU size of the RCT: the client data, filled to the 46 bytes of the shortest frame, with the RCT of 6 bytes (PRESUMED, log
entry 62). -/
def lsduSize (b : TxBody) (len : Nat) : Nat := max 46 (clientData b len) + 6

/-- The destination MAC address that the spec names for a message (R313, Table 10.1). -/
def TxBody.dstMac : TxBody → Option Nat
  | .supervision .. => some 0x01154E000100
  | .protocol (.pdelayReq _) | .protocol (.pdelayResp _) | .protocol (.pdelayRespFollowUp _) => some 0x0180C200000E
  | _ => none

/-- The links that are up. -/
def linksUp (s : State) : List Link := [Link.A, Link.B].filter fun l => (match l with | .A => s.upl.a | .B => s.upl.b).up

/-- The frames of a message: the same on both links with an RCT each, a PTP message without one on its own link (R311, Table 10.1). -/
def Out.frames (prev s : State) (n : Nat) (seq : Half) (o : Out) : List EthTx :=
  let b := o.txBody prev s n
  match o with
  | .pdelayReq l | .pdelayResp l | .pdelayRespFollowUp l =>
    ((linksUp s).filter (· == l)).map fun l => ⟨l, s.fac.mac, none, b.1, b.1.dstMac⟩
  | o =>
    if o.framed then
      (linksUp s).map fun l =>
        ⟨l, s.fac.mac, some { seq := seq, lan := (match l with | .A => 0xA | .B => 0xB), lsdu := lsduSize b.1 b.2 }, b.1, b.1.dstMac⟩
    else []

/-- NOTICE records go first, STREAM records last (R325). -/
def Out.rank : Out → Nat
  | .notice .. => 0
  | .stream .. => 2
  | _ => 1

def sendOrder (l : List Out) : List Out :=
  l.filter (fun o => o.rank == 0) ++ l.filter (fun o => o.rank == 1) ++ l.filter (fun o => o.rank == 2)

/-- The context of a protected record. -/
def Out.session (o : Out) : Option Byte := o.record.map fun e => e.2.1

/-- The frames of messages in the order of sending; `done` are the messages before them. -/
def framesOf (prev s : State) : List Out → List Out → List EthTx
  | _, [] => []
  | done, o :: r =>
    o.frames prev s (done.countP fun d => d.session == o.session) (prev.upl.rctSeq + BitVec.ofNat 16 (done.countP Out.framed)) ++
      framesOf prev s (done ++ [o]) r

/-- Puts what a command sent on the uplinks and numbers the frames (R311). -/
def transmit (prev s : State) : State :=
  { s with
    tx := framesOf prev s [] (sendOrder s.out)
    upl := { s.upl with rctSeq := s.upl.rctSeq + BitVec.ofNat 16 (s.out.countP Out.framed) } }

/-- The frame of every meaning: what the last command sent is dropped, the effect runs, conditions that changed are reported, what it
sent goes onto the uplinks. -/
def act (f : State → State) (s : State) : Host.Outcome State Fault Refusal :=
  .next (transmit s (condCheck (f { s with out := [] })))

/-- A change of the power state (R361, Table 12.8). -/
def setPower (st : Nat) (s : State) : State :=
  if s.pwr.state = st then s
  else
    let prev := s.pwr.state
    noticeState prev (raise 0x01 0 { s with pwr := { s.pwr with state := st }, xng := { s.xng with woken := [] } })

/-! ### Stream queues (R327 to R332) -/

/-- Words of a queue in order. -/
def Queue.words (q : Queue) : List (Quad × Bool) := q.head ++ q.spill.flatten ++ q.tail

/-- Words held. -/
def Queue.held (q : Queue) : Nat := q.head.length + (q.spill.map List.length).sum + q.tail.length

/-- Words that still fit. -/
def Queue.room (q : Queue) : Nat :=
  (16 - q.tail.length) + 16 * (q.qcap - q.spill.length) + (if q.spill.isEmpty then 16 - q.head.length else 0)

/-- Moves whole blocks from the spill region to the head, the tail to the head while the spill region is empty, a full tail to the
spill region (R329). -/
def Queue.settle (q : Queue) : Queue :=
  let q := match q.spill with
    | b :: r => if q.head.length + b.length ≤ 16 then { q with head := q.head ++ b, spill := r } else q
    | [] => q
  if q.spill.isEmpty then
    let n := 16 - q.head.length
    let q := { q with head := q.head ++ q.tail.take n, tail := q.tail.drop n }
    if q.tail.length = 16 && decide (0 < q.qcap) then { q with spill := [q.tail], tail := [] } else q
  else if q.tail.length = 16 && decide (q.spill.length < q.qcap) then { q with spill := q.spill ++ [q.tail], tail := [] }
  else q

/-- One word enters at the tail. -/
def Queue.push (q : Queue) (w : Quad × Bool) : Queue := Queue.settle { q with tail := q.tail ++ [w] }

/-- Drops words from the front of the spill blocks; the rest of a block that is cut goes to the head. -/
def dropBlocks : Nat → List (List (Quad × Bool)) → List (Quad × Bool) × List (List (Quad × Bool)) × Nat
  | n, [] => ([], [], n)
  | 0, l => ([], l, 0)
  | n + 1, b :: r => if n + 1 < b.length then (b.drop (n + 1), r, 0) else dropBlocks (n + 1 - b.length) r

/-- Settles until nothing moves; the first argument bounds the moves. -/
def settleN : Nat → Queue → Queue
  | 0, q => q
  | n + 1, q => settleN n q.settle

/-- Removes the `n` oldest words. -/
def Queue.dropWords (n : Nat) (q : Queue) : Queue :=
  if n < q.head.length then settleN 2 { q with head := q.head.drop n }
  else
    match dropBlocks (n - q.head.length) q.spill with
    | (h, sp, m) => settleN 3 { q with head := h, spill := sp, tail := q.tail.drop m }

/-- The item header word (Table 10.6). -/
def itemHeader (iseq : Word) (gap : Bool) (itype nw : Nat) : Quad :=
  BitVec.ofNat 64 (iseq.toNat * 2 ^ 32 + (if gap then 2 ^ 24 else 0) + itype % 256 * 2 ^ 16 + nw % 65536)

/-- A producer appends an item whole or drops it (R328); the result tells whether it was dropped. -/
def Queue.append (q : Queue) (content : List Quad) : Queue × Bool :=
  let gap := q.lost != 0
  let gapWords : List Quad := if gap then [BitVec.ofNat 64 (q.cause % 256 * 2 ^ 32 + q.lost.toNat)] else []
  let body := gapWords ++ content
  let nw := body.length + 1
  let q1 := { q with iseq := q.iseq + 1 }
  if nw ≤ q.room then
    let q2 := (body.foldl (fun a w => a.push (w, false)) (q1.push (itemHeader q.iseq gap q.itype nw, true)))
    ({ q2 with lost := 0, cause := 0, stalled := false }, false)
  else ({ q1 with lost := satAdd q.lost 1, cause := 1, drop := satAdd q.drop 1 }, true)

/-- An item of queue `i`. -/
def appendItem (i : Nat) (content : List Quad) (s : State) : State :=
  let r := (s.queue i).append content
  raiseIf r.2 0x0F 0 (modQ i (fun _ => r.1) s)

/-- Every queue bound to the item type takes the occurrence where its number modulo DECIM is 0 (R350, Table 11.7). -/
def produce (itype occ : Nat) (content : Queue → List Quad) (s : State) : State :=
  forAll (List.range 64) (fun i t =>
    let q := t.queue i
    if q.bound && q.itype == itype && occ % (max q.decim 1) == 0 && q.old == 0 && decide (s.upl.holdup < 2) then appendItem i (content q) t else t) s

/-- Flush of a queue (R332): every item is discarded, the next carries GAP with cause 2. -/
def Queue.flush (q : Queue) : Queue :=
  let ws := q.words
  let n := ws.countP Prod.snd + (match ws with | (_, false) :: _ => 1 | _ => 0)
  { q with head := [], spill := [], tail := [], windex := q.windex + ws.length, lost := satAdd q.lost n,
           cause := if n = 0 then q.cause else 2, waited := false }

/-- Flushes queue `i` and raises FLUSHED. -/
def flushQueue (i : Nat) (s : State) : State := raise 0x0F 3 (modQ i Queue.flush s)

/-- Flushes and unbinds queue `i` (R332). -/
def unbindQueue (i : Nat) (s : State) : State := modQ i (fun q => { q with bound := false, stalled := false }) (flushQueue i s)

/-! ### Sessions -/

/-- Frees a context: its queues are flushed and unbound, its subscriptions end (R326). GEN stays for the next use, the address for the CLOSE
record on its way. -/
def freeContext (c : Nat) (s : State) : State :=
  let s := forAll (List.range 64) (fun i t =>
    let q := t.queue i
    if q.bound && q.ctx.toNat == c then unbindQueue i t else t) s
  let s := { s with ses := { s.ses with waiting := s.ses.waiting.filter fun e => e.1.toNat != c } }
  modSess c (fun x => { gen := x.gen, addr := x.addr }) s

/-- Closes an open context with a cause and a CLOSE record (R326). -/
def closeSession (c cause : Nat) (tell : Bool) (s : State) : State :=
  if (s.sess c).opened then
    let s := if tell then send (.close (BitVec.ofNat 8 c) cause) s else s
    raise 0x0E 1 (freeContext c s)
  else s

/-- A COMPLETION: only to the session that sent the request, if it is still open (R337, R354). -/
def complete (d : Deferred) (status : Nat) (body : Bytes) (s : State) : State :=
  let s := { s with ses := { s.ses with deferred := s.ses.deferred.erase d } }
  let x := s.sess d.ctx.toNat
  if x.opened && x.gen == d.gen then
    send (.completion d.ctx d.tag d.op status body) (modSess d.ctx.toNat (fun x => { x with txSeq := x.txSeq + 1 }) s)
  else s

/-- The deferred command with this opcode that runs. -/
def running (op : Nat) (s : State) : Option Deferred := s.ses.deferred.find? fun d => d.op == op

/-- Completes the deferred command with this opcode, if it runs. -/
def completeOp (op status : Nat) (body : Bytes) (s : State) : State :=
  match running op s with
  | some d => complete d status body s
  | none => s

/-! ### Sorting -/

/-- Inserts an element in front of the first one that it does not exceed. -/
def insertBy {α : Type} (le : α → α → Bool) (a : α) : List α → List α
  | [] => [a]
  | b :: r => if le a b then a :: b :: r else b :: insertBy le a r

/-- A list in ascending order. -/
def sortBy {α : Type} (le : α → α → Bool) (l : List α) : List α := l.foldr (insertBy le) []

end Sys2Proof.Machine
end

