-- ==== Sys2Proof/Machine/Operands.lean ====
section
/-! DEFINITION. How a mailbox request is judged and answered (R336 to R343), and the forms in which operands refer to parts of the
module. -/

namespace Sys2Proof.Machine

open Sys2Proof

/-! ### Status codes (Table 11.2) -/

def stOk : Nat := 0x00
def stBusy : Nat := 0x01
def stDeadline : Nat := 0x02
def stAbsent : Nat := 0x03
def stForbidden : Nat := 0x04
def stAuth : Nat := 0x05
def stFormat : Nat := 0x06
def stRange : Nat := 0x07
def stLocked : Nat := 0x08

/-! ### Roles (Table 10.2) and sets of power states (Table 11.3) -/

def observer : Nat := 0
def operator : Nat := 1
def engineer : Nat := 2
def service : Nat := 3

/-- Any state but DORMANT. -/
def awake : List Nat := [1, 2, 3, 4]
/-- SURVEY, RUN, MAINTAIN. -/
def measuring : List Nat := [2, 3, 4]
/-- LISTEN, SURVEY, MAINTAIN. -/
def notRun : List Nat := [1, 2, 4]

/-- The command is accepted in the present state and, while a transition runs, in its target (R361). -/
def stateOk (l : List Nat) (s : State) : Bool :=
  l.contains s.pwr.state && (match s.pwr.target with | some t => l.contains t | none => true)

/-- What a command finds wrong with a request, by status (R340). -/
structure Judge where
  format : Bool := false
  absent : Bool := false
  locked : Bool := false
  forbidden : Bool := false
  range : Bool := false
  busy : Bool := false
  refused : Option Bytes := none
  deriving DecidableEq, Repr

/-- The first status that applies, in the order of R340, with its payload. -/
def Judge.first (j : Judge) (auth : Bool) : Option (Nat × Bytes) :=
  if j.format then some (stFormat, [])
  else if auth then some (stAuth, [])
  else if j.absent then some (stAbsent, [])
  else if j.locked then some (stLocked, [])
  else if j.forbidden then some (stForbidden, [])
  else if j.range then some (stRange, [])
  else if j.busy then some (stBusy, [])
  else j.refused.map fun b => (stDeadline, b)

/-- Sends a RESPONSE (R336). -/
def sendResponse (r : Req) (op status : Nat) (body : Bytes) (s : State) : State :=
  send (.response r.ctx r.tag op status body) (modSess r.ctx.toNat (fun x => { x with txSeq := x.txSeq + 1 }) s)

/-- Answers an executed request and stores the answer among the last 16, unless it is BUSY (R339). -/
def respond (r : Req) (op status : Nat) (body : Bytes) (s : State) : State :=
  let s := sendResponse r op status body s
  if status = stBusy then s
  else modSess r.ctx.toNat (fun x => { x with store := ({ tag := r.tag, op := op, status := status, body := body } :: x.store).take 16 }) s

/-- The five commands that exclude each other (R341). -/
def exclusive : List Nat := [0x0202, 0x0303, 0x0304, 0x0A03, 0x0B02]

/-- A deferred command of the same group runs, or one of the five while another of the five runs (R341). CTL_START and
UNIT_DIAG are not deferred. -/
def deferredBusy (op : Nat) (s : State) : Bool :=
  s.ses.deferred.any fun d =>
    (d.op != 0x0801 && d.op != 0x0E02 && d.op / 256 == op / 256 && !(op == 0x0702 && d.op == 0x0701)) ||
      (exclusive.contains op && exclusive.contains d.op)

/-- Least and greatest payload length of the opcodes of Table 11.3 in a REQUEST; an opcode that it does not name is unknown. -/
def payloads : List (Nat × Nat × Nat) :=
  [(0x0101, 0, 0), (0x0102, 0, 0), (0x0103, 0, 0), (0x0201, 0, 0), (0x0202, 4, 4), (0x0301, 4, 4), (0x0302, 5, 1404), (0x0303, 0, 0),
   (0x0304, 0, 0), (0x0305, 10, 10), (0x0306, 0, 0), (0x0401, 16, 16), (0x0402, 1, 1), (0x0403, 0, 0), (0x0404, 4, 4)] ++
  [(0x0501, 4, 4), (0x0502, 0, 0), (0x0503, 2, 2), (0x0504, 4, 4), (0x0505, 0, 0), (0x0601, 0, 0), (0x0602, 0, 0), (0x0603, 4, 4),
   (0x0701, 0, 0), (0x0702, 0, 0), (0x0703, 0, 0), (0x0704, 1, 1), (0x0705, 0, 0)] ++
  [(0x0801, 0, 0), (0x0802, 0, 0), (0x0803, 0, 0), (0x0804, 4, 36), (0x0805, 8, 8), (0x0901, 0, 0), (0x0902, 12, 12), (0x0A01, 4, 4),
   (0x0A02, 5, 1404), (0x0A03, 0, 0), (0x0A04, 0, 0), (0x0B01, 0, 0), (0x0B02, 8, 8), (0x0B03, 36, 36), (0x0B04, 2, 2)] ++
  [(0x0C01, 0, 0), (0x0C02, 0, 0), (0x0D01, 8, 8), (0x0D02, 8, 8), (0x0E01, 6, 6), (0x0E02, 2, 2), (0x0E03, 4, 4)]

/-- A payload has the length that its opcode asks for; CTL_TONE has 8 bytes for each of the tones that its first byte counts. -/
def payloadOk (op : Nat) (pay : Bytes) : Bool :=
  match payloads.find? fun e => e.1 == op with
  | some (_, lo, hi) =>
    decide (lo ≤ pay.length) && decide (pay.length ≤ hi) && (op != 0x0804 || pay.length == 4 + 8 * (pay.getD 0 0).toNat)
  | none => false

/-- Commands that are accepted while a wipe is pending (R388). -/
def duringWipe : List Nat := [0x0101, 0x0102, 0x0B01]

/-- The request is the next to be executed: nothing waits, or it is the first that does (R338). -/
def nextUp (r : Req) (s : State) : Bool := s.ses.waiting.isEmpty || s.ses.waiting.head? == some (r.ctx, r.tag)

/-- A request that waited waits no longer; its record was received before. For one that did not wait, its receipt is noted now (R324). -/
def touch (r : Req) (s : State) : State :=
  if s.ses.waiting.isEmpty then modSess r.ctx.toNat (fun x => { x with lastRx := s.smp.timeNs }) s
  else { s with ses := { s.ses with waiting := s.ses.waiting.tail } }

/-- CTL_START and UNIT_DIAG answer later than they begin: the opcode of one of them that runs with this TAG. -/
def unanswered (r : Req) (s : State) : Option Nat :=
  (s.ses.deferred.find? fun d =>
    (d.op == 0x0801 || d.op == 0x0E02) && d.ctx == r.ctx && d.tag == r.tag && d.gen == (s.sess r.ctx.toNat).gen).map Deferred.op

/-- A request of a session (R336 to R340): a context that is not open carries none (R324), and one whose turn it is not is not executed
(R338); a TAG that is stored is not executed again, nor one whose answer is still to come (R339); otherwise the request is judged, and executed
when nothing is wrong with it. A wipe that a boot found unfinished holds others back (R388). `noted` is what a refused one leaves. -/
def requestNoting (r : Req) (op least : Nat) (j : State → Judge) (noted : Nat → State → State) (run : State → State) (s : State) :
    State :=
  let x := s.sess r.ctx.toNat
  if !spcUp s || !x.opened || !nextUp r s then s
  else
    let s := touch r s
    match x.store.find? (fun e => e.tag == r.tag), unanswered r s with
    | some e, _ => if e.op = op then sendResponse r op e.status e.body s else sendResponse r op stFormat [] s
    | none, some k => if k = op then s else sendResponse r op stFormat [] s
    | none, none =>
      let v := j s
      let v := { v with format := v.format || !r.zeros, busy := v.busy || (s.nv.wipePending && (running 0x0B02 s).isNone && !duringWipe.contains op) }
      match v.first (decide (x.role < least)) with
      | some (st, body) => noted st (respond r op st body s)
      | none => run s

/-- A request of a command that keeps no LAST_STATUS. -/
def request (r : Req) (op least : Nat) (j : State → Judge) (run : State → State) (s : State) : State :=
  requestNoting r op least j (fun _ s => s) run s

/-- Starts a deferred command: RESPONSE OK with LEN = 0 (R337). -/
def defer (r : Req) (op : Nat) (s : State) : State :=
  let s := respond r op stOk [] s
  { s with ses := { s.ses with deferred := s.ses.deferred ++ [{ op := op, ctx := r.ctx, gen := (s.sess r.ctx.toNat).gen, tag := r.tag, at_ := s.smp.timeNs }] } }

/-- The refusal report of Table 11.6. -/
def Refused.bytes (x : Refused) : Bytes :=
  le 2 x.item ++ le 2 x.index ++ le 1 x.quant ++ [0, 0, 0] ++ leI 8 x.computed ++ leI 8 x.allowed

/-! ### Operands that name parts of the module -/

/-- The port and position of a unit address; none where position 3 is named. -/
def unitOf (a : Byte) : Option (Nat × Nat) :=
  if a.toNat % 4 = 3 then none else some (a.toNat / 4, a.toNat % 4)

/-- Slot u = 3p + c. -/
def slotOf (p c : Nat) : Nat := 3 * p + c

/-- A unit holds a group: the position map places it on a slot whose unit was found (notes under Table 11.3). -/
def groupHeld (s : State) (g : Nat) : Bool := match s.cfg.place g with
  | some (u, _) => (s.posU u).present
  | none => false

/-- A named range of groups lies outside the variant or is not of an admitted length (Table 11.3). -/
def rangeOut (s : State) (first count lim : Nat) : Bool :=
  count == 0 || decide (lim < count) || decide (nGroups s < first + count)

/-- So does one with a group that no unit holds, where a command names it (notes under Table 11.3). -/
def groupsOut (s : State) (first count lim : Nat) : Bool :=
  rangeOut s first count lim || (List.range count).any fun i => !groupHeld s (first + i)

/-- Bit `b` of a control word. -/
def ctlBit (w : Word) (b : Nat) : Bool := w.getLsbD b

/-- A field of `n` bits at bit `b` of a control word. -/
def ctlField (w : Word) (b n : Nat) : Nat := (w.extractLsb' b n).toNat

end Sys2Proof.Machine
end

