-- ==== Sys2Proof/Machine/Image.lean ====
section
/-! DEFINITION. The configuration image (R372 to R375): its sections, what an engine takes from it, and the default settings (R383). -/

namespace Sys2Proof.Machine

open Sys2Proof

/-- Numbers of 2 and 4 bytes at an offset. -/
def u16At (b : Bytes) (o : Nat) : Nat := leNat (slice b o 2)
def u32At (b : Bytes) (o : Nat) : Nat := leNat (slice b o 4)
def u8At (b : Bytes) (o : Nat) : Nat := (b.getD o 0).toNat

/-- A byte string in pieces of `n`; the first argument bounds their number. -/
def pieces (n : Nat) : Nat → Bytes → List Bytes
  | 0, _ => []
  | k + 1, b => b.take n :: pieces n k (b.drop n)

/-! ### Header and sections (R372) -/

def imgFormat (b : Bytes) : Nat := u32At b 4
def imgVersion (b : Bytes) : Nat := u32At b 8
def imgSerial (b : Bytes) : Nat := leNat (slice b 24 8)
def imgCount (b : Bytes) : Nat := u16At b 16

/-- The version of a slot's image; 0 when the slot is empty. -/
def slotVersion (b : Option Bytes) : Nat := (b.map imgVersion).getD 0

/-- A length padded to a multiple of 4. -/
def pad4 (n : Nat) : Nat := (n + 3) / 4 * 4

/-- Sections in the order of their entries: ID and content, from `off` on. -/
def takeSections (b : Bytes) : Nat → List Bytes → List (Nat × Bytes)
  | _, [] => []
  | off, e :: r => (u16At e 0, slice b off (u32At e 4)) :: takeSections b (off + pad4 (u32At e 4)) r

/-- The section entries. -/
def imgEntries (b : Bytes) : List Bytes := pieces 8 (imgCount b) (b.drop 64)

/-- The sections of an image. -/
def imgSections (b : Bytes) : List (Nat × Bytes) := takeSections b (64 + 8 * imgCount b) (imgEntries b)

/-- Where the sections end. -/
def sectionsEnd (b : Bytes) : Nat := (imgEntries b).foldl (fun o e => o + pad4 (u32At e 4)) (64 + 8 * imgCount b)

/-- MAGIC "ZCFG". -/
def imgMagic : Bytes := [0x5A, 0x43, 0x46, 0x47]

def allZero (b : Bytes) : Bool := b.all (· == 0)

/-- Check 0x0001 (R372, R377): MAGIC, LENGTH, N_SECT, zero bytes of the header and of the entries, section bounds, trailer CRC. -/
def imgFormed (b : Bytes) : Bool :=
  let n := b.length
  decide (64 ≤ n) && decide (n ≤ 65536) && slice b 0 4 == imgMagic && u32At b 12 == n && allZero (slice b 18 6) &&
    allZero (slice b 56 8) && decide (1 ≤ imgCount b) && decide (imgCount b ≤ 32) && decide (64 + 8 * imgCount b + 4 ≤ n) &&
    (imgEntries b).all (fun e => allZero (slice e 2 2)) && sectionsEnd b + 4 == n &&
    crc32 (b.take (n - 4)) == BitVec.ofNat 32 (u32At b (n - 4))

/-- The content of a section; none: the image lacks it. -/
def sectionOf (l : List (Nat × Bytes)) (id : Nat) : Option Bytes := (l.find? fun e => e.1 == id).map Prod.snd

/-! ### What a section holds (Tables 5.1, 5.2, 13.2, 14.1, R448) -/

/-- The s64 values of a scalar section (R375). -/
def scalars (b : Bytes) : List (Option Int) := (pieces 8 (b.length / 8) b).map fun x => some (leInt x)

/-- A model table (Table 5.1). -/
def modelOf (b : Bytes) : Model :=
  { socAx := (List.range 64).map fun n => u16At b (2 * n)
    tAx := (List.range 3).map fun t => leInt (slice b (128 + 2 * t) 2)
    ocv := (List.range 3).map fun t => (List.range 2).map fun k => (List.range 64).map fun n => u16At b (136 + 256 * t + 128 * k + 2 * n)
    flat := (List.range 3).map fun t => leNat (slice b (904 + 8 * t) 8)
    imp := (List.range 3).map fun t => (List.range 6).map fun m => (List.range 5).map fun j => u32At b (928 + 120 * t + 20 * m + 4 * j)
    imax := (List.range 3).map fun t => (u16At b (1288 + 4 * t), u16At b (1290 + 4 * t))
    vMin := u16At b 1300
    vMax := u16At b 1302
    vFull := u16At b 1304
    vEmpty := u16At b 1306
    qNom := u32At b 1308 }

/-- One bank: the ten words at 0x0100 to 0x0124 of Table 9.12. -/
def bankWords (b : Bytes) : Bank :=
  let w (k : Nat) : Int := leInt (slice b (4 * k) 4)
  { b := [w 0, w 1, w 2, w 3], a := [w 4, w 5, w 6], shift := u32At b 28 % 16, order3 := u32At b 28 / 256 % 2 == 1
    uMin := w 8, uMax := w 9 }

/-- The value of an IP address, in network byte order (R372). -/
def beWord (b : Bytes) : Word := BitVec.ofNat 32 (leNat b.reverse)

/-- NETWORK. -/
def netOf (b : Bytes) : NetCfg :=
  { msA := u8At b 0, msB := u8At b 1, ip4Mode := u8At b 2, domain := u8At b 3, port := u16At b 4, noticeDscp := u8At b 6
    recDscp := u8At b 7, classMax := u8At b 8, asymA := leInt (slice b 12 4), asymB := leInt (slice b 16 4), idle := u16At b 20
    lifetime := u16At b 22, ip4 := beWord (slice b 24 4), mask := beWord (slice b 28 4), gw := beWord (slice b 32 4)
    ip6 := slice b 36 16, ip6Len := u8At b 52, ip6Gw := slice b 56 16 }

/-- PAIR (Table 14.1). -/
def pairOf (b : Bytes) : PairCfg :=
  { role := u8At b 0, settle := u16At b 2, dutyDev := u32At b 4, peerSerial := leNat (slice b 8 8) }

/-- One class of RECORDER: 72 bytes (R448). -/
def recClassOf (b : Bytes) : RecClass :=
  { enable := u8At b 0 == 1, flush := u8At b 1 == 1, regs := (List.range (min 16 (u8At b 2))).map fun k => u32At b (8 + 4 * k) }

/-- PORTS, SLOTS, GROUPS entries (Table 13.2). -/
def portEntry (b : Bytes) : CfgPort := { ke := u8At b 0, shared := u8At b 1 % 2 == 1, rBleed := u16At b 2 }
def slotEntry (b : Bytes) : CfgSlot := { tMask := BitVec.ofNat 4 (u8At b 0), r26 := u16At b 2, b := u16At b 4 }
def groupEntry (b : Bytes) : CfgGroup :=
  { slot := if u8At b 0 = 0xFF then none else some (u8At b 0), input := u8At b 1, model := u8At b 2, qInit := u32At b 4
    sSer := u16At b 8, sFast := u16At b 10, sSlow := u16At b 12, tsA := BitVec.ofNat 16 (u16At b 14)
    tsB := BitVec.ofNat 16 (u16At b 16), wA := u16At b 18, rTh := u16At b 20, tauTh := u16At b 22 }

/-- The configuration that an image spells; a section that is absent takes its defaults. -/
def cfgOf (b : Bytes) : Cfg :=
  let l := imgSections b
  let get (id : Nat) : Bytes := (sectionOf l id).getD []
  let has (id : Nat) : Bool := (sectionOf l id).isSome
  let r := get 0x21
  let models := get 0x04
  { version := imgVersion b
    ports := (pieces 8 48 (get 0x01)).map portEntry
    slots := (pieces 8 144 (get 0x02)).map slotEntry
    groups := (pieces 24 768 (get 0x03)).map groupEntry
    models := (pieces 1312 (models.length / 1312) models).map modelOf
    bins := (List.range 8).map fun k => BitVec.ofNat 32 (u32At (get 0x05) (4 * k))
    banks := if has 0x06 then (pieces 40 4 (get 0x06)).map bankWords else []
    net := if has 0x07 then netOf (get 0x07) else { ip4Mode := 1 }
    smp := scalars (get 0x10), est := scalars (get 0x11), imp := scalars (get 0x12), bal := scalars (get 0x13)
    pro := scalars (get 0x14), ctl := scalars (get 0x15), hkp := scalars (get 0x22)
    hasCtl := has 0x15
    pair := if has 0x20 then some (pairOf (get 0x20)) else none
    fill := if has 0x21 then u16At r 0 else 64
    period := if has 0x21 then u16At r 2 else 1
    classes := if has 0x21 then (pieces 72 8 (r.drop 8)).map recClassOf else [] }

/-- Default settings (R383). -/
def defaultCfg : Cfg := {}

/-- MAP_CRC of a pair: CRC-32 over PORTS, SLOTS, GROUPS and MODELS of the ACTIVE image (R403); 0 without an image. -/
def mapCrc (s : State) : Word :=
  match s.nv.active with
  | some b =>
    let l := imgSections b
    crc32 ([1, 2, 3, 4].flatMap fun id => (sectionOf l id).getD [])
  | none => 0

end Sys2Proof.Machine
end

