-- ==== Sys2Proof/Machine/Engine.lean ====
section
/-! DEFINITION. The SRC in force (R298, R415), and stopping the control engine (R277 to R280): what a park, a fault and the leaving of RUN do to it. -/

namespace Sys2Proof.Machine

open Sys2Proof

def modCtl (f : Ctl → Ctl) (s : State) : State := { s with ctl := f s.ctl }

/-- T_ZERO in ns. -/
def tZeroOf (s : State) : Nat := s.cfgCtl.tZero

/-- The holder's last STATUS, for the shadow loop (R415). -/
def shadowOf (s : State) : Option PeerStatus := if s.ctl.state == 5 then s.pai.peer else none

/-- The SRC in force: the holder's in SHADOW (R415). -/
def srcNow (s : State) : Nat := match shadowOf s with | some f => f.src | none => s.ctl.src

/-- SRC names a pulse source, an analogue source. -/
def srcPulse (n : Nat) : Bool := n == 1 || n == 3
def srcAnalog (n : Nat) : Bool := n == 2 || n == 4

/-- Leaves fallback: CHANTER_BACK (R298). -/
def backFx (s : State) : State := if s.ctl.fallback then raise 0x0C 8 (modCtl (fun c => { c with fallback := false }) s) else s

/-- The engine's time: that of its last update, or module time. -/
def ctlNow (s : State) : Nat := max s.smp.timeNs s.ctl.time

/-- A pulse input is valid: an edge within the last 200 µs and a valid period ended within the last 500 µs (R298). -/
def pulseOk (s : State) : Bool := s.ctl.edgeOk && s.ctl.perOk && decide (ctlNow s < s.ctl.perAt + 500000)

/-- What another SRC in force does to the measurement and to fallback (R295, R298). -/
def srcTaken (n : Nat) (s : State) : State :=
  let rest := srcAnalog n
  let s := modCtl (fun c => { c with
    periods := if rest then [] else c.periods, edgeSeen := c.edgeSeen && !rest, sCh := if rest then 0 else c.sCh
    edgeOk := c.edgeOk && !rest, perOk := c.perOk && !rest }) s
  if n = 0 then backFx s
  else if s.cfgCtl.chReturn == 0 && (if srcPulse n then pulseOk s else s.ctl.analogOk) then backFx s
  else s

/-- The SRC in force was `old` before: a STATUS, the entry into SHADOW or the end of it may change it (R415, R426). -/
def srcWatch (old : Nat) (s : State) : State := if srcNow s = old then s else srcTaken (srcNow s) s

/-- Pins low, gates off, the limiter, the phase balance and every history at 0, tones ended (R277, R279, R301). -/
def haltEngine (st cause fault : Nat) (s : State) : State :=
  srcWatch (srcNow s) (modCtl (fun c => { c with
    state := st, stopCause := cause, fault := fault, endAt := ctlNow s, enable := false, pwm0 := none, pwm1 := none
    out := 0, bal := 0, e1 := 0, e2 := 0, e3 := 0, u1 := 0, u2 := 0, u3 := 0, r1 := 0, lastDir := 0, tZero := tZeroOf s
    started := false, begun0 := false, begun1 := false, p0 := none, p1 := none
    tones := [], tonesNext := none, clipAt := none, quietRun := 0 }) s)

/-- AO0 in mV by AO_MODE (R303): 10 V for COOLING while no temperature input is valid, 0 V in DORMANT and LISTEN. -/
def aoUpdate (s : State) : State :=
  let c := s.cfgCtl
  let cool : Nat :=
    if !s.pro.tValid then 10000
    else
      let t : Int := (27315 + s.pro.tMax.toInt) * 10000000
      if c.aoT1 ≤ c.aoT0 then 10000
      else (max 0 (min 10000 (roundRat (10000 * ((t - c.aoT0 : Int) : Rat) / (c.aoT1 - c.aoT0 : Int))))).toNat
  if hasCtl s then
    modCtl (fun x => { x with aoOut := if !sampling s then 0 else if c.aoMode = 1 then x.aoHost else if c.aoMode = 2 then cool else 0 }) s
  else s

/-- Answers the CTL_START in progress (Table 11.3). -/
def answerStart (status : Nat) (body : Bytes) (s : State) : State :=
  match running 0x0801 s with
  | none => s
  | some d =>
    let s := { s with ses := { s.ses with deferred := s.ses.deferred.erase d } }
    let x := s.sess d.ctx.toNat
    if x.opened && x.gen == d.gen then respond ⟨d.ctx, d.tag, true⟩ 0x0801 status body s else s

/-- GATE_EN is the engine's: STARTING, RUNNING, STOPPING. -/
def engineRuns (s : State) : Bool := s.ctl.state == 2 || s.ctl.state == 3 || s.ctl.state == 4

/-- The five outputs to the stage at this module's pins: low while GATE_EN is low, the pattern from PAIR_GE_SETTLE on (R292, R426). -/
def stagePins (s : State) : Stage :=
  if gateEn s then
    { gate := true, pwm0 := if s.pai.settle then none else s.ctl.pwm0, pwm1 := if s.pai.settle then none else s.ctl.pwm1 }
  else {}

/-- A park with its STOP_CAUSE (R277, R278); `told`: by the rule of R277, with STOPPED. A shadow engine parks without a pattern. -/
def parkEngineWith (cause : Nat) (told : Bool) (s : State) : State :=
  if engineRuns s then
    let s := raiseIf told 0x0C 1 (haltEngine 1 cause 0 s)
    completeOp 0x0802 stOk [] (answerStart stForbidden [0, BitVec.ofNat 8 cause] s)
  else if s.ctl.state = 5 then haltEngine 1 cause 0 s
  else s

/-- A park under R278. -/
def parkEngine (cause : Nat) (s : State) : State := parkEngineWith cause false s

/-- Into FAULT with its own flag (R280). -/
def enterFault (code flag cause : Nat) (s : State) : State :=
  let s := raise 0x0C 2 (raise 0x0C flag (haltEngine 6 cause code s))
  completeOp 0x0802 stForbidden [BitVec.ofNat 8 code] (answerStart stForbidden [BitVec.ofNat 8 code] s)

/-- Of a fault and a PRO trip at one module time, whether they fall in the same CTL clock cycle is free (R281; DESIGN CHOICE, log entry 4). -/
def sameCycle (s : State) : Bool × State :=
  match takeWord s with
  | (w, s) => (w.getLsbD 0, s)

/-- A fault of Table 9.3 with its own flag (R280). In the CTL clock cycle of a PRO trip it enters FAULT too, STOP_CAUSE 2 (R281). -/
def faultEngine (code flag : Nat) (s : State) : State :=
  if engineRuns s || s.ctl.state == 5 then enterFault code flag 5 s
  else if s.ctl.state = 1 && s.ctl.stopCause = 2 && s.ctl.endAt = ctlNow s then
    match sameCycle s with
    | (true, s) => enterFault code flag 2 s
    | (false, s) => s
  else s

/-- What a PRO trip does to the engine (R278): it parks it; a fault of the same CTL clock cycle keeps it in FAULT, STOP_CAUSE 2 (R281). -/
def tripEngine (s : State) : State :=
  if s.ctl.state = 6 && s.ctl.stopCause = 5 && s.ctl.endAt = ctlNow s then
    match sameCycle s with
    | (true, s) => modCtl (fun c => { c with stopCause := 2 }) s
    | (false, s) => s
  else parkEngine 2 s

/-- The power state leaves RUN: the engine parks and goes OFF (Table 9.1, R278). -/
def engineOff (s : State) : State := modCtl (fun c => { c with state := 0, fault := 0 }) (parkEngine 7 s)

end Sys2Proof.Machine
end

