-- ==== Sys2Proof/Machine/Float.lean ====
section
/-! DEFINITION. IEEE 754 binary32 arithmetic (R143, R193): every operation is exact and then rounded to nearest, ties to even. -/

namespace Sys2Proof.Machine

open Sys2Proof

namespace F32

/-- Sign, biased exponent and fraction. -/
def sgn (x : F32) : Bool := x.getLsbD 31
def ex (x : F32) : Nat := (x.extractLsb' 23 8).toNat
def fr (x : F32) : Nat := (x.extractLsb' 0 23).toNat

def isNan (x : F32) : Bool := ex x == 255 && fr x != 0
def isInf (x : F32) : Bool := ex x == 255 && fr x == 0

/-- The quiet NaN, an infinity, a zero with the given sign. -/
def nan : F32 := 0x7FC00000
def inf (s : Bool) : F32 := if s then 0xFF800000 else 0x7F800000
def zero (s : Bool) : F32 := if s then 0x80000000 else 0

/-- 2 to an integer power. -/
def pow2 (e : Int) : Rat := if 0 ≤ e then ((2 ^ e.toNat : Nat) : Rat) else 1 / ((2 ^ (-e).toNat : Nat) : Rat)

/-- The value of a finite number. -/
def val (x : F32) : Rat :=
  let m : Rat := if ex x = 0 then ((fr x : Nat) : Rat) * pow2 (-149) else ((2 ^ 23 + fr x : Nat) : Rat) * pow2 ((ex x : Int) - 150)
  if sgn x then -m else m

/-- `q` units and a part below one unit, compared with one half: rounded to nearest, ties to even. -/
def nearestEven (q : Nat) (rem den : Nat) : Nat :=
  if den < 2 * rem then q + 1 else if 2 * rem = den && q % 2 = 1 then q + 1 else q

/-- The largest e with 2^e ≤ n / d, for positive n and d. -/
def expOf (n d : Nat) : Int :=
  let e : Int := (n.log2 : Int) - (d.log2 : Int)
  let ok (e : Int) : Bool := if 0 ≤ e then decide (d * 2 ^ e.toNat ≤ n) else decide (d ≤ n * 2 ^ (-e).toNat)
  if ok e then e else e - 1

/-- Packs a magnitude n / d (n > 0) with a sign. -/
def pack (s : Bool) (n d : Nat) : F32 :=
  let e := max (expOf n d) (-126)
  let sh := 23 - e
  let n' := if 0 ≤ sh then n * 2 ^ sh.toNat else n
  let d' := if 0 ≤ sh then d else d * 2 ^ (-sh).toNat
  let q := nearestEven (n' / d') (n' % d') d'
  let e' := if 2 ^ 24 ≤ q then e + 1 else e
  let q' := if 2 ^ 24 ≤ q then q / 2 else q
  if 127 < e' then inf s
  else
    let bits := if q' < 2 ^ 23 then q' else (e' + 127).toNat * 2 ^ 23 + (q' - 2 ^ 23)
    BitVec.ofNat 32 (bits + if s then 2 ^ 31 else 0)

/-- The nearest binary32 number to a rational; `s` is the sign of a zero. -/
def round (s : Bool) (r : Rat) : F32 := if r = 0 then zero s else pack (decide (r < 0)) r.num.natAbs r.den

def ofRat (r : Rat) : F32 := round false r
def ofInt (i : Int) : F32 := ofRat i
def ofNat (n : Nat) : F32 := ofRat n
def one : F32 := 0x3F800000

def neg (x : F32) : F32 := x ^^^ 0x80000000
def abs (x : F32) : F32 := x &&& 0x7FFFFFFF

def add (x y : F32) : F32 :=
  if isNan x || isNan y then nan
  else if isInf x then (if isInf y && sgn x != sgn y then nan else x)
  else if isInf y then y
  else round (sgn x && sgn y) (val x + val y)

def sub (x y : F32) : F32 := add x (neg y)

def mul (x y : F32) : F32 :=
  let s := sgn x != sgn y
  if isNan x || isNan y then nan
  else if isInf x || isInf y then (if val x = 0 || val y = 0 then nan else inf s)
  else round s (val x * val y)

def div (x y : F32) : F32 :=
  let s := sgn x != sgn y
  if isNan x || isNan y then nan
  else if isInf x then (if isInf y then nan else inf s)
  else if isInf y then zero s
  else if val y = 0 then (if val x = 0 then nan else inf s)
  else round s (val x / val y)

/-- The integer square root, found bit by bit from the bit `k` down. -/
def isqrtAux (n : Nat) : Nat → Nat → Nat
  | 0, r => r
  | k + 1, r => let t := r + 2 ^ k; isqrtAux n k (if t * t ≤ n then t else r)

def isqrt (n : Nat) : Nat := isqrtAux n (n.log2 / 2 + 1) 0

/-- The correctly rounded square root: 2^40 units per unit of the root of a value scaled by an even power of 2, and whether it is
exact. -/
def sqrt (x : F32) : F32 :=
  if isNan x then nan
  else if val x = 0 then x
  else if sgn x then nan
  else if isInf x then x
  else
    let r := val x
    let n := r.num.natAbs * 2 ^ 300 / r.den
    let q := isqrt n
    if q * q = n && r.num.natAbs * 2 ^ 300 % r.den = 0 then pack false q (2 ^ 150) else pack false (2 * q + 1) (2 ^ 151)

/-- Comparison: false with a NaN. -/
def lt (x y : F32) : Bool :=
  if isNan x || isNan y then false
  else if isInf x then sgn x && !(isInf y && sgn y)
  else if isInf y then !sgn y
  else decide (val x < val y)

def le (x y : F32) : Bool := !isNan x && !isNan y && !lt y x

def min (x y : F32) : F32 := if lt y x then y else x
def max (x y : F32) : F32 := if lt x y then y else x

/-- The value, 0 for what is not finite. -/
def toRat (x : F32) : Rat := if ex x = 255 then 0 else val x

/-- A number in a published format: `k` units per 1, rounded half away from zero, saturated (R143). -/
def publish (x : F32) (k : Rat) (lo hi : Int) : Int :=
  if isNan x then 0
  else if isInf x then (if sgn x then lo else hi)
  else
    let v := val x * k
    let i := if 0 ≤ v then (v + 1 / 2).floor else -((-v + 1 / 2).floor)
    Max.max lo (Min.min i hi)

end F32

end Sys2Proof.Machine
end

