-- ==== Sys2Proof/Machine/Learned.lean ====
section
/-! DEFINITION. The learned data of the estimator in NV (R169, R170). -/

namespace Sys2Proof.Machine

open Sys2Proof

def modEst (f : Est → Est) (s : State) : State := { s with est := f s.est }

/-- σ_SOC: the square root of P[0,0], capped at 50% (R158). -/
def sigmaOf (c : Ctx) : F32 := F32.min (F32.sqrt (c.p.getD 0 0)) 0x3F000000

/-- The learned data of a context (R169). -/
def learnedOf (c : Ctx) : LearnedGroup :=
  { valid := c.valid, z := c.z, cc := c.cc, h := c.h, sigma := sigmaOf c, age := c.age, cap := c.cap
    sSer := c.sSer, sFast := c.sFast, sSlow := c.sSlow, relearnReq := c.relearnReq, retained := c.retained }

/-- The dynamic part of a fresh group over the rest of a saved one. -/
def overDynamic (old new : LearnedGroup) : LearnedGroup :=
  { old with valid := new.valid, z := new.z, cc := new.cc, h := new.h, sigma := new.sigma, age := new.age }

/-- The newest valid copy. -/
def newestCopy (n : Nv) : Option LearnedCopy :=
  if n.copyA.ok && (!n.copyB.ok || decide (n.copyB.seq < n.copyA.seq)) then some n.copyA
  else if n.copyB.ok then some n.copyB
  else none

/-- RETAIN bits with the learned data of the ports. -/
def learnedPorts (s : State) : List LearnedPort := s.est.ports.mapIdx fun p x => { x with retain := s.est.retain.getLsbD p }

/-- A save into the copy whose turn it is (R169): the whole set or the dynamic part; a save that fails leaves the other copy intact. -/
def saveLearned (whole final ok : Bool) (s : State) : State :=
  let base := newestCopy s.nv
  let now := s.est.ctx.map learnedOf
  let groups := match base, whole with
    | some b, false => now.mapIdx fun g x => overDynamic (b.groups.getD g x) x
    | _, _ => now
  let ports := match base, whole with
    | some b, false => b.ports
    | _, _ => learnedPorts s
  let seq := (match base with | some b => b.seq | none => 0) + 1
  let c : LearnedCopy := { seq := seq, ok := ok, final := final, groups := groups, ports := ports }
  let intoB := match base with | some b => b == s.nv.copyA | none => false
  let s := { s with nv := if intoB then { s.nv with copyB := c, lastFinal := final && ok } else { s.nv with copyA := c, lastFinal := final && ok } }
  modEst (fun e => { e with saveBusy := false, saveWhole := false }) (raiseIf (!ok) 0x08 9 s)

end Sys2Proof.Machine
end

