-- ==== Sys2Proof/Machine/Wire.lean ====
section
/-! DEFINITION. The symbols of the Brynkai link (R43 to R46): 4B/5B code groups, the side-stream scrambler, what a receiver makes of a
window, and the form of the four kinds of frame (R51 to R53). -/

namespace Sys2Proof.Machine

open Sys2Proof

/-! ### Code groups (R43, Table 2.3) -/

/-- The data code groups of ISO/IEC 9314-1 for the nibbles 0 to F (PRESUMED, log entry 53: R43 names the standard and does not print
its table). -/
def dataGroups : List Group :=
  [0b11110, 0b01001, 0b10100, 0b10101, 0b01010, 0b01011, 0b01110, 0b01111,
   0b10010, 0b10011, 0b10110, 0b10111, 0b11010, 0b11011, 0b11100, 0b11101]

def groupI : Group := 0b11111
def groupJ : Group := 0b11000
def groupK : Group := 0b10001
def groupT : Group := 0b01101
def groupR : Group := 0b00111

/-- The code groups of a byte, low nibble first. -/
def byteGroups (b : Byte) : List Group := [dataGroups.getD (b.toNat % 16) 0, dataGroups.getD (b.toNat / 16) 0]

/-- A frame on the line: J, K, its bytes, T, R (R45). -/
def frameGroups (b : Bytes) : List Group := [groupJ, groupK] ++ b.flatMap byteGroups ++ [groupT, groupR]

/-- The bits of a code group, the leftmost first. -/
def groupBits (g : Group) : Bits := [g.getLsbD 4, g.getLsbD 3, g.getLsbD 2, g.getLsbD 1, g.getLsbD 0]

/-! ### The scrambler (R44) -/

/-- The output of the scrambler x¹¹ + x⁹ + 1 in a state that holds its last eleven outputs, the newest in bit 0. -/
def scrOut (k : BitVec 11) : Bool := k.getLsbD 10 ^^ k.getLsbD 8

/-- The state after an output. -/
def scrNext (k : BitVec 11) : BitVec 11 := (k <<< 1) ||| (if scrOut k then 1 else 0)

/-- Scrambles, or descrambles, from a state. -/
def scramble (k : BitVec 11) : Bits → Bits
  | [] => []
  | b :: r => (b ^^ scrOut k) :: scramble (scrNext k) r

/-- The lead-in of a window: 24 idle groups. -/
def leadIn : Bits := List.replicate 120 true

/-- The stream of a window: groups that start at their bit of the window, idle before and between them. The second argument is the
length laid so far. -/
def layGroups : List (Nat × List Group) → Nat → Bits
  | [], _ => []
  | (off, g) :: r, n =>
    let b := g.flatMap groupBits
    List.replicate (off - n) true ++ b ++ layGroups r (max n off + b.length)

/-- What a transmitter puts on its lane in a window (R44): from state `k`, idle up to each piece, the pieces. -/
def windowBits (k : BitVec 11) (pieces : List (Nat × List Group)) : Bits := scramble k (layGroups pieces 0)

/-- One frame behind its lead-in. -/
def frameBits (k : BitVec 11) (b : Bytes) : Bits := windowBits k [(120, frameGroups b)]

/-- The state in which a transmitter's scrambler opens a window: any but zero, free (R44; DESIGN CHOICE, log entry 4). -/
def takeSeed (s : State) : BitVec 11 × State :=
  match takeWord s with
  | (w, s) => (BitVec.ofNat 11 (w.toNat % 2047 + 1), s)

/-! ### The receiver (R43 to R45) -/

/-- The descrambler's state after the first eleven bits of idle: idle is all ones, so each bit received is the inverse of the scrambler's. -/
def idleState (b : Bits) : BitVec 11 := (b.take 11).foldl (fun k x => (k <<< 1) ||| (if x then 0 else 1)) 0

/-- The window descrambled, where the descrambler locks: the lead-in is idle under the state that its own first bits give (DESIGN
CHOICE, log entry 73: R44 gives the time of the lock and no criterion). -/
def descramble (b : Bits) : Option Bits :=
  let k := idleState b
  let d := scramble k (b.drop 11)
  if b.length < 120 || k = 0 || (d.take 109).any (!·) then none else some (d.drop 109)

/-- The next group of a descrambled stream. -/
def groupOf (b : Bits) : Group := (b.take 5).foldl (fun g x => (g <<< 1) ||| (if x then 1 else 0)) 0

/-- The groups of a frame that has begun: up to R, or to the end of the stream. The first argument bounds their number. -/
def takeGroups : Nat → Bits → List Group × Bits
  | 0, b => ([], b)
  | n + 1, b =>
    if b.length < 5 then ([], [])
    else
      let g := groupOf b
      if g = groupR then ([g], b.drop 5)
      else
        match takeGroups n (b.drop 5) with
        | (l, r) => (g :: l, r)

/-- The frames of a stream with the bit at which each begins; a frame begins at a J after idle. The second argument is the present bit,
the first bounds the work. -/
def findFrames : Nat → Nat → Bits → List (Nat × List Group)
  | 0, _, _ => []
  | n + 1, at_, b =>
    if b.isEmpty then []
    else if groupOf b = groupJ && decide (5 ≤ b.length) then
      match takeGroups b.length b with
      | (l, r) => (at_, l) :: findFrames n (at_ + 5 * l.length) r
    else findFrames n (at_ + 1) (b.drop 1)

/-- The frames that a receiver finds in a window, with their first bit counted from its opening; none where it does not lock. -/
def windowFrames (b : Bits) : List (Nat × List Group) :=
  match descramble b with
  | some d => findFrames d.length 120 d
  | none => []

/-- The bytes of pairs of data groups; none where a group is no data group. -/
def groupsBytes : List Group → Option Bytes
  | [] => some []
  | [_] => none
  | a :: b :: r =>
    match dataGroups.findIdx? (· == a), dataGroups.findIdx? (· == b), groupsBytes r with
    | some x, some y, some l => some (BitVec.ofNat 8 (x + 16 * y) :: l)
    | _, _, _ => none

/-- The bytes of a frame as received; none where it holds an invalid code group or is not delimited by J, K, T, R. -/
def frameBytesOf (l : List Group) : Option Bytes :=
  if l.take 2 = [groupJ, groupK] && decide (4 ≤ l.length) && l.drop (l.length - 2) = [groupT, groupR] then
    groupsBytes ((l.take (l.length - 2)).drop 2)
  else none

/-- What a frame is found to be, in the order of R45 and R46. -/
inductive Heard where
  /-- an invalid code group -/
  | symbols
  /-- its CRC fails -/
  | crc
  /-- a reserved TYPE -/
  | reserved
  /-- its length does not match its type -/
  | length
  /-- a valid frame, without its CRC -/
  | frame (b : Bytes)
  deriving DecidableEq, Repr

/-- The length that a frame's type asks for, its CRC included (R51 to R53); none for a reserved TYPE (Table 2.4). -/
def typeLength (b : Bytes) : Option Nat :=
  match (b.getD 0 0).toNat / 16 with
  | 1 => some (12 + 12 * ((b.getD 6 0).toNat % 4))
  | 2 => some 64
  | 3 => some (12 + leNat (slice b 4 2))
  | 4 => some 8
  | _ => none

/-- The checks of R45 and R46 on received bytes. -/
def checkFrame (b : Bytes) : Heard :=
  let n := b.length - 4
  if b.length < 5 || crc32 (b.take n) != BitVec.ofNat 32 (leNat (b.drop n)) then .crc
  else
    match typeLength b with
    | none => .reserved
    | some m => if m = b.length then .frame (b.take n) else .length

/-- A frame as received in code groups. -/
def hearGroups (l : List Group) : Heard :=
  match frameBytesOf l with
  | some b => checkFrame b
  | none => .symbols

/-- The last frame of a window so far, which has just ended. -/
def hearLast (b : Bits) : Option Heard := ((windowFrames b).getLast?).map fun e => hearGroups e.2

/-- A frame's bytes with their CRC (R45). -/
def withCrc (b : Bytes) : Bytes := b ++ leW (crc32 b)

/-- Sends a frame on PEER_TX: PTYPE and content, with the CRC, coded and scrambled as on a module lane (R403, R404). -/
def sendPeer (ptype : Byte) (body : Bytes) (s : State) : State :=
  match takeSeed s with
  | (k, s) => send (.peer k (withCrc (ptype :: body))) s

/-! ### Layouts (R51, R53) -/

/-- DIR of a frame that leaves lane `l` of the port, in its place (Table 2.4). -/
def dirBit (l : Lane) : Nat := match l with | .N => 0 | .S => 8

/-- One command slot (Table 2.6). -/
def slotBytes (k : DownCmd) : Bytes := [k.dst, k.cseq, k.opc] ++ le 1 k.data.length ++ fit 8 k.data

/-- A DOWN frame (Table 2.6). -/
def downBytes (l : Lane) (cad instant : Nat) (flags : Byte) (port : Nat) (cmds : List DownCmd) : Bytes :=
  withCrc (le 1 (0x10 + dirBit l + cad) ++ le 4 instant ++ [flags] ++ le 1 cmds.length ++ le 1 port ++ cmds.flatMap slotBytes)

/-- A BULK frame (R53). -/
def bulkBytes (l : Lane) (dst : Byte) (seg : Nat) (data : Bytes) : Bytes :=
  withCrc (le 1 (0x30 + dirBit l) ++ [dst] ++ le 2 seg ++ le 2 data.length ++ [0, 0] ++ data)

/-- An ECHO frame, which travels toward lane `l` (R53, R66). -/
def echoBytes (l : Lane) (src : Byte) (seq : Nat) : Bytes :=
  withCrc (le 1 (0x40 + (8 - dirBit l)) ++ [src] ++ le 2 seq)

/-- The fields of a valid DOWN frame: lane by DIR, CAD, INSTANT, FLAGS, PORT, command slots. -/
structure DownIn where
  lane : Lane
  cad : Nat
  instant : Nat
  flags : Byte
  port : Nat
  slots : List LinkCmd
  deriving DecidableEq, Repr

/-- A valid frame read as a DOWN frame. -/
def downIn (b : Bytes) : Option DownIn :=
  let t := (b.getD 0 0).toNat
  if t / 16 ≠ 1 then none
  else some {
    lane := if t / 8 % 2 = 0 then .N else .S
    cad := t % 8
    instant := leNat (slice b 1 4)
    flags := b.getD 5 0
    port := (b.getD 7 0).toNat % 64
    slots := (List.range ((b.getD 6 0).toNat % 4)).map fun i =>
      { dst := b.getD (8 + 12 * i) 0, cseq := b.getD (9 + 12 * i) 0, opc := b.getD (10 + 12 * i) 0
        len := (b.getD (11 + 12 * i) 0).toNat, data := slice b (12 + 12 * i) 8 } }

end Sys2Proof.Machine
end

