-- ==== Sys2Proof/Machine/Link.lean ====
section
/-! DEFINITION. Monitor ports (02): command slots and retries, what the receivers find, ring and lane judgement, delays and corrections,
and the commands ECHO_RECEIVED, RING_BROKEN, RING_RESTORED, LANE_DOWN. -/

namespace Sys2Proof.Machine

open Sys2Proof

/-! ### Commands to units (R55, R56, R59) -/

/-- A command waits for a slot of port `p`. -/
def addReq (p : Nat) (r : LinkReq) (s : State) : State := modPort p (fun x => { x with waiting := x.waiting ++ [r] }) s

/-- The address of a position. -/
def addrOf (p c : Nat) : Byte := BitVec.ofNat 8 (4 * p + c)

/-- A command for the unit at (p, c). -/
def reqTo (pri p c opc : Nat) (data : Bytes) : LinkReq := { pri := pri, dst := addrOf p c, opc := BitVec.ofNat 8 opc, data := data }

/-- UNIT_DIAG is answered when its unit has answered; where it did not, or not DONE, no status is stated: free (DESIGN CHOICE, log entry 20). -/
def diagAnswer (u : Nat) (res : Option Bytes) (s : State) : State :=
  match s.ses.deferred.find? fun d => d.op == 0x0E02 && d.arg == u with
  | none => s
  | some d =>
    let s := { s with ses := { s.ses with deferred := s.ses.deferred.erase d } }
    let x := s.sess d.ctx.toNat
    if !x.opened || x.gen != d.gen then s
    else match res with
      | some b => respond ⟨d.ctx, d.tag, true⟩ 0x0E02 stOk (fit 8 b) s
      | none => let x := takeWord s; respond ⟨d.ctx, d.tag, true⟩ 0x0E02 (x.1.toNat % 256) [] x.2

/-- Diagnosis requests of some slots that can no longer be answered by their units. -/
def diagDrop (slots : Nat → Bool) (s : State) : State :=
  forAll s.ses.deferred (fun d s => if d.op == 0x0E02 && slots d.arg then diagAnswer d.arg none s else s) s

/-- What one DOWN frame takes: the port, the commands placed, the requests left. -/
structure Fill where
  port : Port
  cmds : List DownCmd
  left : List LinkReq
  deriving DecidableEq, Repr

/-- Places one waiting request if a slot is free and its unit has no command in flight. -/
def fillReq (f : Fill) (r : LinkReq) : Fill :=
  if 3 ≤ f.cmds.length then { f with left := f.left ++ [r] }
  else if r.dst = 0xFF then
    { f with cmds := f.cmds ++ [{ dst := r.dst, cseq := f.port.cseqAll, opc := r.opc, data := r.data }],
             port := { f.port with cseqAll := f.port.cseqAll + 1 } }
  else if r.dst = 0xFE then
    { f with cmds := f.cmds ++ [{ dst := r.dst, cseq := f.port.cseqFirst, opc := r.opc, data := r.data }],
             port := { f.port with cseqFirst := f.port.cseqFirst + 1 } }
  else
    let c := r.dst.toNat % 4
    match f.port.pos[c]? with
    | some x =>
      if x.cmd.isSome then { f with left := f.left ++ [r] }
      else
        { f with cmds := f.cmds ++ [{ dst := r.dst, cseq := x.cseq, opc := r.opc, data := r.data }],
                 port := { f.port with pos := f.port.pos.set c { x with cmd := some { req := r, cseq := x.cseq }, cseq := x.cseq + 1 } } }
    | none => f

/-- Places the retry of position `c`, if one waits and `ok` lets it go. -/
def fillRetry (ok : LinkReq → Bool) (f : Fill) (c : Nat) : Fill :=
  match f.port.pos[c]? with
  | some x =>
    match x.cmd with
    | some k =>
      if k.again && ok k.req && decide (f.cmds.length < 3) then
        { f with cmds := f.cmds ++ [{ dst := k.req.dst, cseq := k.cseq, opc := k.req.opc, data := k.req.data }],
                 port := { f.port with
                   pos := f.port.pos.set c { x with cmd := some { k with tries := k.tries + 1, age := 0, again := false } } } }
      else f
    | none => f
  | none => f

/-- Fills the command slots in the order of R55: planner stops, retries, other planner commands, the supervisor's. A request for which `ok` fails
is not sent: a waiting one is left, a retry waits. -/
def fillSlots (ok : LinkReq → Bool) (p : Port) : Fill :=
  let at_ (k : Nat) := p.waiting.filter fun r => r.pri == k && ok r
  let f : Fill := { port := { p with waiting := [] }, cmds := [], left := p.waiting.filter fun r => !ok r }
  let f := (at_ 1).foldl fillReq f
  let f := [0, 1, 2].foldl (fillRetry ok) f
  let f := (at_ 3).foldl fillReq f
  (at_ 4).foldl fillReq f

/-- One cycle passes for a command in flight: after 4 cycles without an answer a retry waits, at most 3 of them (R59). -/
def ageCmd (x : Pos) : Pos :=
  match x.cmd with
  | some k =>
    let k := { k with age := k.age + 1 }
    { x with cmd := some { k with again := k.again || (decide (4 ≤ k.age) && decide (k.tries < 3)) } }
  | none => x

/-- CMD_TIMEOUT is due: 3 retries and 4 cycles after the last one (R59). -/
def cmdDead (x : Pos) : Bool :=
  match x.cmd with
  | some k => decide (3 ≤ k.tries) && decide (4 ≤ k.age)
  | none => false

/-! ### What the receivers find (R43 to R46, R62, R65) -/

/-- The lane's transmitter and receiver work: not held off, in a split port the module's own lane (R77, Table 2.9). -/
def laneOn (s : State) (p : Nat) (lane : Lane) : Bool :=
  match lane with
  | .N => !(s.port p).forceN && !(split s p && role s == 2)
  | .S => !(s.port p).forceS && !(split s p && role s == 1)

/-- 0 for lane N, 1 for lane S. -/
def laneIdx (l : Lane) : Nat := match l with | .N => 0 | .S => 1

/-- What a receiver found: the counts of Table 2.14; a valid frame ends the lane-down state (R65). A frame whose length does not match its
type is counted nowhere (DESIGN CHOICE, log entry 57). -/
def noteHeard (p : Nat) (l : Lane) (h : Heard) (s : State) : State :=
  modPort p (fun x => match h with
    | .crc => { x with cnt := bumpAt x.cnt (laneIdx l) }
    | .symbols | .reserved => { x with cnt := bumpAt x.cnt (2 + laneIdx l) }
    | .length => x
    | .frame _ => (match l with
      | .N => { x with seenN := true, downN := false }
      | .S => { x with seenS := true, downS := false })) s

/-- A window so far on a lane: whether the receiver locks (R44), and the frame that has just ended. -/
def hearWindow (p : Nat) (l : Lane) (rx : Bits) (s : State) : State × Option Heard :=
  if !laneOn s p l then (s, none)
  else
    let s := if (descramble rx).isSome then
        modPort p (fun x => match l with | .N => { x with lkN := true } | .S => { x with lkS := true }) s
      else s
    match hearLast rx with
    | some h => (noteHeard p l h s, some h)
    | none => (s, none)

/-! ### Blocks and their second copies (R60, R61) -/

/-- The fields of an UP block (Table 2.7). -/
def blockOf (b : Bytes) : Block :=
  { src := b.getD 1 0
    status := BitVec.ofNat 16 (leNat (slice b 4 2))
    v := (List.range 16).map fun n => BitVec.ofNat 16 (leNat (slice b (6 + 2 * n) 2))
    t := (List.range 4).map fun n => BitVec.ofNat 16 (leNat (slice b (38 + 2 * n) 2))
    vstk := BitVec.ofNat 16 (leNat (slice b 46 2)) }

/-- The second copy of a block (R60, R61), of which the first brought the bytes 1 to `n`. -/
def secondCopy (p n : Nat) (old b : Bytes) (s : State) : State :=
  let s := modPort p (fun x => { x with cnt := bumpAt x.cnt 4 }) s
  if slice old 1 n = slice b 1 n then s
  else raise (20 + p) 11 (modPort p (fun x => { x with cnt := bumpAt x.cnt 7 }) s)

/-- A cycle of the port begins: no block of its instant has come yet. -/
def noBlocks (p : Nat) (s : State) : State :=
  modPort p (fun x => { x with pos := x.pos.map fun y => { y with got := none, late := none } }) s

/-! ### Ring and lanes (R62, R65, R78) -/

/-- The position is expected on the ring: c < k_e, or found where the configuration names none. -/
def expected (s : State) (p c : Nat) : Bool :=
  if 0 < (s.cfg.port p).ke then decide (c < (s.cfg.port p).ke) else (s.pos p c).present

/-- A block of the unit was accepted from either lane in the last 16 cycles (Table 2.12). -/
def reached (x : Pos) : Bool := decide (x.ageN < 16) || decide (x.ageS < 16)

/-- In a split port, the module reached the unit from its own lane in the last 16 cycles (R409). -/
def ownReach (s : State) (u : Nat) : Bool :=
  !split s (u / 3) || decide ((if role s = 2 then (s.posU u).ageS else (s.posU u).ageN) < 16)

/-- Some position is expected, every expected unit is reached. -/
def anyExpected (s : State) (p : Nat) : Bool := [0, 1, 2].any (expected s p)
def allReached (s : State) (p : Nat) : Bool := [0, 1, 2].all fun c => !expected s p c || reached (s.pos p c)

/-- Every expected unit of a split port is reached on the module's own lane (R78). -/
def allOwn (s : State) (p : Nat) : Bool := [0, 1, 2].all fun c => !expected s p c || ownReach s (slotOf p c)

/-- Units reached from lane N without a gap: the segment just beyond them is the break. -/
def breakAt (f : Nat → Bool) : Nat := if f 0 then (if f 1 then (if f 2 then 3 else 2) else 1) else 0

/-- BREAK_SEG by R62, in a split port by R78. "Reached" is over the last 4 cycles, those after which BROKEN is declared: the rule gives no
span, Table 2.12 one of 16 cycles for REACH_N (DESIGN CHOICE, log entry 57). -/
def breakSegOf (s : State) (p : Nat) : Nat :=
  if !split s p then breakAt fun c => decide ((s.pos p c).ageN < 4)
  else if role s = 2 then
    if s.pai.peerUp then
      breakAt fun c => expected s p c && !((s.pai.peer.map PeerStatus.need).getD 0).getLsbD (slotOf p c)
    else breakAt fun c => expected s p c && !decide ((s.pos p c).ageS < 4)
  else breakAt fun c => decide ((s.pos p c).ageN < 4)

/-- Both DOWN frames came back in the cycle (R62), in a split port by the peer's RING bit and its frame on the own lane (R78). -/
def ringGood (s : State) (p : Nat) : Bool :=
  if split s p then s.pai.peerUp && ((s.pai.peer.map PeerStatus.ring).getD 0).getLsbD p && s.pai.ring.getLsbD p
  else (s.port p).backN && (s.port p).backS

/-- Counts good and bad cycles; a ring that was INCOMPLETE and is reached again is BROKEN after 4 bad ones (R62). -/
def judgeRing (p : Nat) (s : State) : State :=
  let good := ringGood s p
  let s := modPort p (fun x => { x with
    badRun := if good then 0 else x.badRun + 1
    goodRun := if good then x.goodRun + 1 else 0
    returns := if good then x.returns else [] }) s
  let x := s.port p
  if x.ring == 2 && allReached s p && decide (4 ≤ x.badRun) then
    let b := breakSegOf s p
    modPort p (fun x => { x with ring := 1, breakSeg := b, lastBreak := b }) s
  else s

/-- What a sampling cycle that ended showed of the units: INCOMPLETE while one is reached on neither lane (R62); while PEER is down a split
port is shown BROKEN or INCOMPLETE by the own lane alone (R78). -/
def judgeReach (p : Nat) (s : State) : State :=
  let x := s.port p
  if !anyExpected s p || x.ring == 3 then s
  else if split s p && !s.pai.peerUp then
    let ok := allOwn s p
    let b := breakSegOf s p
    raiseIf (x.ring == 0) (20 + p) 2 (modPort p (fun x => { x with
      ring := if ok then 1 else 2, breakSeg := b, lastBreak := b, wasIncomplete := x.wasIncomplete || !ok }) s)
  else if !allReached s p then
    raiseIf (x.ring == 0) (20 + p) 2 (modPort p (fun x => { x with ring := 2, wasIncomplete := true }) s)
  else s

/-- A cycle of the port ends: the spans of Tables 2.12 and R65, lock, commands in flight (R59). -/
def endCycle (p : Nat) (s : State) : State :=
  let s := if (s.port p).link = 2 then judgeReach p (if split s p then judgeRing p s else s) else s
  modPort p (fun x => { x with
    lockN := x.lkN, lockS := x.lkS, lkN := false, lkS := false
    quietN := if x.seenN then 0 else x.quietN + 1
    quietS := if x.seenS then 0 else x.quietS + 1
    seenN := false, seenS := false
    pos := x.pos.map fun y => ageCmd { y with ageN := min 16 (y.ageN + 1), ageS := min 16 (y.ageS + 1) } }) s

/-- D_ring is measured in this cycle: in every sampling cycle, in service cycles only at step 5 of R72 (R70). -/
def ringMeasured (x : Port) : Bool := x.link == 2 || (x.link == 1 && x.svc.phase == .measure)

/-- What the lanes hear in the down windows of a cycle: the port's own frame on the far lane is a return (R62), its time D_ring (R67, R70).
`sentN` and `sentS` are the frames with their CRC; in a service cycle one of them is empty. In a split port the own lane hears the other module:
the RING bit (R78). -/
def hearReturns (p : Nat) (o : LinkObs) (sentN sentS : Bytes) (s : State) : State × Option Bytes × Option Bytes :=
  let body (h : Option Heard) : Option Bytes := match h with | some (.frame b) => some b | _ => none
  match hearWindow p .N o.rxN s with
  | (s, hN) =>
    match hearWindow p .S o.rxS s with
    | (s, hS) =>
      let cut (b : Bytes) : Option Bytes := if b.isEmpty then none else some (b.take (b.length - 4))
      let backN := (body hS).isSome && body hS == cut sentN
      let backS := (body hN).isSome && body hN == cut sentS
      let d := if backN && !split s p && ringMeasured (s.port p) then o.ringPs else none
      let own := if role s = 2 then body hS else body hN
      let bit : BitVec 48 := if split s p && (own.bind downIn).isSome then 1#48 <<< p else 0
      let s := { s with pai := { s.pai with ring := (s.pai.ring &&& ~~~(1#48 <<< p)) ||| bit } }
      let s := modPort p (fun x => { x with
        backN := backN, backS := backS
        ringDly := if d.isSome then d else x.ringDly
        ringService := if d.isSome && x.link == 1 then d else x.ringService
        returns := (d.toList ++ x.returns).take 16 }) s
      (s, body hN, body hS)

/-- RING_BROKEN: the ring leaves CLOSED after 4 bad cycles (R62). -/
def ringBrokenFx (p : Nat) (s : State) : State :=
  let x := s.port p
  if x.ring != 0 || x.badRun < 4 then s
  else
    let b := breakSegOf s p
    let ok := allReached s p
    raise (20 + p) 2 (modPort p (fun x => { x with
      ring := if ok then 1 else 2, breakSeg := b, lastBreak := b, wasIncomplete := x.wasIncomplete || !ok }) s)

def execRingBroken (p : Fin 48) (s : State) : Host.Outcome State Fault Refusal :=
  act (fun s => if alive s && portPresent s p then ringBrokenFx p s else s) s

/-! ### Delays and corrections (R66 to R70) -/

/-- TURN in ps (R66). -/
def turn (l : Lane) : Int := if l = .N then 30000000 else 45000000

/-- CORR_N and CORR_S of a position in ps, 0xFFFF_FFFF where not given (R69, R79). -/
def corrBytes (x : Pos) : Bytes :=
  let f (base : Int) (d : Option Nat) : Bytes := match d with | some v => leI 4 (base - v) | none => [0xFF, 0xFF, 0xFF, 0xFF]
  f 20000000 x.dlyN ++ f 13300000 x.dlyS

/-- CORR_SET with the corrections of the delays in use. -/
def sendCorr (p c : Nat) (s : State) : State := addReq p (reqTo 4 p c 0x03 (corrBytes (s.pos p c))) s

/-- The check of R68 fails; it is made only where all three figures are measured. -/
def delayBad (x : Pos) (ring : Option Nat) : Bool :=
  match x.dlyN, x.dlyS, ring with
  | some n, some d, some r => decide (20000 < ((n : Int) + d + 320000 - r).natAbs)
  | _, _, _ => false

/-- ECHO_RECEIVED: the ECHO of a DELAY_PROBE in flight gives the delay of its lane (R66, R67). -/
def echoFx (p : Nat) (l : Lane) (rx : Bits) (tTx tRx : Nat) (s : State) : State :=
  if (s.port p).link != 1 then s
  else match hearWindow p l rx s with
    | (s, some (.frame b)) =>
      let a := (b.getD 1 0).toNat
      let c := a % 4
      let probing := match (s.pos p c).cmd with | some k => k.req.opc == 0x04 | none => false
      if (b.getD 0 0).toNat / 16 != 4 || a / 4 != p || !probing || (s.port p).svc.lane != l then s
      else
        let d := (((tRx : Int) - tTx - turn l) / 2).toNat % 2 ^ 24
        modPos p c (fun y => match l with
          | .N => { y with cmd := none, dlyN := some d }
          | .S => { y with cmd := none, dlyS := some d }) s
    | (s, _) => s

def execEchoReceived (p : Fin 48) (lane : Lane) (rx : Bits) (tTx tRx : Nat) (s : State) : Host.Outcome State Fault Refusal :=
  act (fun s => if alive s && portPresent s p then echoFx p lane rx tTx tRx s else s) s

/-- Adds a signed change to a delay in use. -/
def shiftDly (d : Option Nat) (delta : Int) : Option Nat := d.map fun v => ((v : Int) + delta).toNat

/-- The in-band correction of R70, when a ring has closed again. Where D_ring was never measured in service cycles there is no Δ: the port is
marked as where |Δ| exceeds its bound (DESIGN CHOICE, log entry 57). -/
def inBand (p : Nat) (s : State) : State :=
  let x := s.port p
  let n := x.returns.length
  let delta : Int := match x.ringService with
    | some d => if n = 0 then 0 else roundRat ((x.returns.foldl (· + ·) 0 : Nat) / (n : Rat)) - d
    | none => 0
  if x.wasIncomplete || decide (60000 < delta.natAbs) || split s p || x.ringService.isNone then
    raise (20 + p) 6 (modPort p (fun x => { x with wasIncomplete := false, pos := x.pos.map fun y => { y with skewUnv := true } }) s)
  else
    forAll [0, 1, 2] (fun c s =>
      let y := s.pos p c
      if !y.present || delta = 0 then s
      else
        let s := modPos p c (fun y =>
          if x.lastBreak ≤ c then { y with dlyN := shiftDly y.dlyN delta } else { y with dlyS := shiftDly y.dlyS delta }) s
        sendCorr p c s) s

/-- RING_RESTORED: CLOSED again after 16 good cycles (R62), also where an expected unit is still reached on neither lane: by the rule CLOSED and
INCOMPLETE then both apply, and the port, which shows INCOMPLETE while a unit is missing, follows the last declaration (DESIGN CHOICE, log
entry 57). -/
def ringRestoredFx (p : Nat) (s : State) : State :=
  let x := s.port p
  if x.link != 2 || x.ring == 0 || x.ring == 3 || decide (x.goodRun < 16) then s
  else inBand p (raise (20 + p) 3 (modPort p (fun x => { x with ring := 0 }) s))

def execRingRestored (p : Fin 48) (s : State) : Host.Outcome State Fault Refusal :=
  act (fun s => if alive s && portPresent s p then ringRestoredFx p s else s) s

/-- LANE_DOWN: no valid frame for 16 cycles (R65), on a lane that the module uses (R77). -/
def laneDownFx (p : Nat) (l : Lane) (s : State) : State :=
  let x := s.port p
  match l with
  | .N => if x.downN || decide (x.quietN < 16) || (split s p && role s == 2) then s else raise (20 + p) 0 (modPort p (fun x => { x with downN := true }) s)
  | .S => if x.downS || decide (x.quietS < 16) || (split s p && role s == 1) then s else raise (20 + p) 1 (modPort p (fun x => { x with downS := true }) s)

def execLaneDown (p : Fin 48) (lane : Lane) (s : State) : Host.Outcome State Fault Refusal :=
  act (fun s => if alive s && portPresent s p then laneDownFx p lane s else s) s

/-! ### Images and the check of a port (R104, R367) -/

/-- The image that the running firmware holds for a unit (R104). -/
def imageOf (s : State) (i : UnitIdent) : Option Bytes :=
  (s.nv.running.units.find? fun e => e.1 == i.vendor && e.2.1 == i.model && e.2.2.1 == i.hwRev).map fun e => e.2.2.2

/-- UNIT_NO_IMAGE (Table 16.2). -/
def recordNoImage (p c : Nat) (i : UnitIdent) (s : State) : State :=
  recordCode (3 + p / 8) 0x0480 (4 * p + c) (le 2 i.vendor.toNat ++ le 2 i.model.toNat ++ [i.hwRev]) s

/-- The configuration check of one port (R367): the chain length, each unit's image, each mapped group on a present unit. On default
settings there is no image to compare with (DEDUCED, log entry 22). -/
def portOk (s : State) (p : Nat) : Bool :=
  let x := s.port p
  x.pos.all (fun y => !y.present || !y.noImage) && x.svc.failed.isEmpty && x.ring != 2 &&
    (onDefaults s || x.kFound == (s.cfg.port p).ke) && (s.cfg.groups.all fun g => match g.slot with
      | some u => u / 3 != p || (s.posU u).present
      | none => true)

/-- Publishes the check for the port and raises PORT_MISMATCH where it fails. -/
def portCheck (p : Nat) (s : State) : State :=
  let ok := portOk s p
  let bit : BitVec 48 := 1#48 <<< p
  let s := { s with pwr := { s.pwr with portOk := if ok then s.pwr.portOk ||| bit else s.pwr.portOk &&& ~~~bit } }
  raiseIf (!ok) 0x01 3 s

/-- CMD_TIMEOUT of the port: the command is abandoned (R59); position 3 stands for the first unaddressed unit. What the planner does is added by
its own chapter. -/
def cmdTimeoutFx (p c : Nat) (s : State) : State :=
  raise (20 + p) 8 (modPort p (fun x => { x with cnt := bumpAt x.cnt 8, pos := x.pos.modify c fun y => { y with cmd := none } }) s)

end Sys2Proof.Machine
end

