-- ==== Sys2Proof/Machine/Sampling.lean ====
section
/-! DEFINITION. Timebase, current channels, low-current cadence, zero learning, insulation monitor (04), and the commands ZERO_DONE,
LOWCAD_ENTER, LOWCAD_EXIT, INS_CYCLE_END, INS_POLE_SAMPLE, INS_FOREIGN_CLEAR, NETWORK_FAULT. -/

namespace Sys2Proof.Machine

open Sys2Proof

def modSmp (f : Smp → Smp) (s : State) : State := { s with smp := f s.smp }
def modIns (f : Ins → Ins) (s : State) : State := { s with ins := f s.ins }

/-! ### Timebase (R111 to R119) -/

/-- A standby's start-up waits for the first instant that the holder publishes (R369, R410). -/
def standbyWaits (s : State) : Bool :=
  inPair s && !s.pai.select && peerIs s fun f => f.select && f.power == 1 && f.firstInstant == 0

/-- The port holds up no first instant: it is not in service cycles, or ready to sample (Table 12.5, step 7). -/
def portReady (x : Port) : Bool := x.link != 1 || x.svc.phase == .ready || x.svc.phase == .follow

/-- Every present port is ready to sample. -/
def portsReady (s : State) : Bool := (List.range (nPorts s)).all fun p => portReady (s.port p)

/-- Some port is in service or sampling cycles (R117). -/
def portsRun (s : State) : Bool := (List.range (nPorts s)).any fun p => (s.port p).link == 1 || (s.port p).link == 2

/-- Instants are issued: a state that samples, or the start-up whose ports are ready. -/
def cycling (s : State) : Bool := sampling s || (s.pwr.waitFirst && portsReady s && !standbyWaits s)

/-- An event of the timebase crosses to AGG as a pulse (Table 15.2, 0x23): bits 0 to 4 of SMP_EVENT. -/
def tmbPulse (n : Nat) (s : State) : State := pulse 0x23 n s

/-- The whole number of milliseconds nearest to a phase error, the residue in (-0.5, 0.5] ms (R118). -/
def nearestMs (e : Int) : Int := (2 * e + 999999) / 2000000

/-- A stored module time after module time itself jumped by `d` ns: durations run on (DEDUCED, log entry 49). -/
def moved (d : Int) (t : Nat) : Nat := ((t : Int) + d).toNat

/-- Module time jumped: what sessions, deferred commands, the PRP node table and a start-up measure from. -/
def moveClock (d : Int) (s : State) : State :=
  { s with
    ses := { s.ses with
      ctx := s.ses.ctx.map fun x => if x.opened then { x with lastRx := moved d x.lastRx } else x
      deferred := s.ses.deferred.map fun x => { x with at_ := moved d x.at_ } }
    upl := { s.upl with nodes := s.upl.nodes.map fun n => { n with seen := n.seen.map fun e => (e.1, moved d e.2) } }
    pwr := { s.pwr with startAt := moved d s.pwr.startAt }
    ins := { s.ins with steps := s.ins.steps.map (moved d) } }

/-- The impedance engine's times after a jump of module time to `now`: a jump back lets the windows after it close again (R201). -/
def moveImp (d : Int) (now : Nat) (m : Imp) : Imp :=
  let step (x : StepRows) : StepRows := { x with ts := moved d x.ts, ended := moved d x.ended }
  let seg (x : Segment) : Segment := { x with first := moved d x.first, last := moved d x.last }
  { m with
    jump := now, winIdx := min m.winIdx (now / 10000000000)
    bins := m.bins.map fun b => {
      frames := b.frames.map fun x => { x with time := moved d x.time }, segs := b.segs.map seg }
    ms := m.ms.map fun x => { x with time := moved d x.time }, means := m.means.map fun x => { x with time := moved d x.time }
    step := m.step.map fun r => { r with ts := moved d r.ts }, steps := m.steps.map step
    stepFrom := moved d m.stepFrom, runFrom := moved d m.runFrom
    ticks := m.ticks.map fun t => { t with time := moved d t.time }
    pend := m.pend.map fun w => { w with close := moved d w.close, segs := w.segs.map fun l => l.map seg, steps := w.steps.map step } }

/-- Module time jumped while ports run: what the planner, the sequencer, the loop and the cadence measure from. -/
def moveEngines (d : Int) (s : State) : State :=
  { s with
    bal := { s.bal with
      recs := s.bal.recs.map fun r => { r with ends := r.ends.map (moved d), stopAt := r.stopAt.map (moved d), since := moved d r.since }
      sent := s.bal.sent.map fun x => { x with at_ := moved d x.at_ }
      learn := s.bal.learn.map fun l => { l with ends := moved d l.ends } }
    pro := { s.pro with tP := moved d s.pro.tP }
    imp := moveImp d s.smp.timeNs s.imp
    pai := { s.pai with own := s.pai.own.map fun o => { o with time := moved d o.time } }
    ctl := { s.ctl with
      time := moved d s.ctl.time, startAt := moved d s.ctl.startAt, toneStart := moved d s.ctl.toneStart
      edgeAt := moved d s.ctl.edgeAt, perAt := moved d s.ctl.perAt, endAt := moved d s.ctl.endAt
      clipAt := s.ctl.clipAt.map (moved d), v0 := moved d s.ctl.v0, v1 := moved d s.ctl.v1 }
    smp := { s.smp with lowEnter := s.smp.lowEnter.map (moved d), lowExit := s.smp.lowExit.map (moved d) } }

/-- One phase-error measurement: PTP time less module time, in ns (R116 to R118). Module time steps while no port is in service or sampling
cycles, instants for ports without units (LINK 3) or not (R117); the next instant lies on the grid again (R111). -/
def phaseFx (e : Int) (s : State) : State :=
  let near := decide (e.natAbs ≤ 100)
  let far := decide (200 < e.natAbs)
  let s := modSmp (fun x => { x with phaseErr := e, inRun := if near then x.inRun + 1 else 0, outRun := if far then x.outRun + 1 else 0 }) s
  let tb := s.smp.tb
  let tb' := if tb = 2 then (if 4 ≤ s.smp.outRun then 1 else 2)
    else if 16 ≤ s.smp.inRun then 2
    else if near then tb
    else 1
  let s := modSmp (fun x => { x with tb := tb' }) s
  let s := if tb = 2 && tb' != 2 then tmbPulse 2 s else s
  let s := if tb != 2 && tb' = 2 then tmbPulse 1 { s with recd := { s.recd with markDue := true } } else s
  if near then
    modSmp (fun x => { x with freqAdj := Config.freeInt s.fresh, slewUp := false }) { s with fresh := s.fresh + 1 }
  else if !portsRun s then
    onlyIf (cycling s) (moveEngines e) (modSmp (fun x => { x with timeNs := moved e x.timeNs, freqAdj := 0, slewUp := false }) (moveClock e s))
  else
    let k := nearestMs e
    let big := decide (500000 < e.natAbs)
    let r := if big then e - k * 1000000 else e
    if tb' = 2 && !big then s
    else
      modSmp (fun x => { x with
        relabel := if big then some k else x.relabel
        slewUp := decide (100 < r)
        freqAdj := if 100 < r then 100000 else if r < -100 then -100000 else 0 }) s

/-- PTP, or the leader, is lost (Table 4.1). -/
def phaseLost (s : State) : State :=
  if s.smp.tb = 2 then
    tmbPulse 2 (modSmp (fun x => { x with tb := 3, holdTime := 0, inRun := 0, outRun := 0, slewUp := false }) s)
  else if s.smp.tb = 1 then modSmp (fun x => { x with tb := 0, inRun := 0, freqAdj := 0, slewUp := false }) s
  else modSmp (fun x => { x with inRun := 0 }) s

/-- An excitation tone runs or is commanded. -/
def tonesRun (s : State) : Bool := !s.ctl.tones.isEmpty || s.ctl.tonesNext.isSome

/-- The conditions for low-current cadence: 2 s of results below I_LOW (32,000 of them), no hold, no tone (R133). -/
def lowCalm (s : State) : Bool :=
  decide (0 < s.cfgSmp.iLow) && decide (32000 ≤ s.smp.lowRun) && !s.smp.lowHold && !tonesRun s

/-- Instants per tick (R21). -/
def perTick (s : State) : Nat :=
  if s.smp.lowCad then 100 else if s.smp.cad = 1 then 4 else if s.smp.cad = 2 then 1 else 16

/-- The cadence that the configuration in force asks for. -/
def configuredCad (s : State) : Nat := s.cfg.cadence

/-- The time of the instant whose index has these low 32 bits, the nearest one after the present time (R410). -/
def instantAfter (s : State) (low : Nat) : Nat :=
  let n := s.smp.timeNs / tCad (configuredCad s)
  (n + (low + 2 ^ 32 - n % 2 ^ 32) % 2 ^ 32) * tCad (configuredCad s)

/-- The first instant of a start-up: the holder's, where a standby knows one that lies less than 1 s ahead; else the first whole
millisecond (R75, R366, R410). -/
def firstTime (s : State) : Nat :=
  let whole := (s.smp.timeNs / ms + 1) * ms
  let t := instantAfter s ((s.pai.peer.map PeerStatus.firstInstant).getD 0)
  if inPair s && !s.pai.select && peerIs s (fun f => f.select && f.firstInstant != 0) && decide (t < s.smp.timeNs + 1000 * ms) then max t whole
  else whole

/-- The first multiple of a period after a module time: the grid on which instants and service cycles lie (R111, R114), also after a step of
module time (R117). -/
def gridNext (t u : Nat) : Nat := (t / u + 1) * u

/-- Module time of the next instant before any relabel: the first one after a start-up, else one period on. -/
def nextTime (s : State) : Nat :=
  if !s.smp.started then firstTime s else gridNext s.smp.timeNs (tCad s.smp.cad)

/-- Module time of the next service cycle before any relabel, on the grid of 62.5 µs (R114). -/
def nextService (s : State) : Nat := gridNext (s.smp.timeNs + s.smp.svc * 62500) 62500

/-- The jump that a relabel gives module time at the next instant, a whole millisecond (R118). -/
def nextShift (s : State) : Int := if nextTime s % ms = 0 then (s.smp.relabel.getD 0) * ms else 0

/-- CAD of the next instant and whether low-current cadence holds at it (R112, R133, R134); the grids are those of its own module time. -/
def nextCad (s : State) : Nat × Bool :=
  let t := nextTime s
  let t' := moved (nextShift s) t
  if !s.smp.started then (configuredCad s, false)
  else if s.smp.lowCad then
    match s.smp.lowExit with
    | some e => if e ≤ t && t' % ms = 0 then (configuredCad s, false) else (2, true)
    | none => (2, true)
  else
    match s.smp.lowEnter with
    | some e => if e ≤ t && t' % (100 * ms) = 0 && lowCalm s then (2, true)
                else if t' % ms = 0 then (configuredCad s, false) else (s.smp.cad, false)
    | none => if t' % ms = 0 then (configuredCad s, false) else (s.smp.cad, false)

/-- The next instant's index does not follow the latest one (R112, R117, R118). -/
def nextStep (s : State) : Bool :=
  let c := nextCad s
  !s.smp.started || c.1 != s.smp.cad || c.2 != s.smp.lowCad || nextShift s != 0 || nextTime s / tCad c.1 != s.smp.instant + 1

/-- The throttle request in force on IMP: what it stops or slows (R465). -/
def setThrottle (t : Nat × Nat × Bool) (s : State) : State :=
  { s with imp := { s.imp with
    throttle := t, thrNext := none, throttled := t.1 == 3 || (t.1 == 2 && decide (0 < t.2.1))
    active := s.imp.active && t.1 != 3, last := if t.1 = 3 then none else s.imp.last
    step := if t.1 = 3 then none else s.imp.step, steps := if t.1 = 3 then [] else s.imp.steps } }

/-- A throttle request takes effect on IMP at a tick boundary (R25). -/
def takeThrottle (s : State) : State := match s.imp.thrNext with | some t => setThrottle t s | none => s

/-- Delivers the tick in course as a tick frame that ends at the latest instant (R113, R115), short where it holds fewer instants than M; its
charges end with that instant too: results after it go to the next tick (R130). A tick frame that finds crossing 0x0F full is lost (R434). -/
def deliverTick (s : State) : State :=
  if s.smp.acc.n = 0 then s
  else
    let m := s.smp
    let from_ : Int := match m.lastClose with
      | some t => t
      | none => (m.timeNs : Int) - m.acc.n * tCad m.cad
    let t : Tick := { m.acc with
      num := m.instant / perTick s
      last := m.timeNs
      span := ((m.timeNs : Int) - from_).toNat
      short := decide (m.acc.n < perTick s)
      qShunt := m.qShunt - m.qAfter.1, nShunt := m.nShunt - m.nAfter.1
      qHall := m.qHall - m.qAfter.2, nHall := m.nHall - m.nAfter.2
      lowCad := m.lowCad
      bleed := s.bal.recs.map BleedRec.q
      comp := s.bal.recs.map BleedRec.compT }
    let s := { s with bal := { s.bal with recs := s.bal.recs.map fun r => { r with q := 0, unconf := false, compT := false } } }
    let s := takeThrottle s
    let full := decide (2 ≤ m.ticks.length)
    let s := modSmp (fun m => { m with
      acc := {}, lastClose := some m.timeNs, tickNum := BitVec.ofNat 32 t.num
      qShunt := m.qAfter.1, nShunt := m.nAfter.1, qHall := m.qAfter.2, nHall := m.nAfter.2
      ticks := if full then m.ticks else m.ticks ++ [t] }) s
    if full then raiseXng 2 (modX 0x0F (fun r => { r with loss := satAdd r.loss 1 }) s) else s

/-- The coherent frame of the latest instant is closed. -/
def frameClosed (s : State) : Bool := s.smp.closed

/-- Charge of the results that lie within one period before the first instant (R115). -/
def startCharge (n : Nat) (l : List (Option Int)) : Int × Nat :=
  (l.take n).foldl (fun a r => match r with | some i => (a.1 + i * 62500, a.2 + 1) | none => a) (0, 0)

/-- The timebase issues the next instant (R111, R112, R118, R133, R134). A tick that a discontinuity cuts closes with the instant before it
(R113). The time spent in HOLDOVER counts without the jump of a relabel (R119). -/
def advance (s : State) : State :=
  let t := nextTime s
  let c := nextCad s
  let step := nextStep s
  let shift : Int := nextShift s
  let t' := moved shift t
  let s := if step && s.smp.started then deliverTick s else s
  let first := !s.smp.started
  let n := tCad c.1 / 62500 - 1
  let q0 := startCharge n (s.smp.recent.map Prod.fst)
  let q1 := startCharge n (s.smp.recent.map Prod.snd)
  let old := s.smp.lowCad
  let s := modSmp (fun x => { x with
    timeNs := t'
    instant := t' / tCad c.1
    started := true
    closed := false
    cad := c.1
    lowCad := c.2
    lowEnter := if c.2 || !lowCalm s then none else x.lowEnter
    lowExit := if c.2 then x.lowExit else none
    relabel := if t % ms = 0 then none else x.relabel
    timeStep := step
    ival := tCad (if first then c.1 else x.cad)
    resSince := 0, svc := 0, qAfter := (0, 0), nAfter := (0, 0)
    holdTime := if x.tb = 3 then satAdd x.holdTime (t / ms - x.timeNs / ms) else x.holdTime
    lastClose := x.lastClose.map (moved shift)
    qShunt := if first then q0.1 else x.qShunt
    nShunt := if first then q0.2 else x.nShunt
    qHall := if first then q1.1 else x.qHall
    nHall := if first then q1.2 else x.nHall }) s
  let s := onlyIf (shift != 0) (fun s => moveEngines shift (moveClock shift s)) s
  let s := if step then tmbPulse 0 s else s
  let s := if c.2 && !old then tmbPulse 3 s else s
  if !c.2 && old then tmbPulse 4 s else s

/-- A link cycle without an instant: service cycles go on by 62.5 µs, between two instants or while none is issued (R114). Before the first
instant a relabel takes effect at a whole millisecond that a service cycle reaches (R118). -/
def serviceTick (s : State) : State :=
  if s.smp.started then modSmp (fun x => { x with svc := x.svc + 1 }) s
  else
    let t := nextService s
    let shift : Int := if t % ms = 0 then (s.smp.relabel.getD 0) * ms else 0
    let t' := moved shift t
    let serve := (List.range (nPorts s)).any fun p => (s.port p).link == 1
    let s := modSmp (fun x => { x with
      timeNs := t'
      cad := if serve then 3 else x.cad
      instant := if serve then t' / 62500 else x.instant
      relabel := if t % ms = 0 then none else x.relabel
      holdTime := if x.tb = 3 then satAdd x.holdTime (t / ms - x.timeNs / ms) else x.holdTime }) s
    onlyIf (shift != 0) (fun s => moveEngines shift (moveClock shift s)) s

/-- The next link cycle brings no instant: none is issued yet, or a port in service cycles has one before it (R114). -/
def serviceDue (s : State) : Bool :=
  if !cycling s then true
  else if !s.smp.started then decide (nextService s < nextTime s)
  else decide (nextService s < nextTime s) && (List.range (nPorts s)).any fun p => (s.port p).link == 1

/-! ### Current channels (R122 to R130) -/

/-- A limit input with the sign of a reading (R127). -/
def limitTo (lim v : Int) : Int := if v < 0 then -lim else lim

/-- Offsets in use (R125). -/
def shuntOfs (s : State) : Int := s.smp.shuntOfs.getD s.fac.shuntOfs
def hallOfs (s : State) : Int := s.smp.hallOfs.getD s.fac.hallOfs

/-- The shunt result in mA (R125, R127). -/
def shuntResult (s : State) (x : CurObs) (t : Int) : Int :=
  match s.cfgSmp.shuntRes with
  | none => 0
  | some r =>
    if x.shFault then 0
    else
      let v := if 52000000 < x.vSh.natAbs then limitTo 52000000 x.vSh else x.vSh
      let rsh : Rat := (r : Rat) * (1 + (s.cfgSmp.alphaSh : Rat) / 1000000000 * (((27315 + t : Int) : Rat) / 100 - 29815 / 100))
      roundRat (1000 * ((v - shuntOfs s : Int) : Rat) / rsh)

/-- HALL_FAULT (R127). -/
def hallBad (x : CurObs) : Bool := !x.hallSupOk || decide (x.vRef < 500000) || decide (4500000 < x.vRef)

/-- The Hall result in mA (R125, R127). -/
def hallResult (s : State) (x : CurObs) : Int :=
  match s.cfgSmp.hallEn, s.cfgSmp.hallSens with
  | true, some k =>
    if hallBad x then 0
    else
      let d := x.vSig - x.vRef
      let v := if 4000000 < d.natAbs then limitTo 4000000 d else d
      roundRat (1000 * ((v - hallOfs s : Int) : Rat) / ((k : Rat) / 1000))
  | _, _ => 0

/-- K1, K2 and K3 are commanded open and report open (R126). -/
def allOpen (s : State) : Bool :=
  s.pro.kA.extractLsb' 0 3 == 0#3 && s.pro.kB.extractLsb' 0 3 == 0#3 && s.pro.kf.extractLsb' 0 3 == 0#3

/-- A learning whose conditions lapse is spoiled for both channels (R126). -/
def zeroLapse (s : State) : State :=
  if s.smp.zeroRun.isNone then s
  else raise 0x06 6 (onlyIf s.cfgSmp.hallEn (raise 0x06 6) (modSmp (fun m => { m with zeroRun := none }) s))

/-- Zero learning after a result (R126): the contactors' 2 s are 32,000 results, in whatever state. -/
def zeroStep (x : CurObs) (s : State) : State :=
  let s := modSmp (fun m => { m with zeroCond := if allOpen s then m.zeroCond + 1 else 0 }) s
  let ok := (s.pwr.state == 2 || s.pwr.state == 4) && allOpen s
  match s.smp.zeroRun with
  | some z =>
    if !ok then zeroLapse s
    else if z.n < 16000 then
      modSmp (fun m => { m with zeroRun := some {
        n := z.n + 1
        sh := if shuntValid s then z.sh + x.vSh else z.sh
        hall := if hallValid s then z.hall + (x.vSig - x.vRef) else z.hall
        spoilSh := z.spoilSh || !shuntValid s
        spoilHall := z.spoilHall || !hallValid s } }) s
    else s
  | none =>
    if ok && decide (32000 ≤ s.smp.zeroCond) && (!s.smp.zeroSeen || s.smp.zeroReq) then
      modSmp (fun m => { m with zeroRun := some {}, zeroSeen := true, zeroReq := false }) s
    else s

/-- One result of the current channels (R122 to R130, R133). Where a channel's fault stands and its input lies over the limit as well, R127 gives
both a limit result with OVR and 0 with FAULT: FAULT alone shows, no OVR, result 0 (DESIGN CHOICE, log entry 58). -/
def currentFx (x : CurObs) (s : State) : State :=
  let code := sensorCode ((Config.freeWord s.fresh).truncate 16) s.cfgSmp.shNtcRes s.cfgSmp.shNtcB x.ntc
  let ntcBad := code == 0x8000 || code == 0x7FFF
  let t := if ntcBad then s.smp.tShunt.getD 2500 else code.toInt
  let en := s.cfgSmp.hallEn
  let shOvr := !x.shFault && decide (52000000 < x.vSh.natAbs)
  let haFault := en && hallBad x
  let haOvr := en && !hallBad x && decide (4000000 < (x.vSig - x.vRef).natAbs)
  let iSh := shuntResult s x t
  let iHa := hallResult s x
  let old := s.smp
  let s := modSmp (fun m => { m with
    ntcFault := ntcBad
    ntcCode := code.toInt
    tShunt := if ntcBad then m.tShunt else some code.toInt
    shOvr := shOvr
    shFault := x.shFault
    shHold := if shOvr || x.shFault then 17 else m.shHold - 1
    hallOvr := haOvr
    hallFault := haFault
    hallHold := if haOvr || haFault || !en then 17 else m.hallHold - 1
    iShunt := iSh
    iHall := iHa
    resSince := m.resSince + 1 }) s
  let sv := shuntValid s
  let hv := hallValid s
  let s := modSmp (fun m => { m with
    qShunt := if sv then m.qShunt + iSh * 62500 else m.qShunt
    nShunt := if sv then m.nShunt + 1 else m.nShunt
    qHall := if hv then m.qHall + iHa * 62500 else m.qHall
    nHall := if hv then m.nHall + 1 else m.nHall
    qAfter := if m.resSince < 2 then m.qAfter
      else (if sv then m.qAfter.1 + iSh * 62500 else m.qAfter.1, if hv then m.qAfter.2 + iHa * 62500 else m.qAfter.2)
    nAfter := if m.resSince < 2 then m.nAfter
      else (if sv then m.nAfter.1 + 1 else m.nAfter.1, if hv then m.nAfter.2 + 1 else m.nAfter.2)
    recent := ((if sv then some iSh else none, if hv then some iHa else none) :: m.recent).take 15
    lowRun := match iSel s with
      | some i => if (i.natAbs : Int) * 1000000 < s.cfgSmp.iLow then m.lowRun + 1 else 0
      | none => 0 }) s
  let s := onlyIf (s.smp.lowRun == 0) (modSmp fun m => { m with lowEnter := none }) s
  let s := raiseIf ((shOvr && !old.shOvr) || (x.shFault && !old.shFault)) 0x06 7 s
  let s := raiseIf ((haOvr && !old.hallOvr) || (haFault && !old.hallFault)) 0x06 8 s
  let s := raiseIf (ntcBad && !old.ntcFault) 0x06 9 s
  zeroStep x s

/-- ZERO_DONE: the 16,000 results are complete (R126). -/
def zeroDoneFx (s : State) : State :=
  match s.smp.zeroRun with
  | none => s
  | some z =>
    if z.n < 16000 then s
    else
      let sh := roundRat ((z.sh : Rat) / 16000)
      let ha := roundRat ((z.hall : Rat) / 16000)
      let shOk := !z.spoilSh && decide (sh.natAbs ≤ 20000)
      let haOk := !z.spoilHall && decide (ha.natAbs ≤ 100000)
      let s := modSmp (fun m => { m with
        zeroRun := none
        shuntOfs := if shOk then some sh else m.shuntOfs
        hallOfs := if s.cfgSmp.hallEn && haOk then some ha else m.hallOfs }) s
      let s := raiseIf (!shOk) 0x06 6 s
      let s := raiseIf (s.cfgSmp.hallEn && !haOk) 0x06 6 s
      raiseIf (shOk || (s.cfgSmp.hallEn && haOk)) 0x06 5 s

def execZeroDone (s : State) : Host.Outcome State Fault Refusal :=
  act (fun s => if alive s then zeroDoneFx s else s) s

/-! ### Low-current cadence (R133, R134) -/

/-- Module time of the latest result. -/
def resultTime (s : State) : Nat := s.smp.timeNs + (s.smp.resSince - 1) * 62500

/-- The first whole multiple of `u` at or after `t`. -/
def gridUp (t u : Nat) : Nat := (t + u - 1) / u * u

/-- LOWCAD_ENTER: the conditions are met; they must hold until the first whole multiple of 100 ms at least 1 ms on. -/
def lowEnterFx (s : State) : State :=
  if sampling s && !s.smp.lowCad && s.smp.lowEnter.isNone && lowCalm s then
    modSmp (fun m => { m with lowEnter := some (resultTime s + ms) }) s
  else s

def execLowcadEnter (s : State) : Host.Outcome State Fault Refusal :=
  act (fun s => if alive s then lowEnterFx s else s) s

/-- What ends low-current cadence (R134). -/
def lowLeaves (s : State) : Bool :=
  s.smp.lowHold || tonesRun s || (match iSel s with
    | some i => decide (2 * s.cfgSmp.iLow < (i.natAbs : Int) * 1000000)
    | none => true)

/-- LOWCAD_EXIT: the decision 20 µs after the event; when the frame of the last instant has gone, the short tick follows now
(Table 4.9). -/
def lowExitFx (s : State) : State :=
  if sampling s && s.smp.lowCad && s.smp.lowExit.isNone && lowLeaves s then
    let s := modSmp (fun m => { m with lowExit := some (gridUp (resultTime s + 41000) ms) }) s
    if frameClosed s && nextStep s then deliverTick s else s
  else s

def execLowcadExit (s : State) : Host.Outcome State Fault Refusal :=
  act (fun s => if alive s then lowExitFx s else s) s

/-! ### Insulation (R135 to R140) -/

/-- Passes INS_STATE and the result to PRO (R140). -/
def insPass (s : State) : State := offer 0x1D (.iso (if s.ins.valid then s.ins.rIso.toNat else 0xFFFFFFFF) (insState s).toNat) s

/-- Runs a change and passes it to PRO where INS_STATE changed. While the network is off or nothing samples, no pole sample counts toward a later
change of R138. -/
def insChange (f : State → State) (s : State) : State :=
  let t := f s
  let t := if injecting t = injecting s then t else modIns (fun x => { x with cyc := 0, edge := 0 }) t
  let t := onlyIf (insEff t == 0 || !sampling t) (modIns fun x => { x with poles := [] }) t
  if insState t = insState s then t else insPass t

/-- The network's mode changed: results of the injector end with it (R135). -/
def insModeSettle (s : State) : State :=
  if injecting s then s
  else modIns (fun x => { x with valid := false, posValid := false, rIso := 0xFFFFFFFF }) s

/-- A write of INS_CTRL: valid values only; any valid write clears SUSPENDED (R139, Table 4.18). -/
def insWrite (mode closed : Nat) (s : State) : State :=
  insChange (fun s => insModeSettle (modIns (fun x => { x with mode := mode, closedMode := closed, suspended := false }) s)) s

/-- INS_CYCLE_END: I+, I- and tau give the result (R136, R137). V_STR of the position and of its 100 V test is the mean of the two halves'
(DESIGN CHOICE, log entry 58: R136 writes v_str alone). -/
def insCycleFx (x : InsObs) (s : State) : State :=
  if !injecting s then s
  else
    let s := modIns (fun m => { m with seq := satAdd m.seq 1, vPos := x.vPos, vNeg := x.vNeg, cyc := 0, edge := 0 }) s
    if 5 * x.vStrPos.natAbs < 100 * (x.vStrNeg - x.vStrPos).natAbs then insChange (modIns fun m => { m with unsteady := true }) s
    else
      match takeWord s with
      | (free, s) =>
        let ip : Rat := (x.iPlus : Rat) / 1000000000000
        let im : Rat := (x.iMinus : Rat) / 1000000000000
        let rtot : Rat := 100 / (ip - im)
        let r0 : Rat := rtot - 1000000 - 10000
        let r : Rat := if ip = im || r0 < 0 then free.toNat else r0
        let vs : Rat := ((x.vStrPos + x.vStrNeg : Int) : Rat) / 2000
        let cy : Rat := if r = 0 then free.toNat else ((x.tauUs : Rat) / 1000000) / (1010000 * r / (1010000 + r))
        let pos : Rat := 1 / 2 + ((ip + im) / 2) * rtot / vs
        let overRange := decide (50000000 < r)
        let posOk := decide (r ≤ 10000000) && decide (100 ≤ vs) && ip != im
        insPass (modIns (fun m => { m with
          unsteady := false
          overRange := overRange
          valid := decide (cy ≤ 10 / 1000000)
          cHigh := decide (2 / 1000000 < cy)
          rIso := if 10 / 1000000 < cy then 0xFFFFFFFF else if overRange then 50000000 else BitVec.ofInt 32 (roundRat r)
          cY := min 65535 (roundRat (cy * 1000000000)).toNat
          posValid := posOk
          pos := if posOk then (max 0 (min (roundRat (pos * 1000)) 1000)).toNat else m.pos }) s)

def execInsCycleEnd (x : InsObs) (s : State) : Host.Outcome State Fault Refusal :=
  act (fun s => if recRuns s then insCycleFx x s else s) s

/-- Suspends an injector that meets a foreign one (R139). It acts on the level of INS_FOREIGN: an injector that a host resumes while INS_FOREIGN is
still set is suspended again (DESIGN CHOICE, log entry 58: the rule names the setting while it injects). -/
def insSuspend (s : State) : State :=
  if s.ins.foreign && injecting s then
    raise 0x07 1 (insModeSettle (modIns (fun m => { m with suspended := true, cyc := 0, edge := 0 }) s))
  else s

/-- 100 ms of pole samples at 100 S/s, and half a cycle of the injector (R136). -/
def polesQuiet : Nat := 10
def polesHalf : Nat := 500

/-- The change of the sum of the pole voltages that a sample shows: against the latest sample of the last 200 ms from which their mean differs by
more than 2 V, with the samples between (R138; DESIGN CHOICE, log entry 58, which change a sample counts). -/
def poleChange (sum : Int) (l : List (Int × Int)) : Option (Int × Nat) :=
  (l.zipIdx.find? fun e => decide (4000 < (sum - e.1.1).natAbs)).map fun e => (sum - e.1.1, e.2 + 1)

/-- V_STR has changed by less than 1% over the last 200 ms: its largest figure against its smallest, of the larger magnitude (R138; DESIGN
CHOICE, log entry 58, of which figure the 1% is). -/
def poleCalm (vStr : Int) (l : List (Int × Int)) : Bool :=
  let hi := l.foldl (fun m e => max m e.2) vStr
  let lo := l.foldl (fun m e => min m e.2) vStr
  hi == lo || decide (100 * (hi - lo) < max hi.natAbs lo.natAbs)

/-- A change counts as a foreign step (R138): V_STR is calm, no edge of the own injector within 100 ms of it, the sign is not that of the step
before. -/
def poleStep (m : Ins) (inj : Bool) (vStr : Int) (d : Int × Nat) : Bool :=
  let toEdge := if m.cyc < polesHalf then polesHalf - m.cyc else 2 * polesHalf - m.cyc
  poleCalm vStr m.poles && decide (d.2 + polesQuiet < m.edge) && (!inj || decide (polesQuiet < toEdge)) && m.lastUp != some (decide (0 < d.1))

/-- INS_POLE_SAMPLE: pole voltages and foreign steps (R138). -/
def insPoleFx (x : PoleObs) (s : State) : State :=
  if insEff s = 0 || !sampling s then s
  else insChange (fun s =>
    let inj := injecting s
    let sum := x.vPos + x.vNeg
    let d := poleChange sum s.ins.poles
    let s := modIns (fun m =>
      let n := m.cyc + 1
      { m with vPos := x.vPos, vNeg := x.vNeg, cyc := n, edge := if inj && n = polesHalf then 0 else min (m.edge + 1) 1000 }) s
    let now := s.smp.timeNs
    let counted := match d with | some d => poleStep s.ins inj s.smp.vStr d | none => false
    let up := match d with | some d => decide (0 < d.1) | none => false
    let s := modIns (fun m => { m with
      poles := ((sum, s.smp.vStr) :: m.poles).take 20
      steps := (if counted then [now] else []) ++ m.steps.filter fun t => decide (now < t + 120000 * ms)
      lastUp := if counted then some up else m.lastUp }) s
    let hit := decide (3 ≤ s.ins.steps.length) && !s.ins.foreign
    let s := if hit then raise 0x07 0 (modIns (fun m => { m with foreign := true }) s) else s
    insSuspend s) s

def execInsPoleSample (x : PoleObs) (s : State) : Host.Outcome State Fault Refusal :=
  act (fun s => if recRuns s then insPoleFx x s else s) s

/-- INS_FOREIGN_CLEAR: no step counted for 120 s (R138). -/
def insForeignClearFx (s : State) : State :=
  if s.ins.foreign && s.ins.steps.all fun t => decide (t + 120000 * ms ≤ s.smp.timeNs) then
    insChange (modIns fun m => { m with foreign := false, steps := [] }) s
  else s

def execInsForeignClear (s : State) : Host.Outcome State Fault Refusal :=
  act (fun s => if recRuns s then insForeignClearFx s else s) s

/-- NETWORK_FAULT: a relay of the network disagrees with its command (Table 4.17). -/
def execNetworkFault (s : State) : Host.Outcome State Fault Refusal :=
  act (fun s => if recRuns s then raise 0x07 2 s else s) s

end Sys2Proof.Machine
end

