-- ==== Sys2Proof/Machine/Planner.lean ====
section
/-! DEFINITION. What the balance planner records and sends (07): stops, modes, the end of wire learning. The rounds stand in
Balancing.lean. -/

namespace Sys2Proof.Machine

open Sys2Proof

def modBal (f : Bal → Bal) (s : State) : State := { s with bal := f s.bal }

/-- The instant whose DOWN frame comes next. -/
def nextAt (s : State) : Nat := if cycling s then nextTime s else s.smp.timeNs

/-- A record that stops at a time: the frame that closes the interval up to it credits the charge, then drops the record. -/
def BleedRec.stopBy (t : Nat) (r : BleedRec) : BleedRec :=
  match r.ends with
  | some e => { r with ends := some (min e t), stopAt := none, cut := r.cut || decide (t ≤ e) }
  | none => { r with stopAt := none }

/-- A BLEED_STOP in the frame of the latest instant, sent or heard: the masked timers of a slot stop with it, and a BLEED_SET that is not
answered yet starts none of them (R223). -/
def stopSentFx (u : Nat) (mask : Half) (s : State) : State :=
  let t := s.smp.timeNs
  let gs := ((s.cfgEst.slotGroups u).filter fun e => mask.getLsbD e.2).map Prod.fst
  modBal (fun b => { b with
    sent := b.sent.map fun x => if x.slot = u then { x with mask := x.mask &&& ~~~mask } else x
    recs := b.recs.mapIdx fun g r => if gs.contains g then r.stopBy t else r }) s

/-- Records the timers of groups as stopped with the next DOWN frame (R223). -/
def stopRecs (gs : List Nat) (s : State) : State :=
  modBal (fun b => { b with recs := b.recs.mapIdx fun g r => if gs.contains g then r.stopBy (nextAt s) else r }) s

/-- Records the masked timers of a slot as stopped. A BLEED_SET that is not answered yet starts none of them. -/
def stopSlotRecs (u : Nat) (mask : Half) (s : State) : State :=
  stopRecs (((s.cfgEst.slotGroups u).filter fun e => mask.getLsbD e.2).map Prod.fst)
    (modBal (fun b => { b with sent := b.sent.map fun x => if x.slot = u then { x with mask := x.mask &&& ~~~mask } else x }) s)

/-- The running groups of a slot as a mask of inputs. -/
def bleedMask (s : State) (u : Nat) : Half :=
  (s.cfgEst.slotGroups u).foldl (fun m e => if (match (s.bal.recs.getD e.1 {}).ends with | some t => decide (nextAt s < t) | none => false) then m ||| (1#16 <<< e.2) else m) 0

/-- The groups of a slot's BLEED_SET that is sent and not answered (R223). -/
def sentMask (s : State) (u : Nat) : Half := s.bal.sent.foldl (fun m x => if x.slot = u then m ||| x.mask else m) 0

/-- A BLEED_SET without the masked groups; none: none is left. -/
def lessMask (mask : Half) (r : LinkReq) : Option LinkReq :=
  let m : Half := BitVec.ofNat 16 (leNat (slice r.data 0 2)) &&& ~~~mask
  if m = 0 then none else some { r with data := le 2 m.toNat ++ r.data.drop 2 }

/-- The masked groups leave every BLEED_SET of the planner that waits for a slot's unit. -/
def withdraw (u : Nat) (mask : Half) (s : State) : State :=
  let cut (r : LinkReq) : Option LinkReq := if r.opc = 0x30 && r.dst == addrOf (u / 3) (u % 3) then lessMask mask r else some r
  modPort (u / 3) (fun x => { x with waiting := x.waiting.filterMap cut })
    (modBal (fun b => { b with later := b.later.filterMap fun e => (cut e.2).map fun r => (e.1, r) }) s)

/-- The learned wire data of a port go with its learned data (R173, R229). -/
def dropWires (p : Nat) (s : State) : State :=
  let s := forAll [slotOf p 0, slotOf p 1, slotOf p 2] (fun u s => modSlot u (fun b => { b with wire := none }) s) s
  { s with nv := { s.nv with wires := s.nv.wires.mapIdx fun u w => if u / 3 = p then none else w } }

/-- A BLEED_STOP that waits for a slot's unit takes in more inputs. -/
def joinStop (u : Nat) (mask : Half) (r : LinkReq) : LinkReq :=
  if r.opc = 0x31 && r.dst == addrOf (u / 3) (u % 3) then
    { r with data := le 2 (BitVec.ofNat 16 (leNat (slice r.data 0 2)) ||| mask).toNat }
  else r

/-- BLEED_STOP of a slot's inputs waits for the next DOWN frame; one that waits already takes them in, so that one command stops both. -/
def addStop (u : Nat) (mask : Half) (s : State) : State :=
  if (s.port (u / 3)).waiting.any fun r => r.opc = 0x31 && r.dst == addrOf (u / 3) (u % 3) then
    modPort (u / 3) (fun x => { x with waiting := x.waiting.map (joinStop u mask) }) s
  else addReq (u / 3) (reqTo 1 (u / 3) (u % 3) 0x31 (le 2 mask.toNat)) s

/-- BLEED_STOP of a slot's inputs in the next DOWN frame; with a command to the unit in flight, FLAGS.BLEED_STOP of its port
instead (R219). The records stop with that frame (R223). -/
def stopSlot (u : Nat) (mask : Half) (s : State) : State :=
  if mask = 0 then s
  else if (s.posU u).cmd.isSome then modBal (fun b => { b with stopPorts := b.stopPorts ++ [u / 3] }) s
  else addStop u mask s

/-- A single frame with FLAGS.BLEED_STOP on every port. -/
def stopAllPorts (s : State) : State := modBal (fun b => { b with stopPorts := List.range (nPorts s) }) s

/-- A unit whose learned ρ exceeds 0.05 is GATED_WEAK (R227). -/
def gatedWeak (s : State) (u : Nat) : Bool :=
  match (s.bal.slots.getD u {}).wire with
  | some w => decide (3277 ≤ w.rho)
  | none => false

/-- The mode a slot bleeds in (R225, R227): GATED without wire data, COMPENSATED when GATED_WEAK. -/
def slotMode (s : State) (u : Nat) (mode : Bool) : Bool :=
  if (s.bal.slots.getD u {}).wire.isNone then false else mode || gatedWeak s u

/-- BLEED_MODE to every port, then to the units whose mode differs (R225, R227, R228). -/
def sendModes (mode : Bool) (s : State) : State :=
  let b (m : Bool) : Bytes := [if m then 1 else 0]
  let s := forAll (List.range (nPorts s)) (fun p => addReq p { pri := 3, dst := 0xFF, opc := 0x22, data := b mode }) s
  let s := forAll (List.range 144) (fun u s =>
    if (s.posU u).present && slotMode s u mode != mode then
      addReq (u / 3) (reqTo 3 (u / 3) (u % 3) 0x22 (b (slotMode s u mode))) s
    else s) s
  modBal (fun x => { x with modeEff := mode, slots := x.slots.mapIdx fun u y => { y with comp := slotMode s u mode } }) s

/-- A stop outside the round (R219): of the masked groups those that bleed, or whose BLEED_SET is not answered or still
waits; a probe goes on (R222). -/
def stopGroups (u : Nat) (mask : Half) (s : State) : State :=
  if (s.bal.slots.getD u {}).probe != 0 then s else stopSlot u (mask &&& (bleedMask s u ||| sentMask s u)) (withdraw u mask s)

/-- The end of wire learning without a result (R226): every bleed stops, the configured mode is restored. -/
def learnAbort (s : State) : State :=
  if s.bal.learn.isNone then s
  else
    let s := raise 0x0A 5 (sendModes s.bal.mode (stopAllPorts (modBal (fun b => { b with learn := none }) s)))
    completeOp 0x0601 stForbidden [] s

end Sys2Proof.Machine
end

