-- ==== Sys2Proof/Machine/Recorder.lean ====
section
/-! DEFINITION. The event recorder (R444 to R462): REC_EVENT, FLUSH_START, FLUSH_RECORD_WRITTEN, TIME_MARK, OPTIME_TICK, REC_INFO,
REC_READ. -/

namespace Sys2Proof.Machine

open Sys2Proof

def modRec (f : Rec → Rec) (s : State) : State := { s with recd := f s.recd }
def modRecNv (f : RecNv → RecNv) (s : State) : State := { s with recNv := f s.recNv }

/-- The trigger class of a code, by its block (Table 16.3). -/
def classOf (code : Nat) : Nat :=
  match code / 256 with
  | 0x0B => 0
  | 0x0C | 0x10 => 1
  | 0x01 | 0x0D => 2
  | 0x04 | 0x06 => 3
  | 0x07 | 0x08 | 0x09 | 0x0A => 4
  | 0x02 | 0x0E | 0x0F => 5
  | 0x12 | 0x13 => 6
  | _ => 7

/-- Codes that never fold: POWER_CYCLE, TIME_MARK, SPC_RESET, UNREADABLE (R451). -/
def neverFolds (code : Nat) : Bool := code == 0x1180 || code == 0x1181 || code == 0x1183 || code == 0x1185

/-- The 64 bytes of a record (Table 16.1), those of an unreadable one (R459). -/
def recordBytes (r : Record) : Bytes :=
  let b :=
    if r.unread then
      le 10 0 ++ le 2 0x1185 ++ [7, 0] ++ le 2 0xFFFF ++ List.replicate 44 0
    else
      le 4 r.pcyc ++ le 6 r.optime ++ le 2 r.code ++ le 1 r.cls ++ le 1 r.flags ++ le 2 r.source ++
        (match r.snap with
          | some d => fit 44 d
          | none => le 4 r.rep ++ le 4 r.lastDt ++ le 8 r.instant ++ fit 28 r.data)
  b ++ leW (crc32 b)

/-- OPTIME passed since a record, saturating in 32 bits. -/
def dtOf (s : State) (r : Record) : Nat := min (s.recd.optime - r.optime) 0xFFFFFFFF

/-- One more event folded into a record, or counted in a LOST record. -/
def foldInto (s : State) (r : Record) : Record := { r with rep := min (r.rep + 1) 0xFFFFFFFF, lastDt := dtOf s r }

/-- Slots of the ring (R452): one stays free after an acceptance. -/
def ringSlots : Nat := 256

/-- Index in the ring of the newest record that is neither SNAPSHOT nor taken by the flush (R451). -/
def newest (s : State) : Option Nat :=
  ((List.range s.recd.ring.length).reverse).find? fun i =>
    decide (s.recd.taken ≤ i) && (match s.recd.ring[i]? with | some r => r.snap.isNone | none => false)

/-- A record as it is accepted now (Table 16.1). -/
def newRecord (ev : RecEv) (s : State) : Record :=
  { pcyc := s.recNv.pcyc, optime := s.recd.optime, code := ev.code, cls := classOf ev.code
    flags := (if s.upl.holdup != 0 then 1 else 0) + (if s.lcy.spcDown then 2 else 0)
    source := ev.source, instant := ev.instant, data := ev.data, index := s.recNv.next }

/-- Puts a record into the ring: it takes the next index (R459), may trigger a flush (R453), is streamed (R462), and asks for its
snapshot (R449). -/
def enterRing (r : Record) (s : State) : State :=
  let c := s.cfg.recClass r.cls
  let s := modRecNv (fun n => { n with next := n.next + 1 }) (modRec (fun d => { d with ring := d.ring ++ [r] }) s)
  let s := if !c.regs.isEmpty && r.snap.isNone && !s.lcy.spcDown then
    modRec (fun d => { d with snaps := d.snaps ++ [(r.index, r.cls)] }) s else s
  let fill := decide (s.cfg.fill ≤ s.recd.ring.length - s.recd.taken)
  let s := if fill || c.flush then flushTrigger s else s
  produce 0x09 r.index (fun _ => quads (recordBytes r)) s

/-- An event or SNAPSHOT record that finds no room opens a LOST record in the free slot, or counts in the open one (R452). -/
def loseEvent (code source : Nat) (s : State) : State :=
  if s.recd.lostOpen then
    let i := s.recd.ring.length - 1
    modRec (fun d => { d with ring := d.ring.modify i (foldInto s), lostCnt := satAdd d.lostCnt 1 }) s
  else
    let r := newRecord { island := 16, code := 0x1182, source := 0xFFFF
                         data := le 2 code ++ le 2 source ++ le 6 s.recd.optime, instant := recInstant s } s
    let s := modRec (fun d => { d with lostOpen := true, lostCnt := satAdd d.lostCnt 1 }) s
    enterRing { r with rep := 1 } (raise 0x11 0 s)

/-- The recorder takes an event: class filter, the open LOST record, folding, acceptance (R448, R451, R452); after the final flush
has started events are only counted (Table 16.4, step 3). -/
def recTake (ev : RecEv) (s : State) : State :=
  if s.upl.holdup = 3 then modRec (fun d => { d with later := d.later + 1 }) s
  else if !(s.cfg.recClass (classOf ev.code)).enable then s
  else if s.recd.lostOpen then loseEvent ev.code ev.source s
  else
    let same := match newest s with
      | some i => match s.recd.ring[i]? with
        | some r => if r.code == ev.code && r.source == ev.source && !neverFolds ev.code then some i else none
        | none => none
      | none => none
    match same with
    | some i => modRec (fun d => { d with ring := d.ring.modify i (foldInto s), foldCnt := satAdd d.foldCnt 1 }) s
    | none =>
      if s.recd.ring.length + 1 < ringSlots then enterRing (newRecord ev s) s else loseEvent ev.code ev.source s

/-- REC_EVENT: the oldest event that waits in the crossings into REC. -/
def recEventFx (s : State) : State :=
  match s.recd.inq with
  | [] => s
  | ev :: rest => recTake ev (modRec (fun d => { d with inq := rest }) s)

def execRecEvent (s : State) : Host.Outcome State Fault Refusal := act (fun s => if recRuns s then recEventFx s else s) s

/-- The end of a flush: OPTIME is saved, after the final flush with the count of the events since it started (Table 16.4, step 4); a trigger that came meanwhile is due (R445, R453). Its length is open: free (DESIGN CHOICE, log entry 4). -/
def flushEnd (s : State) : State :=
  match takeWord s with
  | (t, s) =>
    let s := modRec (fun d => { d with
      flushing := false, flushCnt := satAdd d.flushCnt 1, due := d.due || d.again, again := false
      flushMax := if d.flushMax.toNat < t.toNat then t else d.flushMax, written := 0 }) s
    let n := modRecNv (fun n => { n with optimeSaved := s.recd.optime }) s
    if s.upl.holdup = 3 then modRecNv (fun n => { n with ending := 1, heldCount := s.recd.later }) n else n

/-- FLUSH_START: every record then in the ring is taken (R450, R453); a LOST record that is taken is no longer open (R452). The final flush of a
hold-up is the last one (Table 16.4). -/
def flushStartFx (s : State) : State :=
  if s.recd.flushing || !s.recd.due || s.upl.holdup = 3 then s
  else
    let final := s.upl.holdup = 2
    let s := if final then { s with upl := { s.upl with holdup := 3 } } else s
    let s := modRec (fun d => { d with due := false, again := false, flushing := true, taken := d.ring.length, lostOpen := false,
                                       written := 0 }) s
    if s.recd.ring.isEmpty then flushEnd s else s

def execFlushStart (s : State) : Host.Outcome State Fault Refusal := act (fun s => if recRuns s then flushStartFx s else s) s

/-- Records of the NV region and of one erase unit (R455). -/
def nvRecords : Nat := 786432
def eraseUnit : Nat := 1024

/-- Makes room in a full region: the next unit's oldest records go; those not read out are counted (R455, R460). -/
def nvRoom (s : State) : State :=
  if s.recNv.records.length < nvRecords then s
  else
    let old := s.recNv.oldest + eraseUnit
    let unread := old - max s.recNv.exportMark s.recNv.oldest
    let s := modRecNv (fun n => { n with records := n.records.drop eraseUnit, oldest := old, wrapped := true }) s
    if unread = 0 then s
    else raise 0x11 1 (modRec (fun d => { d with unreadOvw := satAdd d.unreadOvw unread }) (modRecNv (fun n => { n with exportMark := old }) s))

/-- FLUSH_RECORD_WRITTEN: the oldest taken record is in NV and its slot frees; a record that fails verification is rewritten (R454,
Table 16.9). -/
def flushWrittenFx (verified : Bool) (s : State) : State :=
  if !s.recd.flushing then s
  else if !verified then raise 0x11 2 s
  else match s.recd.ring with
    | [] => flushEnd s
    | r :: rest =>
      let s := nvRoom s
      let s := modRecNv (fun n => { n with records := n.records ++ [r] }) s
      let s := modRec (fun d => { d with ring := rest, taken := d.taken - 1, written := d.written + 1 }) s
      if s.recd.taken = 0 then flushEnd s else s

def execFlushRecordWritten (verified : Bool) (s : State) : Host.Outcome State Fault Refusal :=
  act (fun s => if recRuns s then flushWrittenFx verified s else s) s

/-- TIME_MARK: due at LOCK_GAINED, and every 3,600 s of OPTIME while LOCKED (R458). While no port samples its INSTANT is 0 and its time that of the
module (DEDUCED, log entry 39). -/
def timeMarkFx (s : State) : State :=
  if s.recd.markDue || (s.smp.tb == 2 && decide (s.recd.markAt + 360000 ≤ s.recd.optime)) then
    let s := modRec (fun d => { d with markDue := false, markAt := d.optime }) s
    recTake { island := 16, code := 0x1181, source := 0xFFFF, instant := recInstant s
              data := le 8 s.smp.timeNs ++ leI 4 s.smp.phaseErr } s
  else s

def execTimeMark (s : State) : Host.Outcome State Fault Refusal := act (fun s => if recRuns s then timeMarkFx s else s) s

/-- OPTIME_TICK: 10 ms passed (R445); the oldest waiting record may be FLUSH_PERIOD old (R453); the time with THROTTLED set. -/
def optimeFx (s : State) : State :=
  let s := modRec (fun d => { d with optime := (d.optime + 1) % 2 ^ 48 }) s
  let s := if s.hkp.throttled then { s with hkp := { s.hkp with thrTime := satAdd s.hkp.thrTime 10 } } else s
  match s.recd.ring[s.recd.taken]? with
  | some r => if r.optime + 100 * s.cfg.period ≤ s.recd.optime && !s.recd.due then flushTrigger s else s
  | none => s

def execOptimeTick (s : State) : Host.Outcome State Fault Refusal := act (fun s => if recRuns s then optimeFx s else s) s

/-! ### Readout (R459 to R461) -/

def execRecInfo (r : Req) (s : State) : Host.Outcome State Fault Refusal :=
  act (request r 0x0901 observer (fun s => { forbidden := !stateOk awake s })
    (fun s => respond r 0x0901 stOk
      (le 8 s.recNv.oldest ++ le 8 s.recNv.next ++ le 8 s.recNv.exportMark ++ le 2 s.recd.ring.length ++ [0, 0] ++
        leW s.recd.lostCnt ++ leW s.recd.unreadOvw ++ leW s.recd.snapLost ++ le 4 s.recNv.pcyc ++ le 4 s.recd.optime) s)) s

/-- Up to `count` records from an index on: none below OLDEST, none at or beyond NEXT (R459). -/
def readRecords (s : State) (first count : Nat) : List Record :=
  ((s.recNv.records ++ s.recd.ring).filter fun r => decide (first ≤ r.index)).take count

/-- REC_READ; what it returns may move EXPORT_MARK (R459, R460). -/
def recReadRun (r : Req) (first count : Nat) (s : State) : State :=
  let from_ := max first s.recNv.oldest
  let l := readRecords s from_ count
  let s := match l.head?, l.getLast? with
    | some a, some b =>
      if a.index ≤ s.recNv.exportMark then modRecNv (fun n => { n with exportMark := b.index + 1 }) s else s
    | _, _ => s
  respond r 0x0902 stOk (le 8 (if l.isEmpty then first else from_) ++ le 1 l.length ++ [0, 0, 0] ++ l.flatMap recordBytes) s

def execRecRead (r : Req) (first : Nat) (count : Byte) (s : State) : Host.Outcome State Fault Refusal :=
  act (request r 0x0902 observer
    (fun s => { forbidden := !stateOk awake s, range := count == 0 || decide (21 < count.toNat) })
    (recReadRun r first count.toNat)) s

end Sys2Proof.Machine
end

