-- ==== Sys2Proof/Machine/Transition.lean ====
section
/-! DEFINITION. What a change of the power state does (R358 to R363), apart from the start-up (Power.lean) and the host disconnect
(Protection.lean). -/

namespace Sys2Proof.Machine

open Sys2Proof

def modPwr (f : Pwr → Pwr) (s : State) : State := { s with pwr := f s.pwr }
def modPro (f : Pro → Pro) (s : State) : State := { s with pro := f s.pro }

/-- MAINTAIN-only bits clear (Tables 2.10, 8.8, 10.9, 13.12). -/
def leaveMaintain (s : State) : State :=
  let s := { s with
    prt := s.prt.map fun p => { p with forceN := false, forceS := false }
    upl := { s.upl with a := { s.upl.a with off := false }, b := { s.upl.b with off := false } }
    lcy := { s.lcy with debugEn := false } }
  learnAbort (modPro (fun p => { p with bellTest := false, owPause := false }) s)

/-- The functions whose condition does not rest on samples: classifications, contactor feedback, the reference (Table 8.3). -/
def lasting : BitVec 29 := 0x0580_6000#29

/-- PRO is no longer armed, on its own side: only the functions whose condition lasts stay active (R242), both limits are 0, tests and probes end (R235, R250).
Latches and classifications stay. -/
def disarmed (s : State) : State :=
  modPro (fun p => { p with
    armed := false, active := p.active &&& lasting, iCh := 0, iDis := 0, srcCh := 0xFF, srcDis := 0xFF, chains := []
    nOv := List.replicate 768 0, nUv := List.replicate 768 0, nStack := List.replicate 144 0, nStrOv := 0, nOcCh := 0, nOcDis := 0
    tLost := List.replicate 144 0, devRun := List.replicate 768 0
    otRun := false, graceRun := false, lossRun := false, disRun := false, disClear := false, shOtRun := false, starved := false
    hist := []
    units := p.units.map fun u => { openMask := u.openMask, incon := u.incon, fault := u.fault, inconCnt := u.inconCnt } }) s

/-- PRO is disarmed, and what it passes on follows. -/
def disarm (s : State) : State := tellEst (offer 0x12 (.derate 0 0) (disarmed s))

/-- The ports stop and what depends on samples ends (R362, Table 1.3). -/
def stopSampling (s : State) : State :=
  let s := zeroLapse (diagDrop (fun _ => true) s)
  let s := modEst (fun e => { e with held := none, skipLeft := 0, missLeft := 0 }) (modIns (fun m => { m with poles := [] }) s)
  let s := { s with
    prt := s.prt.map fun p => { p with
      link := 0, lockN := false, lockS := false, lkN := false, lkS := false, seenN := false, seenS := false
      quietN := 0, quietS := 0, lastIdx := none, waiting := [], svc := {}
      pos := p.pos.map fun x => { x with cmd := none, got := none, missRun := 0 } }
    bal := { s.bal with
      recs := s.bal.recs.map fun r => { r with ends := none, stopAt := none, bled := false, ran := false }
      slots := s.bal.slots.map fun x => { x with probe := 0, noPlan := false, stopDue := false }
      sent := [], later := [], stopPorts := [], roundDue := false, planNow := false }
    imp := { s.imp with active := false, tonesOn := false, last := none, descs := [], ms := none, means := [], step := none, steps := [] } }
  let s := modCtl (fun c => { c with
    aoOut := 0, periods := [], edgeSeen := false, sCh := 0, validRun := 0, edgeOk := false, perOk := false }) s
  insChange insModeSettle (disarm (takeThrottle (modSmp (fun m => { m with
    started := false, lowCad := false, lowEnter := none, lowExit := none, lowRun := 0, relabel := none, timeStep := false
    zeroReq := false, closed := false, svc := 0, qAfter := (0, 0), nAfter := (0, 0), acc := {}, lastClose := none, frames := [], impFrames := [], ticks := [] }) s)))

/-- Effects of entering `t` from the present state, before STATE_CHANGED. -/
def enterState (t : Nat) (s : State) : State :=
  let old := s.pwr.state
  let s := onlyIf (old == 4 && t != 4) leaveMaintain s
  let s := onlyIf (old == 3 && t != 3) engineOff s
  let s := if t = 3 && hasCtl s && s.cfg.hasCtl then modCtl (fun c => { c with state := 1, stopCause := c.stopCause }) s else s
  let s := onlyIf ((t == 2 || t == 4) && old != t) (modSmp fun m => { m with zeroSeen := false }) s
  let s := onlyIf ((old == 2 || old == 4) && t == 3) (modSmp fun m => { m with zeroReq := false }) s
  onlyIf (t == 1) (fun s => saveLearned true true s.pwr.saveOk (stopSampling s)) s

/-- A transition completes: the state takes effect, STATE_SET completes OK (R361). -/
def finishTransition (t : Nat) (s : State) : State :=
  let s := setPower t (enterState t s)
  let s := modPwr (fun p => { p with target := none, phase := 0, lastStatus := stOk, transCnt := satAdd p.transCnt 1,
                                     leaving := false, waitFirst := false }) s
  completeOp 0x0202 stOk [BitVec.ofNat 8 t] s

/-- The ring is flushed to NV as a whole (R363). -/
def flushAll (s : State) : State :=
  let s := (List.range 256).foldl (fun t _ => recEventFx t) s
  let s := (List.range 512).foldl (fun t _ => if t.recd.flushing then flushWrittenFx true t else t) s
  (List.range 512).foldl (fun t _ => if t.recd.flushing then flushWrittenFx true t else t) (flushStartFx (flushTrigger s))

/-- STATE_SET DORMANT (R363): save, flush, completion, sessions end without CLOSE, TC10 sleep is requested. -/
def goDormant (s : State) : State :=
  let s := modRecNv (fun n => { n with ending := 2 }) (finishTransition 0 (flushAll (saveLearned true true s.pwr.saveOk s)))
  let s := forAll (List.range 256) (fun c s => if (s.sess c).opened || (s.sess c).half then freeContext c s else s) s
  send (.sleepRequest .B) (send (.sleepRequest .A) { s with upl := { s.upl with asleep := true } })

/-- A transition whose host disconnect, if any, is over: the ports' last cycle comes first on the way to LISTEN (R362). -/
def proceedTo (t : Nat) (s : State) : State :=
  if t = 1 && sampling s then modPwr (fun p => { p with leaving := true }) s else finishTransition t s

/-- A transition out of RUN continues when its disconnect has ended (R268). -/
def continueOut (s : State) : State :=
  match s.pwr.target with
  | some t => if s.pwr.state = 3 && !s.pwr.leaving then proceedTo t s else s
  | none => s

/-- A transition that waits fails: the state stays (R269, R364). -/
def failTransition (status : Nat) (s : State) : State :=
  let s := modPwr (fun p => { p with target := none, phase := 0, lastStatus := status, leaving := false, waitFirst := false }) s
  completeOp 0x0202 status [BitVec.ofNat 8 s.pwr.state] s

end Sys2Proof.Machine
end

