-- ==== Sys2Proof/Machine/Control.lean ====
section
/-! DEFINITION. The control engine (09): fast inputs, set-point sources, limiter, compensator, duties and edges, tones, faults, and the
commands of its rows. -/

namespace Sys2Proof.Machine

open Sys2Proof

/-! ### Configuration in the units of the loop -/

/-- The loop can be computed: the control engine is fitted and configured. -/
def loopCfg (s : State) : Bool := hasCtl s && s.cfgCtl.hasCtl && decide (0 < s.cfgCtl.tUpd)

/-- The CTL island runs. -/
def ctlRuns (s : State) : Bool := hasCtl s && alive s && sampling s

/-- I_RATED in mA. -/
def ctlRated (s : State) : Int := s.cfgCtl.iRated

/-- step_rise and step_fall in mA per update (R299). -/
def stepOf (s : State) (rate : Int) : Int :=
  roundRat ((rate : Rat) / 1000000000 * ctlRated s * ((s.cfgCtl.tUpd : Nat) : Rat) / 1000000000)
def stepRise (s : State) : Int := stepOf s s.cfgCtl.srRise
def stepFall (s : State) : Int := stepOf s s.cfgCtl.srFall

/-- A share of I_RATED in nano-units as a limit on a magnitude in mA. -/
def within (share rated v : Int) : Bool := decide ((v.natAbs : Int) * 1000000000 ≤ share * rated)

def clampI (lo hi v : Int) : Int := min (max v lo) hi
def signI (v : Int) : Int := if 0 < v then 1 else if v < 0 then -1 else 0

/-- Bank `b` of the configuration in force. -/
def bankOf (c : Cfg) (b : Nat) : Bank := c.banks.getD b {}

/-! ### Time of the loop (R282, R283) -/

/-- The period of the carriers in ns. -/
def tSw (s : State) : Nat := s.cfgCtl.tUpd * s.cfgCtl.loopRate

/-- Time of the update in course: one period after the last one, on the grid; afresh where module time moved away from it. -/
def updateTime (s : State) : Nat :=
  let t := s.cfgCtl.tUpd
  let now := s.smp.timeNs
  let next := s.ctl.time + t
  if next + t < now || now + 2000000 < next then gridUp now t else next

/-! ### Fast inputs (R274) -/

/-- value = round((s - n ofs) gain / (n 2^16)). -/
def fastValue (s : State) (sum : Int) (ofs gain : Nat) : Int :=
  let n : Int := s.cfgCtl.tUpd / 100
  roundRat (((sum - n * s.cfgCtl.ctlI ofs) * s.cfgCtl.ctlI gain : Int) / ((n * 65536 : Int) : Rat))

/-- v_bus lies within V_BUS_MIN and V_BUS_MAX. -/
def busOkAt (s : State) (v : Int) : Bool := decide (s.cfgCtl.vBusMin ≤ v) && decide (v ≤ s.cfgCtl.vBusMax)

/-- The results of one update period: currents, voltages, and what the judgements of R280 and R281 keep. -/
def measureFx (x : LoopObs) (t : Nat) (s : State) : State :=
  let i0 := fastValue s x.ci0 11 13
  let i1 := fastValue s x.ci1 12 14
  let vb := fastValue s x.cv0 15 17
  let vs := fastValue s x.cv1 16 18
  let ok := busOkAt s vb
  modCtl (fun c => { c with
    time := t, gdN := x.gdN, i0 := i0, i1 := i1, vBus := vb, vStr := vs, meas := i0 + i1
    busRun := if ok then 0 else c.busRun + 1, busOk := if ok then c.busOk + 1 else 0
    ciBad := x.ciOut, mmSum := c.mmSum + (i0 + i1), mmN := c.mmN + 1 }) s

/-! ### CHANTER (R295 to R298) -/

/-- The value a CHANTER source gives, fallback apart. -/
def chanterValue (s : State) (src : Nat) : Int := if srcPulse src then s.ctl.sCh else if srcAnalog src then s.ctl.sAna else 0

/-- Enters fallback: CHANTER_LOST, the last value is held (R297). -/
def fallbackFx (s : State) : State :=
  if s.ctl.fallback then s
  else raise 0x0C 7 (modCtl (fun c => { c with fallback := true, heldCh := chanterValue s (srcNow s), validRun := 0 }) s)

/-- The conversion of one update period (R296) and its fallback. -/
def analogFx (x : LoopObs) (s : State) : State :=
  if srcPulse (srcNow s) then s
  else
    let s := if x.chOver && srcAnalog (srcNow s) then fallbackFx s else s
    let v := roundRat ((s.cfgCtl.chSign * ctlRated s * x.chUv : Int) / (10000000 : Rat))
    modCtl (fun c => { c with chVolt := x.chUv, analogOk := x.chIn, sAna := clampI (-(ctlRated s)) (ctlRated s) v }) s

/-- No edge of either sense for 200 µs, the update period in course counted (R297; DEDUCED, log entry 61). -/
def chanterSilent (s : State) : Bool := decide (s.ctl.edgeAt + 200000 ≤ ctlNow s + s.cfgCtl.tUpd)

/-- CHANTER_EDGE: `ps` since the rising edge before (R295). -/
def edgeFx (rising : Bool) (ps : Nat) (s : State) : State :=
  let s := if srcAnalog (srcNow s) then s else modCtl (fun c => { c with edgeOk := true, edgeAt := ctlNow s }) s
  if srcAnalog (srcNow s) || !rising then s
  else if !s.ctl.edgeSeen then modCtl (fun c => { c with edgeSeen := true }) s
  else if decide (10 ^ 12 ≤ ps * 95500) && decide (ps * 4500 ≤ 10 ^ 12) then
    let l := (ps :: s.ctl.periods).take (max 1 s.cfgCtl.chAvg)
    let f : Rat := (l.length : Rat) * 1000000000000 / ((l.sum : Nat) : Rat)
    let r := ctlRated s
    let v := roundRat (((s.cfgCtl.chSign * r : Int) : Rat) * (f - 50000) / 45000)
    modCtl (fun c => { c with
      periods := l, chFreq := BitVec.ofInt 32 (roundRat (1000 * f)), sCh := clampI (-r) r v
      validRun := c.validRun + 1, perOk := true, perAt := ctlNow s }) s
  else raise 0x0C 15 (modCtl (fun c => { c with chBad := satAdd c.chBad 1, validRun := 0 }) s)

def execChanterEdge (rising : Bool) (ps : Nat) (s : State) : Host.Outcome State Fault Refusal :=
  act (fun s => if ctlRuns s then edgeFx rising ps s else s) s

/-- CHANTER_LOST: no edge for 200 µs, or else no valid period ended for 500 µs (R297). -/
def chanterLostFx (s : State) : State :=
  if srcAnalog (srcNow s) then s
  else
    let noEdge := chanterSilent s
    let noPeriod := !noEdge || decide (s.ctl.perAt + 500000 ≤ ctlNow s + s.cfgCtl.tUpd)
    let s := if srcPulse (srcNow s) then fallbackFx s else s
    modCtl (fun c => { c with edgeOk := c.edgeOk && !noEdge, perOk := c.perOk && !noPeriod, validRun := 0 }) s

def execChanterLost (s : State) : Host.Outcome State Fault Refusal := act (fun s => if ctlRuns s then chanterLostFx s else s) s

/-- CHANTER_BACK: AUTO returns after 16 valid periods, or 10 ms of conversions within ±10.5 V (R298). -/
def chanterBackFx (s : State) : State :=
  if s.ctl.fallback && s.cfgCtl.chReturn == 1 &&
      (if srcPulse (srcNow s) then decide (16 ≤ s.ctl.validRun) else s.ctl.analogOk) then backFx s else s

def execChanterBack (s : State) : Host.Outcome State Fault Refusal :=
  act (fun s => if ctlRuns s then chanterBackFx s else s) s

/-- A write of SRC, 0 to 4 (R293, R298); the shadow loop keeps the holder's. -/
def srcFx (n : Nat) (s : State) : State :=
  let s := modCtl (fun c => { c with src := n }) s
  if (shadowOf s).isSome then s else srcTaken n s

/-! ### Set-point and limiter (R293, R294, R299) -/

/-- The source value s in mA. -/
def sourceValue (s : State) : Int :=
  let c := s.ctl
  let src := srcNow s
  let host := match shadowOf s with | some f => f.spHost | none => if c.hostStale then 0 else c.spHost
  let mode := s.cfgCtl.chFallback
  let hostPart := if src == 0 || src == 3 || src == 4 || (c.fallback && mode == 2) then host else 0
  let ch := if !c.fallback then chanterValue s src else if mode == 1 && src != 0 then c.heldCh else 0
  if c.state = 4 then 0 else clampI (-(ctlRated s)) (ctlRated s) (hostPart + ch)

/-- The lowest of three limits and its setter: 0 configuration, 1 SOP, 2 PRO (R27, Table 9.12). -/
def leastLimit (cfg sop pro : Int) : Int × Nat :=
  if cfg ≤ sop && cfg ≤ pro then (cfg, 0) else if sop ≤ pro then (sop, 1) else (pro, 2)

/-- Latches the limits of the update. -/
def limitsFx (s : State) : State :=
  let c := s.ctl
  let sop (v : Nat) : Int := if c.sopStale then 0 else v
  let der (v : Nat) : Int := if (s.xr 0x12).down then 0 else v
  let a := leastLimit s.cfgCtl.ctlICh (sop c.sopCh) (der c.derCh)
  let b := leastLimit s.cfgCtl.ctlIDis (sop c.sopDis) (der c.derDis)
  modCtl (fun c => { c with limCh := a.1.toNat, limSrcCh := a.2, limDis := b.1.toNat, limSrcDis := b.2 }) s

/-- The magnitude and slew limiter; in STARTING the target is 0 (Table 9.2, step 3). -/
def limiterFx (s : State) : State :=
  let c := s.ctl
  let v := sourceValue s
  let tgt := if c.state = 2 then 0 else min (max v (-(c.limDis : Int))) c.limCh
  let tz := min (c.tZero + s.cfgCtl.tUpd) s.cfgCtl.tZero
  let dir := if c.out ≠ 0 then signI c.out else if s.cfgCtl.tZero ≤ tz then 0 else c.lastDir
  let goal := if dir ≠ 0 && signI tgt == -dir then 0 else tgt
  let out :=
    if c.out.natAbs < goal.natAbs then c.out + signI goal * min ((goal.natAbs : Int) - c.out.natAbs) (stepRise s)
    else c.out - signI c.out * min ((c.out.natAbs : Int) - goal.natAbs) (stepFall s)
  modCtl (fun c => { c with srcVal := v, lastDir := dir, tZero := if c.out ≠ 0 then 0 else tz, out := out }) s

/-! ### Tones (R300 to R302) -/

/-- Whole turns in 10^11 parts of a tone after `dt` ns: F in 0.01 Hz. -/
def tonePhase (freq dt : Nat) : Nat := freq * dt
def tauTurn : Nat := 100000000000

/-- φ = 2^32 frac(F dt). -/
def tonePhi (freq dt : Nat) : Nat := (tonePhase freq dt % tauTurn) * 2 ^ 32 / tauTurn

/-- sin of a quarter turn's share r / 2^30, in 2^-40: the series to the 13th power. -/
def sinQuarter (r : Nat) : Int :=
  let one : Int := 2 ^ 40
  let x : Int := (r : Int) * 1727108826179 / 2 ^ 30
  let y := x * x / one
  let t := one - y / 156
  let t := one - y * t / one / 110
  let t := one - y * t / one / 72
  let t := one - y * t / one / 42
  let t := one - y * t / one / 20
  let t := one - y * t / one / 6
  x * t / one

/-- sin(2π φ / 2^32) in 2^-40, with the engine's own error, free within R301's bound (DESIGN CHOICE, log entry 6). -/
def toneSine (phi : Nat) : Int :=
  let r := phi % 2 ^ 30
  let v := match phi / 2 ^ 30 % 4 with
    | 0 => sinQuarter r
    | 1 => sinQuarter (2 ^ 30 - r)
    | 2 => -(sinQuarter r)
    | _ => -(sinQuarter (2 ^ 30 - r))
  v + ((Config.sineError phi).val - 8 : Int) * 2 ^ 16

/-- A tone still runs at the update: a stopped one until its phase has wrapped after the command (R301). -/
def toneLives (start prev now : Nat) (x : CtlTone) : Bool :=
  !x.ended && match x.stopping with
    | none => true
    | some t => decide (tonePhase x.freq (now - start) / tauTurn ≤ tonePhase x.freq (max prev t - start) / tauTurn)

/-- The tones of the update and their sum in mA. -/
def tonesFx (prev now : Nat) (s : State) : State × Int :=
  let st := s.ctl.toneStart
  if s.ctl.state != 3 || s.ctl.tones.isEmpty || now < st then (s, 0)
  else
    let l := s.ctl.tones.filter (toneLives st prev now)
    let sum := (l.map fun x => (x.amp : Int) * toneSine (tonePhi x.freq (now - st))).sum
    (modCtl (fun c => { c with tones := l }) s, roundRat ((sum : Rat) / (2 ^ 40 : Nat)))

/-- The descriptor of an instant (R302): withheld, with TONE_CLIPPED, only when the final clamp changed r in the 62.5 µs before. A full
crossing 0x14 loses it (R434). -/
def toneDescFx (s : State) : State :=
  let c := s.ctl
  let now := s.smp.timeNs
  if c.state != 3 || c.tones.isEmpty || now < c.toneStart || !hasImp s then s
  else
    let s := modCtl (fun c => { c with clipAt := none }) s
    if (match c.clipAt with | some t => decide (now ≤ t + 62500) | none => false) then raise 0x0C 13 s
    else
      let d : ToneDesc := { instant := s.smp.instant, tones := c.tones.map fun x =>
        { freq := x.freq, amp := x.amp, phase := BitVec.ofNat 32 (tonePhi x.freq (now - c.toneStart)) } }
      if (s.xr 0x14).down then refuse 0x14 s
      else if s.imp.descs.length < 16 then { s with imp := { s.imp with descs := s.imp.descs ++ [d] } }
      else raiseXng 2 (modX 0x14 (fun r => { r with loss := satAdd r.loss 1 }) s)

/-- TONE_SET_START: a waiting set starts at the whole millisecond (R301). -/
def toneStartFx (s : State) : State :=
  match s.ctl.tonesNext with
  | some l => modCtl (fun c => { c with tones := l, tonesNext := none, toneStart := c.toneNextAt, clipAt := none }) s
  | none => s

def execToneSetStart (s : State) : Host.Outcome State Fault Refusal :=
  act (fun s => if ctlRuns s then toneStartFx s else s) s

/-! ### Banks, compensator, duties (R285 to R289) -/

/-- The bank that the update asks for. -/
def bankWanted (s : State) : Nat := match shadowOf s with | some f => f.bankReq | none => s.ctl.bankReq

/-- A swap (R288, R289): `seed` with the last output of the old bank, clamped. -/
def swapFx (old new : Bank) (b : Nat) (seed : Bool) (s : State) : State :=
  if b = s.ctl.bank && old == new then s
  else
    let u := s.ctl.u1
    let w := clampI new.uMin new.uMax u
    let s := if seed then
      raiseIf (u == old.uMin || u == old.uMax) 0x0C 10 (modCtl (fun c => { c with u1 := w, u2 := w, u3 := w }) s)
    else s
    raise 0x0C 9 (modCtl (fun c => { c with bank := b }) s)

/-- R286 with reference r. -/
def compensate (k : Bank) (r : Int) (s : State) : State :=
  let c := s.ctl
  let e0 := clampI (-8388608) 8388607 (r - c.meas)
  let b (i : Nat) : Int := k.b.getD i 0
  let a (i : Nat) : Int := k.a.getD i 0
  let b3 := if k.order3 then b 3 else 0
  let a3 := if k.order3 then a 2 else 0
  let acc := (b 0 * e0 + b 1 * c.e1 + b 2 * c.e2 + b3 * c.e3) * 2 ^ k.shift + a 0 * c.u1 + a 1 * c.u2 + a3 * c.u3
  let v := clampI (-2147483648) 2147483647 ((acc + 8388608) / 16777216)
  let u0 := min (max v k.uMin) k.uMax
  modCtl (fun c => { c with
    e3 := c.e2, e2 := c.e1, e1 := e0, u3 := c.u2, u2 := c.u1, u1 := u0, u := u0, clampLo := u0 == k.uMin, clampHi := u0 == k.uMax }) s

/-- A feed-forward quotient; with v_bus = 0 it has no stated value: free (DESIGN CHOICE, log entry 4). -/
def ffQuot (num : Int) (s : State) : Int × State :=
  if s.ctl.vBus = 0 then (Config.freeInt s.fresh, { s with fresh := s.fresh + 1 })
  else (roundRat ((num : Rat) / (s.ctl.vBus : Rat)), s)

/-- The first update after a start, in place of R286: the histories stay at 0, so that the duty is d_ff alone (Table 9.2, step 3; DEDUCED, log
entry 61). -/
def firstUpdate (k : Bank) (s : State) : State :=
  modCtl (fun c => { c with u := 0, clampLo := k.uMin == 0, clampHi := k.uMax == 0 }) s

/-- R287; at the first update after a start the phase balance stays at 0. -/
def dutiesFx (first : Bool) (r : Int) (s : State) : State :=
  let k := s.cfgCtl
  match ffQuot (s.ctl.vStr * 16777216) s with
  | (q0, s) =>
    match ffQuot ((r - s.ctl.r1) * k.ffSlewK * 256) s with
    | (q1, s) =>
      let c := s.ctl
      let dFf := if k.ffEn then clampI 0 16777216 q0 else 0
      let d := clampI k.dMin k.dMax (dFf + q1 + c.u)
      let bal := if first then 0 else clampI (-k.dBalMax) k.dBalMax (c.bal + ((c.i1 - c.i0) * k.kBal + 32768) / 65536)
      modCtl (fun c => { c with
        ref := r, r1 := r, duty := d, bal := bal
        p0 := if c.started then some c.d0 else none, p1 := if c.started then some c.d1 else none
        d0 := clampI k.dMin k.dMax (d + bal), d1 := clampI k.dMin k.dMax (d - bal), started := true
        updCnt := satAdd c.updCnt 1 }) s

/-! ### The shadow loop's resynchronisation (R415, R416) -/

/-- The conditions of R415. -/
def shadowOk (s : State) : Bool :=
  inPair s && !s.pai.select && peerIs s (fun f => f.select && (f.ctlState == 3 || f.ctlState == 4)) && s.pwr.state == 3 &&
    (s.pro.kA &&& s.pro.kB &&& 3) == 3 && (s.pro.kf &&& 3) == 3 && s.ctl.gdN && busOkAt s s.ctl.vBus

/-- The standby's engine enters or leaves SHADOW (R415). Before its first update its own state is that of the entry, all zero (R416; DEDUCED, log entry 13). -/
def shadowCheck (s : State) : State :=
  if !loopCfg s then s
  else if s.ctl.state = 1 && shadowOk s then
    let s := modCtl (fun c => { c with
      state := 5, updCnt := 0, out := 0, bal := 0, e1 := 0, e2 := 0, e3 := 0, u1 := 0, u2 := 0, u3 := 0, r1 := 0
      lastDir := 0, tZero := s.cfgCtl.tZero, quietRun := 0, started := false, p0 := none, p1 := none }) s
    let s := srcWatch s.ctl.src s
    { s with pai := { s.pai with own := [{ time := s.ctl.time, ran := false, u1 := 0, u2 := 0, u3 := 0, bal := 0, out := 0, d := 0 }], devRun := 0, okRun := 0 } }
  else if s.ctl.state = 5 && !shadowOk s then
    haltEngine 1 s.ctl.stopCause 0 s
  else s

/-- The time of a STATUS frame's instant, on the grid that both modules share (R406). -/
def statusTime (f : PeerStatus) (s : State) : Nat :=
  moved ((BitVec.ofNat 32 f.instant - BitVec.ofNat 32 s.smp.instant).toInt * (tCad s.smp.cad : Nat)) s.smp.timeNs

/-- The standby's own state after the frame's update n: the last at or before its instant, one and the same for both modules (R416, R417). -/
def ownAt (f : PeerStatus) (s : State) : Option ShadowRec :=
  s.pai.own.find? fun o => !o.ran || o.time / s.cfgCtl.tUpd == statusTime f s / s.cfgCtl.tUpd

/-- R416, at the first update after a STATUS frame. The count of updates follows the holder's: that of the frame, and the updates since
(DEDUCED, log entry 13). -/
def resync (s : State) : State :=
  match s.pai.peer with
  | some f =>
    if !s.pai.peerFresh || s.ctl.state != 5 then s
    else
      let since := s.ctl.time / s.cfgCtl.tUpd - statusTime f s / s.cfgCtl.tUpd
      let s := modCtl (fun c => { c with
        lastDir := f.lastDir, tZero := f.tZero * s.cfgCtl.tUpd, updCnt := BitVec.ofNat 32 (min (f.upd + since - 1) 0xFFFFFFFF) })
        { s with pai := { s.pai with peerFresh := false } }
      match ownAt f s with
      | none => s
      | some o =>
        let k := bankOf s.cfgCtl s.ctl.bank
        let cl (v : Int) : Int := clampI k.uMin k.uMax v
        modCtl (fun c => { c with
          u1 := cl (c.u1 + (f.u1 - o.u1)), u2 := cl (c.u2 + (f.u2 - o.u2)), u3 := cl (c.u3 + (f.u3 - o.u3))
          bal := clampI (-s.cfgCtl.dBalMax) s.cfgCtl.dBalMax (c.bal + (f.bal - o.bal))
          out := min (max (c.out + (f.out - o.out)) (-(c.limDis : Int))) c.limCh }) s
  | none => s

/-- The shadow loop keeps its own state of the last 8 updates (R416). -/
def keepOwn (s : State) : State :=
  if s.ctl.state != 5 then s
  else
    let c := s.ctl
    let o : ShadowRec := { time := c.time, u1 := c.u1, u2 := c.u2, u3 := c.u3, bal := c.bal, out := c.out, d := c.duty }
    { s with pai := { s.pai with own := (o :: s.pai.own).take 8 } }

/-! ### The update (R283 to R302) -/

/-- The engine takes a committed configuration at an update (Table 13.5); with the first one that has a CTL section, it leaves OFF in RUN
(Table 9.1). -/
def takeCtlCfg (s : State) : State :=
  if s.ctl.cfgDue then
    modCtl (fun c => { c with cfgDue := false, state := if c.state = 0 && s.pwr.state = 3 && s.cfg.hasCtl then 1 else c.state })
      { s with cfgCtl := s.cfg }
  else s

/-- This update is one of the loop: every one in RUNNING, STOPPING and SHADOW; in STARTING from GE_SETTLE on. -/
def loopDue (t : Nat) (s : State) : Bool :=
  s.ctl.state == 3 || s.ctl.state == 4 || s.ctl.state == 5 ||
    (s.ctl.state == 2 && decide (s.ctl.startAt + (s.cfgCtl.ctlI 30).toNat ≤ t))

/-- CTL_TRACE (Table 11.9). -/
def traceWords (t : Nat) (s : State) : List Quad :=
  let c := s.ctl
  quads (le 8 t ++ leW (s32 c.ref) ++ leW (s32 c.meas) ++ leW (s32 c.out) ++ leW (s32 c.u) ++ leW (s32 c.vBus) ++ leW (s32 c.vStr) ++
    leW (s32 c.i0) ++ leW (s32 c.i1))

/-- The park rule of R277, in STOPPING and in RAMP_DOWN (R278). -/
def parkRule (s : State) : State :=
  let stop := s.ctl.state = 4
  let ramp := s.pro.conn = 6 && (s.ctl.state == 3 || s.ctl.state == 4)
  let quiet := s.ctl.out == 0 && within s.cfgCtl.iPark (ctlRated s) s.ctl.meas
  let s := modCtl (fun c => { c with quietRun := if quiet && (stop || ramp) then c.quietRun + 1 else 0 }) s
  if s.ctl.quietRun < 16 then s
  else if stop then parkEngineWith 1 true s
  else if ramp then parkEngineWith 3 true s
  else s

/-- One update of the loop at time `t`, the update before at `prev`; `old` is the bank in force before a commit. -/
def loopStep (prev t : Nat) (old : Bank) (s : State) : State :=
  let s := limiterFx (resync (limitsFx s))
  match tonesFx prev t s with
  | (s, tone) =>
    let c := s.ctl
    let r0 := c.out + tone
    let r := min (max r0 (-(c.limDis : Int))) c.limCh
    let s := if r = r0 then s else modCtl (fun c => { c with clipAt := if c.tones.isEmpty then none else some t }) s
    let b := bankWanted s
    let s := swapFx old (bankOf s.cfgCtl b) b (s.ctl.state != 2) s
    let k := bankOf s.cfgCtl b
    let first := s.ctl.state == 2 && !s.ctl.started
    let s := keepOwn (dutiesFx first r (if first then firstUpdate k s else compensate k r s))
    parkRule (produce 0x08 s.ctl.updCnt.toNat (fun _ => traceWords t s) s)

/-- LOOP_UPDATE: the sums of R274 are taken at every update instant and judged while GATE_EN is the engine's, the settle time included (R280);
the loop runs where it is due. -/
def loopUpdateFx (x : LoopObs) (s : State) : State :=
  let old := bankOf s.cfgCtl s.ctl.bank
  let s := takeCtlCfg s
  let prev := s.ctl.time
  let t := updateTime s
  let s := analogFx x (measureFx x t s)
  let s := shadowCheck s
  if 3 ≤ s.ctl.busRun then faultEngine 4 5 s
  else if loopDue t s then loopStep prev t old s
  else s

def execLoopUpdate (x : LoopObs) (s : State) : Host.Outcome State Fault Refusal :=
  act (fun s => if ctlRuns s && loopCfg { s with cfgCtl := if s.ctl.cfgDue then s.cfg else s.cfgCtl } then loopUpdateFx x s else s) s

/-! ### Edges (R284, R290, R291) -/

/-- The edges of a period and the number of intervals skipped (R291). -/
def edgesOf (s : State) (d : Int) : PwmEdges × Nat :=
  let k := s.cfgCtl
  let nt : Int := 32 * (250000000 / k.fSw : Nat)
  let tOn := (d * nt + 8388608) / 16777216
  let cOn := nt / 2 - tOn / 2
  let cOff := cOn + tOn
  let hi := tOn - k.dtH
  let lo := nt - tOn - k.dtL
  let skip (n : Int) : Nat := if 0 < n && n < k.minPulse then 1 else 0
  ({ lowOff := cOn
     high := if k.minPulse ≤ hi then some (cOn + k.dtH, cOff) else none
     lowOn := if k.minPulse ≤ lo then some (cOff + k.dtL) else none }, skip hi + skip lo)

/-- The time of the next valley of phase `k` that the last update does not lie beyond. -/
def valleyTime (s : State) (k : Nat) : Nat :=
  let sw := tSw s
  let half := if k = 0 then 0 else sw / 2
  let last := if k = 0 then s.ctl.v0 else s.ctl.v1
  let v := (s.ctl.time + sw - half - 1) / sw * sw + half
  if v = last then v + sw else v

/-- PHASE_VALLEY: phase k latches the duty of the latest update at least 2 µs old (R284); the start ends when both have begun. A shadow
engine latches its pattern too, its pins staying low (R426). -/
def valleyFx (k : Nat) (s : State) : State :=
  let v := valleyTime s k
  let late := decide (s.ctl.time + 2000 ≤ v)
  let s := modCtl (fun c => if k = 0 then { c with v0 := v } else { c with v1 := v }) s
  let c := s.ctl
  let d := if late then (if c.started then some (if k = 0 then c.d0 else c.d1) else none) else (if k = 0 then c.p0 else c.p1)
  match d with
  | none => s
  | some d =>
    match edgesOf s d with
    | (e, n) =>
      let s := (List.range (if s.ctl.state = 5 then 0 else n)).foldl (fun s _ => raise 0x0C 11 (modCtl (fun c => { c with pulseSkip := satAdd c.pulseSkip 1 }) s)) s
      let s := modCtl (fun c => if k = 0 then { c with lat0 := d, pwm0 := some e, begun0 := true } else { c with lat1 := d, pwm1 := some e, begun1 := true }) s
      if s.ctl.state = 2 && s.ctl.begun0 && s.ctl.begun1 then
        answerStart stOk [] (raise 0x0C 0 (modCtl (fun c => { c with state := 3 }) s))
      else s

def execPhaseValley (k : Fin 2) (s : State) : Host.Outcome State Fault Refusal :=
  act (fun s => if ctlRuns s && loopCfg s && (engineRuns s || s.ctl.state == 5) then valleyFx k s else s) s

/-! ### Faults (R280, R281) -/

/-- GD_FAULT: the pin low for 200 ns. In SHADOW it ends the shadow (R415). -/
def execGdFault (s : State) : Host.Outcome State Fault Refusal :=
  act (fun s =>
    if ctlRuns s then
      let s := modCtl (fun c => { c with gdN := false }) s
      if s.ctl.state = 5 then shadowCheck s else faultEngine 1 3 s
    else s) s

/-- PH_OC, or with `rail` CI_OVR. -/
def execPhOc (rail : Bool) (s : State) : Host.Outcome State Fault Refusal :=
  act (fun s => if ctlRuns s then faultEngine (if rail then 3 else 2) 4 (modCtl (fun c => { c with ciBad := true }) s) else s) s

/-- The comparison of CI_MISMATCH over the millisecond that ends (Table 9.3). A millisecond without 16 selected results, or without every
update, is not judged (DEDUCED, log entry 14). -/
def mismatchFx (s : State) : State :=
  let c := s.ctl
  let whole := c.selN == 16 && decide (0 < c.mmN) && c.mmN * s.cfgCtl.tUpd == ms
  let y : Rat := (c.mmSum : Rat) / ((max c.mmN 1 : Nat) : Rat)
  let i : Rat := (c.selSum : Rat) / 16
  let d := if y < i then i - y else y - i
  let lim : Rat := (s.cfgCtl.ciDevAbs : Rat) / 1000000 + (s.cfgCtl.ciDevRel : Rat) / 1000000000 * (if i < 0 then -i else i)
  let bad := decide (lim < d)
  let s := modCtl (fun c => { c with
    mmSum := 0, mmN := 0, selSum := 0, selN := 0
    mmBad := if whole then bad else c.mmBad
    mmRun := if whole then (if bad then c.mmRun + 1 else 0) else c.mmRun }) s
  if 10 ≤ s.ctl.mmRun then faultEngine 5 6 s else s

def execCiMismatchCheck (s : State) : Host.Outcome State Fault Refusal :=
  act (fun s => if ctlRuns s && loopCfg s then mismatchFx s else s) s

/-- A current result for the comparison of CI_MISMATCH. -/
def ctlCurrent (s : State) : State :=
  match iSel s with
  | some i => if hasCtl s then modCtl (fun c => { c with selSum := c.selSum + i, selN := c.selN + 1 }) s else s
  | none => s

/-- The condition of the fault in force has gone (R281). -/
def faultGone (s : State) : Bool :=
  match s.ctl.fault with
  | 1 => s.ctl.gdN
  | 2 | 3 => !s.ctl.ciBad
  | 4 => decide (3 ≤ s.ctl.busOk)
  | 5 => !s.ctl.mmBad
  | _ => true

/-! ### Timers -/

def execHostSpStale (s : State) : Host.Outcome State Fault Refusal :=
  act (fun s =>
    if ctlRuns s && s.ctl.spRun && s.cfgCtl.hostSpHold != 0 then
      raise 0x0C 12 (modCtl (fun c => { c with hostStale := true, spRun := false }) s)
    else s) s

def execSopStale (s : State) : Host.Outcome State Fault Refusal :=
  act (fun s =>
    if ctlRuns s && !s.ctl.sopStale then raise 0x0C 14 (modCtl (fun c => { c with sopStale := true }) s) else s) s

/-- STOP_TMAX_EXPIRY: STOPPING parks (R277). -/
def execStopTmaxExpiry (s : State) : Host.Outcome State Fault Refusal :=
  act (fun s => if ctlRuns s && s.ctl.state == 4 then parkEngineWith 1 true s else s) s

/-! ### Mailbox -/

/-- The module is the standby of a pair. -/
def standby (s : State) : Bool := inPair s && !s.pai.select

/-- The conditions of R275 but for the engine's state. -/
def startOk (s : State) : Bool :=
  stateOk [3] s && s.pro.conn == 5 && !tripped s && s.ctl.gdN && busOkAt s s.ctl.vBus && commands s && s.ctl.state != 5 && loopCfg s

/-- Step 1 of Table 9.2; the answer comes when RUNNING is reached. -/
def startEngine (r : Req) (s : State) : State :=
  let s := modCtl (fun c => { c with
    state := 2, enable := true, startAt := max s.smp.timeNs c.time, started := false, begun0 := false, begun1 := false, p0 := none
    p1 := none, tZero := s.cfgCtl.tZero, lastDir := 0, out := 0, updCnt := 0, quietRun := 0 }) s
  { s with ses := { s.ses with deferred := s.ses.deferred ++
    [{ op := 0x0801, ctx := r.ctx, gen := (s.sess r.ctx.toNat).gen, tag := r.tag, at_ := s.smp.timeNs }] } }

def execCtlStart (r : Req) (s : State) : Host.Outcome State Fault Refusal :=
  act (request r 0x0801 operator
    (fun s => { absent := !hasCtl s, forbidden := !startOk s, busy := s.ctl.state != 1 })
    (startEngine r)) s

/-- CTL_STOP by engine state (R277). -/
def stopEngine (r : Req) (s : State) : State :=
  if s.ctl.state = 1 then completeOp 0x0802 stOk [] (defer r 0x0802 s)
  else if s.ctl.state = 2 then parkEngineWith 1 true (defer r 0x0802 s)
  else if s.ctl.state = 3 then
    modCtl (fun c => { c with state := 4, tones := [], tonesNext := none, quietRun := 0 }) (defer r 0x0802 s)
  else defer r 0x0802 s

def execCtlStop (r : Req) (s : State) : Host.Outcome State Fault Refusal :=
  act (request r 0x0802 operator
    (fun s => {
      absent := !hasCtl s
      forbidden := !stateOk [3] s || s.ctl.state == 0 || s.ctl.state == 5 || s.ctl.state == 6
      busy := deferredBusy 0x0802 s })
    (stopEngine r)) s

def execCtlFaultClear (r : Req) (s : State) : Host.Outcome State Fault Refusal :=
  act (request r 0x0803 operator
    (fun s => { absent := !hasCtl s, forbidden := !stateOk [3] s || (s.ctl.state == 6 && !faultGone s) })
    (fun s => respond r 0x0803 stOk []
      (if s.ctl.state = 6 then modCtl (fun c => { c with state := 1, fault := 0 }) s else s))) s

/-- The set that CTL_TONE names is in range (R300): indices of tones in use, each once; amplitudes up to TONE_A_MAX together. -/
def toneRange (s : State) (tones : List (Nat × Nat)) : Bool :=
  tones.all (fun e => decide (e.1 < 4) && decide (0 < s.cfgCtl.toneF e.1)) && decide ((tones.map Prod.fst).Nodup) &&
    decide (((tones.map Prod.snd).sum : Int) * 1000000000 ≤ s.cfgCtl.toneAMax * ctlRated s)

/-- Starts a set at the next whole millisecond, or stops all. After a stop the start time has no stated value: free (DESIGN CHOICE, log entry 4). -/
def toneRun (r : Req) (tones : List (Nat × Nat)) (s : State) : State :=
  if tones.isEmpty then
    let s := modCtl (fun c => { c with tonesNext := none, tones := c.tones.map fun x => { x with stopping := x.stopping.or (some (max s.smp.timeNs c.time)) } }) s
    match takeBytes 8 s with
    | (b, s) => respond r 0x0804 stOk b s
  else
    let t := gridUp (max s.smp.timeNs s.ctl.time + 1) ms
    respond r 0x0804 stOk (le 8 t)
      (modCtl (fun c => { c with
        tonesNext := some (tones.map fun e => { freq := s.cfgCtl.toneF e.1, amp := e.2 }), toneNextAt := t }) s)

def execCtlTone (r : Req) (tones : List (Nat × Nat)) (s : State) : Host.Outcome State Fault Refusal :=
  act (request r 0x0804 operator
    (fun s => { absent := !hasCtl s, forbidden := !stateOk [3] s || s.ctl.state != 3 || standby s, range := !toneRange s tones })
    (toneRun r tones)) s

/-- A write of CTL_SP_HOST restarts HOST_SP_HOLD (R294). -/
def spHostFx (v : Int) (s : State) : State := modCtl (fun c => { c with spHost := v, hostStale := false, spRun := true }) s

def execCtlSetpoint (r : Req) (sp : Word) (src : Byte) (s : State) : Host.Outcome State Fault Refusal :=
  act (request r 0x0805 operator
    (fun s => { absent := !hasCtl s, forbidden := !stateOk [3] s || standby s, range := src != 0xFF && decide (4 < src.toNat) })
    (fun s => respond r 0x0805 stOk [] (spHostFx sp.toInt (if src = 0xFF then s else srcFx src.toNat s)))) s

/-- A write of BANK_REQ: where no update runs, the swap takes effect with no seeding (R289). -/
def bankReqFx (b : Nat) (s : State) : State :=
  let s := modCtl (fun c => { c with bankReq := b }) s
  if s.ctl.state = 0 || s.ctl.state = 1 || s.ctl.state = 6 then
    swapFx (bankOf s.cfgCtl s.ctl.bank) (bankOf s.cfgCtl b) b false s
  else s

end Sys2Proof.Machine
end

