-- ==== Sys2Proof/Machine/CellModel.lean ====
section
/-! DEFINITION. The model tables in binary32 (R149 to R151, R153, R180): lookups in SOC and temperature, slopes, inversion, energy. The
order of the operations of each lookup is the model's (DESIGN CHOICE, log entry 15). -/

namespace Sys2Proof.Machine

open Sys2Proof
open F32 (add sub mul div neg)

/-- A number of nano-units. -/
def f9 (n : Int) : F32 := F32.ofRat ((n : Rat) / 1000000000)

def fHalf : F32 := 0x3F000000

/-- a + w (b - a). -/
def lerp (a b w : F32) : F32 := add a (mul w (sub b a))

/-- exp(-t / tau). -/
def decay (t tau : F32) : F32 := Config.expF32 (neg (div t tau))

/-- The lesser, the greater, and a value held within two others. -/
def fclamp (lo hi x : F32) : F32 := F32.min (F32.max x lo) hi

/-- Points of the axes: SOC as a fraction, temperature in K. -/
def socPt (m : Model) (n : Nat) : F32 := F32.ofRat ((m.socAx.getD n 0 : Nat) / 10000)
def tPt (m : Model) (t : Nat) : F32 := F32.ofRat (((27315 + m.tAx.getD t 0 : Int) : Rat) / 100)

/-- The segment that contains z (R150): a point belongs to the segment above it, z = 1 to the last one. -/
def segOf (m : Model) (z : F32) : Nat :=
  (List.range 63).foldl (fun a n => if F32.le (socPt m n) z then n else a) 0

/-- The share of the segment below z; beyond the ends the end value is held. -/
def segShare (m : Model) (n : Nat) (z : F32) : F32 :=
  if F32.le z (socPt m 0) then 0
  else if F32.le (socPt m 63) z then F32.one
  else div (sub z (socPt m n)) (sub (socPt m (n + 1)) (socPt m n))

/-- The two neighbouring points of T_AX and the share between them; beyond the ends only the end point. -/
def tempAt (m : Model) (t : F32) : Nat × Nat × F32 :=
  if F32.lt t (tPt m 0) then (0, 0, 0)
  else if F32.lt (tPt m 2) t then (2, 2, 0)
  else
    let i := if F32.lt t (tPt m 1) then 0 else 1
    (i, i + 1, div (sub t (tPt m i)) (sub (tPt m (i + 1)) (tPt m i)))

/-- OCV of branch b (0 charge, 1 discharge) at point n, at t, in V. -/
def ocvPt (m : Model) (t : F32) (b n : Nat) : F32 :=
  match tempAt m t with
  | (i, j, w) =>
    let v (k : Nat) : F32 := F32.ofRat ((((m.ocv.getD k []).getD b []).getD n 0 : Nat) / 10000)
    lerp (v i) (v j) w

/-- OCV of branch b at z. -/
def ocvZ (m : Model) (t : F32) (b : Nat) (z : F32) : F32 :=
  let n := segOf m z
  lerp (ocvPt m t b n) (ocvPt m t b (n + 1)) (segShare m n z)

/-- The branch mix of h (R144). -/
def branchMix (ch dis h : F32) : F32 := add (div (add ch dis) 0x40000000) (div (mul h (sub ch dis)) 0x40000000)

/-- ocv_h. -/
def ocvH (m : Model) (t z h : F32) : F32 := branchMix (ocvZ m t 0 z) (ocvZ m t 1 z) h

/-- The branch mix at a point. -/
def mixPt (m : Model) (t h : F32) (n : Nat) : F32 := branchMix (ocvPt m t 0 n) (ocvPt m t 1 n) h

/-- docv_dz of a segment, in V per unit of SOC. -/
def slopeSeg (m : Model) (t h : F32) (n : Nat) : F32 :=
  div (sub (mixPt m t h (n + 1)) (mixPt m t h n)) (sub (socPt m (n + 1)) (socPt m n))

/-- The segment is flat: its FLAT bit at either neighbouring point (R150). -/
def flatSeg (m : Model) (t : F32) (n : Nat) : Bool :=
  match tempAt m t with
  | (i, j, _) => (m.flat.getD i 0).testBit n || (m.flat.getD j 0).testBit n

/-- OCV inversion: z and its segment (R150). -/
def invert (m : Model) (t h y : F32) : F32 × Nat :=
  if F32.le y (mixPt m t h 0) then (0, 0)
  else if F32.le (mixPt m t h 63) y then (F32.one, 62)
  else
    let n := (List.range 63).foldl (fun a n => if F32.le (mixPt m t h n) y then n else a) 0
    let w := div (sub y (mixPt m t h n)) (sub (mixPt m t h (n + 1)) (mixPt m t h n))
    (lerp (socPt m n) (socPt m (n + 1)) w, n)

/-- IMPTAB j at z and t: 0 RSER, 1 RFAST, 2 RSLOW in ohm, 3 TAU_F, 4 TAU_S in s. -/
def impAt (m : Model) (t z : F32) (j : Nat) : F32 :=
  let x := mul z 0x40A00000
  let k := (List.range 5).foldl (fun a n => if F32.le (F32.ofNat n) x then n else a) 0
  let w := fclamp 0 F32.one (sub x (F32.ofNat k))
  let unit : Nat := if j < 3 then 100000000 else 1000
  let v (i n : Nat) : F32 := F32.ofRat ((((m.imp.getD i []).getD n []).getD j 0 : Nat) / (unit : Rat))
  match tempAt m t with
  | (a, b, wt) => lerp (lerp (v a k) (v a (k + 1)) w) (lerp (v b k) (v b (k + 1)) w) wt

/-- t lies within T_AX. -/
def inTax (m : Model) (t : F32) : Bool := F32.le (tPt m 0) t && F32.le t (tPt m 2)

/-- IMAX (charge, discharge) in A; 0 outside T_AX. -/
def imaxAt (m : Model) (t : F32) : F32 × F32 :=
  if !inTax m t then (0, 0)
  else
    match tempAt m t with
    | (i, j, w) =>
      let v (f : Nat × Nat → Nat) (k : Nat) : F32 := F32.ofRat ((f (m.imax.getD k (0, 0)) : Nat) / 10)
      (lerp (v Prod.fst i) (v Prod.fst j) w, lerp (v Prod.snd i) (v Prod.snd j) w)

/-- Voltages of Table 5.1 in V, Q_NOM in Ah. -/
def volt (n : Nat) : F32 := F32.ofRat ((n : Nat) / 10000)
def qNomAh (m : Model) : F32 := F32.ofRat ((m.qNom : Nat) / 1000)

/-- The integral of ocv_dis from 0 to z at t: trapezoids over SOC_AX, the last one up to z (R180); above the last point the end value is held
(R150). -/
def ocvEnergy (m : Model) (t z : F32) : F32 :=
  let n := if F32.lt F32.one z then 63 else segOf m z
  let full := (List.range n).foldl (fun a k =>
    add a (mul (mul fHalf (add (ocvPt m t 1 k) (ocvPt m t 1 (k + 1)))) (sub (socPt m (k + 1)) (socPt m k)))) 0
  add full (mul (mul fHalf (add (ocvPt m t 1 n) (ocvZ m t 1 z))) (sub z (socPt m n)))

end Sys2Proof.Machine
end

