-- ==== Sys2Proof/Machine/Impedance.lean ====
section
/-! DEFINITION. The impedance engine (06): segments, steps, windows, fits, registers, and the commands IMP_FRAME, STEP_HOLD_END,
WINDOW_CLOSE, WINDOW_DONE, IMP_BINS, IMP_MODELS. The order of the binary32 operations is the model's (DESIGN CHOICE, log entry 19). -/

namespace Sys2Proof.Machine

open Sys2Proof
open F32 (add sub mul div neg)

def modImp (f : Imp → Imp) (s : State) : State := { s with imp := f s.imp }

/-- The engine's clock runs: it is fitted, units sample, module level 3 does not stop it (R205, R465). -/
def impRuns (s : State) : Bool := hasImp s && alive s && sampling s && s.imp.throttle.1 != 3

/-- The selected current of a frame in mA (R128), and whether it is the Hall result. -/
def frameCur (f : Frame) : Option Int × Bool :=
  if f.cur.getLsbD 0 then (some f.iShunt, false) else if f.cur.getLsbD 4 then (some f.iHall, true) else (none, false)

/-! ### Segments (R190 to R194) -/

/-- T_SEG of a bin in s, and L at a cadence (R190). FREQ in 0.01 Hz. -/
def periods (freq : Nat) : Nat := max 1 ((freq + 50) / 100)
def tSeg (freq : Nat) : Rat := (periods freq : Nat) * 100 / (freq : Nat)
def segLen (freq cad : Nat) : Nat := (roundRat (tSeg freq * (fsOf cad : Nat))).toNat

/-- A signal less its least-squares straight line (R193). -/
def detrend (l : List F32) : List F32 :=
  let n := l.length
  let len := F32.ofNat n
  let mid := F32.ofRat (((n : Nat) : Rat) / 2 - 1 / 2)
  let mean := div (l.foldl add 0) len
  let xs := (List.range n).map fun k => sub (F32.ofNat k) mid
  let sxy := (List.zipWith mul xs l).foldl add 0
  let sxx := (xs.map fun x => mul x x).foldl add 0
  let slope := if F32.toRat sxx = 0 then 0 else div sxy sxx
  List.zipWith (fun x v => sub v (add mean (mul slope x))) xs l

/-- The single-bin transform at `f` Hz of samples that begin at number `k0` (R193): real and imaginary part. -/
def transform (l : List F32) (f : Rat) (fs k0 : Nat) : F32 × F32 :=
  let turns (n : Nat) : Rat := f * ((k0 + n : Nat) : Rat) / (fs : Nat)
  l.zipIdx.foldl (fun a e =>
    (add a.1 (mul e.1 (Config.cosTurns (turns e.2))), sub a.2 (mul e.1 (Config.sinTurns (turns e.2))))) (0, 0)

/-- δf of R194 in Hz: the phase of the second half less that of the first, wrapped, over half of T_SEG. -/
def lineShift (i : List F32) (freq fs : Nat) : Rat :=
  let h := i.length / 2
  let f : Rat := (freq : Nat) / 100
  let a := transform (i.take h) f fs 0
  let b := transform (i.drop h) f fs h
  let d := sub (Config.phaseTurns b.1 b.2) (Config.phaseTurns a.1 a.2)
  let d := F32.toRat d
  let d := if d ≤ -1 / 2 then d + 1 else if 1 / 2 < d then d - 1 else d
  d / (tSeg freq / 2)

/-- A group's frames exclude a segment (Table 6.2): MISSING, FLYWHEEL, SKEW_UNVERIFIED, OW_ACTIVE or CLIPPED at some instant; a frame
lost; its unit's BLEEDING changes. -/
def groupBad (c : Cfg) (g : Nat) (fr : List SegFrame) : Bool :=
  let bleeding (x : SegFrame) : Bool := match (c.group g).slot with
    | some u => (x.uf.getD u 0).getLsbD 6
    | none => false
  fr.any (fun x => (x.gf.getD g 0x80) &&& 0x6D != 0 || x.lost) ||
    (match fr with | [] => true | x :: r => r.any fun y => bleeding y != bleeding x)

/-- The whole segment is excluded for every group: no selected current, another channel, a frame lost. -/
def allBad (fr : List SegFrame) : Bool :=
  fr.any (fun x => x.cur.isNone || x.lost) || (match fr with | [] => true | x :: r => r.any fun y => y.hall != x.hall)

/-- What a complete segment gives (R192 to R194), its frames in order: the segment, δf where a LINE segment passed, and how many groups R192
excludes. -/
def closeSegment (c : Cfg) (src freq fs : Nat) (fr : List SegFrame) : Segment × Option Rat × Nat :=
  let first := match fr with | x :: _ => x.time | [] => 0
  let last := match fr.getLast? with | some x => x.time | none => 0
  let noDesc := src == 2 && fr.any fun x => !x.desc && !x.lost
  let moved := src == 2 && (match fr with | [] => true | x :: r => x.tone.isNone || r.any fun y => y.tone != x.tone)
  let bad := c.mapped.countP fun g => groupBad c g fr
  let none_ : List (Option ((F32 × F32) × (F32 × F32))) := []
  if allBad fr || noDesc || moved then ({ first := first, last := last, groups := none_, noDesc := noDesc }, none, c.mapped.length)
  else
    let i := detrend (fr.map fun x => F32.ofRat (((x.cur.getD 0 : Int) : Rat) / 1000))
    let df := if src = 1 then lineShift i freq fs else 0
    if 9 / 10 < (if df < 0 then -df else df) then ({ first := first, last := last, groups := none_, lineBad := true }, none, bad)
    else
      let f : Rat := (freq : Nat) / 100 + df
      let xi := transform i f fs 0
      let gs := (List.range 768).map fun g =>
        if (c.group g).slot.isNone || groupBad c g fr then none
        else
          let v := detrend (fr.map fun x => F32.ofRat (((x.v.getD g 0).toNat : Nat) / 10000))
          some (transform v f fs 0, xi)
      ({ first := first, last := last, groups := gs }, if src = 1 then some df else none, bad)

/-- S_b of a bin (R195). -/
def segCount (freq : Nat) : Nat := max 4 (10 / tSeg freq).floor.toNat

/-- One frame for one bin: it joins the segment in course; a complete one is closed and counted. -/
def binFrame (b : Nat) (x : SegFrame) (s : State) : State :=
  let c := s.cfgImp
  let freq := binFreq c b
  if !binEn c b || freq = 0 then s
  else if !binMeasured c s.imp.lastCad b then modImp (fun m => { m with bins := m.bins.modify b fun r => { r with frames := [] } }) s
  else
    let r := s.imp.bins.getD b {}
    let fr := x :: r.frames
    let fs := fsOf s.imp.lastCad
    if fr.length < segLen freq s.imp.lastCad then
      modImp (fun m => { m with bins := m.bins.modify b fun r => { r with frames := fr } }) s
    else
      match closeSegment c (binSrc c b) freq fs fr.reverse with
      | (g, df, bad) =>
        let line := binSrc c b == 1 && (g.lineBad || df.isSome)
        let s := modImp (fun m => { m with
          bins := m.bins.modify b fun r => { frames := [], segs := (g :: r.segs).take (segCount freq) }
          segDrop := satAdd m.segDrop bad
          lineLock := if line then df.isSome else m.lineLock
          lineF := match df with | some d => u32 (roundRat ((freq : Nat) * 10 + d * 1000)).toNat | none => m.lineF }) s
        raiseIf g.noDesc 0x09 3 (raiseIf (decide (0 < bad)) 0x09 2 s)

/-- A fresh run of segments (R190): no window has closed since it started (Table 6.3), and no bin is LINE_LOST. -/
def freshRun (s : State) : State :=
  modImp (fun m => { m with
    bins := List.replicate 8 {}, lineLost := false, pend := m.pend.map fun w => { w with stale := true }
    groups := m.groups.map fun x => { x with bins := List.replicate 8 (0x80000000, 0x80000000, 0) } }) s

/-- A frame with TIME_STEP set (Table 6.2): the segments it falls in, one that it would begin included, are discarded for all groups, and the
run restarts. A TONE segment had a frame without a descriptor, or this one is (`noDesc`): DESC_MISSING. -/
def cutRun (noDesc : Bool) (s : State) : State :=
  let c := s.cfgImp
  let cut := (List.range 8).filter fun b => binEn c b && binFreq c b != 0 && binMeasured c s.imp.lastCad b
  let n := cut.length * c.mapped.length
  let miss := cut.any fun b => binSrc c b == 2 && (noDesc || (s.imp.bins.getD b {}).frames.any fun x => !x.desc && !x.lost)
  raiseIf miss 0x09 3 (raiseIf (decide (0 < n)) 0x09 2 (freshRun (modImp (fun m => { m with segDrop := satAdd m.segDrop n }) s)))

/-- The run that a frame belongs to (R190): a fresh one where frames begin to flow, and at the first instant after a commit, with the
configuration then in force (R380). -/
def openRun (f : Frame) (s : State) : State :=
  let due := s.imp.runDue && decide (s.imp.runFrom < f.time)
  let begins := s.imp.last.isNone
  let s := if due || !s.imp.runDue then { s with cfgImp := s.cfg } else s
  let s := if begins then modImp (fun m => { m with winIdx := f.time / 10000000000, lastCad := (f.flags &&& 3).toNat }) s else s
  if begins || due then freshRun (modImp (fun m => { m with runDue := m.runDue && !due }) s) else s

/-! ### Steps (R198, R199) -/

/-- The sample of a group does not exclude it (Table 6.2, first row). -/
def sampleOk (gf : Byte) : Bool := gf &&& 0x6D == 0

/-- A constant of Table 6.6 in mA and ms. -/
def stepMin (c : Cfg) : Rat := (c.impI 5 : Rat) / 1000000
def stepFlat (c : Cfg) : Rat := (c.impI 6 : Rat) / 1000000
def stepPreMs (c : Cfg) : Nat := (c.impI 7 / 1000000).toNat
def stepHoldNs (c : Cfg) : Nat := (c.impI 8).toNat

def absR (r : Rat) : Rat := if r < 0 then -r else r

/-- The sum and count of codes of a group over some means. -/
def sumV (g : Nat) (l : List MsMean) : Nat × Nat := l.foldl (fun a m => let e := m.v.getD g (0, 0); (a.1 + e.1, a.2 + e.2)) (0, 0)

/-- The rows of an accepted step whose hold ended at `ended` (R199). -/
def stepRows (s : State) (r : StepRun) (ended : Nat) : StepRows :=
  let c := s.cfgImp
  let span := s.imp.means.filter fun m => decide (r.ts ≤ m.time + 100 * ms) && decide (m.time < ended)
  let pre := span.filter fun m => decide (m.time < r.ts)
  let post := (span.filter fun m => decide (r.ts < m.time)).filterMap MsMean.cur
  let iPost : Rat := if post.isEmpty then r.iPre else post.foldl (· + ·) 0 / (post.length : Nat)
  let dI := F32.ofRat ((iPost - r.iPre) / 1000)
  let same := match span with
    | [] => false
    | m :: l => l.all fun y => y.hall == m.hall && y.cur.isSome && m.cur.isSome
  let group (g : Nat) : List (Nat × F32) :=
    match (c.group g).slot with
    | none => []
    | some u =>
      let steady := match span with
        | [] => false
        | m :: l => l.all fun y => (y.uf.getD u 0).getLsbD 6 == (m.uf.getD u 0).getLsbD 6
      let p := sumV g pre
      if !same || !steady || p.2 = 0 || !(span.all fun m => m.ok.getD g false) then []
      else
        let vPre := F32.ofRat (((p.1 : Nat) : Rat) / ((p.2 * 10000 : Nat) : Rat))
        (List.range 17).filterMap fun j =>
          if ended < r.ts + 2 ^ j * ms then none
          else match span.find? fun m => m.time + ms == r.ts + 2 ^ j * ms with
            | none => none
            | some m =>
              let e := m.v.getD g (0, 0)
              if e.2 = 0 then none
              else some (2 ^ j, div (sub (F32.ofRat (((e.1 : Nat) : Rat) / ((e.2 * 10000 : Nat) : Rat))) vPre) dI)
  { ts := r.ts, ended := ended, dI := dI, groups := (List.range 768).map group }

/-- The hold of the step in course ends: it leaves its rows. -/
def endStep (ended : Nat) (s : State) : State :=
  match s.imp.step with
  | none => s
  | some r => modImp (fun m => { m with step := none, steps := m.steps ++ [stepRows s r ended] }) s

/-- The mean of some figures. -/
def meanR (l : List Rat) : Rat := if l.isEmpty then 0 else l.foldl (· + ·) 0 / (l.length : Nat)

/-- Whether some figures stay within STEP_FLAT of their mean. -/
def flatR (c : Cfg) (l : List Rat) : Bool := l.all fun v => decide (absR (v - meanR l) ≤ stepFlat c)

/-- The step whose first 100 ms end with the mean `m` (R198): STEP_PRE within the band before t_s, the first mean beyond half of ΔI at t_s,
the means from t_s + 1 ms within the band. -/
def foundStep (c : Cfg) (means : List MsMean) (m : MsMean) : Option StepRun :=
  let n := stepPreMs c
  let near := means.filter fun y => decide (m.time < y.time + 100 * ms) && decide (y.time ≤ m.time)
  match near.reverse with
  | [] => none
  | a :: post =>
    let pre := (means.filter fun y => decide (y.time < a.time)).take n
    let p := pre.filterMap MsMean.cur
    let q := post.filterMap MsMean.cur
    match a.cur with
    | none => none
    | some i =>
      let dI := meanR q - meanR p
      if near.length = 100 && p.length = n && q.length = 99 && n != 0 && (pre.getLast?.map fun y => y.time + n * ms == a.time).getD false &&
          flatR c p && flatR c q && decide (stepMin c ≤ absR dI) && decide (absR dI / 2 < absR (i - meanR p)) &&
          p.all fun v => decide (absR (v - meanR p) ≤ absR dI / 2) then
        some { ts := a.time, iPre := meanR p, sum := q.foldl (· + ·) 0, n := 99 }
      else none

/-- A whole millisecond (R198): the hold in course goes on or ends at a mean outside the band; a step is accepted, which ends the hold of the
one before. -/
def stepMs (m : MsMean) (s : State) : State :=
  let c := s.cfgImp
  let s := modImp (fun x => { x with
    means := (m :: x.means).filter fun y => decide (m.time ≤ y.time + stepPreMs c * ms + stepHoldNs c + 200 * ms) }) s
  let s := match s.imp.step, m.cur with
    | none, _ => s
    | some _, none => endStep m.time s
    | some r, some i =>
      if stepFlat c < absR (i - r.sum / (r.n : Nat)) then endStep m.time s
      else modImp (fun x => { x with step := some { r with sum := r.sum + i, n := r.n + 1 } }) s
  match foundStep c s.imp.means m with
  | none => s
  | some r =>
    if s.imp.stepInhibit || decide (r.ts < s.imp.stepFrom) then s
    else raise 0x09 1 (modImp (fun x => { x with step := some r, stepCnt := satAdd x.stepCnt 1 }) (endStep r.ts s))

/-- A frame joins the millisecond in course; the last one of it closes it. One that the engine has not processed brings no current and no
valid sample. -/
def msFrame (f : Frame) (lost : Bool) (s : State) : State :=
  let cur := frameCur f
  let t0 := f.time / ms * ms
  let fresh : MsMean :=
    { time := t0, cur := some 0, n := 0, v := List.replicate 768 (0, 0), ok := List.replicate 768 true, uf := f.uf, hall := cur.2 }
  let m := match s.imp.ms with
    | some m => if m.time = t0 then m else fresh
    | none => fresh
  let bad := lost || f.flags.getLsbD 3 || (decide (0 < m.n) && m.hall != cur.2) || cur.1.isNone
  let m : MsMean :=
    if lost then { m with ok := List.replicate 768 false }
    else { m with
      n := m.n + 1
      cur := match m.cur, cur.1 with | some a, some i => some (a + i) | _, _ => none
      v := m.v.mapIdx fun g a => if sampleOk (f.gf.getD g 0x80) then (a.1 + (f.v.getD g 0).toNat, a.2 + 1) else a
      ok := m.ok.mapIdx fun g b => b && !bad && sampleOk (f.gf.getD g 0x80) && (match (s.cfgImp.group g).slot with
        | some u => (f.uf.getD u 0).getLsbD 6 == (m.uf.getD u 0).getLsbD 6
        | none => true)
      uf := f.uf
      hall := cur.2 }
  if t0 + ms ≤ f.time + tCad (f.flags &&& 3).toNat then
    stepMs { m with cur := if m.n = 0 then none else m.cur.map fun a => a / (m.n : Nat) } (modImp (fun x => { x with ms := none }) s)
  else modImp (fun x => { x with ms := some m }) s

/-- STEP_HOLD_END: the hold ends at STEP_HOLD after t_s (R198). -/
def stepHoldEndFx (s : State) : State :=
  match s.imp.step with
  | some r => if r.ts + stepHoldNs s.cfgImp ≤ s.smp.timeNs then endStep (r.ts + stepHoldNs s.cfgImp) s else s
  | none => s

def execStepHoldEnd (s : State) : Host.Outcome State Fault Refusal :=
  act (fun s => if impRuns s then stepHoldEndFx s else s) s

/-! ### Frames -/

/-- A frame falls in a window that the throttle skips (R465, SKIP): one window in s + 1 is processed. -/
def skippedWindow (s : State) (t : Nat) : Bool :=
  match s.imp.throttle with
  | (lvl, k, divide) => lvl == 2 && !divide && t / 10000000000 % (k + 1) != 0

/-- A frame that the engine does not process, lost (R20) or skipped under throttle: an instant of the segments in course (Table 6.2). -/
def lostFrame (f : Frame) (s : State) : State :=
  if !impRuns s then s
  else
    let begins := s.imp.last.isNone
    let s := modImp (fun m => { m with last := some f.instant, descs := m.descs.filter fun d => decide (f.instant < d.instant) }) (openRun f s)
    if f.flags.getLsbD 3 then
      msFrame f true (modImp (fun m => { m with lastCad := (f.flags &&& 3).toNat }) (if begins then s else cutRun false s))
    else
      let x : SegFrame := { time := f.time, v := [], gf := [], uf := [], cur := none, hall := false, desc := false, tone := none, lost := true }
      msFrame f true (forAll (List.range 8) (fun b s => binFrame b x s) s)

/-- A frame that the engine processes (R190 to R194, R198). The instant of a TIME_STEP is no part of the run that follows it; the one with
which frames begin to flow falls in no segment (DEDUCED, log entry 71). -/
def takeFrame (f : Frame) (s : State) : State :=
  let cad := (f.flags &&& 3).toNat
  let begins := s.imp.last.isNone
  let s := openRun f s
  let d := s.imp.descs.find? fun d => d.instant == f.instant
  let cur := frameCur f
  let s := modImp (fun m => { m with
    active := true
    last := some f.instant
    tonesOn := (match d with | some d => !d.tones.isEmpty | none => false)
    descs := m.descs.filter fun d => decide (f.instant < d.instant) }) s
  let s :=
    if f.flags.getLsbD 3 then modImp (fun m => { m with lastCad := cad }) (if begins then s else cutRun d.isNone s)
    else
      forAll (List.range 8) (fun b s =>
        let tone := match d with
          | some d => (d.tones.find? fun t => t.freq == binFreq s.cfgImp b).map Tone.amp
          | none => none
        binFrame b { time := f.time, v := f.v, gf := f.gf, uf := f.uf, cur := cur.1, hall := cur.2, desc := d.isSome, tone := tone } s) s
  msFrame f false s

/-- IMP_FRAME: the oldest waiting frame; one in a window that the throttle skips is not processed (R205). -/
def impFrameFx (s : State) : State :=
  match s.smp.impFrames with
  | [] => s
  | f :: rest =>
    let s := modSmp (fun m => { m with impFrames := rest }) s
    if skippedWindow s f.time then modImp (fun m => { m with active := false }) (lostFrame f s) else takeFrame f s

/-- A frame for IMP: with eight unread, the oldest is lost, a loss to the full crossing 0x0D and an overrun of its consumer (R20, R434). -/
def toImp (f : Frame) (s : State) : State :=
  if !hasImp s then s
  else if (s.xr 0x0D).down then refuse 0x0D s
  else match s.smp.impFrames with
    | old :: rest =>
      if rest.length < 7 then modSmp (fun m => { m with impFrames := m.impFrames ++ [f] }) s
      else
        let s := raiseXng 2 (modX 0x0D (fun r => { r with loss := satAdd r.loss 1 }) s)
        raise 0x06 10 (lostFrame old (modSmp (fun m => { m with impFrames := rest ++ [f], ovrImp := satAdd m.ovrImp 1 }) s))
    | [] => modSmp (fun m => { m with impFrames := [f] }) s

def execImpFrame (s : State) : Host.Outcome State Fault Refusal :=
  act (fun s => if impRuns s then impFrameFx s else s) s

/-! ### Windows (R195, R199 to R204) -/

/-- WINDOW_CLOSE: at each whole multiple of 10 s; the first instant after a relabel past one (R201). A window whose results are not
complete is abandoned (R204). -/
def windowCloseFx (s : State) : State :=
  let n := s.smp.timeNs / 10000000000
  if n ≤ s.imp.winIdx || s.imp.last.isNone then s
  else
    let close := if n * 10000000000 < s.imp.jump && s.imp.jump ≤ s.smp.timeNs then s.imp.jump else n * 10000000000
    let late := s.imp.pend.isSome
    let age (w : Word) : Word :=
      let a := (w.extractLsb' 16 16).toNat
      fldAt (min 65535 (a + 1)) 16 16 ||| (w &&& 0xFFFF)
    let s := if late then
        raise 0x09 7 (modImp (fun m => { m with groups := m.groups.mapIdx fun g x =>
          if (s.cfgImp.group g).slot.isSome then { x with model := x.model.modify 3 age } else x }) s)
      else s
    modImp (fun m => { m with
      winIdx := n
      win := satAdd m.win 1
      pend := some {
        close := close, win := satAdd m.win 1, segs := m.bins.map BinRun.segs, steps := m.steps.filter fun x => decide (x.ended ≤ close)
        cadence := m.lastCad }
      steps := m.steps.filter fun x => decide (close < x.ended) }) { s with cfgWin := s.cfgImp }

def execWindowClose (s : State) : Host.Outcome State Fault Refusal :=
  act (fun s => if impRuns s then windowCloseFx s else s) s

/-- A bin of a group in a window (R195): Z, coherence, current, number of segments, state. -/
structure BinResult where
  re : F32
  im : F32
  coh : F32
  i : F32
  n : Nat
  st : Nat
  deriving DecidableEq, Repr

/-- The bin's result for a group. -/
def binResult (c : Cfg) (w : WinRun) (b g : Nat) : BinResult :=
  let freq := binFreq c b
  let none_ (st : Nat) : BinResult := { re := 0, im := 0, coh := 0, i := 0, n := 0, st := st }
  if !binEn c b || freq = 0 then none_ 0
  else if !binMeasured c w.cadence b then none_ 5
  else
    let sb := segCount freq
    let all := (w.segs.getD b []).take sb
    let segs := (all.filterMap fun x => x.groups.getD g none).reverse
    let n := segs.length
    if binSrc c b == 2 && n == 0 && all.any Segment.noDesc then none_ 6
    else if binSrc c b == 1 && !all.isEmpty && all.all Segment.lineBad then none_ 7
    else
      let sum := segs.foldl (fun (a : F32 × F32 × F32 × F32) e =>
        let v := e.1
        let i := e.2
        (add a.1 (add (mul v.1 i.1) (mul v.2 i.2)), add a.2.1 (sub (mul v.2 i.1) (mul v.1 i.2)),
          add a.2.2.1 (add (mul i.1 i.1) (mul i.2 i.2)), add a.2.2.2 (add (mul v.1 v.1) (mul v.2 v.2)))) (0, 0, 0, 0)
      let sii := sum.2.2.1
      let mag := add (mul sum.1 sum.1) (mul sum.2.1 sum.2.1)
      let coh := if F32.toRat (mul sii sum.2.2.2) = 0 then 0 else div mag (mul sii sum.2.2.2)
      let i := if n = 0 then 0 else
        div (mul (F32.sqrt (div sii (F32.ofNat n))) (F32.sqrt 0x40000000)) (F32.ofNat (segLen freq w.cadence))
      let st :=
        if n < min (c.impI 2).toNat sb || n < 2 then 4
        else if F32.lt i (f9 (c.impI 1)) then 3
        else if F32.lt coh (f9 (c.impI 0)) then 2
        else 1
      { re := if F32.toRat sii = 0 then 0 else div sum.1 sii, im := if F32.toRat sii = 0 then 0 else div sum.2.1 sii
        coh := coh, i := i, n := n, st := st }

/-- The three words of a bin (Table 6.12). -/
def binWords (r : BinResult) : Word × Word × Word :=
  let z (x : F32) : Word := if r.st = 1 then BitVec.ofInt 32 (F32.publish x 100000000 (-2147483648) 2147483647) else 0x80000000
  (z r.re, z r.im,
    fldAt (F32.publish r.i 100 0 65535).toNat 16 16 ||| fldAt r.st 4 12 ||| fldAt (min r.n 15) 4 8 ||| fldAt (F32.publish r.coh 255 0 255).toNat 8 0)

/-- Weighted sums of a row set: entry (j, k) of the normal matrix, entry j of the right side. -/
def colOf (a : F32 × F32 × F32) (k : Nat) : F32 := if k = 0 then a.1 else if k = 1 then a.2.1 else a.2.2

def normal (rows : List FitRow) (j k : Nat) : F32 := rows.foldl (fun s r => add s (mul r.w (mul (colOf r.a j) (colOf r.a k)))) 0

/-- The inverse of a symmetric matrix of 1 to 3 free columns by cofactors; none: singular. Entry (i, j) counts in the free columns. -/
def invert3 (free : List Nat) (m : Nat → Nat → F32) : Option (Nat → Nat → F32) :=
  match free with
  | [a] => if F32.toRat (m a a) = 0 then none else some fun _ _ => div F32.one (m a a)
  | [a, b] =>
    let d := sub (mul (m a a) (m b b)) (mul (m a b) (m a b))
    if F32.toRat d = 0 then none
    else some fun i j => if i ≠ j then neg (div (m a b) d) else div (if i = 0 then m b b else m a a) d
  | [a, b, c] =>
    let k (p q r t : Nat) : F32 := sub (mul (m p q) (m r t)) (mul (m p t) (m r q))
    let c00 := k b b c c
    let c01 := neg (k b a c c)
    let c02 := k b a c b
    let d := add (add (mul (m a a) c00) (mul (m a b) c01)) (mul (m a c) c02)
    if F32.toRat d = 0 then none
    else some fun i j =>
      let e := if i = 0 ∧ j = 0 then c00 else if i = 1 ∧ j = 1 then k a a c c else if i = 2 ∧ j = 2 then k a a b b
        else if (i = 0 ∧ j = 1) ∨ (i = 1 ∧ j = 0) then c01 else if (i = 0 ∧ j = 2) ∨ (i = 2 ∧ j = 0) then c02 else neg (k a a c b)
      div e d
  | _ => none

/-- One solution of the fit with a set of free columns: the three resistances, and their standard errors (none: infinite). -/
def solveFit (c : Cfg) (rows : List FitRow) (held : Nat → F32) (free : List Nat) : (Nat → F32) × (Nat → Option F32) :=
  let y (r : FitRow) : F32 := [0, 1, 2].foldl (fun s k => if free.contains k then s else sub s (mul (colOf r.a k) (held k))) r.y
  match invert3 free (normal rows) with
  | none => (fun k => if free.contains k then 0 else held k, fun _ => none)
  | some inv =>
    let rhs (j : Nat) : F32 := rows.foldl (fun s r => add s (mul r.w (mul (colOf r.a (free.getD j 0)) (y r)))) 0
    let sol (i : Nat) : F32 := (List.range free.length).foldl (fun s j => add s (mul (inv i j) (rhs j))) 0
    let r (k : Nat) : F32 := if free.contains k then sol (free.idxOf k) else held k
    let n := rows.length
    let m := free.length
    let sg := f9 (c.impI 10)
    let floor := mul sg sg
    let res := rows.foldl (fun s x =>
      let e := sub x.y (add (add (mul (colOf x.a 0) (r 0)) (mul (colOf x.a 1) (r 1))) (mul (colOf x.a 2) (r 2)))
      add s (mul x.w (mul e e))) 0
    let s2 := if n ≤ m then floor else F32.max (div res (F32.ofNat (n - m))) floor
    (r, fun k => if free.contains k then some (F32.sqrt (mul s2 (inv (free.idxOf k) (free.idxOf k)))) else some 0)

/-- A resistance is not determined (R202). -/
def undetermined (c : Cfg) (r : F32) (se : Option F32) : Bool :=
  (match se with | none => true | some e => !F32.le e (mul (f9 (c.impI 9)) r)) || F32.le r 0

/-- The loop of R202: at most one resistance is held per pass, RSLOW before RFAST. The first argument bounds the passes. The result: the
three resistances with the free columns; none: FIT_FAIL. -/
def fitLoop (c : Cfg) (rows : List FitRow) (held : Nat → F32) : Nat → List Nat → Option ((Nat → F32) × List Nat)
  | 0, _ => none
  | n + 1, free =>
    match solveFit c rows held free with
    | (r, se) =>
      if free.contains 2 && undetermined c (r 2) (se 2) then fitLoop c rows held n (free.filter (· != 2))
      else if free.contains 1 && undetermined c (r 1) (se 1) then fitLoop c rows held n (free.filter (· != 1))
      else if rows.isEmpty || undetermined c (r 0) (se 0) then none
      else some (r, free)

/-- The rows of a VALID bin (R201). -/
def binRows (c : Cfg) (freq : Nat) (r : BinResult) (tf ts : F32) : List FitRow :=
  let wf := mul (F32.ofRat (2 * 3141592653589793 / 1000000000000000)) (F32.ofRat ((freq : Nat) / 100))
  let g (tau : F32) : F32 × F32 :=
    let x := mul wf tau
    let d := add F32.one (mul x x)
    (div F32.one d, neg (div x d))
  let gf := g tf
  let gs := g ts
  let cap := f9 (c.impI 4)
  let w := if F32.le F32.one r.coh then cap else F32.min (div (mul (F32.ofNat r.n) r.coh) (sub F32.one r.coh)) cap
  [{ a := (F32.one, gf.1, gs.1), y := r.re, w := w }] ++
    (if decide (((freq : Nat) : Int) * 10000000 ≤ c.impI 3) then [{ a := (0, gf.2, gs.2), y := r.im, w := w }] else [])

/-- The rows of the steps (R199, R201): at most the last four steps that gave the group rows. -/
def stepFitRows (c : Cfg) (steps : List StepRows) (g : Nat) (tf ts : F32) : List FitRow :=
  let cap := f9 (c.impI 4)
  let mine := (steps.reverse.filter fun x => !(x.groups.getD g []).isEmpty).take 4
  mine.flatMap fun x =>
    let q := div x.dI (F32.ofRat ((c.impI 5 : Rat) / 1000000000))
    let w := F32.min (mul q q) cap
    (x.groups.getD g []).map fun e =>
      let t := F32.ofRat ((e.1 : Nat) / 1000)
      { a := (F32.one, sub F32.one (decay t tf), sub F32.one (decay t ts)), y := e.2, w := w }

/-- The mean of some numbers; a free value where there is none. -/
def meanOr (free : F32) (l : List F32) : F32 := if l.isEmpty then free else div (l.foldl add 0) (F32.ofNat l.length)

/-- The spread of some numbers. -/
def spread (l : List F32) : F32 := match l with | [] => 0 | x :: r => sub (r.foldl F32.max x) (r.foldl F32.min x)

/-- What one group gets of a window (R195 to R203): its words, and the result it delivers: RSER, RFAST, RSLOW at T_REF and 50%. -/
structure GroupWin where
  out : ImpGroup
  res : Option (F32 × F32 × F32)
  fail : Bool
  spreadBad : Bool
  deriving DecidableEq, Repr

/-- The results of a window for a group (R200 to R203), by the configuration at its close; a fresh run begun since leaves its bins NONE
(Table 6.3). Without a tick in the window its means are free (DESIGN CHOICE, log entry 4). -/
def groupWindow (s : State) (w : WinRun) (g : Nat) : GroupWin :=
  let c := s.cfgWin
  let m := c.model g
  let old := s.imp.groups.getD g {}
  let ticks := s.imp.ticks.filter fun t => decide (t.time ≤ w.close)
  let recent := ticks.filter fun t => decide (w.close < t.time + 10000000000)
  let st (t : TickState) : F32 × F32 × F32 × F32 × F32 := t.groups.getD g (0, 0, 0, 0, 0)
  let free (k : Nat) : F32 := Config.freeWord (s.fresh + 5 * g + k)
  let zw := meanOr (free 0) (recent.map fun t => (st t).1)
  let tw := meanOr (free 1) (recent.map fun t => (st t).2.1)
  let scales := match recent with | t :: _ => (st t).2.2 | [] => (free 2, free 3, free 4)
  let bins := (List.range 8).map fun b => binResult c w b g
  let tf := impAt m tw zw 3
  let ts := impAt m tw zw 4
  let good := bins.zipIdx.filter fun e => e.1.st == 1
  let rb := good.flatMap fun e => binRows c (binFreq c e.2) e.1 tf ts
  let rs := stepFitRows c w.steps g tf ts
  let rows := rs ++ rb
  let tab (k : Nat) : F32 := impAt m tw zw k
  let held (k : Nat) : F32 := mul (if k = 0 then scales.1 else if k = 1 then scales.2.1 else scales.2.2) (tab k)
  let age := ((old.model.getD 3 0).extractLsb' 16 16).toNat
  let base := fldAt (min rows.length 255) 8 8 ||| bitAt (!rb.isEmpty) 7 ||| bitAt (!rs.isEmpty) 6
  let head : ImpGroup := { old with
    bins := if w.stale then old.bins else bins.map binWords
    hdr0 := fldAt (F32.publish (sub tw 0x43889333) 100 (-32768) 32767 % 65536).toNat 16 16 ||| fldAt g 10 0
    hdr1 := fldAt (F32.publish zw 10000 0 65535).toNat 16 0 }
  match fitLoop c rows held 3 [0, 1, 2] with
  | none =>
    { out := { head with model := (old.model.take 3) ++ [fldAt (min 65535 (age + 1)) 16 16 ||| base ||| bitAt true 5] }
      res := none, fail := true, spreadBad := false }
  | some (r, fr) =>
    let used := good.flatMap fun e => ((w.segs.getD e.2 []).take (segCount (binFreq c e.2))).filterMap fun x =>
      if (x.groups.getD g none).isSome then some x.first else none
    let from_ := (used ++ ((w.steps.reverse.filter fun x => !(x.groups.getD g []).isEmpty).take 4).map StepRows.ts).foldl min w.close
    let span := ticks.filter fun t => decide (from_ ≤ t.time)
    let bad := F32.lt (f9 (c.impI 11)) (spread (span.map fun t => (st t).2.1)) || F32.lt (f9 (c.impI 12)) (spread (span.map fun t => (st t).1))
    let ref := f9 (c.estI 33)
    let norm (k : Nat) : F32 := div (mul (r k) (impAt m ref fHalf k)) (tab k)
    let v (k : Nat) : F32 := if bad then r k else norm k
    let w3 := fldAt (if bad then min 65535 (age + 1) else 0) 16 16 ||| base ||| bitAt bad 4 ||| bitAt (!bad) 3 |||
      bitAt (fr.contains 2) 2 ||| bitAt (fr.contains 1) 1 ||| bitAt (fr.contains 0) 0
    let word (k : Nat) : Word := BitVec.ofInt 32 (F32.publish (v k) 100000000 0 4294967295)
    { out := { head with model := [word 0, word 1, word 2, w3] }
      res := if bad then none else some (norm 0, norm 1, norm 2), fail := false, spreadBad := bad }

/-- The words of a group's window (Table 6.12) of its last results: 24 of its bins and the three of the header. -/
def impWindow (s : State) (g : Nat) : List Word :=
  let x := s.imp.groups.getD g {}
  (x.bins.flatMap fun b => [b.1, b.2.1, b.2.2]) ++ [(x.hdr0 &&& 0xFFFF0000) ||| fldAt g 10 0, x.hdr1, s.imp.doneWin]

/-- The header words first, then the bins, as commands and items give them. -/
def impWindowBytes (s : State) (g : Nat) : Bytes := ((impWindow s g).drop 24 ++ (impWindow s g).take 24).flatMap leW

/-- WINDOW_DONE: results, registers, what goes to the estimator over crossing 0x15 (R195 to R204). -/
def windowDoneFx (s : State) : State :=
  match s.imp.pend with
  | none => s
  | some w =>
    let gs := s.cfgWin.mapped.filter fun g => (s.cfgImp.group g).slot.isSome
    let res := gs.map fun g => (g, groupWindow s w g)
    let s := { s with fresh := s.fresh + 5 * 768 }
    let line := (List.range 8).any fun b => res.any fun e => ((e.2.out.bins.getD b (0, 0, 0)).2.2.extractLsb' 12 4).toNat == 7
    let was := s.imp.lineLost
    let s := modImp (fun m => { m with
      pend := none, doneWin := w.win, lineLost := line
      fitCnt := satAdd m.fitCnt (res.countP fun e => e.2.res.isSome)
      groups := res.foldl (fun l e => l.set e.1 e.2.out) m.groups }) s
    let s := offer 0x15 (.results (res.filterMap fun e => e.2.res.map fun r => (e.1, r))) s
    let s := raiseIf (line && !was) 0x09 4 s
    let s := raiseIf (res.any fun e => e.2.fail) 0x09 5 s
    let s := raiseIf (res.any fun e => e.2.spreadBad) 0x09 6 s
    let s := raise 0x09 0 s
    let n : Quad := s.imp.doneWin.zeroExtend 64
    let s := produce 0x06 s.imp.doneWin.toNat (fun q => n :: (List.range q.count).flatMap fun k =>
      if (s.cfgImp.group (q.first + k)).slot.isNone then List.replicate 14 0 else quads (impWindowBytes s (q.first + k) ++ [0, 0, 0, 0])) s
    produce 0x07 s.imp.doneWin.toNat (fun q => n :: (List.range q.count).flatMap fun k =>
      if (s.cfgImp.group (q.first + k)).slot.isNone then [0, 0] else quads (((s.imp.groups.getD (q.first + k) {}).model).flatMap leW)) s

def execWindowDone (s : State) : Host.Outcome State Fault Refusal :=
  act (fun s => if impRuns s then windowDoneFx s else s) s

/-! ### Mailbox and registers -/

/-- A step hold in progress is discarded, one in its first 100 ms too (R198). -/
def dropHold (s : State) : State := modImp (fun m => { m with step := none, stepFrom := s.smp.timeNs + 1 }) s

/-- WIN_RESTART: segments and the step hold in progress go; a fresh run begins (Table 6.8). -/
def winRestartFx (s : State) : State := freshRun (dropHold s)

/-- STEP_INHIBIT as written: while it is 1 no step begins, and a hold in progress when it is set is discarded (R198). -/
def stepInhibitFx (v : Bool) (s : State) : State :=
  onlyIf (v || s.imp.stepInhibit) (fun s => { s with imp := { s.imp with stepFrom := s.smp.timeNs + 1, step := if v then none else s.imp.step } })
    (modImp (fun m => { m with stepInhibit := v }) s)

/-- A write of IMP_GSEL latches the window (R209). -/
def gselFx (g : Nat) (s : State) : State :=
  modImp (fun m => { m with gsel := BitVec.ofNat 10 g, window := impWindow s g }) s

/-- A read of word 0 of a model record latches it (R210). -/
def modelLatch (g : Nat) (s : State) : State :=
  modImp (fun m => { m with groups := m.groups.modify g fun x => { x with latch := some x.model } }) s

/-- IMP registers from 0x0018 up (Table 6.7). -/
def impValue (s : State) (off : Nat) : Word :=
  let m := s.imp
  if off = 0x18 then m.win
  else if off = 0x1C then m.lineF
  else if off = 0x20 then m.segDrop
  else if off = 0x24 then m.stepCnt
  else if off = 0x28 then m.fitCnt
  else if off = 0x2C then m.gsel.zeroExtend 32
  else if 0x40 ≤ off ∧ off < 0x60 then s.cfg.bins.getD ((off - 0x40) / 4) 0
  else if 0x800 ≤ off ∧ off < 0x86C then m.window.getD ((off - 0x800) / 4) 0
  else if 0x1000 ≤ off ∧ off < 0x1000 + 16 * nGroups s then
    let x := m.groups.getD ((off - 0x1000) / 16) {}
    let k := (off - 0x1000) % 16 / 4
    if k = 0 then x.model.getD 0 0 else (x.latch.getD x.model).getD k 0
  else 0

/-- IMP_BINS: a group's window as R209 latches it, without disturbing the latch (R344). -/
def execImpBins (r : Req) (g : Half) (s : State) : Host.Outcome State Fault Refusal :=
  act (request r 0x0503 observer
    (fun s => { absent := !hasImp s, forbidden := !stateOk measuring s, range := groupsOut s g.toNat 1 1 })
    (fun s => respond r 0x0503 stOk (impWindowBytes s g.toNat) s)) s

/-- IMP_MODELS: the model records of a range, from one window. -/
def execImpModels (r : Req) (first count : Half) (s : State) : Host.Outcome State Fault Refusal :=
  act (request r 0x0504 observer
    (fun s => { absent := !hasImp s, forbidden := !stateOk measuring s, range := groupsOut s first.toNat count.toNat 80 })
    (fun s => respond r 0x0504 stOk
      (le 2 first.toNat ++ le 2 count.toNat ++ leW s.imp.doneWin ++
        (List.range count.toNat).flatMap fun i => ((s.imp.groups.getD (first.toNat + i) {}).model).flatMap leW) s)) s

end Sys2Proof.Machine
end

