-- ==== Sys2Proof/Machine/Epoch.lean ====
section
/-! DEFINITION. The state copy of a pair (R418 to R420): the content of an epoch as bytes, and what a new holder takes from it. The spec
gives the sizes and the order of the parts; the place of each item within them is the model's (DESIGN CHOICE, log entry 8). -/

namespace Sys2Proof.Machine

open Sys2Proof

/-- The 32 bytes of a group: z, SOC_CC, h (s16 of 32,767), σ_SOC (0.01%), ANCHOR_AGE in s with its three top bits VALID, RELEARN_REQ and
RETAINED_UNVERIFIED, cap, S_SER, S_FAST, S_SLOW. -/
def groupCopy (c : Ctx) : Bytes :=
  let age := min (c.age / 1000000000) (2 ^ 29 - 1)
  let flags := (if c.valid then 2 ^ 31 else 0) + (if c.relearnReq then 2 ^ 30 else 0) + (if c.retained then 2 ^ 29 else 0)
  leW c.z ++ leW c.cc ++ leI 2 (F32.publish c.h 32767 (-32767) 32767) ++ leI 2 (F32.publish (sigmaOf c) 10000 0 65535) ++
    le 4 (age + flags) ++ leW c.cap ++ leW c.sSer ++ leW c.sFast ++ leW c.sSlow

/-- The 49 bytes of a port: RETAIN in bit 7 of the first, identities stored in bit 6, the number of units in its low bits, then SERIAL and PACK_ID of three
positions, 8 bytes each. -/
def portCopy (x : LearnedPort) : Bytes :=
  le 1 (x.units.length % 4 + (if x.known then 64 else 0) + if x.retain then 128 else 0) ++
    [0, 1, 2].flatMap fun c => let u := x.units.getD c (0, 0); le 8 u.1 ++ le 8 u.2

/-- The 56 bytes of a slot's wire data: present, 17 wires of 3 bytes in µΩ, ρ, T_LEARN. -/
def wireCopy (x : Option WireData) : Bytes :=
  match x with
  | none => List.replicate 56 0
  | some w => [1] ++ ((List.range 17).flatMap fun n => le 3 (w.rw.getD n 0)) ++ le 2 w.rho ++ leI 2 w.tLearn

/-- The content of an epoch (R418). -/
def epochContent (s : State) : Bytes :=
  (s.est.ctx.flatMap groupCopy) ++ ((learnedPorts s).flatMap portCopy) ++ (s.bal.slots.flatMap fun b => wireCopy b.wire)

/-- The length of an epoch's content. -/
def epochLen : Nat := 768 * 32 + 48 * 49 + 144 * 56

/-- The word at an offset. -/
def wordIn (b : Bytes) (off : Nat) : Word := BitVec.ofNat 32 (leNat (slice b off 4))

/-- What a group takes (R420): cap, the scales and the two flags; z, SOC_CC, h, v_f, v_s, P and ANCHOR_AGE stay its own. -/
def takeGroup (b : Bytes) (c : Ctx) : Ctx :=
  let w := wordIn b 12
  { c with relearnReq := w.getLsbD 30, retained := w.getLsbD 29, cap := wordIn b 16, sSer := wordIn b 20, sFast := wordIn b 24
           sSlow := wordIn b 28 }

/-- The learned data of a port. -/
def takePort (b : Bytes) : LearnedPort :=
  let h := leNat (slice b 0 1)
  { known := 64 ≤ h % 128, units := (List.range (h % 4)).map fun c => (leNat (slice b (1 + 16 * c) 8), leNat (slice b (9 + 16 * c) 8)), retain := 128 ≤ h }

/-- The wire data of a slot. -/
def takeWire (b : Bytes) : Option WireData :=
  if leNat (slice b 0 1) = 0 then none
  else some { rw := (List.range 17).map fun n => leNat (slice b (1 + 3 * n) 3), rho := leNat (slice b 52 2), tLearn := leInt (slice b 54 2) }

/-- R420: at step 2 of the new holder's next tick, from its last committed epoch; without one, EPOCH_NONE. -/
def takeEpochFx (s : State) : State :=
  if !s.pai.takeEpoch then s
  else
    let s := { s with pai := { s.pai with takeEpoch := false } }
    match bufferBytes epochLen s.pai.good.data, s.pai.epochValid with
    | some b, true =>
      let ports := (List.range 48).map fun p => takePort (slice b (24576 + 49 * p) 49)
      let wires := (List.range 144).map fun u => takeWire (slice b (26928 + 56 * u) 56)
      { s with
        est := { s.est with
          ctx := s.est.ctx.mapIdx fun g c => takeGroup (slice b (32 * g) 32) c
          ports := ports
          retain := (ports.zipIdx.foldl (fun m e => if e.1.retain then m ||| (1#48 <<< e.2) else m) 0) }
        bal := { s.bal with slots := s.bal.slots.mapIdx fun u x => { x with wire := wires.getD u none } }
        nv := { s.nv with wires := wires } }
    | _, _ => raise 0x10 7 s

/-- The holder's snapshot at step 5 of the tick that holds the whole second among its instants, its last one where a tick is one instant (R418);
with more instants a tick's last one never falls on a whole second (R21; DEDUCED, log entry 66). An epoch not sent by then is abandoned. -/
def snapshotEpoch (last span : Nat) (s : State) : State :=
  if inPair s && s.pai.select && decide ((last - span) / 1000000000 < last / 1000000000) then
    let n := last / 1000000000 % 2 ^ 32
    { s with pai := { s.pai with tx := some (n, epochContent s, 0) } }
  else s

end Sys2Proof.Machine
end

