-- ==== Sys2Proof/Machine/Contactor.lean ====
section
/-! DEFINITION. Trips, contactor channels and sequences (08): what an OPEN action does, the breaking-current guard of R254, connecting
and disconnecting (R264 to R269), feedback supervision (R239, R240), and the commands PRO_CONNECT, PRO_DISCONNECT, HW_OC,
COMPARATOR_BELOW_LEVEL, BREAK_WAIT_EXPIRY, KF_INPUT_CHANGE, KF_WINDOW_EXPIRY, READBACK_MISMATCH, WELD_TEST_TIMER,
PRECHG_TMAX_EXPIRY, K3_OVERLAP_EXPIRY, PRECHG_COOL_EXPIRY, DISC_RAMP_MAX_EXPIRY. -/

namespace Sys2Proof.Machine

open Sys2Proof

/-! ### Functions and limits (R242 to R251) -/

/-- Sets or clears a function's active bit. -/
def setAct (code : Nat) (on : Bool) (s : State) : State :=
  modPro (fun p => { p with active := if on then p.active ||| (1#29 <<< code) else p.active &&& ~~~(1#29 <<< code) }) s

/-- The PRO_EVENT record of a function (R243, Table 16.2): how is 1 active, 2 latched. -/
def proRecord (code idx : Nat) (val thr : Int) (how : Byte) (s : State) : State :=
  recordCode 13 (0x0B80 + code) idx (leW (s32 val) ++ leW (s32 thr) ++ [how]) s

/-- Publishes both limits with the codes that set them (R250, R251); leaving I_RATED raises DERATE_ENTER. -/
def setDerate (ch : Rat) (sc : Nat) (dis : Rat) (sd : Nat) (s : State) : State :=
  let rated : Rat := s.cfgPro.iRated
  let left := (s.pro.iCh = rated && ch < rated) || (s.pro.iDis = rated && dis < rated)
  let s := modPro (fun p => { p with iCh := ch, iDis := dis, srcCh := sc, srcDis := sd }) s
  tellEst (offer 0x12 (.derate (derMa ch) (derMa dis)) (raiseIf left 0x0B 1 s))

/-- Both limits at 0 for a cause without a function of its own; with I_RATED unset the codes are 0xFF whatever the cause (R251; DEDUCED, log
entry 11). -/
def zeroLimits (code : Nat) (s : State) : State :=
  let c := if s.cfgPro.iRatedN.isNone then 0xFF else code
  setDerate 0 c 0 c s

/-- A function with the action REPORT or DERATE becomes active (R243). -/
def note (code idx : Nat) (val thr : Int) (s : State) : State :=
  if s.pro.active.getLsbD code then s
  else
    let s := proRecord code idx val thr 1 (setAct code true s)
    let s := raiseIf (code == 0x12) 0x0B 14 s
    raiseIf (code == 0x15 || code == 0x16) 0x0B 13 s

/-- A function with the action OPEN becomes active. While it is latched already, that is an event of its own (R243); else its record is
that of the latch. -/
def activate (code idx : Nat) (val thr : Int) (s : State) : State :=
  if s.pro.active.getLsbD code then s
  else
    let t := setAct code true s
    if s.pro.latched.getLsbD code then proRecord code idx val thr 1 t else t

/-! ### Channels -/

/-- CONNECT_STATE moves (R267): the CONTACTORS notice; the engine parks when it leaves CONNECTED or RAMP_DOWN (R278). -/
def setConn (st : Nat) (s : State) : State :=
  let old := s.pro.conn
  if old = st then s
  else
    let s := modPro (fun p => { p with conn := st }) s
    let s := notice 1 0x12 [BitVec.ofNat 8 st, BitVec.ofNat 8 (if tripped s then s.pro.firstCode else 0), 0, 0] s
    if (old = 5 && st != 6) || old = 6 then parkEngine 3 s else s

/-- The lowest contactor of a mask, 1 to 4. -/
def lowestK (m : BitVec 4) : Nat := ([0, 1, 2, 3].find? fun k => m.getLsbD k).getD 0 + 1

/-- A contactor function is active while its condition holds for some contactor of the mask. -/
def setFeedback (code : Nat) (m : BitVec 4) (s : State) : State :=
  if m == 0 then setAct code false s else activate code (lowestK m) 0 0 s

/-- Whether the conditions of K_FEEDBACK and K_WELD still hold. -/
def feedbackActive (s : State) : State :=
  let p := s.pro
  setFeedback 0x17 (p.misA ||| p.misB ||| (p.kA &&& p.kB &&& ~~~p.kf &&& ~~~p.closing &&& ~~~p.dropRun))
    (setFeedback 0x18 (p.welded &&& p.kf) s)

/-- Asserts both channels of contactors; the window of KF_T_CLOSE begins. -/
def assertK (m : BitVec 4) (s : State) : State :=
  feedbackActive (modPro (fun p => { p with
    kA := p.kA ||| m, kB := p.kB ||| m, closing := p.closing ||| m, released := p.released &&& ~~~m,
    misA := p.misA &&& ~~~m, misB := p.misB &&& ~~~m }) s)

/-- K1, K2 or K4 of a mask is released above BREAK_I: BROKE_ABOVE, whatever brought the release about (R254). -/
def brokeAbove (m : BitVec 4) (s : State) : State :=
  raiseIf (s.pro.aboveBreak && (m &&& (s.pro.kA ||| s.pro.kB) &&& 0xB#4) != 0) 0x0B 11 s

/-- Releases both channels of contactors; the window of KF_T_OPEN begins, and what K_FEEDBACK watched on them has ended. -/
def releaseK (m : BitVec 4) (s : State) : State :=
  feedbackActive (modPro (fun p =>
    let e := m &&& (p.kA ||| p.kB)
    { p with kA := p.kA &&& ~~~m, kB := p.kB &&& ~~~m, released := p.released ||| e, closing := p.closing &&& ~~~e,
             dropRun := p.dropRun &&& ~~~e, misA := p.misA &&& ~~~e, misB := p.misB &&& ~~~e }) (brokeAbove m s))

/-- CURRENT_CUT (Table 11.8): flags bit 0 GUARD_WAIT, bit 1 LEFT_TO_FUSE. With no selected current its field is free (DESIGN CHOICE, log entry 4). -/
def currentCut (flags : Byte) (s : State) : State :=
  let s := if (iSel s).isSome then s else (takeWord s).2
  let i : Bytes := match iSel s with | some i => leI 4 i | none => leW (Config.freeWord (s.fresh - 1))
  notice 1 0x11 (i ++ [BitVec.ofNat 8 (if tripped s then s.pro.firstCode else 0), flags, 0, 0]) s

/-- The opening is over: every channel is released and every released contactor reports open, or a weld is latched (R268 step 4). -/
def finishOpen (s : State) : State :=
  let ok := s.pro.welded == 0
  let host := s.pro.hostDisc
  let ab := s.pro.aborted
  let s := setConn 0 (modPro (fun p => { p with leftFuse := false, guardWait := false, hostDisc := false, aborted := none }) s)
  let s := raiseIf (host && ok) 0x0B 3 s
  let s := match ab with
    | some (st, code) => completeOp 0x0701 stForbidden [BitVec.ofNat 8 st, BitVec.ofNat 8 code, 0] s
    | none => s
  let s := if host && !ok then completeOp 0x0702 stForbidden [0, BitVec.ofNat 8 s.pro.firstCode] s else completeOp 0x0702 stOk [] s
  continueOut s

/-- In OPENING: nothing released still reports closed. -/
def openingStep (s : State) : State := if s.pro.conn = 9 && (s.pro.released &&& s.pro.kf) == 0 then finishOpen s else s

/-- The point at which K1, K2 and K4 are released together, unless NEVER_BREAK holds them (R254, steps 1 and 3). -/
def releasePoint (s : State) : State :=
  if s.pro.aboveNever then
    if s.pro.leftFuse then s
    else currentCut 2 (raise 0x0B 12 (setConn 8 (modPro (fun p => { p with leftFuse := true, guardWait := false }) s)))
  else
    openingStep (setConn 9 (releaseK 0xF (modPro (fun p => { p with leftFuse := false, guardWait := false }) s)))

/-- The first step of R254; `hw`: without the guard wait (step 4). -/
def beginOpen (hw : Bool) (s : State) : State :=
  let s := releaseK 0x4 s
  if !hw && s.pro.aboveBreak then
    let s := modPro (fun p => { p with guardWait := true, guardCnt := satAdd p.guardCnt 1 }) s
    currentCut 1 (raise 0x0B 10 (setConn 7 s))
  else releasePoint s

/-- The string is opened through R254, unless that runs. A connect in course is aborted (R267). -/
def openString (hw : Bool) (s : State) : State :=
  let c := s.pro.conn
  if c = 7 then (if hw then releasePoint s else s)
  else if c = 8 || c = 9 then s
  else if c = 0 && (s.pro.kA ||| s.pro.kB) == 0 then s
  else
    let seq := decide (1 ≤ c) && decide (c ≤ 4)
    let s := raiseIf seq 0x0B 4 s
    let s := onlyIf seq (modPro fun p => { p with aborted := some (c, if p.latched != 0 then p.firstCode else 0), overlap := false }) s
    beginOpen hw s

/-- An OPEN action (Table 8.2, R241 to R243): the function latches; the first one sets TRIPPED; PWM and GATE_EN go low, both limits to 0,
the string opens. In a pair the peer is told (R412). -/
def openAct (code idx : Nat) (val thr : Int) (hw : Bool) (s : State) : State :=
  if s.pro.latched.getLsbD code then s
  else
    let was := tripped s
    let inst := BitVec.ofNat 32 s.smp.instant
    let s := modPro (fun p => { p with latched := p.latched ||| (1#29 <<< code) }) s
    let s := if was then s else modPro (fun p => { p with
      firstCode := code, firstIdx := idx, firstVal := val, firstInst := inst, tripCnt := satAdd p.tripCnt 1 }) s
    let s := proRecord code idx val thr 2 s
    let s := onlyIf (!was) (fun s =>
      notice 1 0x10 ([BitVec.ofNat 8 code, 0] ++ le 2 idx ++ leW (s32 val) ++ leW inst) (raise 0x0B 0 s)) s
    let s := onlyIf (inPair s && s.pwr.state != 0) (sendPeer 0xC0 ([BitVec.ofNat 8 code] ++ leW inst)) s
    let s := tripEngine s
    let s := onlyIf s.pro.armed (zeroLimits s.pro.firstCode) s
    openString hw s

/-- A function with the action OPEN whose condition holds, or no longer holds. -/
def fire (code : Nat) (cond : Option (Nat × Int)) (thr : Int) (s : State) : State :=
  match cond with
  | some (idx, val) => openAct code idx val thr false (activate code idx val thr s)
  | none => setAct code false s

/-! ### Fast comparators (R252 to R254) -/

/-- The comparators' state, each only where its level is configured. -/
def cmpTake (x : CmpObs) (s : State) : State :=
  modPro (fun p => { p with
    aboveBreak := x.aboveBreak && s.cfgPro.breakI.isSome
    aboveNever := x.aboveNever && s.cfgPro.neverBreak.isSome
    aboveHw := x.aboveHw && s.cfgPro.hwOcLevel.isSome }) s

/-- What a change of the comparators releases (R254, steps 2 and 3). -/
def cmpRelease (s : State) : State :=
  if (s.pro.conn = 7 && !s.pro.aboveBreak) || (s.pro.conn = 8 && !s.pro.aboveNever) then releasePoint s else s

/-- HW_OC: the action is OPEN with no guard wait. The comparator gives no figure: PRO_FIRST_VAL is free (DESIGN CHOICE, log entry 4). -/
def hwOcFx (s : State) : State :=
  if s.pro.armed && s.pro.aboveHw then
    if s.pro.active.getLsbD 0x11 then s
    else
      match takeWord s with
      | (w, s) =>
        let thr := s.cfgPro.hwOcLevel.getD 0 / 1000000
        openAct 0x11 0 w.toInt thr true (activate 0x11 0 w.toInt thr s)
  else setAct 0x11 false s

/-- All that the comparators bring about. -/
def cmpFx (x : CmpObs) (s : State) : State := cmpRelease (hwOcFx (cmpTake x s))

/-- PRO runs: its supply is good and the module is not DORMANT. -/
def proRuns (s : State) : Bool := s.pwr.ready && s.pwr.state != 0 && !s.pro.inReset

def execHwOc (x : CmpObs) (s : State) : Host.Outcome State Fault Refusal := act (fun s => if proRuns s then cmpFx x s else s) s

def execComparatorBelowLevel (x : CmpObs) (s : State) : Host.Outcome State Fault Refusal :=
  act (fun s => if proRuns s then cmpFx x s else s) s

/-- BREAK_WAIT_EXPIRY: the guard wait is over (R254, step 2). -/
def execBreakWaitExpiry (s : State) : Host.Outcome State Fault Refusal :=
  act (fun s => if proRuns s && s.pro.conn = 7 then releasePoint s else s) s

/-! ### Connecting (R264 to R267) -/

/-- Some mapped group is stale, or PRO treats it so (R249). -/
def staleAny (s : State) : Bool := s.pro.active.getLsbD 0x0C

/-- The conditions of R264 that must go on holding through steps 1 to 8 (R267). -/
def connectHeld (s : State) : Bool :=
  s.pwr.state == 3 && s.pwr.target.isNone && !s.lcy.defaultsLocked && !tripped s && !inhibitConnect s && !staleAny s && (iSel s).isSome &&
    (!hasCtl s || (s.ctl.state == 1 && !gateEn s)) && commands s

/-- All conditions of R264 and R414. -/
def connectOk (s : State) : Bool :=
  connectHeld s && s.pro.armed && !s.pro.cool && s.pro.kf == 0 && (!inPair s || s.pai.peerUp)

/-- |V_STR - V_LNK| lies within k/10^9 of V_STR. -/
def nearLink (s : State) (k : Int) : Bool := decide (((s.smp.vStr - s.smp.vLnk).natAbs : Int) * 1000000000 ≤ k * s.smp.vStr.natAbs)

/-- Both voltages are valid. -/
def voltsOk (s : State) : Bool := s.smp.vStrOk && s.smp.vLnkOk

/-- Step 4: K2, and K4 where it is used. -/
def closeNeg (s : State) : State := setConn 2 (assertK (if s.cfgPro.k4En then 0xA else 0x2) s)

/-- Step 5: K3; the precharge begins at t_p. -/
def startPrecharge (s : State) : State :=
  let far := !nearLink s (4 * s.cfgPro.prechgDv)
  setConn 3 (assertK 0x4 (modPro (fun p => { p with tP := s.smp.timeNs, farAtTp := far, okRun := 0 }) s))

/-- What the contactor feedback lets the sequencer do (steps 3 to 9 of Table 8.5). -/
def seqStep (s : State) : State :=
  let p := s.pro
  if p.conn = 1 && !p.kA.getLsbD 2 && !p.kf.getLsbD 2 then closeNeg s
  else if p.conn = 2 && p.kf.getLsbD 1 && (!s.cfgPro.k4En || p.kf.getLsbD 3) then startPrecharge s
  else if p.conn = 4 && p.kA.getLsbD 2 && p.kf.getLsbD 0 then modPro (fun p => { p with overlap := true }) s
  else if p.conn = 4 && !p.kA.getLsbD 2 && !p.kf.getLsbD 2 then completeOp 0x0701 stOk [] (raise 0x0B 2 (setConn 5 s))
  else openingStep s

/-- PRO_CONNECT begins (Table 8.5). -/
def startConnect (s : State) : State :=
  let s := modPro (fun p => { p with aborted := none, overlap := false, okRun := 0, weldV := s.smp.vLnk, weldOk := voltsOk s }) s
  if s.cfgPro.weldCheck then setConn 1 (assertK 0x4 s) else closeNeg s

def execProConnect (r : Req) (s : State) : Host.Outcome State Fault Refusal :=
  act (request r 0x0701 operator
    (fun s => { forbidden := !stateOk [3] s || !connectOk s, busy := s.pro.conn != 0 || deferredBusy 0x0701 s })
    (fun s => startConnect (defer r 0x0701 s))) s

/-- PRECHG_FAIL (Table 8.3): CONNECT is refused for PRECHG_COOL. -/
def prechgFail (s : State) : State :=
  openAct 0x19 0 ((s.smp.vStr - s.smp.vLnk).natAbs : Int) (s.cfgPro.prechgDv * s.smp.vStr.natAbs / 1000000000) false
    (modPro (fun p => { p with cool := true }) s)

/-- The precharge at an instant (step 6, R266). -/
def prechargeStep (time : Nat) (s : State) : State :=
  if s.pro.conn != 3 then s
  else
    let ok := voltsOk s && nearLink s s.cfgPro.prechgDv
    let s := modPro (fun p => { p with okRun := if ok then p.okRun + 1 else 0 }) s
    if s.pro.okRun < 10 then s
    else if s.pro.tP + s.cfgPro.prechgTmin.toNat ≤ time then seqStep (setConn 4 (assertK 0x1 s))
    else if s.pro.farAtTp then prechgFail s
    else s

/-- WELD_TEST_TIMER: 100 ms after K3 was asserted alone (step 2, R265). -/
def weldTestFx (s : State) : State :=
  if s.pro.conn != 1 || !s.pro.kA.getLsbD 2 then s
  else if !s.pro.weldOk || !voltsOk s then openString false s
  else
    let d := (s.smp.vLnk - s.pro.weldV).natAbs
    if (s.cfgPro.weldDv * s.smp.vStr.natAbs : Int) < (d : Int) * 1000000000 then
      let s := raise 0x0B 9 (modPro (fun p => { p with welded := p.welded ||| 0x2 }) s)
      openAct 0x18 2 d (s.cfgPro.weldDv * s.smp.vStr.natAbs / 1000000000) false s
    else seqStep (releaseK 0x4 s)

def execWeldTestTimer (s : State) : Host.Outcome State Fault Refusal :=
  act (fun s => if proRuns s then weldTestFx s else s) s

def execPrechgTmaxExpiry (s : State) : Host.Outcome State Fault Refusal :=
  act (fun s => if proRuns s && s.pro.conn = 3 then prechgFail s else s) s

/-- K3_OVERLAP_EXPIRY: K3 is released (step 8). -/
def execK3OverlapExpiry (s : State) : Host.Outcome State Fault Refusal :=
  act (fun s =>
    if proRuns s && s.pro.conn = 4 && s.pro.overlap then seqStep (releaseK 0x4 (modPro (fun p => { p with overlap := false }) s)) else s) s

def execPrechgCoolExpiry (s : State) : Host.Outcome State Fault Refusal :=
  act (fun s => if proRuns s then modPro (fun p => { p with cool := false }) s else s) s

/-- A precondition of R264 lost in steps 1 to 8 aborts (R267). -/
def connectWatch (s : State) : State :=
  if 1 ≤ s.pro.conn && s.pro.conn ≤ 4 && !connectHeld s then openString false s else s

/-! ### Disconnecting (R267 to R269) -/

/-- RAMP_DOWN: both limits go to 0 (R268, step 1). -/
def hostDisconnect (s : State) : State :=
  let s := modPro (fun p => { p with hostDisc := true, quietRun := 0 }) s
  setConn 6 (zeroLimits 0xFE s)

/-- What PRO_DISCONNECT, and a STATE_SET out of RUN, start in each CONNECT_STATE. -/
def disconnectFx (s : State) : State :=
  if s.pro.conn = 5 then hostDisconnect s
  else if 1 ≤ s.pro.conn && s.pro.conn ≤ 4 then openString false s
  else s

/-- PRO_DISCONNECT. A standby starts no sequence (R270): while it mirrors the connected string the command is refused (DEDUCED, log entry 27). -/
def execProDisconnect (r : Req) (s : State) : Host.Outcome State Fault Refusal :=
  act (request r 0x0702 operator
    (fun s => { forbidden := !stateOk [3] s || (!commands s && s.pro.conn == 5), busy := deferredBusy 0x0702 s })
    (fun s =>
      let s := defer r 0x0702 s
      if s.pro.conn = 0 then completeOp 0x0702 stOk [] s else disconnectFx s)) s

/-- A current result in RAMP_DOWN: 16 quiet results in a row open the string (R268, step 2). -/
def rampStep (s : State) : State :=
  if s.pro.conn != 6 then s
  else
    let quiet := match iSel s with
      | some i => decide ((i.natAbs : Int) * 1000000000 ≤ s.cfgPro.iOpenQuiet * s.cfgPro.iRated)
      | none => false
    let s := modPro (fun p => { p with quietRun := if quiet then p.quietRun + 1 else 0 }) s
    if 16 ≤ s.pro.quietRun then openString false s else s

def execDiscRampMaxExpiry (s : State) : Host.Outcome State Fault Refusal :=
  act (fun s => if proRuns s && s.pro.conn = 6 then openString false s else s) s

/-- Completion bounds that pass while the string is left to the fuse (R267, R269, Tables 11.3 and 12.3). -/
def heldBounds (s : State) : State :=
  if s.pro.conn != 8 then s
  else
    let c := s.cfgPro
    let past (op : Nat) (b : Int) (s : State) : Bool := match running op s with
      | some d => decide ((d.at_ : Int) + b ≤ s.smp.timeNs)
      | none => false
    let s := match s.pro.aborted with
      | some (st, code) =>
        if past 0x0701 (c.prechgTmax + 2 * c.kfTClose + 2 * c.kfTOpen + c.k3Overlap + 200 * ms) s then
          completeOp 0x0701 stForbidden [BitVec.ofNat 8 st, BitVec.ofNat 8 code, 8] (modPro (fun p => { p with aborted := none }) s)
        else s
      | none => s
    let s := if past 0x0702 (c.discRampMax + 1000 * ms) s then completeOp 0x0702 stForbidden [8, 0] s else s
    if s.pwr.state = 3 && s.pwr.target.isSome &&
        past 0x0202 (c.discRampMax + c.breakWait + c.kfTOpen + (if s.pwr.target == some 1 then 100 else 10) * ms) s then
      failTransition stForbidden s
    else s

/-! ### Feedback (R239, R240) -/

/-- K_FEEDBACK of contactor `k` (0 for K1). -/
def kFeedback (k : Nat) (s : State) : State := openAct 0x17 (k + 1) 0 0 false s

/-- K_WELD of contactor `k`: its bit is kept until the latch is reset. -/
def kWeld (k : Nat) (s : State) : State :=
  let s := modPro (fun p => { p with welded := p.welded ||| (1#4 <<< k) }) s
  let s := raiseIf (!s.pro.latched.getLsbD 0x18) 0x0B 9 s
  openAct 0x18 (k + 1) 0 0 false (activate 0x18 (k + 1) 0 0 s)

/-- The feedback that the debounced inputs give: KFn reports closed where its level matches KF_POL (R240). -/
def kfNow (s : State) : BitVec 4 := ~~~(s.cap.kfRaw ^^^ s.cfgPro.kfPol)

/-- PRO takes the feedback. A contactor that opens inside the window of KF_T_CLOSE is judged at the window's end; outside it, its 1 ms
begins (Table 8.3, code 0x17). -/
def kfTake (s : State) : State :=
  let kf := kfNow s
  insChange (fun s =>
    let p := s.pro
    let drop := p.kf &&& ~~~kf &&& p.kA &&& p.kB &&& ~~~p.closing
    let s := modPro (fun p => { p with kf := kf, dropRun := (p.dropRun &&& ~~~kf) ||| drop }) s
    insModeSettle (seqStep (feedbackActive s))) s

/-- The feedback is taken where it differs: after a commit that changes KF_POL, and when PRO leaves its reset (R240). -/
def kfSettle (s : State) : State := if kfNow s == s.pro.kf then s else kfTake s

/-- KF_INPUT_CHANGE: the levels, debounced (R240). -/
def kfChangeFx (levels : BitVec 4) (s : State) : State := kfTake { s with cap := { s.cap with kfRaw := levels } }

/-- While PRO does not run, the levels are those it finds when it does. -/
def execKfInputChange (levels : BitVec 4) (s : State) : Host.Outcome State Fault Refusal :=
  act (fun s => if proRuns s then kfChangeFx levels s else { s with cap := { s.cap with kfRaw := levels } }) s

/-- KF_WINDOW_EXPIRY: KF_T_CLOSE after an assertion, KF_T_OPEN after a release (Table 8.3, codes 0x17 and 0x18). -/
def kfWindowFx (k : Nat) (s : State) : State :=
  let bit : BitVec 4 := 1#4 <<< k
  let p := s.pro
  if p.closing.getLsbD k then
    let s := feedbackActive (modPro (fun p => { p with closing := p.closing &&& ~~~bit }) s)
    if p.kf.getLsbD k then s else kFeedback k s
  else if p.released.getLsbD k then
    let s := modPro (fun p => { p with released := p.released &&& ~~~bit }) s
    if p.kf.getLsbD k then openingStep (kWeld k s) else openingStep s
  else s

def execKfWindowExpiry (k : Fin 4) (s : State) : Host.Outcome State Fault Refusal :=
  act (fun s => if proRuns s then kfWindowFx k s else s) s

/-- READBACK_MISMATCH: a pin's read-back disagrees with its command for 100 µs (R239), or agrees with it again, which ends the condition
(not `differs`; DESIGN CHOICE, log entry 60). A command of the contactor has it judged afresh. -/
def readbackFx (k : Nat) (x : Readback) (s : State) : State :=
  let bit : BitVec 4 := 1#4 <<< k
  let put (m : BitVec 4) : BitVec 4 := if x.differs then m ||| bit else m &&& ~~~bit
  let s := feedbackActive (modPro (fun p => if x.chB then { p with misB := put p.misB } else { p with misA := put p.misA }) s)
  if x.differs then kFeedback k s else s

def execReadbackMismatch (k : Fin 4) (x : Readback) (s : State) : Host.Outcome State Fault Refusal :=
  act (fun s => if proRuns s then readbackFx k x s else s) s

end Sys2Proof.Machine
end

