-- ==== Sys2Proof/Machine/SenseWire.lean ====
section
/-! DEFINITION. Sense-wire tests, bleed probes and classification (R255 to R262), chains (R249), and the commands OW_PERIOD_START and
OW_NOW. -/

namespace Sys2Proof.Machine

open Sys2Proof

/-! ### Places: 0 the group below input 0, 1 + n input n, 17 the group above input 15; wire w lies between places w and w + 1 -/

/-- The group at each place of a slot, by the configuration PRO has in force. -/
def owGroups (s : State) (u : Nat) : List (Option Nat) := s.cfgPro.places u

/-- The wires of a slot that bound an enabled input (R256). -/
def owWires (s : State) (u : Nat) : BitVec 24 :=
  let on (n : Nat) : Bool := (s.cfgPro.groupAt u n).isSome
  (List.range 17).foldl (fun m w => if (decide (0 < w) && on (w - 1)) || (decide (w < 16) && on w) then m ||| (1#24 <<< w) else m) 0

/-- Passes A, B and C of a test (R256). -/
def owPasses (s : State) (u : Nat) : List (BitVec 24 × Bool) :=
  let m := owWires s u
  let c := u % 3 == 0 || !(s.cfgPro.port (u / 3)).shared
  ([(m &&& 0x00AAAA#24, false), (m &&& 0x015554#24, false)] ++ (if c then [(m &&& 0x000001#24, true)] else [])).filter fun e => e.1 != 0

/-- A test of the unit may run (R255); in a pair its commands must reach it over the holder's own lane (R77). -/
def owEligible (s : State) (u : Nat) : Bool :=
  let x := s.posU u
  s.pro.armed && commands s && s.bal.learn.isNone && x.present && x.loaded && (s.port (u / 3)).link == 2 && ownReach s u

/-- No pass, probe or investigation of the unit is in course. -/
def owIdle (o : OwUnit) : Bool :=
  o.passes.isEmpty && o.pass.isNone && o.suspects.isEmpty && o.dev.isNone && o.probe.isNone

/-- The pass with this mask is one of the investigation of CELL_DEV in course (R258). -/
def devPass (o : OwUnit) (m : BitVec 24) : Bool :=
  match o.dev with
  | some n => m == 1#24 <<< n || m == 1#24 <<< (n + 1)
  | none => false

/-- Starts a test of a unit; skipped while it carries a probe (R255) and while passes are in course. An investigation that only waits for its probe
lets it run. -/
def owStart (u : Nat) (s : State) : State :=
  let o := s.owU u
  if owEligible s u && o.probe.isNone && o.pass.isNone && o.passes.isEmpty then modOw u (fun o => { o with passes := owPasses s u }) s else s

/-- OW_PERIOD_START for position c of every port (R255). -/
def owPeriodFx (c : Nat) (s : State) : State :=
  if s.pro.owPause then s else forAll (List.range 48) (fun p s => owStart (slotOf p c) s) s

def execOwPeriodStart (c : Fin 3) (s : State) : Host.Outcome State Fault Refusal :=
  act (fun s => if proRuns s then owPeriodFx c s else s) s

/-! ### Values -/

/-- Means of the present samples of the last OW_SAMPLES frames, per place; none where the frames are not complete (R256). -/
def owBase (s : State) (u : Nat) : List (Option Rat) :=
  let n := s.cfgPro.owSamples
  let h := s.pro.hist.take n
  (owGroups s u).map fun g => match g with
    | none => none
    | some g =>
      let l := h.filterMap fun f => f.getD g none
      if h.length < n || l.isEmpty then none else some (((l.map BitVec.toNat).sum : Nat) / (l.length : Rat))

/-- Mean of the last 4 present samples of a place, and whether one of them is clipped; none: fewer than 4. -/
def last4 (rows : List (List (Option Half))) (k : Nat) : Option (Rat × Bool) :=
  let l := (rows.filterMap fun r => r.getD k none).take 4
  if l.length < 4 then none
  else some (((l.map BitVec.toNat).sum : Nat) / 4, l.any fun v => v == 0 || v == 0xFFFF)

/-- A shift in nV, and whether its test value is clipped. -/
def shiftOf (base : List (Option Rat)) (rows : List (List (Option Half))) (k : Nat) : Option (Rat × Bool) :=
  match base.getD k none, last4 rows k with
  | some b, some (v, c) => some ((v - b) * 100000, c)
  | _, _ => none

/-- The rule of R257 for one wire: shifts below and above (none: no group there), the sign expected below, the least magnitude, the
tolerance of the sum. -/
def shiftRule (lo hi : Option (Rat × Bool)) (down : Bool) (dv tol : Int) : Bool :=
  let meets (d : Rat × Bool) (neg : Bool) : Bool := d.2 || (if neg then decide (d.1 ≤ -dv) else decide ((dv : Rat) ≤ d.1))
  let l := match lo with | some d => meets d down | none => true
  let h := match hi with | some d => meets d (!down) | none => true
  let sum := match lo, hi with
    | some a, some b => a.2 || b.2 || (decide (-(tol : Rat) ≤ a.1 + b.1) && decide (a.1 + b.1 ≤ tol))
    | _, _ => true
  (lo.isSome || hi.isSome) && l && h && sum

/-! ### Classification (R260) -/

/-- OPEN_WIRE(w). -/
def owClassify (u w : Nat) (incon : Bool) (s : State) : State :=
  modOw u (fun o => { o with openMask := o.openMask ||| (1#17 <<< w), incon := o.incon || incon, inconCnt := o.inconCnt.set w 0 }) s

/-- One INCONCLUSIVE result of a wire; the third in a row classifies it. -/
def owInconclusive (u w : Nat) (s : State) : State :=
  let n := (s.owU u).inconCnt.getD w 0 + 1
  let s := raise 0x0B 7 (modOw u (fun o => { o with inconCnt := o.inconCnt.set w n }) s)
  if 3 ≤ n then owClassify u w true s else s

/-- The end of a probe: what it judges (R259, R260), and the planner's part (R222). -/
def probeEnd (u : Nat) (pr : Probe) (s : State) : State :=
  let c := s.cfgPro
  let gs := owGroups s u
  let d (k : Nat) : Option (Rat × Bool) := if (gs.getD k none).isSome then shiftOf (pr.base.getD []) pr.last k else none
  let k := pr.input + 1
  let s := modSlot u (fun b => { b with probe := 0, noPlan := commands s && s.bal.roundDue }) s
  let s := modOw u (fun o => { o with probe := none, tailProbe := 16, tailInput := pr.input }) s
  match pr.wire with
  | some w =>
    let across := if w = k then w + 1 else w
    let at_ : Nat × Nat := if pr.above then (u + 1, 0) else (u, w)
    let there := (gs.getD across none).isSome
    let fell := match d k with | some x => x.2 || decide (x.1 ≤ -(c.probeDv : Rat)) | none => false
    let ok := fell && (!there || (match d across with
      | some x => shiftRule (d k) (some x) true c.probeDv c.owSumTol
      | none => false))
    if ok then raise 0x0B 6 (owClassify at_.1 at_.2 false s) else owInconclusive at_.1 at_.2 s
  | none =>
    let small (j : Nat) : Bool := match d j with
      | some x => decide (-(c.probeDv : Rat) < x.1) && decide (x.1 < c.probeDv)
      | none => (gs.getD j none).isNone
    let s := modOw u (fun o => { o with dev := none, devSuspect := false }) s
    if small k && small (k - 1) && small (k + 1) then
      raise 0x0B 8 (modOw u (fun o => { o with fault := o.fault ||| (1#16 <<< pr.input) }) s)
    else owInconclusive u (pr.input + 1) (owInconclusive u pr.input s)

/-- Asks the planner for a probe of unit `u` (R222, R259): the request goes over crossing 0x13. -/
def probeAsk (u : Nat) (p : Probe) (s : State) : State := modOw u (fun o => { o with probe := some p }) s

/-- The group below wire `w` lies in the unit below: w0 at a shared boundary. -/
def probeBelow (s : State) (u w : Nat) : Bool := w == 0 && ((owGroups s u).getD 0 none).isSome

/-- The unit and the probe for a SUSPECT wire: the group below the wire, or above it when none lies below (R259). The baseline keeps its
two places around the wire when the probe is the lower unit's. -/
def probeFor (s : State) (u w : Nat) (base : List (Option Rat)) : Nat × Probe :=
  if probeBelow s u w then
    (u - 1, { input := 15, wire := some 16, above := true
              base := some (List.replicate 16 none ++ [base.getD 0 none, base.getD 1 none]) })
  else
    (u, { input := if decide (0 < w) && (s.cfgPro.groupAt u (w - 1)).isSome then w - 1 else w, wire := some w, base := some base })

/-! ### The engine of one unit -/

/-- OW_TEST of the next pass: 3 bytes of mask, current code with polarity, samples (Table 3.3). -/
def owSend (u : Nat) (m : BitVec 24) (pol : Bool) (s : State) : State :=
  let c := s.cfgPro
  addReq (u / 3) (reqTo 3 (u / 3) (u % 3) 0x40
    (le 3 m.toNat ++ [BitVec.ofNat 8 (c.owCode + if pol then 0x80 else 0), BitVec.ofNat 8 c.owSamples])) s

/-- A DOWN frame carries the unit's OW_TEST: the sources switch on after its instant (R101); the baseline is that of its first sending. -/
def owSent (u : Nat) (s : State) : State :=
  let b := owBase s u
  modOw u (fun o => if o.pass.isNone then o else { o with base := if o.since.isNone then b else o.base, since := some 0 }) s

/-- A DOWN frame carries the probe's BLEED_SET (R222, R259). -/
def probeSent (u : Nat) (s : State) : State :=
  let b := owBase s u
  let n := s.cfgPro.probeT.toNat / tCad s.smp.cad + 1
  modOw u (fun o => { o with probe := o.probe.map fun p => { p with sent := true, left := n, base := p.base.or (some b) } }) s

/-- The pass's command was rejected or abandoned: the pass is incomplete. -/
def owFailed (u : Nat) (s : State) : State :=
  modOw u (fun o =>
    let mine := (o.pass.map fun x => devPass o x.1).getD false
    { o with pass := none, since := none, last := [], dev := if mine then none else o.dev, devSuspect := o.devSuspect && !mine }) s

/-- A pass is complete: its wires are judged (R257). -/
def passEnd (u : Nat) (m : BitVec 24) (pol : Bool) (s : State) : State :=
  let c := s.cfgPro
  let gs := owGroups s u
  let o := s.owU u
  let d (k : Nat) : Option (Rat × Bool) := if (gs.getD k none).isSome then shiftOf o.base o.last k else none
  let ws := (List.range 17).filter fun w => m.getLsbD w
  let whole := ws.all fun w => [w, w + 1].all fun k => (gs.getD k none).isNone || (d k).isSome
  let s := modOw u (fun o => { o with
    pass := none, since := none, last := [], tail := 16, tailWires := m, wait := c.owSamples + 16 }) s
  if !whole then (if devPass o m then modOw u (fun o => { o with dev := none, devSuspect := false }) s else s)
  else forAll ws (fun w s =>
    if shiftRule (d w) (d (w + 1)) (!pol) c.owDv c.owSumTol then
      raise 0x0B 5 (modOw u (fun x => { x with
        suspects := (x.suspects.filter fun e => e.1 != w) ++ [(w, o.base)], devSuspect := x.devSuspect || devPass x (1#24 <<< w) }) s)
    else modOw u (fun x => { x with inconCnt := x.inconCnt.set w 0 }) s)
    (modPro (fun p => { p with owCnt := satAdd p.owCnt 1 }) s)

/-- Probes the first SUSPECT wire (R259). It waits while the string-wide inhibit holds, and while the unit it bleeds is busy. -/
def probeSuspect (u w : Nat) (b : List (Option Rat)) (s : State) : State :=
  let x := probeFor s u w b
  if strInhibit s || !commands s || (x.1 != u && !owIdle (s.owU x.1)) then s
  else probeAsk x.1 x.2 (modOw u (fun o => { o with suspects := o.suspects.drop 1 }) s)

/-- With nothing in course: a suspect wire is probed first, then the next pass, then the investigated group (R256, R258, R259). The two
passes of an investigation run before the first probe, and a test's passes while the string-wide inhibit holds the probe. A standby starts
nothing: its passes and probes are those it hears (R263). -/
def owNext (u : Nat) (s : State) : State :=
  let o := s.owU u
  match (if (o.dev.isSome || strInhibit s) && !o.passes.isEmpty then [] else o.suspects) with
  | (w, b) :: _ => probeSuspect u w b s
  | [] =>
    match o.passes with
    | (m, pol) :: rest =>
      if 0 < o.wait || (!commands s && o.dev.isSome) then s
      else if owEligible s u then
        owSend u m pol (modOw u (fun x => { x with passes := rest, pass := some (m, pol), since := none, last := [] }) s)
      else modOw u (fun x => { x with passes := [], dev := none, devSuspect := false }) s
    | [] =>
      match o.dev with
      | none => s
      | some n =>
        if o.devSuspect then modOw u (fun x => { x with dev := none, devSuspect := false }) s
        else if strInhibit s || !commands s then s
        else probeAsk u { input := n, wire := none, base := none } s

/-- The present samples of a frame by place. -/
def owRow (s : State) (u : Nat) (f : Frame) : List (Option Half) :=
  (owGroups s u).map fun g => match g with
    | some g => if (f.gf.getD g 0x80).getLsbD 0 then none else some (f.v.getD g 0)
    | none => none

/-- Some input of the unit carries OW_ACTIVE in the frame. -/
def owActive (s : State) (u : Nat) (f : Frame) : Bool :=
  (s.cfgPro.slotGroups u).any fun e => (f.gf.getD e.1 0).getLsbD 5

/-- One frame for one unit. -/
def owFrame (u : Nat) (f : Frame) (s : State) : State :=
  let o := s.owU u
  if owIdle o && o.tail = 0 && o.tailProbe = 0 && o.wait = 0 then s
  else if !(s.posU u).present then
    modOw u (fun o => { openMask := o.openMask, incon := o.incon, fault := o.fault, inconCnt := o.inconCnt })
      (modSlot u (fun b => { b with probe := 0 }) s)
  else
    let s := modOw u (fun o => { o with tail := o.tail - 1, tailProbe := o.tailProbe - 1, wait := o.wait - 1 }) s
    match o.probe with
    | some pr =>
      if !pr.sent then s
      else
        let pr := { pr with left := pr.left - 1, last := (owRow s u f :: pr.last).take 16 }
        let s := modOw u (fun o => { o with probe := some pr }) s
        if pr.left = 0 then probeEnd u pr s else s
    | none =>
      match o.pass, o.since with
      | some (m, pol), some k =>
        let on := decide (0 < k) && owActive s u f
        let s := modOw u (fun o => { o with since := some (k + 1), last := if on then (owRow s u f :: o.last).take 64 else o.last }) s
        if k < s.cfgPro.owSamples then s else passEnd u m pol s
      | some _, none => s
      | none, _ => owNext u s

/-- A standby shares an investigation of the unit: the holder runs it, the standby hears its passes (R263). -/
def shadowEligible (s : State) (u : Nat) : Bool :=
  let x := s.posU u
  s.pro.armed && !commands s && x.present && x.loaded && (s.port (u / 3)).link == 2

/-- A CELL_DEV investigation of group `g`: single-wire passes on its lower and upper wire (R258). -/
def devStart (g : Nat) (s : State) : State :=
  match s.cfgPro.place g with
  | none => s
  | some (u, n) =>
    if (owEligible s u || shadowEligible s u) && owIdle (s.owU u) then
      modOw u (fun o => { o with passes := [(1#24 <<< n, n == 0), (1#24 <<< (n + 1), false)], dev := some n, devSuspect := false }) s
    else s

/-! ### What a standby hears of the tests (R263) -/

/-- The holder's OW_TEST: a pass begins, or its command is repeated. What an earlier pass left is settled by then. -/
def heardPass (u : Nat) (m : BitVec 24) (pol : Bool) (s : State) : State :=
  if (s.owU u).pass == some (m, pol) then owSent u s
  else owSent u (modOw u (fun o => { o with
    pass := some (m, pol), since := none, last := [], suspects := [], passes := o.passes.erase (m, pol) }) s)

/-- The holder's BLEED_SET is a probe where it bleeds for PROBE_T the one group that a SUSPECT wire or the investigation asks for. -/
def heardProbe (u : Nat) (mask : Half) (dur : Nat) (s : State) : State :=
  let o := s.owU u
  let begin_ (p : Probe) (rest : List (Nat × List (Option Rat))) : State :=
    probeSent u (modSlot u (fun b => { b with probe := 4 })
      (modOw u (fun o => { o with probe := some p, suspects := rest, passes := if p.wire.isNone then [] else o.passes }) s))
  if o.probe.isSome || dur != s.cfgPro.probeT.toNat / 10000000 then s
  else match o.suspects.find? fun e => !probeBelow s u e.1 && mask == 1#16 <<< (probeFor s u e.1 e.2).2.input with
    | some e => begin_ (probeFor s u e.1 e.2).2 (o.suspects.erase e)
    | none => match (s.owU (u + 1)).suspects.find? fun e => u % 3 != 2 && probeBelow s (u + 1) e.1 && mask == 1#16 <<< 15 with
    | some e => begin_ (probeFor s (u + 1) e.1 e.2).2 o.suspects
        |> modOw (u + 1) (fun x => { x with suspects := x.suspects.erase e })
    | none => match o.dev with
      | some n => if o.devSuspect || mask != 1#16 <<< n then s else begin_ { input := n, wire := none, base := none } o.suspects
      | none => s

/-! ### Chains (R249) -/

/-- The wires of a unit that join their two groups: open, sourced, or around a probe. -/
def joinWires (o : OwUnit) : BitVec 24 :=
  let around (n : Nat) : BitVec 24 := 3#24 <<< n
  let a := o.openMask.zeroExtend 24
  let b := match o.pass, o.since with | some (m, _), some _ => m | _, _ => 0
  let c := if 0 < o.tail then o.tailWires else 0
  let d := match o.probe with | some p => if p.sent then around p.input else 0 | none => 0
  let e := if 0 < o.tailProbe then around o.tailInput else 0
  a ||| b ||| c ||| d ||| e

/-- One place of a port on the walk from its lowest input to its highest: its group; the wire below it is joined, is classified open;
the same of the wire above it; its lower wire is also the upper wire of the place before. -/
structure Rung where
  group : Option Nat
  joinLo : Bool
  openLo : Bool
  openHi : Bool
  link : Bool
  deriving DecidableEq, Repr

/-- The 48 places of a port in order. -/
def rungs (s : State) (p : Nat) : List Rung :=
  let sh := (s.cfgPro.port p).shared
  (List.range 48).map fun i =>
    let u := slotOf p (i / 16)
    let n := i % 16
    let o := s.owU u
    let edge := n == 0 && i != 0 && sh
    let below := s.owU (u - 1)
    { group := s.cfgPro.groupAt u n
      joinLo := (joinWires o).getLsbD n || (edge && (joinWires below).getLsbD 16)
      openLo := o.openMask.getLsbD n || (edge && below.openMask.getLsbD 16)
      openHi := o.openMask.getLsbD (n + 1) || (n == 15 && i != 47 && sh && (s.owU (u + 1)).openMask.getLsbD 0)
      link := n != 0 || edge }

/-- The runs of joined groups in reverse order: groups in reverse, an open end below, the last place's upper wire open. -/
def chainWalk : List Rung → Bool → List (List Nat × Bool × Bool) → List (List Nat × Bool × Bool)
  | [], _, acc => acc
  | r :: rest, prev, acc =>
    match r.group, acc with
    | none, (gs, o, hi) :: t =>
      -- the run before ends here: an open wire above it with no group beyond
      chainWalk rest false (if prev then (gs, o || hi, false) :: t else (gs, o, false) :: t)
    | none, [] => chainWalk rest false []
    | some g, (gs, o, hi) :: t =>
      if prev && r.link then
        if r.joinLo then chainWalk rest true ((g :: gs, o, r.openHi) :: t)
        else chainWalk rest true (([g], false, r.openHi) :: (gs, o, false) :: t)
      else chainWalk rest true (([g], r.openLo, r.openHi) :: (gs, o || (prev && hi), false) :: t)
    | some g, [] => chainWalk rest true [([g], r.openLo, r.openHi)]

/-- The chains of a port. -/
def portChains (s : State) (p : Nat) : List Chain :=
  if [0, 1, 2].all fun c => joinWires (s.owU (slotOf p c)) == 0 then []
  else
    (chainWalk (rungs s p) false []).reverse.filterMap fun e =>
      let open_ := e.2.1 || e.2.2
      if 2 ≤ e.1.length then some { groups := e.1.reverse, openEnd := open_ } else none

/-- Forms the chains anew; a chain of the same groups keeps its counts. -/
def formChains (s : State) : List Chain :=
  ((List.range (nPorts s)).flatMap (portChains s)).map fun c =>
    match s.pro.chains.find? fun x => x.groups == c.groups with
    | some x => { c with ov := x.ov, uv := x.uv }
    | none => c

end Sys2Proof.Machine
end

