-- ==== Sys2Proof/Machine/Estimator.lean ====
section
/-! DEFINITION. The estimator array (05): one tick over every context, the string figures and limits, the group records, and the commands
EST_GROUPS, EST_STRING, EST_SAVE, LEARNED_DATA_SAVE. ESTIMATOR_TICK itself stands in Tick.lean. -/

namespace Sys2Proof.Machine

open Sys2Proof
open F32 (add sub mul div neg)

/-! ### The tick's inputs -/

/-- A charge in pC as Ah. -/
def pcAh (q : Int) : F32 := F32.ofRat ((q : Rat) / 3600000000000000)

/-- What every context takes of a tick (Table 5.4, step 2; R145): the span in s and ns, the string charge in Ah and its current in A, the
Hall channel chosen, CHARGE_GAP, NO_CURRENT, the time of the missing results in s, a channel with a gap. -/
structure TickEnv where
  t : Tick
  dt : F32
  dq : F32
  i : F32
  hall : Bool
  gap : Bool
  noCur : Bool
  miss : F32
  chGap : Bool
  hallEn : Bool
  deriving DecidableEq, Repr

/-- The mean current of a charge over the span, in A; 0 over a span of 0. -/
def meanI (t : Tick) (dq : F32) : F32 := if t.span = 0 then 0 else div (mul dq (F32.ofNat 3600)) (F32.ofRat ((t.span : Nat) / 1000000000))

/-- R145. Where neither channel is complete and both hold the same count, the shunt's charge is taken (DESIGN CHOICE, log entry 65: the rule names
the channel with the larger count). -/
def tickEnv (c : Cfg) (t : Tick) : TickEnv :=
  let n := (2 * t.span + 62500) / 125000
  let hallFirst := decide (t.nShunt < t.nHall)
  let pick : Int × Nat × Bool × Bool :=
    if t.nShunt = n then (t.qShunt, n, false, false)
    else if t.nHall = n then (t.qHall, n, true, false)
    else if t.nShunt = 0 && t.nHall = 0 then (0, 0, false, true)
    else if hallFirst then (t.qHall, t.nHall, true, true)
    else (t.qShunt, t.nShunt, false, true)
  match pick with
  | (q, got, hall, gap) =>
    let dq := if gap && got != 0 then F32.ofRat (((q : Rat) * (n : Nat)) / ((got : Nat) * 3600000000000000)) else pcAh q
    { t := t
      dt := F32.ofRat ((t.span : Nat) / 1000000000)
      dq := dq
      i := meanI t dq
      hall := hall
      gap := gap
      noCur := t.nShunt = 0 && t.nHall = 0 && n != 0
      miss := F32.ofRat (((n - got : Nat) : Rat) * 62500 / 1000000000)
      chGap := decide (t.nShunt < n) || (c.hallEn && decide (t.nHall < n))
      hallEn := c.hallEn }

/-- The charge of a group: the string's less the bleed charge (R146), and its mean current. -/
def ownCharge (e : TickEnv) (g : Nat) : F32 := sub e.dq (F32.ofRat (e.t.bleed.getD g 0 / 3600))
def ownCurrent (e : TickEnv) (g : Nat) : F32 := meanI e.t (ownCharge e g)

/-- The mean voltage of a group in the tick, in V; none: unmeasured (R22). -/
def tickV (t : Tick) (g : Nat) : Option F32 :=
  match t.v.getD g (0, 0) with
  | (_, 0) => none
  | (s, n) => some (F32.ofRat (((s : Nat) : Rat) / ((n * 10000 : Nat) : Rat)))

/-- A temperature input named by TS_A or TS_B, in K; none: invalid (R148). -/
def tickT (t : Tick) (ts : Half) : Option F32 :=
  let u := (ts >>> 8).toNat
  let n := (ts &&& 0xFF).toNat
  let v := (t.t.getD u []).getD n 0x8000
  if 4 ≤ n || (t.uf.getD u 2).getLsbD 1 || v == 0x8000 || v == 0x7FFF then none
  else some (F32.ofRat (((27315 + v.toInt : Int) : Rat) / 100))

/-! ### Steps of one context -/

/-- Constants of Table 5.3 by number. -/
def Cfg.estF (c : Cfg) (n : Nat) : F32 := f9 (c.estI n)

/-- σ of a variance in use; the variance itself is capped at 25% (R158). -/
def capSigma (c : Ctx) : Ctx :=
  let p := c.p.getD 0 0
  if F32.lt 0x3E800000 p then { c with p := c.p.set 0 0x3E800000, capped := true }
  else { c with capped := c.capped && p == 0x3E800000 }

/-- Capacity of an inserted group in Ah. -/
def initCap (k : CfgGroup) (m : Model) : F32 := if k.qInit = 0 then qNomAh m else F32.ofRat ((k.qInit : Nat) / 1000)

/-- z, h, v_f, v_s, SOC_CC and σ_SOC of R173, from a measured voltage and the tick's current. -/
def reinit (c : Cfg) (m : Model) (y i : F32) (x : Ctx) : Ctx :=
  match invert m x.tv 0 y with
  | (z, n) =>
    let s := slopeSeg m x.tv 0 n
    let a := div (c.estF 11) s
    let b := div (div (sub (ocvZ m x.tv 0 z) (ocvZ m x.tv 1 z)) 0x40000000) s
    let v := add (mul a a) (mul b b)
    let w := c.estF 25
    let v := if F32.lt (mul (c.estF 15) (qNomAh m)) (F32.abs i) then add v (mul w w) else v
    capSigma { x with z := z, cc := z, h := 0, vf := 0, vs := 0, p := [v, 0, 0, 0, x.p.getD 4 0, 0, 0, 0, x.p.getD 8 0] }

/-- Insertion on a DISCARD port (R173). With SOC_CC at z a SOC_CONFLICT clears in the tick's step 8 (R164); an impedance result is applied in its
step 3 (R178). -/
def insertCtx (c : Cfg) (k : CfgGroup) (m : Model) (y i : F32) (x : Ctx) : Ctx :=
  let sc (n : Nat) : F32 := F32.ofRat ((n : Nat) / 4096)
  let x := reinit c m y i { x with valid := true, cap := initCap k m, sSer := sc k.sSer, sFast := sc k.sFast, sSlow := sc k.sSlow }
  { x with
    lastAnchor := 5, inserted := true, paramTable := true, relearnReq := false, retained := false, hard := none
    age := if F32.le (sigmaOf x) (c.estF 20) then 0 else (c.estI 21).toNat
    tFull := 0, tEmpty := 0, tRest := 0, tRe := 0, first := false, mustInsert := false, outage := false }

/-- Virtual temperature (R147, R148), with RSER at the present z and the last t_v; `i` is the group's own current (R144, R146). -/
def virtualTemp (e : TickEnv) (k : CfgGroup) (m : Model) (i : F32) (x : Ctx) : Ctx :=
  let a := decay e.dt (F32.ofNat k.tauTh)
  let rser := mul x.sSer (impAt m x.tv x.z 0)
  let self := add (mul a x.dtSelf) (mul (mul (mul (sub F32.one a) (F32.ofRat ((k.rTh : Nat) / 1000))) rser) (mul i i))
  let put (w ta tb : F32) : Ctx :=
    { x with dtSelf := self, tempHeld := false, tv := add (add (mul w ta) (mul (sub F32.one w) tb)) self }
  match tickT e.t k.tsA, tickT e.t k.tsB with
  | some ta, some tb => put (F32.ofRat ((k.wA : Nat) / 65536)) ta tb
  | some ta, none => put F32.one ta 0
  | none, some tb => put 0 0 tb
  | none, none => { x with dtSelf := self, tempHeld := true }

/-- The impedance result that is pending (R178). -/
def applyImp (c : Cfg) (m : Model) (x : Ctx) : Ctx :=
  match x.imp with
  | none => x
  | some (a, b, d) =>
    let ref := c.estF 33
    let go (s r : F32) (j : Nat) : F32 := add s (mul (c.estF 30) (sub (div r (impAt m ref fHalf j)) s))
    { x with sSer := go x.sSer a 0, sFast := go x.sFast b 1, sSlow := go x.sSlow d 2, imp := none, paramTable := false }

/-- Parameters of the tick (R153): RSER, RFAST, RSLOW, TAU_F, TAU_S. -/
structure Params where
  rser : F32
  rfast : F32
  rslow : F32
  tauF : F32
  tauS : F32
  deriving DecidableEq, Repr

def paramsOf (m : Model) (x : Ctx) : Params :=
  { rser := mul x.sSer (impAt m x.tv x.z 0), rfast := mul x.sFast (impAt m x.tv x.z 1), rslow := mul x.sSlow (impAt m x.tv x.z 2)
    tauF := impAt m x.tv x.z 3, tauS := impAt m x.tv x.z 4 }

/-- The sign of a number. -/
def fSign (x : F32) : F32 := if F32.lt 0 x then F32.one else if F32.lt x 0 then neg F32.one else 0

/-- Prediction, covariance and coulomb count (R144, R156, R159, R162). `dq` is the group's own charge. In a tick that chose no channel, cc_rel and
i_ofs are the shunt's (DESIGN CHOICE, log entry 65: R156 takes those of the channel chosen). -/
def predict (c : Cfg) (e : TickEnv) (m : Model) (r : Params) (dq : F32) (x : Ctx) : Ctx :=
  let i := meanI e.t dq
  let eta := if F32.lt 0 dq then c.estF 0 else F32.one
  let step := div (mul eta dq) x.cap
  let af := decay e.dt r.tauF
  let as_ := decay e.dt r.tauS
  let h0 := Config.expF32 (neg (div (mul (c.estF 1) (F32.abs dq)) x.cap))
  let f : List F32 := [F32.one, af, as_]
  let p := x.p.mapIdx fun n v => mul (mul (f.getD (n / 3) 0) v) (f.getD (n % 3) 0)
  let t1 := div (mul (c.estF (if e.hall then 8 else 7)) (F32.abs dq)) x.cap
  let t2 := div (div (mul (c.estF (if e.hall then 10 else 9)) e.dt) (F32.ofNat 3600)) x.cap
  let gi := if e.noCur then (imaxAt m x.tv).2 else F32.abs i
  let gap := if e.gap then div (div (mul gi e.miss) (F32.ofNat 3600)) x.cap else 0
  let p00 := add (add (add (p.getD 0 0) (mul t1 t1)) (mul t2 t2)) (mul gap gap)
  let sq (n : Nat) : F32 := mul (mul (c.estF n) (c.estF n)) e.dt
  let grown := add (F32.sqrt p00) (div (mul (c.estF 22) e.dt) (F32.ofNat 3600))
  let p00 := if x.anchorStale then mul grown grown else p00
  { x with
    z := add x.z step, cc := add x.cc step
    vf := add (mul af x.vf) (mul (mul r.rfast (sub F32.one af)) i)
    vs := add (mul as_ x.vs) (mul (mul r.rslow (sub F32.one as_)) i)
    h := add (mul h0 x.h) (mul (sub F32.one h0) (fSign dq))
    p := ((p.set 0 p00).set 4 (add (p.getD 4 0) (sq 5))).set 8 (add (p.getD 8 0) (sq 6))
    hard := x.hard.map fun a => { a with counted := add a.counted (mul eta dq), gap := a.gap || e.gap, chGap := a.chGap || e.chGap } }

/-- v_hat (R144). -/
def vHat (m : Model) (r : Params) (i : F32) (x : Ctx) : F32 := add (add (add (ocvH m x.tv x.z x.h) (mul r.rser i)) x.vf) x.vs

/-- The measurement update (R157). -/
def measureCtx (c : Cfg) (m : Model) (r : Params) (i y : F32) (comp : Bool) (x : Ctx) : Ctx :=
  let n := segOf m x.z
  let d := slopeSeg m x.tv x.h n
  let rv := mul (c.estF 2) (c.estF 2)
  let rv := if flatSeg m x.tv n then mul rv (c.estF 3) else rv
  let rv := if comp then mul rv (c.estF 4) else rv
  let p (a b : Nat) : F32 := x.p.getD (3 * a + b) 0
  let ph (a : Nat) : F32 := add (add (mul (p a 0) d) (p a 1)) (p a 2)
  let hp (b : Nat) : F32 := add (add (mul d (p 0 b)) (p 1 b)) (p 2 b)
  let s := add (add (add (mul d (ph 0)) (ph 1)) (ph 2)) rv
  let k (a : Nat) : F32 := div (ph a) s
  let err := sub y (vHat m r i x)
  { x with
    z := fclamp 0 F32.one (add x.z (mul (k 0) err))
    vf := add x.vf (mul (k 1) err)
    vs := add x.vs (mul (k 2) err)
    p := (List.range 9).map fun j => sub (p (j / 3) (j % 3)) (mul (k (j / 3)) (hp (j % 3))) }

/-- An anchor that takes effect ends INSERTED and the age (R162); the hold timers of R161 restart. -/
def anchored (typ : Nat) (x : Ctx) : Ctx :=
  { x with lastAnchor := typ, age := 0, anchorStale := false, inserted := false, tFull := 0, tEmpty := 0, tRest := 0 }

/-- A hard anchor's own effect (R161). -/
def hardAnchor (typ : Nat) (z sigma : F32) (x : Ctx) : Ctx :=
  capSigma (anchored typ { x with
    z := z, cc := z, vf := 0, vs := 0, p := [mul sigma sigma, 0, 0, 0, x.p.getD 4 0, 0, 0, 0, x.p.getD 8 0], conflict := false, cause := 0 })

/-- Capacity relearn from the previous hard anchor (R177); the result tells whether it succeeded. -/
def relearn (c : Cfg) (m : Model) (freeze : Bool) (old : HardAnchor) (z sigma : F32) (x : Ctx) : Ctx × Bool :=
  let dz := F32.abs (sub z old.z)
  let three := f9 30000000
  if freeze || F32.lt dz (c.estF 27) || F32.lt three sigma || F32.lt three old.sigma || old.gap || old.disc || old.disagree then (x, false)
  else
    let q := div (F32.abs old.counted) dz
    let full := x.retained || x.relearnReq
    let d := if full then sub q x.cap else mul (c.estF 28) (sub q x.cap)
    let lim := mul (c.estF 29) x.cap
    let d := if full then d else fclamp (neg lim) lim d
    let qn := qNomAh m
    let cap := fclamp (mul (f9 300000000) qn) (mul (f9 1500000000) qn) (add x.cap d)
    ({ x with cap := cap, relearnReq := false, retained := false, relearnCnt := min (x.relearnCnt + 1) 255 }, true)

/-- SOP of a group at a state z (R181): charge, discharge, v_free, r_eff. -/
def sopAt (c : Cfg) (m : Model) (r : Params) (x : Ctx) (z : F32) : F32 × F32 × F32 × F32 :=
  let t := c.estF 31
  let aft := decay t r.tauF
  let ast := decay t r.tauS
  let vFree := add (add (ocvH m x.tv z x.h) (mul x.vf aft)) (mul x.vs ast)
  let d := slopeSeg m x.tv x.h (segOf m z)
  let rEff := add (add (add r.rser (mul r.rfast (sub F32.one aft))) (mul r.rslow (sub F32.one ast)))
    (div (mul d t) (mul (F32.ofNat 3600) x.cap))
  let lim := imaxAt m x.tv
  (fclamp 0 lim.1 (div (sub (volt m.vMax) vFree) rEff), fclamp 0 lim.2 (div (sub vFree (volt m.vMin)) rEff), vFree, rEff)

/-- Step 11 (R167, R168, R180 to R182); `was` tells that SOC_CONFLICT was set before the tick. -/
def outputs (c : Cfg) (e : TickEnv) (m : Model) (r : Params) (was : Bool) (x : Ctx) : Ctx :=
  let lowZ := F32.min x.z x.cc
  let target := if x.conflict then fclamp 0 F32.one lowZ else x.z
  let step := mul (f9 5000000) e.dt
  let diff := sub target x.socRpt
  let rpt :=
    if !(x.conflict || x.rateLimited || was) then x.z
    else if F32.le (F32.abs diff) step then target
    else if F32.lt 0 diff then add x.socRpt step else sub x.socRpt step
  match sopAt c m r x x.z with
  | (ich, idis, vf, re) =>
    let ich := if x.conflict then F32.min ich (sopAt c m r x (F32.max x.z x.cc)).1 else ich
    let idis := if x.conflict then F32.min idis (sopAt c m r x lowZ).2.1 else idis
    let zero := !x.valid || decide ((c.estI 32).toNat < x.unmeasFor) || !inTax m x.tv
    { x with
      socRpt := rpt
      rateLimited := (x.conflict || x.rateLimited || was) && rpt != target
      soe := mul x.cap (ocvEnergy m x.tv x.z)
      sopZero := zero
      iCh := if zero then 0 else ich
      iDis := if zero then 0 else idis
      vFree := vf
      rEff := re }

/-! ### Discontinuities and insertion (R172 to R176) -/

/-- The group is measured in the tick: it has a present sample (R22), under INPUT_SUSPECT or not. -/
def measured (t : Tick) (g : Nat) : Bool := (tickV t g).isSome

/-- A discontinuity in the first measured tick (R172). -/
def discontinuous (s : State) (e : TickEnv) (g : Nat) : Bool :=
  let x := s.ectx g
  let m := s.cfgEst.model g
  match tickV e.t g with
  | none => false
  | some y =>
    let v := add (add (add (ocvH m x.tv x.z x.h) (mul (mul x.sSer (impAt m x.tv x.z 0)) (ownCurrent e g))) x.vf) x.vs
    x.valid && x.first && !x.mustInsert && measured e.t g && F32.lt (s.cfgEst.estF 26) (F32.abs (sub y v))

/-- The port of a mapped group. -/
def portOf (c : Cfg) (g : Nat) : Option Nat := ((c.group g).slot).map (· / 3)

/-- The mapped groups of a port. -/
def portGroups (c : Cfg) (p : Nat) : List Nat := c.mapped.filter fun g => portOf c g == some p

/-- Groups with a discontinuity, and ports on which half or more of the mapped groups show one. -/
def discGroups (s : State) (e : TickEnv) : List Nat := s.cfgEst.mapped.filter (discontinuous s e)
def swapPorts (s : State) (disc : List Nat) : List Nat :=
  (List.range (nPorts s)).filter fun p =>
    let gs := portGroups s.cfgEst p
    !gs.isEmpty && decide (gs.length ≤ 2 * (gs.filter disc.contains).length)

/-- What the first measured tick does on each port (R172 to R175), before the groups run. -/
def arrivals (e : TickEnv) (s : State) : State :=
  let disc := discGroups s e
  let swaps := swapPorts s disc
  let s := forAll disc (fun g s => modCtx g (fun x => { x with hard := x.hard.map fun a => { a with disc := true } }) s) s
  forAll (List.range (nPorts s)) (fun p s =>
    let gs := portGroups s.cfgEst p
    let here := gs.filter (measured e.t)
    if s.est.retain.getLsbD p then
      if here.any fun g => (s.ectx g).outage then
        -- an outage of a RETAIN port is over (R175)
        let s := forAll gs (fun g s => modCtx g (fun x => { x with retained := true, outage := false, mustInsert := false }) s) s
        let s := forAll (gs.filter disc.contains) (fun g s =>
          match tickV e.t g with
          | some y => modCtx g (fun x => { reinit s.cfgEst (s.cfgEst.model g) y (ownCurrent e g) x with first := false }) s
          | none => s) s
        raise 0x08 10 (modEst (fun q => { q with retain := q.retain &&& ~~~(1#48 <<< p) }) s)
      else s
    else
      let out := gs.filter disc.contains
      if out.isEmpty then s
      else if swaps.contains p then
        raise 0x08 4 (dropWires p (forAll gs (fun g s => modCtx g (fun x => { x with mustInsert := true, valid := false }) s) s))
      else
        forAll out (fun g s => raise 0x08 5 (modCtx g (fun x => { x with mustInsert := true, valid := false }) s)) s) s

/-! ### One group (R155) -/

/-- The time without a measurement goes on (R172, R182), or ends with a measured tick (R22). -/
def spanUnmeasured (e : TickEnv) (g : Nat) (x : Ctx) : Ctx :=
  { x with unmeasFor := if measured e.t g then 0 else x.unmeasFor + e.t.span }

/-- The group did not run or is not valid: its outputs are 0 (R182). -/
def invalidCtx (e : TickEnv) (x : Ctx) : Ctx :=
  { x with valid := false, unmeas := true, unmeasFor := x.unmeasFor + e.t.span, sopZero := true, iCh := 0, iDis := 0, vFree := 0, rEff := 0, soe := 0 }

/-- CONFLICT_CAUSE (R165). -/
def causeOf (s : State) (e : TickEnv) (x : Ctx) : Nat :=
  match x.hard with
  | none => 0
  | some a =>
    if !e.hallEn || a.chGap then 0
    else
      let qs := pcAh (s.est.qShunt - a.qShunt)
      let qh := pcAh (s.est.qHall - a.qHall)
      if F32.lt (add (mul (s.cfgEst.estF 24) (F32.abs qs)) fHalf) (F32.abs (sub qs qh)) then 1 else 2

/-- The hold timers of FULL, EMPTY, REST and the re-anchor (R161, R166). -/
def holdTimers (c : Cfg) (e : TickEnv) (m : Model) (i : F32) (y : Option F32) (x : Ctx) : Ctx :=
  let ia := mul (c.estF 18) (qNomAh m)
  let ir := mul (c.estF 15) (qNomAh m)
  let full := (match y with | some v => F32.le (volt m.vFull) v | none => false) && F32.lt 0 i && F32.le i ia
  let empty := (match y with | some v => F32.le v (volt m.vEmpty) | none => false) && F32.lt i 0 && F32.le (neg ia) i
  let put (b : Bool) (n : Nat) : Nat := if b then n + e.t.span else 0
  { x with tFull := put full x.tFull, tEmpty := put empty x.tEmpty, tRest := put (F32.le (F32.abs i) ir) x.tRest
           tRe := put (F32.le (F32.abs i) ia) x.tRe }

/-- Step 7: the first anchor that takes effect: type, z, σ (R161). -/
def pickHard (c : Cfg) (m : Model) (y : Option F32) (x : Ctx) : Option (Nat × F32 × F32) :=
  let settle := (c.estI 19).toNat
  if settle ≤ x.tFull then some (2, F32.one, c.estF 12)
  else if settle ≤ x.tEmpty then some (3, 0, c.estF 13)
  else if (c.estI 16).toNat ≤ x.tRest && F32.le (F32.abs (add x.vf x.vs)) (c.estF 17) then
    match y with
    | none => none
    | some v =>
      match invert m x.tv x.h v with
      | (z, n) =>
        let sg := div (c.estF 11) (slopeSeg m x.tv x.h n)
        if F32.lt sg (sigmaOf x) then some (1, z, sg) else none
  else none

/-- Steps 4 to 11 of a context that holds an estimate; `fresh` marks its first tick after insertion. σ_SOC is capped after the measurement update,
which runs on the uncapped P[0,0] (DESIGN CHOICE, log entry 65: R158 does not say when). -/
def runCtx (g : Nat) (e : TickEnv) (comp fresh : Bool) (s : State) : State :=
  let c := s.cfgEst
  let m := c.model g
  let x := s.ectx g
  let r := paramsOf m x
  let dq := ownCharge e g
  let i := meanI e.t dq
  let x := predict c e m r dq x
  let y := if inputSuspect s g then none else tickV e.t g
  let n := segOf m x.z
  let flat := flatSeg m x.tv n
  let x := spanUnmeasured e g <| match y with
    | some v => if fresh then { x with unmeas := true } else { measureCtx c m r i v comp x with unmeas := false }
    | none => { x with unmeas := true }
  let x := holdTimers c e m i y (capSigma { x with flat := flat, suspect := inputSuspect s g })
  let updated := y.isSome && !fresh
  let was := x.conflict
  let old := x.hard
  let age0 := x.age
  let hit := pickHard c m y x
  let res : Ctx × Bool := match hit with
    | some (typ, z, sg) =>
      let x := { hardAnchor typ z sg x with hard := some { z := z, sigma := sg, qShunt := s.est.qShunt, qHall := s.est.qHall } }
      (x, true)
    | none =>
      if updated && !flat && F32.le (sigmaOf x) (c.estF 20) then (anchored 4 x, true) else (x, false)
  let x := res.1
  let sg := sigmaOf x
  let diff := F32.abs (sub x.z x.cc)
  let bound := c.estF 23
  let sets := !x.conflict && F32.lt (F32.max bound (mul (F32.ofNat 3) sg)) diff
  let clears := x.conflict && F32.le diff (div bound 0x40000000)
  let x := if sets then { x with conflict := true, relearnReq := true } else if clears then { x with conflict := false } else x
  let cause := if x.conflict then causeOf s e x else 0
  let x := { x with cause := cause, hard := x.hard.map fun a => { a with disagree := a.disagree || cause == 1 } }
  let last := segOf m x.z
  let steep := !flatSeg m x.tv last && F32.le (c.estF 14) (slopeSeg m x.tv x.h last)
  let re := x.conflict && steep && decide ((c.estI 19).toNat ≤ x.tRe) && F32.le sg (c.estF 20)
  let x := if re then anchored 4 { x with cc := x.z } else x
  let x := if res.2 || re then x else { x with age := age0 + e.t.span }
  let x := { x with anchorStale := decide ((c.estI 21).toNat < x.age) }
  let lr : Ctx × Bool := match hit, old with
    | some (_, z, sg), some a => relearn c m s.est.freeze a z sg x
    | _, _ => (x, false)
  let x := outputs c e m r was lr.1
  let s := modCtx g (fun _ => x) s
  let s := raiseIf lr.2 0x08 3 s
  let s := raiseIf sets 0x08 0 s
  raiseIf ((was && hit.isSome) || clears) 0x08 1 s

/-- Whether the next measured tick is the first one after module start or after 1 s unmeasured (R172). -/
def firstNext (got : Bool) (x : Ctx) : Ctx := { x with first := !got && (x.first || decide (1000000000 ≤ x.unmeasFor)) }

/-- One group of the tick (R155). -/
def groupTick (e : TickEnv) (g : Nat) (s : State) : State :=
  let c := s.cfgEst
  let k := c.group g
  let m := c.model g
  let comp := e.t.comp.getD g false
  let x := s.ectx g
  let need := !x.valid || x.mustInsert
  let y := tickV e.t g
  let i := ownCurrent e g
  -- step 1
  let x := match need, y with
    | true, some v => insertCtx c k m v i x
    | _, _ => x
  -- step 2
  let x := virtualTemp e k m i x
  if need && y.isNone then modCtx g (fun _ => firstNext false { invalidCtx e x with suspect := inputSuspect s g }) s
  else
    -- step 3
    let imp := x.imp.isSome && !s.est.freeze
    let x := if imp then applyImp c m x else x
    let s := raiseIf imp 0x08 8 (modCtx g (fun _ => x) s)
    let s := runCtx g e comp need s
    modCtx g (fun x => firstNext y.isSome { x with outage := x.outage && y.isNone }) s

/-! ### String figures and limits (R183, R184) -/

/-- z_dis and z_ch of a group. -/
def zDis (x : Ctx) : F32 := if x.conflict then fclamp 0 F32.one (F32.min x.z x.cc) else fclamp 0 F32.one x.z
def zCh (x : Ctx) : F32 := if x.conflict then fclamp 0 F32.one (F32.max x.z x.cc) else fclamp 0 F32.one x.z

/-- The least of a list. -/
def fLeast (l : List F32) : F32 := match l with | [] => 0 | x :: r => r.foldl F32.min x
def fMost (l : List F32) : F32 := match l with | [] => 0 | x :: r => r.foldl F32.max x

/-- A word of an unsigned quantity. -/
def pubW (x : F32) (k : Rat) : Word := BitVec.ofInt 32 (F32.publish x k 0 4294967295)
def pubH (x : F32) (k : Rat) : Half := BitVec.ofInt 16 (F32.publish x k 0 65535)
def pubS (x : F32) (k : Rat) : Half := BitVec.ofInt 16 (F32.publish x k (-32768) 32767)

/-- Two halves in a word, the low one first. -/
def halves (lo hi : Half) : Word := hi ++ lo

/-- SOC, SOE, capacity and SOH of the string. -/
def stringFigures (s : State) : State :=
  let c := s.cfgEst
  let gs := c.mapped
  let xs := gs.map fun g => (g, s.ectx g)
  if gs.isEmpty || xs.any fun e => !e.2.valid then
    modEst (fun q => { q with soc := 0, soe := 0, cap := 0, soh := 0 }) s
  else
    let aDis := fLeast (xs.map fun e => mul (zDis e.2) e.2.cap)
    let aCh := fLeast (xs.map fun e => mul (sub F32.one (zCh e.2)) e.2.cap)
    let cap := add aDis aCh
    let soc := if F32.toRat cap = 0 then 0 else div aDis cap
    let soe := xs.foldl (fun a e =>
      let m := c.model e.1
      let en (z : F32) : F32 := mul e.2.cap (ocvEnergy m e.2.tv z)
      add a (sub (en (zDis e.2)) (en (sub (zDis e.2) (div aDis e.2.cap))))) 0
    let sohC := fLeast (xs.map fun e => div e.2.cap (qNomAh (c.model e.1)))
    let sohR := fMost (xs.map fun e => e.2.sSer)
    modEst (fun q => { q with
      soc := (pubH soc 10000).zeroExtend 32, soe := pubW soe 1, cap := pubW cap 1000, soh := halves (pubH sohC 10000) (pubH sohR 10000) }) s

/-- A string limit: the lowest group current with its group, against PRO's limit in mA and 0 without current. -/
def stringLimit (xs : List (Nat × F32)) (pro : Nat) (noCur : Bool) : F32 × Nat × Word :=
  let own := match xs with
    | [] => none
    | x :: r => some (r.foldl (fun a b => if F32.lt b.2 a.2 then b else a) x)
  let other := if noCur then 0 else pro
  let o := F32.ofRat ((other : Nat) / 1000)
  match own with
  | some (g, i) => if F32.lt o i then (o, 0x3FF, u32 other) else (i, g, pubW i 1000)
  | none => (o, 0x3FF, u32 other)

/-- Current and power limits (R184), and their one transfer (R26). -/
def stringLimits (e : TickEnv) (der : Nat × Nat) (s : State) : State :=
  let xs := s.cfgEst.mapped.map fun g => (g, s.ectx g)
  let a := stringLimit (xs.map fun x => (x.1, x.2.iCh)) der.1 e.noCur
  let b := stringLimit (xs.map fun x => (x.1, x.2.iDis)) der.2 e.noCur
  let volts (i : F32) (plus : Bool) : F32 := xs.foldl (fun v x =>
    add v (if plus then add x.2.vFree (mul i x.2.rEff) else sub x.2.vFree (mul i x.2.rEff))) 0
  let s := modEst (fun q => { q with
    iCh := a.2.2, iDis := b.2.2, pCh := pubW (mul a.1 (volts a.1 true)) 1, pDis := pubW (mul b.1 (volts b.1 false)) 1
    limGroup := fldAt b.2.1 10 16 ||| fldAt a.2.1 10 0, limitsZero := a.2.2 == 0 && b.2.2 == 0 }) s
  let v : XVal := .sop e.t.num a.2.2.toNat b.2.2.toNat
  if hasCtl s then offer 0x10 v s else offer 0x11 v s

/-- GSTAT (Table 5.12). -/
def gstat (x : Ctx) : Word :=
  bitAt x.capped 15 ||| bitAt x.sopZero 14 ||| bitAt x.suspect 13 ||| bitAt x.tempHeld 12 ||| bitAt x.paramTable 11 |||
  bitAt x.rateLimited 10 ||| bitAt x.flat 9 ||| bitAt x.inserted 8 ||| bitAt x.retained 7 ||| bitAt x.relearnReq 6 |||
  bitAt x.anchorStale 5 ||| fldAt x.cause 2 3 ||| bitAt x.conflict 2 ||| bitAt x.unmeas 1 ||| bitAt x.valid 0

/-- The group record (Table 5.11). -/
def groupWords (c : Cfg) (tick : Nat) (g : Nat) (x : Ctx) : List Word :=
  let m := c.model g
  let ref (sc : F32) (j : Nat) : Word := pubW (mul sc (impAt m (c.estF 33) fHalf j)) 100000000
  [halves (pubH x.socRpt 10000) (pubH (sigmaOf x) 10000), halves (pubH x.z 10000) (pubS x.cc 10000), halves (pubS x.vf 10000) (pubS x.vs 10000),
   halves (BitVec.ofInt 16 (F32.publish x.h 32767 (-32767) 32767)) (pubS (sub x.tv 0x43889333) 100),
   pubW x.cap 1000, pubW x.soe 10, ref x.sSer 0, ref x.sFast 1, ref x.sSlow 2,
   halves (pubH (impAt m x.tv x.z 3) 1000) (pubH (impAt m x.tv x.z 4) 10),
   halves (pubH x.iCh 10) (pubH x.iDis 10), halves (pubH (div x.cap (qNomAh m)) 10000) (pubH x.sSer 10000),
   u32 ((x.age + 500000000) / 1000000000), gstat x, fldAt x.relearnCnt 8 8 ||| fldAt x.lastAnchor 4 0, BitVec.ofNat 32 tick]

/-- The record of a group as it reads: 0 throughout while the map in force leaves the group unmapped (R142). -/
def groupRecord (s : State) (g : Nat) : List Word :=
  if (s.cfgEst.group g).slot.isSome then (s.ectx g).words else List.replicate 16 0

/-- The EST registers 0x001C to 0x0054 (Table 5.10). -/
def estValue (s : State) (off : Nat) : Word :=
  let e := s.est
  match off with
  | 0x1C => e.tick
  | 0x20 => e.soc
  | 0x24 => e.soe
  | 0x28 => e.cap
  | 0x2C => e.iCh
  | 0x30 => e.iDis
  | 0x34 => e.pCh
  | 0x38 => e.pDis
  | 0x3C => e.limGroup
  | 0x40 => e.soh
  | 0x44 => e.counts
  | 0x48 => e.retain.truncate 32
  | 0x4C => (e.retain >>> 32).truncate 32
  | 0x50 => e.skipCnt
  | 0x54 => e.gapCnt
  | _ => 0

/-- EST_STATUS, then the registers 0x001C to 0x0054. -/
def estWords (s : State) : List Word := estStatus s :: (List.range 15).map fun i => estValue s (0x1C + 4 * i)

/-- Words packed two by two. -/
def packW (l : List Word) : List Quad := quads (l.flatMap leW)

/-- What a tick publishes (Table 5.4, step 5): registers, flags, stream items. -/
def publishTick (e : TickEnv) (s : State) : State :=
  let c := s.cfgEst
  let gs := c.mapped
  let n := e.t.num
  let s := { s with est := { s.est with
    ctx := s.est.ctx.mapIdx fun g x => { x with words := if (c.group g).slot.isSome then groupWords c n g x else List.replicate 16 0 }
    tick := BitVec.ofNat 32 n
    noCurrent := e.noCur
    gap := e.gap
    gapCnt := if e.gap then satAdd s.est.gapCnt 1 else s.est.gapCnt } }
  let xs := gs.map s.ectx
  let req := xs.any Ctx.anchorStale
  let was := s.est.anchorReq
  let conf := xs.any Ctx.conflict
  let wasConf := s.est.anyConflict
  let s := modEst (fun q => { q with
    ccSuspect := xs.any fun x => x.cause == 1
    anyRetained := xs.any Ctx.retained
    anchorReq := req
    anyConflict := conf
    counts := fldAt (xs.countP Ctx.anchorStale) 10 16 ||| fldAt (xs.countP Ctx.conflict) 10 0 }) s
  let s := raiseIf (req && !was) 0x08 2 s
  let note (b : Bool) : Byte := if b then 1 else 0
  let s := onlyIf (req != was) (notice 3 0x30 ([note req, 0] ++ le 2 (xs.countP Ctx.anchorStale))) s
  let s := onlyIf (conf != wasConf) (notice 3 0x31 ([note conf, note s.est.ccSuspect] ++ le 2 (xs.countP Ctx.conflict))) s
  let s := raiseIf e.gap 0x08 7 s
  let num : Quad := BitVec.ofNat 64 n
  let s := produce 0x04 n (fun _ => num :: packW (estWords s)) s
  let s := produce 0x05 n (fun q => num :: (List.range q.count).flatMap fun k => packW (groupRecord s (q.first + k))) s
  produce 0x0A n (fun _ => num :: packW [s.est.iCh, s.est.iDis, s.est.pCh, s.est.pDis, s.est.limGroup, estStatus s]) s

/-- Groups whose model, slot or input differs from the last image that ran are inserted anew (R176, R384). -/
def mapChanges (s : State) : State :=
  if onDefaults s then s
  else
    let new := s.cfg.map
    let old := s.nv.lastMap
    let s := modEst (fun e => { e with ctx := e.ctx.mapIdx fun g x =>
      if new[g]? == old[g]? then x else { x with mustInsert := true, valid := false } }) s
    { s with nv := { s.nv with lastMap := new } }

/-- The tick over the whole array (Table 5.4, steps 2 to 5), once its frame is the one to run. -/
def arrayTick (t : Tick) (s : State) : State :=
  -- a committed configuration is taken; changed groups are inserted anew (R176)
  let s := if s.cfg == s.cfgEst then s else mapChanges { s with cfgEst := s.cfg }
  let der := derateAt s 0x13
  let e := tickEnv s.cfgSmp t
  let s := modEst (fun q => { q with qShunt := q.qShunt + t.qShunt, qHall := q.qHall + t.qHall }) s
  let s := arrivals e s
  let s := forAll s.cfgEst.mapped (groupTick e) s
  publishTick e (stringLimits e der (stringFigures s))

/-! ### Skipped ticks (R24, R185, R465) -/

/-- A tick frame over the interval of two (R24): a unit missing in the later one keeps its latest temperatures (R22). -/
def mergeTick (a b : Tick) : Tick :=
  { b with
    span := a.span + b.span, n := a.n + b.n, short := a.short || b.short
    v := b.v.mapIdx fun g x => let y := a.v.getD g (0, 0); (x.1 + y.1, x.2 + y.2)
    gf := b.gf.mapIdx fun g x => x ||| a.gf.getD g 0
    iShunt := a.iShunt + b.iShunt, iHall := a.iHall + b.iHall, qShunt := a.qShunt + b.qShunt, nShunt := a.nShunt + b.nShunt
    qHall := a.qHall + b.qHall, nHall := a.nHall + b.nHall, vStr := a.vStr + b.vStr, bleed := b.bleed.mapIdx fun g x => x + a.bleed.getD g 0
    vLnk := a.vLnk + b.vLnk, vStrOk := a.vStrOk + b.vStrOk
    comp := b.comp.mapIdx fun g x => x || a.comp.getD g false
    t := b.t.mapIdx fun u x => if (b.uf.getD u 2).getLsbD 1 then a.t.getD u x else x
    uf := b.uf.mapIdx fun u x => if x.getLsbD 1 then a.uf.getD u x else x }

/-- The estimator's time for a tick in ns (check 0x0303 of R378). -/
def estBound (c : Cfg) : Nat :=
  let n := c.mapped.length
  let m := ((c.mapped.map fun g => (c.group g).model).eraseDups).length
  10000 + (n + 7) / 8 * (6800 + 50 * (m - 1))

/-- Ticks to skip after one that ran: s in SKIP mode; in DIVIDE mode the tick frames that arrive while the slower clock works
(DESIGN CHOICE, log entry 16). -/
def skipsOf (s : State) : Nat :=
  match s.est.throttle with
  | (lvl, k, divide) =>
    if lvl < 2 then 0 else if divide then estBound s.cfgEst * (k + 1) / max (perTick s * tCad s.smp.cad) 1 else k

/-! ### Saves and mailbox -/

/-- LEARNED_DATA_SAVE: every 10 s the dynamic part, every 600 s and on request the whole set (R169). -/
def learnedSaveFx (whole ok : Bool) (s : State) : State :=
  saveLearned (whole || s.est.saveWhole) false ok s

def execLearnedDataSave (whole nvOk : Bool) (s : State) : Host.Outcome State Fault Refusal :=
  act (fun s => if alive s && (sampling s || s.est.saveBusy) then learnedSaveFx whole nvOk s else s) s

/-- EST_SAVE runs its save at once (R169); a save that fails has no stated status: its completion's is free (DESIGN CHOICE, log entry 17). -/
def execEstSave (r : Req) (nvOk : Bool) (s : State) : Host.Outcome State Fault Refusal :=
  act (request r 0x0505 engineer (fun s => { forbidden := !stateOk measuring s, busy := deferredBusy 0x0505 s })
    (fun s =>
      let s := saveLearned true false nvOk (defer r 0x0505 s)
      if nvOk then completeOp 0x0505 stOk [] s else let x := takeWord s; completeOp 0x0505 (x.1.toNat % 256) [] x.2)) s

def execEstGroups (r : Req) (first count : Half) (s : State) : Host.Outcome State Fault Refusal :=
  act (request r 0x0501 observer
    (fun s => { forbidden := !stateOk measuring s, range := groupsOut s first.toNat count.toNat 21 })
    (fun s => respond r 0x0501 stOk
      (le 2 first.toNat ++ le 2 count.toNat ++ leW s.est.tick ++
        (List.range count.toNat).flatMap fun i => (groupRecord s (first.toNat + i)).flatMap leW) s)) s

def execEstString (r : Req) (s : State) : Host.Outcome State Fault Refusal :=
  act (request r 0x0502 observer (fun s => { forbidden := !stateOk measuring s })
    (fun s => respond r 0x0502 stOk ((estWords s).flatMap leW) s)) s

end Sys2Proof.Machine
end

