-- ==== Sys2Proof/Machine/Tick.lean ====
section
/-! DEFINITION. ESTIMATOR_TICK: the tick frame taken or skipped, the array, and what follows a completed tick: the stops of the planner, the
values passed to the impedance engine, the epoch of the pair. -/

namespace Sys2Proof.Machine

open Sys2Proof

/-- The mean voltage of a group in the last completed tick in V; none: unmeasured. -/
def lastV (s : State) (g : Nat) : Option Rat :=
  match s.est.lastTick.v.getD g (0, 0) with
  | (_, 0) => none
  | (v, n) => some (((v : Nat) : Rat) / ((n * 10000 : Nat) : Rat))

/-- The valid temperature inputs of a slot in a tick, in 0.01 K relative to 273.15 K (R148). -/
def tickTemps (t : Tick) (u : Nat) : List Int :=
  if (t.uf.getD u 2).getLsbD 1 then []
  else ((t.t.getD u []).filter fun v => v != 0x8000 && v != 0x7FFF).map BitVec.toInt

/-- Thermal stop of a unit on a tick (R220): entered above BAL_T_STOP or with UNIT_HOT, left below BAL_T_STOP − BAL_T_HYST without it; without a
valid input it stays as it is. A standby sends no stop (R231), nor does the planner while wires are learned (R211). -/
def thermalStep (u : Nat) (s : State) : State :=
  let c := s.cfgEst
  let t := s.est.lastTick
  let hotNow := (t.uf.getD u 0).getLsbD 4
  let was := (s.bal.slots.getD u {}).hot
  let is_ := hotNow || (match tickTemps t u with
    | [] => was
    | x :: r =>
      let n := (27315 + r.foldl max x) * 10000000
      if was then !decide (n < c.balTStop - c.balTHyst) else decide (c.balTStop < n))
  if !(s.posU u).present then modSlot u (fun b => { b with hot := false }) s
  else
    let s := modSlot u (fun b => { b with hot := is_ }) s
    if is_ && !was then onlyIf (commands s && s.bal.learn.isNone) (stopGroups u 0xFFFF) (raise 0x0A 2 s) else s

/-- Stops outside the round on a tick: a group below BAL_V_MIN (R219), but not while wires are learned. -/
def lowStops (s : State) : State :=
  if !commands s || s.bal.learn.isSome then s
  else forAll (s.cfgEst.usedSlots) (fun u s =>
    let low := (s.cfgEst.slotGroups u).filter fun e =>
      match lastV s e.1 with
      | some v => decide (v * 1000000000 < s.cfgEst.balVMin)
      | none => false
    let m := low.foldl (fun m e => m ||| (1#16 <<< e.2)) (0 : Half)
    stopGroups u m s) s

/-- What the array passes to the impedance engine over crossing 0x16 (R200). -/
def passTick (t : Tick) (s : State) : State :=
  if hasImp s then offer 0x16 (.tickState { time := t.last, groups := s.est.ctx.map fun c => (c.z, c.tv, c.sSer, c.sFast, c.sSlow) }) s
  else s

/-- The planner's rounds (R213): a round is due when a multiple of BAL_ROUND lies after the last completed tick and not after this tick's last
instant; a new holder plans at once (R231). What bled in the round that closes is the history of R215. -/
def roundStep (t : Tick) (s : State) : State :=
  let r := max s.cfgEst.balRound 1
  let due := decide (s.bal.roundAt / r < t.last / r)
  modBal (fun b => { b with
    recs := if due then b.recs.map fun r => { r with bled := r.ran, ran := false } else b.recs
    roundDue := b.roundDue || b.planNow || due, roundAt := t.last, planNow := false }) s

/-- A tick that runs (Table 5.4). -/
def runTick (t : Tick) (s : State) : State :=
  let s := arrayTick t (takeEpochFx s)
  let s := modEst (fun e => { e with lastTick := t, held := none, skipLeft := skipsOf s }) s
  let s := roundStep t (passTick t s)
  snapshotEpoch t.last t.span (lowStops (forAll (List.range 144) thermalStep s))

/-- ESTIMATOR_TICK: the oldest tick frame is run, or skipped and added to the next one (R24, R185). The throttle request in force at this tick
says how many are skipped (R25); those missed while microcode is reloaded count apart. -/
def estimatorTickFx (s : State) : State :=
  match s.smp.ticks with
  | [] => s
  | t :: rest =>
    let s := modSmp (fun m => { m with ticks := rest }) s
    let t := match s.est.held with | some h => mergeTick h t | none => t
    let left := min s.est.skipLeft (skipsOf s)
    if 0 < s.est.missLeft || 0 < left then
      raise 0x08 6 (modEst (fun e => { e with
        held := some t, missLeft := e.missLeft - 1, skipLeft := left - 1, skipCnt := satAdd e.skipCnt 1 }) s)
    else runTick t s

def execEstimatorTick (s : State) : Host.Outcome State Fault Refusal :=
  act (fun s => if alive s && sampling s then estimatorTickFx s else s) s

end Sys2Proof.Machine
end

