-- ==== Sys2Proof/Machine/Balancing.lean ====
section
/-! DEFINITION. The balance planner's rounds, records, wire learning and registers (07), and the commands PLANNING_ROUND,
BLEED_DURATION_EXPIRY, BAL_LEARN, BAL_LEARN_ABORT, BAL_GROUPS. The planner's arithmetic is exact (DESIGN CHOICE, log entry 18). -/

namespace Sys2Proof.Machine

open Sys2Proof

/-! ### A round (R213 to R218) -/

/-- R_BLEED of a group's port in ohm. -/
def rBleed (c : Cfg) (g : Nat) : Rat :=
  match portOf c g with
  | some p => ((c.port p).rBleed : Nat) / 10
  | none => 33

/-- The on-fraction of the cadence and mode (R216). -/
def duty (s : State) (u : Nat) : Rat :=
  if (s.bal.slots.getD u {}).comp then 1
  else if s.smp.cad = 1 then 944 / 1000 else if s.smp.cad = 2 then 986 / 1000 else 776 / 1000

/-- Eligible in the planning tick (R214). -/
def eligible (s : State) (g : Nat) : Bool :=
  let c := s.cfgEst
  let x := s.ectx g
  match c.place g, lastV s g with
  | some (u, _), some v =>
    x.valid && !x.conflict && !x.suspect && !x.unmeas && F32.le (sigmaOf x) (f9 c.balSigmaMax) &&
      decide ((c.balVMin : Rat) ≤ v * 1000000000) && !bleedInhibit s g && !planInhibit s && !(s.bal.slots.getD u {}).hot &&
      !(s.posU u).stale && ownReach s u
  | _, _ => false

/-- The excess charges of the eligible groups in Ah (R215). -/
def excesses (s : State) (gs : List Nat) : List (Nat × Rat) :=
  let c := s.cfgEst
  let z (g : Nat) : Rat := F32.toRat (s.ectx g).z
  let cap (g : Nat) : Rat := F32.toRat (s.ectx g).cap
  if c.balBottom then
    let have_ := gs.map fun g => (g, z g * cap g)
    let low := match have_ with | [] => 0 | e :: r => r.foldl (fun a x => min a x.2) e.2
    have_.map fun e => (e.1, e.2 - low)
  else
    let room := gs.map fun g => (g, (1 - z g) * cap g)
    let top := match room with | [] => 0 | e :: r => r.foldl (fun a x => max a x.2) e.2
    room.map fun e => (e.1, top - e.2)

/-- A candidate (R215): at the deadband, at half of it after bleeding in the round before. -/
def candidate (s : State) (e : Nat × Rat) : Bool :=
  let d : Rat := (s.cfgEst.balDeadband : Rat) / 1000000000 * ((s.cfgEst.model e.1).qNom : Nat) / 1000
  let d := if (s.bal.recs.getD e.1 {}).bled then d / 2 else d
  decide (d ≤ e.2)

/-- Inserts by falling excess, ties by lower group (R216). -/
def insertDesc (e : Nat × Rat) : List (Nat × Rat) → List (Nat × Rat)
  | [] => [e]
  | x :: r => if x.2 < e.2 || (x.2 = e.2 && decide (e.1 < x.1)) then e :: x :: r else x :: insertDesc e r

/-- Two groups share a sense wire (R217). -/
def neighbours (c : Cfg) (a b : Nat) : Bool :=
  match c.place a, c.place b with
  | some (u, n), some (w, m) =>
    (u == w && (n + 1 == m || m + 1 == n)) ||
      ((c.port (u / 3)).shared && u / 3 == w / 3 && ((u + 1 == w && n == 15 && m == 0) || (w + 1 == u && m == 15 && n == 0)))
  | _, _ => false

/-- Power of a group while it bleeds in W (R216). -/
def bleedPower (s : State) (g : Nat) : Rat :=
  let v := (lastV s g).getD 0
  v * v / rBleed s.cfgEst g * duty s (((s.cfgEst.place g).map Prod.fst).getD 0)

/-- The selection (R216), in the order of the candidates. -/
def select (s : State) (cands : List (Nat × Rat)) : List (Nat × Rat) :=
  cands.foldl (fun sel e =>
    let c := s.cfgEst
    let unit (g : Nat) : Option Nat := (c.place g).map Prod.fst
    let clash := !c.allowAdj && sel.any fun x => neighbours c x.1 e.1
    let p := (sel.filter fun x => unit x.1 == unit e.1).foldl (fun a x => a + bleedPower s x.1) (bleedPower s e.1)
    if clash || decide ((c.balPUnit : Rat) / 1000000000 < p) then sel else sel ++ [e]) []

/-- The duration of a selected group in whole seconds (R218). -/
def bleedSecs (s : State) (e : Nat × Rat) : Nat :=
  let i := (lastV s e.1).getD 0 / rBleed s.cfgEst e.1 * duty s (((s.cfgEst.place e.1).map Prod.fst).getD 0)
  let lim : Rat := (s.cfgEst.balRound : Nat) / 1000000000
  let d := if i ≤ 0 then lim else min (e.2 * 3600 / i) lim
  d.ceil.toNat

/-- The command of the round for one slot (R218): BLEED_SET for its selected groups, else BLEED_STOP for those that run. One of the round before
that still waits goes. -/
def slotPlan (u : Nat) (sel : List (Nat × Rat)) (modeFrame : Bool) (s : State) : State :=
  let c := s.cfgEst
  let b := s.bal.slots.getD u {}
  let s := onlyIf (b.probe == 0) (withdraw u 0xFFFF) s
  let mine := (c.slotGroups u).filterMap fun e => (sel.find? fun x => x.1 == e.1).map fun x => (e.1, e.2, bleedSecs s x)
  if !(s.posU u).present || b.probe != 0 || b.stopDue || (s.posU u).stale then s
  else if mine.isEmpty then
    let m := bleedMask s u
    if m = 0 || modeFrame then s else addStop u m s
  else
    let mask := mine.foldl (fun m e => m ||| (1#16 <<< e.2.1)) (0 : Half)
    let longest := mine.foldl (fun a e => max a e.2.2) 0
    let r := reqTo 3 (u / 3) (u % 3) 0x30 (le 2 mask.toNat ++ le 2 (longest * 100) ++ [if c.allowAdj then 1 else 0])
    let s := forAll mine (fun e s => modBleed e.1 (fun x => { x with want := e.2.2 * 1000000000 }) s) s
    if modeFrame then modBal (fun x => { x with later := x.later ++ [(u / 3, r)] }) s else addReq (u / 3) r s

/-- Individual BLEED_MODE where a unit's mode differs from the one it is to have (R225, R227). -/
def slotModes (s : State) : State :=
  forAll (List.range 144) (fun u s =>
    let want := slotMode s u s.bal.modeEff
    if (s.posU u).present && want != (s.bal.slots.getD u {}).comp then
      modSlot u (fun b => { b with comp := want }) (addReq (u / 3) (reqTo 3 (u / 3) (u % 3) 0x22 [if want then 1 else 0]) s)
    else s) s

/-- PLANNING_ROUND: the round that is due is planned from the last completed tick, where the planner plans at all (R211, R213, R228). -/
def planFx (s : State) : State :=
  if !s.bal.roundDue then s
  else
    let s := modBal (fun b => { b with roundDue := false }) s
    if !planning s then s
    else
      let modeFrame := s.bal.mode != s.bal.modeEff
      let s := if modeFrame then
          stopAllPorts (sendModes s.bal.mode s)
        else slotModes s
      let gs := s.cfgEst.mapped.filter (eligible s)
      let ex := excesses s gs
      let planned := gs.filter fun g => match s.cfgEst.place g with
        | some (u, _) => !(s.bal.slots.getD u {}).noPlan && (s.bal.slots.getD u {}).probe == 0
        | none => false
      let cands := ((ex.filter fun e => planned.contains e.1).filter (candidate s)).foldl (fun l e => insertDesc e l) []
      let sel := select s cands
      let s := forAll (List.range 144) (fun u s => slotPlan u sel modeFrame s) s
      let mAh (g : Nat) : Nat := match ex.find? fun e => e.1 == g with
        | some e => min 65535 (roundRat (e.2 * 1000)).toNat
        | none => 0
      let s := modBal (fun b => { b with
        roundCnt := satAdd b.roundCnt 1
        recs := b.recs.mapIdx fun g r => { r with excess := mAh g, excluded := (s.cfgEst.place g).isSome && !gs.contains g }
        slots := b.slots.map fun x => { x with noPlan := false } }) s
      raise 0x0A 0 s

def execPlanningRound (s : State) : Host.Outcome State Fault Refusal :=
  act (fun s => if alive s && sampling s then planFx s else s) s

/-- BLEED_DURATION_EXPIRY: the shorter durations of a unit's groups that end with the next cycle (R218). -/
def durationFx (u : Nat) (s : State) : State :=
  let due := (s.cfgEst.slotGroups u).filter fun e => match (s.bal.recs.getD e.1 {}).stopAt with
    | some t => decide (t ≤ nextAt s)
    | none => false
  if due.isEmpty then s
  else
    let m := due.foldl (fun m e => m ||| (1#16 <<< e.2)) (0 : Half)
    addStop u m s

def execBleedDurationExpiry (p : Fin 48) (c : Fin 3) (s : State) : Host.Outcome State Fault Refusal :=
  act (fun s => if alive s && sampling s && portPresent s p then durationFx (slotOf p c) s else s) s

/-! ### Records (R221, R223, R230) -/

/-- A unit's answer to BLEED_SET (R221, R223): DONE starts the record from the instant of its frame, with the charge of the intervals whose
frames have gone (it counts in the tick in course; DEDUCED, log entry 71); a timer that runs already is restarted. After any other answer no
masked group is recorded as bleeding. A standby records alike, and leaves the stops and the flag to the holder (R231). -/
def bleedAnswer (u : Nat) (done : Bool) (s : State) : State :=
  match s.bal.sent.find? fun x => x.slot == u with
  | none => if done then s else raiseIf (commands s) 0x0A 1 s
  | some x =>
    let s := modBal (fun b => { b with sent := b.sent.filter fun y => y.slot != u }) s
    let on := ((s.cfgEst.slotGroups u).filter fun e => x.mask.getLsbD e.2).map Prod.fst
    if !done then raiseIf (commands s) 0x0A 1 (forAll on (fun g => modBleed g fun r => { r with ends := none, stopAt := none }) s)
    else
      let probing := (s.bal.slots.getD u {}).probe != 0 || s.bal.learn.isSome
      let had := s.bal.recs.any BleedRec.unconf
      let start (g : Nat) (s : State) : State :=
        let r := s.bal.recs.getD g {}
        let runs := r.ends.isSome
        let q : Rat := if runs then 0 else r.pq
        modBal (fun b => { b with qTotal := b.qTotal + q }) (modBleed g (fun r => { r with
          ends := some (x.at_ + x.dur * 10000000), cut := false
          since := if runs then r.since else x.at_
          stopAt := if commands s && !probing && decide (r.want < x.dur * 10000000) then some (x.at_ + r.want) else none
          q := r.q + q, unconf := r.unconf || (!runs && r.pUnconf), compT := r.compT || (!runs && r.pComp)
          ran := r.ran || (!runs && decide (0 < r.pq) && !probing) }) s)
      let s := forAll on start s
      raiseIf (!had && s.bal.recs.any BleedRec.unconf) 0x0A 3 s

/-- The charge of the interval that ends at a frame (R223), for the timers that ran in it, then the records that have ended. A BLEED_SET that is
not answered yet gathers the charge of its groups apart. -/
def creditFrame (f : Frame) (service : Bool) (s : State) : State :=
  let tc := s.smp.ival
  let ended (r : BleedRec) : BleedRec :=
    match r.ends with
    | some t => if t ≤ f.time then { r with ends := none, stopAt := none } else r
    | none => r
  let step (g : Nat) (r : BleedRec) : BleedRec × Rat × Bool :=
    match s.cfgEst.place g with
    | none => (r, 0, false)
    | some (u, _) =>
      let gf := f.gf.getD g 0x80
      let miss := gf.getLsbD 0
      let r := if miss || gf.getLsbD 7 then r else { r with lastV := (f.v.getD g 0).toNat }
      let off := (f.uf.getD u 0).getLsbD 4 || gf.getLsbD 5
      let b := s.bal.slots.getD u {}
      let comp := b.compOn
      let t : Rat := if off then 0 else ((if comp || service then tc else tc - 14000 : Nat) : Rat) / 1000000000
      let q := ((r.lastV : Nat) : Rat) / 10000 / rBleed s.cfgEst g * t
      let awaits := s.bal.sent.any fun x => x.slot == u && decide (x.at_ < f.time) && x.mask.getLsbD (((s.cfgEst.place g).map Prod.snd).getD 16)
      if r.ends.isNone && awaits then
        ({ r with pq := r.pq + q, pUnconf := r.pUnconf || miss, pComp := r.pComp || (comp && !off) }, 0, false)
      else if r.ends.isNone || f.time ≤ r.since then (ended r, 0, false)
      else
        (ended { r with
          q := r.q + q, unconf := r.unconf || miss, compT := r.compT || (comp && !off)
          ran := r.ran || (b.probe = 0 && s.bal.learn.isNone) }, q, miss)
  let all := s.bal.recs.mapIdx step
  let new := all.any fun e => e.2.2
  let had := s.bal.recs.any BleedRec.unconf
  let total := all.foldl (fun a e => a + e.2.1) (0 : Rat)
  raiseIf (new && !had) 0x0A 3 (modBal (fun b => { b with recs := all.map Prod.fst, qTotal := b.qTotal + total }) s)

/-- A unit returned to the boot states, or was enumerated anew: none of its timers runs, its mode is GATED (R223, Table 3.7). Its thermal stop
ends on a tick alone (R220). -/
def unitRestarted (u : Nat) (s : State) : State :=
  modSlot u (fun b => { b with comp := false, compOn := false, compDue := none, stopDue := false, probe := 0 })
    (modBal (fun b => { b with
      sent := b.sent.filter fun x => x.slot != u
      recs := b.recs.mapIdx fun g r =>
        if (s.cfgEst.place g).map Prod.fst == some u then { r with ends := none, stopAt := none } else r }) s)

/-! ### Correction of the drops (R224) -/

/-- R_W of a wire of a slot in ohm at the unit's temperature (R224). -/
def wireOhm (w : WireData) (t : Rat) (n : Nat) : Rat :=
  ((w.rw.getD n 0 : Nat) : Rat) / 1000000 * (1 + 393 / 100000 * (t - (w.tLearn : Rat)) / 100)

/-- The corrected code of the group on input `n` of slot `u`, from the raw codes and the slots' blocks. `on g` tells whether the timer of a
group was running at the sample, and whether its FET was free to be on. -/
def corrected (s : State) (raw : Nat → Half) (temps : Nat → List Int) (on : Nat → Bool × Bool) (u n : Nat) : Half :=
  let c := s.cfgEst
  let b := s.bal.slots.getD u {}
  let g := (c.groupAt u n).getD 0
  match b.wire, s.bal.learn with
  | some w, none =>
    let ts := temps u
    let t : Rat := if ts.isEmpty then w.tLearn else ((ts.foldl (· + ·) 0 : Int) : Rat) / (ts.length : Nat)
    let pl := c.places u
    let drop (k : Nat) : Rat :=
      match pl.getD k none with
      | none => 0
      | some j =>
        let v := (((c.place j).map Prod.fst).getD u)
        let bj := s.bal.slots.getD v {}
        let sj : Rat := if !(on j).1 then 0 else if bj.compOn then (if (on j).2 then 1 else 0) else ((match bj.wire with | some x => x.rho | none => 0 : Nat) : Rat) / 65536
        sj * (((raw j).toNat : Nat) : Rat) / rBleed c j
    let lo := wireOhm w t n
    let hi := wireOhm w t (n + 1)
    let x : Rat := (((raw g).toNat : Nat) : Rat) + drop (n + 1) * (lo + hi) - drop n * lo - drop (n + 2) * hi
    BitVec.ofInt 16 (max 0 (min 65535 (roundRat x)))
  | _, _ => raw g

/-! ### Learning the wires (R226) -/

/-- Inputs that some group is mapped to. -/
def usedInputs (s : State) : List Nat := (List.range 16).filter fun n => s.cfgEst.groups.any fun g => g.slot.isSome && g.input == n

/-- Some bleed inhibit is asserted. -/
def anyInhibit (s : State) : Bool := planInhibit s || !(estView s).inhibit.isEmpty

/-- A planner's BLEED_SET in flight is sent no more when learning starts (R211): the flag of step 1 has stopped what it started. -/
def dropBleed (u : Nat) (s : State) : State :=
  match (s.posU u).cmd with
  | some k =>
    if k.req.opc = 0x30 && (s.bal.slots.getD u {}).probe != 4 then
      modBal (fun b => { b with sent := b.sent.filter fun x => x.slot != u }) (modPos (u / 3) (u % 3) (fun x => { x with cmd := none }) s)
    else s
  | none => s

/-- The command starts learning (R226, step 1). -/
def learnStart (s : State) : State :=
  let s := stopAllPorts (modBal (fun b => { b with
    learn := some { input := (usedInputs s).headD 0, phase := 0, ends := nextAt s + 500000000 } }) s)
  let s := forAll (List.range 144) (fun u s => dropBleed u (withdraw u 0xFFFF s)) s
  forAll (List.range (nPorts s)) (fun p s => addReq p { pri := 3, dst := 0xFF, opc := 0x22, data := [1] } s)
    (modBal (fun b => { b with modeEff := true, slots := b.slots.map fun x => { x with comp := true } }) s)

/-- The means of a phase in V. -/
def phaseMeans (l : LearnRun) : List (Option Rat) :=
  l.sums.map fun e => if e.2 = 0 then none else some (((e.1 : Nat) : Rat) / ((e.2 * 10000 : Nat) : Rat))

/-- ΔV of each group: the bleed mean less the mean of the two rest means. -/
def learnDv (l : LearnRun) (rest2 : List (Option Rat)) : List (Option Rat) :=
  l.bleed.mapIdx fun g x =>
    match x, l.rest.getD g none, rest2.getD g none with
    | some b, some a, some c => some (b - (a + c) / 2)
    | _, _, _ => none

/-- BLEED_SET or BLEED_STOP of input `n` on every present unit that has it mapped. -/
def learnBleed (n : Nat) (on : Bool) (s : State) : State :=
  forAll (List.range 144) (fun u s =>
    if (s.posU u).present && (s.cfgEst.groupAt u n).isSome then
      let m : Half := 1#16 <<< n
      if on then addReq (u / 3) (reqTo 3 (u / 3) (u % 3) 0x30 (le 2 m.toNat ++ le 2 100 ++ [0])) s
      else addStop u m s
    else s) s

/-- The ΔV that the bleeding of input `n` gave at a place; 0 where no group is mapped there, none where a mapped one had no sample. -/
def dvAt (c : Cfg) (tab : List (Nat × List (Option Rat))) (u n k : Nat) : Option Rat :=
  match (c.places u).getD k none with
  | none => some 0
  | some g => match tab.find? fun e => e.1 == n with
    | some e => e.2.getD g none
    | none => none

/-- Estimates of wire `w` of a unit (R226, step 3): from the group above it, from the group below it; a wire with one mapped neighbour
from that group and its other neighbour. Groups beyond the unit's own boundary are judged with their own unit's inputs. -/
def wireAt (s : State) (l : LearnRun) (u w : Nat) : Option Rat :=
  let c := s.cfgEst
  let pl := c.places u
  let above := pl.getD (w + 1) none
  let below := pl.getD w none
  let inOf (g : Nat) : Nat := ((c.place g).map Prod.snd).getD 0
  let amp (g : Nat) : Option Rat := match l.iComp.find? fun e => e.1 == inOf g with
    | some e => (e.2.getD g none).map fun v => v / rBleed c g
    | none => none
  let one (src : Nat) (k : Nat) : Option Rat := match dvAt c l.dvComp u (inOf src) k, amp src with
    | some d, some i => if i = 0 then none else some (d / i)
    | _, _ => none
  match below, above with
  | some b, some a => match one a w, one b (w + 1) with
    | some x, some y => some ((x + y) / 2)
    | _, _ => none
  | none, some a => match one a (w + 1), one a (w + 2) with
    | some x, some y => some (-(x + y))
    | _, _ => none
  | some b, none => match one b w, one b (w - 1) with
    | some x, some y => some (-(x + y))
    | _, _ => none
  | none, none => some 0

/-- The estimate of a wire; one on a shared boundary with no group of the unit beside it is that of the unit beyond, which sees the other
neighbour of its group. -/
def wireEstimate (s : State) (l : LearnRun) (u w : Nat) : Option Rat :=
  let pl := s.cfgEst.places u
  if w = 16 && (pl.getD 16 none).isNone && (pl.getD 17 none).isSome then wireAt s l (u + 1) 0
  else if w = 0 && (pl.getD 1 none).isNone && (pl.getD 0 none).isSome then wireAt s l (u - 1) 16
  else wireAt s l u w

/-- The wire data that learning found for a unit; none: it failed (R226, steps 3 and 4). The sum of step 3 is checked where both neighbours are
mapped: at an end group it is the drop itself, by which the same step learns the wire with one neighbour (DEDUCED, log entry 59). Without a
temperature T_LEARN is free (DESIGN CHOICE, log entry 4). -/
def learnUnit (s : State) (l : LearnRun) (u : Nat) : Option WireData :=
  let c := s.cfgEst
  let ins := (c.slotGroups u).map Prod.snd
  let dv (n k : Nat) : Option Rat := dvAt c l.dvComp u n k
  let pl := c.places u
  let ok := ins.all fun n => match dv n n, dv n (n + 1), dv n (n + 2) with
    | some a, some b, some d =>
      (pl.getD n none).isNone || (pl.getD (n + 2) none).isNone ||
      let sum := a + b + d
      decide ((if sum < 0 then -sum else sum) ≤ 50 / 1000000 + 2 / 100 * (if b < 0 then -b else b))
    | _, _, _ => false
  let ws := (List.range 17).map (wireEstimate s l u)
  let rho := ins.map fun n => match dvAt c l.dvGated u n (n + 1), dv n (n + 1) with
    | some a, some b => if b = 0 then none else some (a / b)
    | _, _ => none
  if !ok || ins.isEmpty || ws.any Option.isNone || rho.any Option.isNone then none
  else
    let r := (rho.filterMap id).foldl (· + ·) (0 : Rat) / (rho.length : Nat)
    let ts := tickTemps s.est.lastTick u
    if 1 < r then none
    else some {
      rw := ws.map fun w => min 0xFFFFFF (roundRat ((w.getD 0) * 1000000)).toNat
      rho := min 65535 (roundRat (r * 65536)).toNat
      tLearn := if ts.isEmpty then Config.freeInt (s.fresh + u) % 65536 - 32768 else roundRat (((ts.foldl (· + ·) 0 : Int) : Rat) / (ts.length : Nat)) }

/-- Keeps the learned data of a slot, in NV too. Across a shared boundary the one wire takes its value on both sides (R224). -/
def keepWire (u : Nat) (w : WireData) (s : State) : State :=
  let put (v : Nat) (d : WireData) (s : State) : State :=
    { modSlot v (fun b => { b with wire := some d }) s with nv := { s.nv with wires := s.nv.wires.set v (some d) } }
  let edge (v k : Nat) (x : Nat) (s : State) : State :=
    match (s.bal.slots.getD v {}).wire with
    | some d => put v { d with rw := d.rw.set k x } s
    | none => s
  let sh := (s.cfgEst.port (u / 3)).shared
  let s := put u w s
  let s := onlyIf (sh && u % 3 != 0) (edge (u - 1) 16 (w.rw.getD 0 0)) s
  onlyIf (sh && u % 3 != 2) (edge (u + 1) 0 (w.rw.getD 16 0)) s

/-- A mask of slots as 18 bytes. -/
def slotMask (l : List Nat) : Bytes := le 18 (l.foldl (fun m u => m + 2 ^ u) 0)

/-- Learning ends (R226, step 5): the data is kept, the configured mode restored by R228, BAL_LEARN completes. -/
def learnEnd (l : LearnRun) (s : State) : State :=
  let us := (List.range 144).filter fun u => (s.posU u).present && s.cfgEst.usedSlots.contains u
  let found := us.map fun u => (u, learnUnit s l u)
  let good := found.filterMap fun e => e.2.map fun w => (e.1, w)
  let bad := (found.filter fun e => e.2.isNone).map Prod.fst
  let s := { modBal (fun b => { b with learn := none }) s with fresh := s.fresh + 144 }
  let s := forAll good (fun e s =>
    raiseIf (decide (3277 ≤ e.2.rho)) 0x0A 6 (keepWire e.1 e.2 s)) s
  let s := sendModes s.bal.mode (stopAllPorts s)
  let s := raiseIf (!bad.isEmpty) 0x0A 5 (raiseIf (!good.isEmpty) 0x0A 4 s)
  completeOp 0x0601 stOk (slotMask (good.map Prod.fst) ++ slotMask bad) s

/-- The next input, the second pass, or the end. -/
def learnNext (l : LearnRun) (t : Nat) (s : State) : State :=
  let go (l : LearnRun) (s : State) : State := modBal (fun b => { b with learn := some { l with phase := 0, ends := t + 500000000, sums := [] } }) s
  match (usedInputs s).filter fun n => decide (l.input < n) with
  | n :: _ => go { l with input := n } s
  | [] =>
    if l.gated then learnEnd l s
    else
      let s := forAll (List.range (nPorts s)) (fun p s => addReq p { pri := 3, dst := 0xFF, opc := 0x22, data := [0] } s)
        (modBal (fun b => { b with modeEff := false, slots := b.slots.map fun x => { x with comp := false } }) s)
      go { l with gated := true, input := (usedInputs s).headD 0 } s

/-- One frame of wire learning (R226, step 2). -/
def learnFrame (f : Frame) (s : State) : State :=
  match s.bal.learn with
  | none => s
  | some l =>
    if anyInhibit s then learnAbort s
    else
      let sums := (List.range 768).map fun g =>
        let a := l.sums.getD g (0, 0)
        if (f.gf.getD g 0x80) &&& 0x81 != 0 then a else (a.1 + (f.v.getD g 0).toNat, a.2 + 1)
      let l := { l with sums := sums }
      let put (l : LearnRun) (s : State) : State := modBal (fun b => { b with learn := some l }) s
      if f.time < l.ends then put l s
      else
        match l.phase with
        | 0 => learnBleed l.input true (put { l with phase := 1, rest := phaseMeans l, sums := [], ends := f.time + 500000000 } s)
        | 1 => put { l with phase := 2, sums := [], ends := f.time + 500000000 } s
        | 2 => learnBleed l.input false (put { l with phase := 3, bleed := phaseMeans l, sums := [], ends := f.time + 500000000 } s)
        | _ =>
          let dv := learnDv l (phaseMeans l)
          let l := if l.gated then { l with dvGated := l.dvGated ++ [(l.input, dv)] }
            else { l with dvComp := l.dvComp ++ [(l.input, dv)], iComp := l.iComp ++ [(l.input, l.bleed)] }
          learnNext l f.time s

/-! ### Mailbox and registers -/

/-- BAL_LEARN (R226): MAINTAIN with K1, K2 and K3 reported open; deferred. -/
def execBalLearn (r : Req) (s : State) : Host.Outcome State Fault Refusal :=
  act (request r 0x0601 engineer
    (fun s => {
      forbidden := !stateOk [4] s || !allOpen s || !commands s
      busy := deferredBusy 0x0601 s || s.bal.learn.isSome })
    (fun s => learnStart (defer r 0x0601 s))) s

/-- BAL_LEARN_ABORT: BAL_LEARN completes STATE_FORBIDDEN (Table 11.3). -/
def execBalLearnAbort (r : Req) (s : State) : Host.Outcome State Fault Refusal :=
  act (request r 0x0602 engineer (fun s => { forbidden := !stateOk [4] s })
    (fun s => respond r 0x0602 stOk [] (learnAbort s))) s

/-- The group word (Table 7.7). -/
def balGroupWord (s : State) (g : Nat) : Word :=
  let r := s.bal.recs.getD g {}
  let left := match r.ends with | some t => (t - s.smp.timeNs + 999999999) / 1000000000 | none => 0
  bitAt r.ends.isSome 31 ||| bitAt ((s.cfgEst.place g).isSome && (bleedInhibit s g || planInhibit s)) 30 ||| bitAt r.excluded 29 |||
    fldAt (min left 8191) 13 16 ||| fldAt r.excess 16 0

/-- The slot word (Table 7.8). -/
def balSlotWord (s : State) (u : Nat) : Word :=
  let b := s.bal.slots.getD u {}
  bitAt b.wire.isSome 31 ||| bitAt (gatedWeak s u) 30 ||| bitAt b.hot 29 ||| fldAt (match b.wire with | some w => w.rho | none => 0) 16 0

/-- BAL registers from 0x0018 up (Table 7.3). -/
def balValue (s : State) (off : Nat) : Word :=
  if off = 0x18 then s.bal.roundCnt
  else if off = 0x1C then u32 (roundRat (s.bal.qTotal / 3600 * 1000)).toNat
  else if 0x1000 ≤ off ∧ off < 0x1000 + 4 * nGroups s then balGroupWord s ((off - 0x1000) / 4)
  else if 0x3000 ≤ off ∧ off < 0x3000 + 12 * nPorts s then balSlotWord s ((off - 0x3000) / 4)
  else if 0x4000 ≤ off ∧ off < 0x4000 + 0x48 * 3 * nPorts s then
    let u := (off - 0x4000) / 0x48
    let k := (off - 0x4000) % 0x48
    match (s.bal.slots.getD u {}).wire with
    | none => 0
    | some w => if k = 0x44 then (BitVec.ofInt 16 w.tLearn).zeroExtend 32 else fldAt (w.rw.getD (k / 4) 0) 24 0
  else 0

/-- BAL_GROUPS: the group words of a range. -/
def execBalGroups (r : Req) (first count : Half) (s : State) : Host.Outcome State Fault Refusal :=
  act (request r 0x0603 observer
    (fun s => { forbidden := !stateOk measuring s, range := groupsOut s first.toNat count.toNat 256 })
    (fun s => respond r 0x0603 stOk
      (le 2 first.toNat ++ le 2 count.toNat ++
        (List.range count.toNat).flatMap fun i => leW (balGroupWord s (first.toNat + i))) s)) s

end Sys2Proof.Machine
end

