-- ==== Sys2Proof/Machine/Health.lean ====
section
/-! DEFINITION. Housekeeping (R463 to R467): HOUSEKEEPING_ROUND, and the counting of memory errors. -/

namespace Sys2Proof.Machine

open Sys2Proof

def modHkp (f : Hkp → Hkp) (s : State) : State := { s with hkp := f s.hkp }

/-- A reading in nano-kelvin, from 0.01 K relative to 273.15 K. -/
def nanoK (t : Int) : Int := (27315 + t) * 10000000

/-- A valid reading: within -55 to +150 °C (R463). -/
def hkpReading (t : Option Int) : Option Int :=
  match t with
  | some v => if -5500 ≤ v && v ≤ 15000 then some v else none
  | none => none

/-- The level that a reading gives: the highest threshold it exceeds (R464). -/
def levelOf (c : Cfg) (n : Nat) (t : Int) : Nat :=
  if c.tShut n < nanoK t then 3 else if c.tThr n < nanoK t then 2 else if c.tWarn n < nanoK t then 1 else 0

/-- The threshold of a level. -/
def levelThreshold (c : Cfg) (n lvl : Nat) : Int := if lvl = 3 then c.tShut n else if lvl = 2 then c.tThr n else c.tWarn n

/-- LEVEL mode: up at once, down only below the threshold of the present level less T_HYST (R464). -/
def levelMode (c : Cfg) (n cur : Nat) (t : Int) : Nat :=
  let l := levelOf c n t
  if cur < l then l
  else if 0 < cur && decide (nanoK t < levelThreshold c n cur - c.tHyst n) then l
  else cur

/-- RATE mode: r against RATE_LIM; 0 until 600 rounds exist (R464). -/
def rateMode (c : Cfg) (n : Nat) (r : Option Int) : Nat :=
  match r with
  | some d =>
    let v := d * 10000000
    if c.rateLim n < v then 2 else if c.rateLim n < 2 * v then 1 else 0
  | none => 0

/-- A sensor's reading and its reading 600 rounds earlier give r (R464). -/
def rateOf (s : State) (n : Nat) (t : Option Int) : Option Int :=
  match s.hkp.history[599]? with
  | some old => match t, old.getD n none with
    | some a, some b => some (a - b)
    | _, _ => none
  | none => none

/-- One sensor in a round: fault, level, and what a change of level reports. -/
def sensorFx (n : Nat) (raw : Option Int) (s : State) : State :=
  let t := hkpReading raw
  let r := rateOf s n t
  let cur := s.hkp.slevel.getD n 0
  let lvl := match t with
    | none => 1
    | some v => if s.cfg.sensRate n then rateMode s.cfg n r else levelMode s.cfg n cur v
  let s := modHkp (fun h => { h with temp := h.temp.set n t, rate := h.rate.set n (r.getD 0), slevel := h.slevel.set n lvl }) s
  let s := raiseIf t.isNone 0x12 2 s
  if lvl = cur then s
  else
    notice 5 0x50 (le 1 lvl ++ le 1 n ++ leI 2 (t.getD (-32768)))
      (raise 0x12 (if cur < lvl then 0 else 1) s)

/-- The module level acts on EST and IMP through crossings 0x1E and 0x1F (R465, P14): a request is offered when it changes. -/
def throttleFx (s : State) : State :=
  let lvl := s.hkp.slevel.foldl max 0
  let skip := s.cfg.tickSkipMax
  let s := modHkp (fun h => { h with
    level := lvl, impStopped := lvl == 3, throttled := lvl == 3 || (lvl == 2 && decide (0 < skip)) }) s
  let v : XVal := .throttle lvl skip s.cfg.thrDivide
  let put (x : Nat) (s : State) : State :=
    if (s.xr x).cur = some v || ((s.xr x).cur.isNone && lvl = 0) then s else offer x v s
  put 0x1F (put 0x1E s)

/-- HOUSEKEEPING_ROUND: the six sensors in turn, then the module level (R463 to R465). -/
def hkpFx (temps : List (Option Int)) (s : State) : State :=
  let s := forAll (List.range 6) (fun n s => sensorFx n (temps.getD n none) s) s
  let s := modHkp (fun h => { h with history := ((List.range 6).map (fun n => h.temp.getD n none) :: h.history).take 600
                                     rounds := satAdd h.rounds 1 }) s
  aoUpdate (throttleFx s)

def execHousekeepingRound (temps : List (Option Int)) (s : State) : Host.Outcome State Fault Refusal :=
  act (fun s => if recRuns s then hkpFx temps s else s) s

/-- Counts a memory error and raises its flag: memories 0 LPDDR4, 1 SPC, 2 EST, 3 NV (R467, Table 16.11). -/
def eccCount (mem : Nat) (ue : Bool) (s : State) : State :=
  raise 0x12 (if ue then 4 else 3) (modHkp (fun h => { h with ecc := bumpAt h.ecc (2 * mem + if ue then 1 else 0) }) s)

end Sys2Proof.Machine
end

