-- ==== Sys2Proof/Machine/Protection.lean ====
section
/-! DEFINITION. The functions of Table 8.3 on frames, current results and insulation results (R245 to R253), the derate limits (R250,
R251), and the commands PERSISTENCE_EXPIRY, REF_CHECK, PRO_TRIP_RESET, PRO_CLASS_CLEAR, PRO_STATUS, PRO_SUPPLY_FAULT, PRO_RESTART,
FRAME_STARVATION. -/

namespace Sys2Proof.Machine

open Sys2Proof

/-! ### What a frame shows -/

/-- A code of Table 0.6 in nV; nV and nA as the registers show them in mV and mA (DESIGN CHOICE, log entry 10). -/
def codeNv (v : Half) : Int := (v.toNat : Int) * 100000
def toMilli (n : Rat) : Int := roundRat (n / 1000000)

/-- Group `g` has a sample in the frame that counts (R247), chains apart. -/
def present (f : Frame) (g : Nat) : Bool :=
  let x := f.gf.getD g 0x80
  !x.getLsbD 0 && !x.getLsbD 7

/-- One evaluated reading: its group (the first one of a chain), its value in nV. -/
structure Reading where
  group : Nat
  nv : Rat
  deriving DecidableEq, Repr

/-- The groups that are evaluated by themselves (R247). -/
def singles (s : State) (f : Frame) : List Nat :=
  let inChain := s.pro.chains.flatMap Chain.groups
  s.cfgPro.mapped.filter fun g => present f g && !inChain.contains g

/-- The sum of a chain in nV; none while a group of it is missing. -/
def chainSum (f : Frame) (c : Chain) : Option Int :=
  if c.groups.all (present f) then some ((c.groups.map fun g => codeNv (f.v.getD g 0)).sum) else none

/-- All readings: evaluated groups, then chain means (R249). -/
def readings (s : State) (f : Frame) : List Reading :=
  ((singles s f).map fun g => { group := g, nv := (codeNv (f.v.getD g 0) : Rat) }) ++
  s.pro.chains.filterMap fun c => (chainSum f c).map fun v => { group := c.groups.headD 0, nv := (v : Rat) / c.groups.length }

/-- The highest and the lowest reading, the lowest group on a tie. -/
def highest (l : List Reading) : Option Reading :=
  l.foldl (fun a r => match a with | some b => if b.nv < r.nv then some r else a | none => some r) none
def lowest (l : List Reading) : Option Reading :=
  l.foldl (fun a r => match a with | some b => if r.nv < b.nv then some r else a | none => some r) none

/-- A valid temperature input (R248): slot, input, 0.01 K relative to 273.15 K. -/
structure TempIn where
  slot : Nat
  input : Nat
  t : Int
  deriving DecidableEq, Repr

/-- The valid inputs of one slot. -/
def slotTemps (s : State) (f : Frame) (u : Nat) : List TempIn :=
  if (f.uf.getD u 2).getLsbD 1 then []
  else (List.range 4).filterMap fun n =>
    let v := (f.t.getD u []).getD n 0x8000
    if (s.cfgPro.slot u).tMask.getLsbD n && v != 0x8000 && v != 0x7FFF then some { slot := u, input := n, t := v.toInt } else none

def hottest (l : List TempIn) : Option TempIn :=
  l.foldl (fun a r => match a with | some b => if b.t < r.t then some r else a | none => some r) none
def coldest (l : List TempIn) : Option TempIn :=
  l.foldl (fun a r => match a with | some b => if r.t < b.t then some r else a | none => some r) none

/-! ### Derate limits (R250, R251) -/

/-- Clamped to 0..1. -/
def unit01 (r : Rat) : Rat := if r < 0 then 0 else if 1 < r then 1 else r

/-- One figure: function code, charge and discharge limit in mA. -/
structure Figure where
  code : Nat
  ch : Rat
  dis : Rat
  deriving DecidableEq, Repr

/-- The figures that apply (R250). -/
def figures (s : State) (rs : List Reading) (ts : List TempIn) : List Figure :=
  let c := s.cfgPro
  let i : Rat := c.iRated
  let fOv := match highest rs with
    | some r => unit01 (((c.ovDerEnd : Rat) - r.nv) / (c.ovDerEnd - c.ovDerStart : Int))
    | none => 1
  let fUv := match lowest rs with
    | some r => unit01 ((r.nv - (c.uvDerEnd : Rat)) / (c.uvDerStart - c.uvDerEnd : Int))
    | none => 1
  let hot := match hottest ts with
    | some x => unit01 ((c.tOtTrip - nanoK x.t : Int) / ((c.tOtTrip - c.tDerHi : Int) : Rat))
    | none => 0
  let cold (lim : Int) : Rat := match coldest ts with
    | some x => unit01 ((nanoK x.t - lim : Int) / (5000000000 : Rat))
    | none => 0
  let on (n : Nat) (v : Rat) : List Figure := if s.pro.active.getLsbD n then [{ code := n, ch := v, dis := v }] else []
  [{ code := 0, ch := i, dis := i }, { code := 5, ch := i * fOv, dis := i }, { code := 6, ch := i, dis := i * fUv },
   { code := 8, ch := i * (hot * cold c.tChMin), dis := i * (hot * cold c.tDisMin) }] ++
  on 0x09 0 ++ on 0x0C 0 ++ on 0x0D (i * ((c.owLim : Rat) / 1000000000)) ++ on 0x12 (i * ((c.curDisLim : Rat) / 1000000000)) ++
  on 0x13 0 ++ on 0x14 0

/-- The lowest figure of a direction with the lowest code (R251). -/
def least (l : List (Nat × Rat)) : Nat × Rat :=
  l.foldl (fun a b => if b.2 < a.2 || (b.2 == a.2 && decide (b.1 < a.1)) then b else a) (l.headD (0, 0))

/-- The limits of a frame from its figures: TRIPPED, the host disconnect and an unset I_RATED come first; a rise is slow (R251). While a
limit still rises, its code stays (DEDUCED, log entry 11). -/
def publishLimits (l : List Figure) (s : State) : State :=
  let s1 := modPro (fun p => { p with firstEval := false }) s
  if s.cfgPro.iRatedN.isNone then setDerate 0 0xFF 0 0xFF s1
  else if tripped s then zeroLimits s.pro.firstCode s1
  else if s.pro.hostDisc then zeroLimits 0xFE s1
  else
    let ch := least (l.map fun f => (f.code, f.ch))
    let dis := least (l.map fun f => (f.code, f.dis))
    let rise : Rat := (s.cfgPro.derateRise : Rat) / 1000000000 * s.cfgPro.iRated * ((tCad s.smp.cad : Nat) : Rat) / 1000000000
    let slow (old : Rat) (src : Nat) (new : Nat × Rat) : Rat × Nat :=
      if s.pro.firstEval || new.2 ≤ old + rise then (new.2, new.1) else (old + rise, src)
    let a := slow s.pro.iCh s.pro.srcCh ch
    let b := slow s.pro.iDis s.pro.srcDis dis
    setDerate a.1 a.2 b.1 b.2 s1

/-- Both limits go to 0 at once for a function (Table 8.3, STALE and NO_CURRENT). -/
def derateZero (code : Nat) (s : State) : State :=
  if tripped s || s.pro.hostDisc || s.cfgPro.iRatedN.isNone then s
  else
    let src (v : Rat) (old : Nat) : Nat := if v = 0 then min old code else code
    setDerate 0 (src s.pro.iCh s.pro.srcCh) 0 (src s.pro.iDis s.pro.srcDis) s

/-- A function without an OPEN action, by its condition. -/
def noteIf (code : Nat) (cond : Option (Nat × Int)) (thr : Int) (s : State) : State :=
  match cond with
  | some (idx, val) => note code idx val thr s
  | none => setAct code false s

/-! ### Cell and string functions of a frame -/

/-- Consecutive counts of the evaluated groups (R247): a group that is not evaluated keeps its count. -/
def countGroups (gs : List Nat) (hit : Nat → Bool) (l : List Nat) : List Nat :=
  l.mapIdx fun g n => if gs.contains g then (if hit g then n + 1 else 0) else n

/-- The first group whose count reaches `n`. -/
def firstAt (n : Nat) (l : List Nat) : Option Nat := l.findIdx? fun k => decide (n ≤ k)

/-- CELL_OV, CELL_UV. -/
def cellLimits (f : Frame) (s : State) : State :=
  let c := s.cfgPro
  let gs := singles s f
  let nv (g : Nat) : Int := codeNv (f.v.getD g 0)
  let s := modPro (fun p => { p with
    nOv := countGroups gs (fun g => decide (c.ovTrip < nv g)) p.nOv
    nUv := countGroups gs (fun g => decide (nv g < c.uvTrip)) p.nUv }) s
  let at_ (o : Option Nat) : Option (Nat × Int) := o.map fun g => (g, toMilli (nv g))
  let s := fire 0x01 (at_ (firstAt c.nOv s.pro.nOv)) (toMilli c.ovTrip) s
  fire 0x02 (at_ (firstAt c.nUv s.pro.nUv)) (toMilli c.uvTrip) s

/-- PAIR_OV, PAIR_UV. -/
def pairLimits (f : Frame) (s : State) : State :=
  let c := s.cfgPro
  let s := modPro (fun p => { p with chains := p.chains.map fun x => match chainSum f x with
    | some v =>
      { x with ov := if x.groups.length * c.ovTrip < v then x.ov + 1 else 0
               uv := if v < x.groups.length * c.uvTrip then x.uv + 1 else 0 }
    | none => x }) s
  let val (x : Chain) : Nat × Int := (x.groups.headD 0, toMilli ((chainSum f x).getD 0))
  let thr (x : Option Chain) (lim : Int) : Int := toMilli (((x.map fun y => y.groups.length).getD 2 : Nat) * lim)
  let ov := s.pro.chains.find? fun x => decide (c.nOv ≤ x.ov)
  let uv := s.pro.chains.find? fun x => decide (c.nUv ≤ x.uv)
  fire 0x04 (uv.map val) (thr uv c.uvTrip) (fire 0x03 (ov.map val) (thr ov c.ovTrip) s)

/-- STR_OV: 4 consecutive instants. -/
def strOvFx (f : Frame) (s : State) : State :=
  let lim := s.cfgPro.strOvTrip
  let hit := f.cur.getLsbD 9 && decide (lim < f.vStr * 1000000)
  let s := modPro (fun p => { p with nStrOv := if hit then p.nStrOv + 1 else 0 }) s
  fire 0x0A (if 4 ≤ s.pro.nStrOv then some (0, f.vStr) else none) (toMilli lim) s

/-- STACK_MISMATCH: per unit, 64 consecutive counted instants. -/
def stackFx (f : Frame) (s : State) : State :=
  let c := s.cfgPro
  let diff (u : Nat) : Option Int :=
    let gs := c.slotGroups u
    let on := gs.any fun e => (f.gf.getD e.1 0).getLsbD 5
    if gs.isEmpty || on || (f.uf.getD u 2).getLsbD 1 || !(gs.all fun e => present f e.1) then none
    else some ((((f.vstk.getD u 0).toNat : Int) * 2000000) - (gs.map fun e => codeNv (f.v.getD e.1 0)).sum)
  let lim (u : Nat) : Int := c.stackTol + ((f.vstk.getD u 0).toNat : Int) * 2000000 * 5 / 1000
  let s := modPro (fun p => { p with nStack := p.nStack.mapIdx fun u n => match diff u with
    | some d => if lim u < (d.natAbs : Int) then n + 1 else 0
    | none => n }) s
  let hit := firstAt 64 s.pro.nStack
  fire 0x0B (hit.map fun u => (u, toMilli ((diff u).getD 0))) (toMilli ((hit.map lim).getD c.stackTol)) s

/-- A group that STALE covers: stale in the frame, in an open-ended chain, or every group while no frame arrives. -/
def staleGroup (f : Frame) (s : State) : Option Nat :=
  match s.cfgPro.mapped.find? fun g => (f.gf.getD g 0).getLsbD 1 with
  | some g => some g
  | none => match s.pro.chains.find? Chain.openEnd with
    | some c => some (c.groups.headD 0)
    | none => none

/-- STALE: the derate at once, the OPEN after STALE_GRACE. -/
def staleFx (g : Option Nat) (s : State) : State :=
  match g with
  | none => setAct 0x0C false (modPro (fun p => { p with graceRun := false }) s)
  | some g =>
    if s.pro.active.getLsbD 0x0C then s
    else
      let s := derateZero 0x0C (note 0x0C g 0 0 (modPro (fun p => { p with graceRun := true, staleG := g }) s))
      if s.cfgPro.staleGrace = 0 then openAct 0x0C g 0 0 false s else s

/-- CELL_OT, over all valid inputs, and TEMP_LOST, over the units that carry mapped groups, begin or end their time persistences. -/
def tempFx (f : Frame) (all : List TempIn) (s : State) : State :=
  let c := s.cfgPro
  let tooHot := match hottest all with | some x => decide (c.tOtTrip < nanoK x.t) | none => false
  let used := c.usedSlots
  let count := (List.range 144).map fun u => (slotTemps s f u).length
  let few (u : Nat) : Bool := decide (count.getD u 0 < c.tMinValid)
  let s := modPro (fun p => { p with
    otRun := tooHot, tCount := count
    tLost := p.tLost.mapIdx fun u n => if used.contains u && few u then (if n = 0 then 1 else n) else 0 }) s
  let s := if tooHot then s else setAct 0x07 false s
  let lost := s.pro.tLost.findIdx? (· == 2)
  noteIf 0x09 (lost.map fun u => (u, (count.getD u 0 : Int))) c.tMinValid s

/-- OV_DERATE, UV_DERATE, TEMP_DERATE. -/
def derateFns (rs : List Reading) (ts : List TempIn) (s : State) : State :=
  let c := s.cfgPro
  let hi := (highest rs).filter fun r => decide ((c.ovDerStart : Rat) < r.nv)
  let lo := (lowest rs).filter fun r => decide (r.nv < (c.uvDerStart : Rat))
  let s := noteIf 0x05 (hi.map fun r => (r.group, toMilli r.nv)) (toMilli c.ovDerStart) s
  let s := noteIf 0x06 (lo.map fun r => (r.group, toMilli r.nv)) (toMilli c.uvDerStart) s
  let hot := match hottest ts with | some x => decide (c.tDerHi < nanoK x.t) | none => true
  let cold := match coldest ts with
    | some x => decide (nanoK x.t < c.tChMin + 5000000000) || decide (nanoK x.t < c.tDisMin + 5000000000)
    | none => true
  let x := if hot then hottest ts else coldest ts
  noteIf 0x08 (if hot || cold then some ((x.map TempIn.slot).getD 0, (x.map TempIn.t).getD 0) else none)
    (if hot then (c.tDerHi / 10000000 - 27315) else (c.tChMin / 10000000 - 27315 + 500)) s

/-- The middle of a list of values: the mean of the two middle ones of an even count (DESIGN CHOICE, log entry 12). -/
def median (l : List Rat) : Option Rat :=
  let m := sortBy (fun a b => decide (a ≤ b)) l
  let n := m.length
  if n = 0 then none else some ((m.getD ((n - 1) / 2) 0 + m.getD (n / 2) 0) / 2)

/-- The CELL_DEV trigger (R258): readings that differ from the median of the other evaluated groups of their unit. A group without a reading keeps
its time (R247); a trigger that is met waits while its unit is busy. -/
def devFx (f : Frame) (rs : List Reading) (s : State) : State :=
  let c := s.cfgPro
  let alone := singles s f
  let off (r : Reading) : Bool := match c.place r.group with
    | none => false
    | some (u, _) =>
      let others := ((c.slotGroups u).map Prod.fst).filter fun g => g != r.group && alone.contains g
      match median (others.map fun g => (codeNv (f.v.getD g 0) : Rat)) with
      | some m => decide ((c.cellDevMax : Rat) < r.nv - m) || decide ((c.cellDevMax : Rat) < m - r.nv)
      | none => false
  let hit := (rs.filter off).map Reading.group
  let read := rs.map Reading.group
  let run (g n : Nat) : Nat := if hit.contains g then (if n = 0 then 1 else n) else if n = 1 && read.contains g then 0 else n
  let s := modPro (fun p => { p with devRun := p.devRun.mapIdx run }) s
  forAll ((List.range 768).filter fun g => s.pro.devRun.getD g 0 == 2) (fun g s =>
    let t := devStart g s
    match c.place g with
    | some (u, _) => if owIdle (s.owU u) && !owIdle (t.owU u) then modPro (fun p => { p with devRun := p.devRun.set g 0 }) t else t
    | none => t) s

/-- OPEN_WIRE and CELL_FAULT are active while classified (R262). -/
def classFx (s : State) : State :=
  let open_ := s.pro.units.findIdx? fun o => o.openMask != 0
  let fault := s.pro.units.findIdx? fun o => o.fault != 0
  noteIf 0x0E (fault.map fun u => (u, ((s.owU u).fault.toNat : Int))) 0
    (noteIf 0x0D (open_.map fun u => (u, ((s.owU u).openMask.toNat : Int))) 0 s)

/-- The value registers of Table 8.11 that a frame sets. -/
def extremes (rs : List Reading) (all : List TempIn) (s : State) : State :=
  let code (r : Reading) : Nat := (roundRat (r.nv / 100000)).toNat
  let s := match highest rs with
    | some r => modPro (fun p => { p with vMax := code r, vMaxG := r.group }) s
    | none => s
  let s := match lowest rs with
    | some r => modPro (fun p => { p with vMin := code r, vMinG := r.group }) s
    | none => s
  match hottest all with
  | some x => modPro (fun p => { p with tMax := BitVec.ofInt 16 x.t, tMaxSlot := x.slot, tMaxIn := x.input, tValid := true }) s
  | none => modPro (fun p => { p with tValid := false }) s

/-- PRO takes a coherent frame (R245): it arms at the first one (R235). -/
def proFrame (f : Frame) (s : State) : State :=
  if s.pro.inReset then s
  else
    let s := kfSettle { s with cfgPro := s.cfg }
    let s := if s.pro.armed then s else modPro (fun p => { p with armed := true, firstEval := true }) s
    let row := (List.range 768).map fun g => if present f g then some (f.v.getD g 0) else none
    let s := modPro (fun p => { p with hist := (row :: p.hist).take 64, starved := false }) s
    let s := forAll (List.range 144) (fun u s => owFrame u f s) s
    let s := modPro (fun p => { p with chains := formChains s }) s
    let s := classFx s
    let rs := readings s f
    let all := (List.range 144).flatMap (slotTemps s f)
    let ts := all.filter fun x => s.cfgPro.usedSlots.contains x.slot
    let s := stackFx f (strOvFx f (pairLimits f (cellLimits f s)))
    let s := staleFx (staleGroup f s) s
    let s := devFx f rs (derateFns rs ts (tempFx f all s))
    let s := publishLimits (figures s rs ts) (extremes rs all s)
    let s := prechargeStep f.time s
    let s := if s.pro.conn = 1 && !(f.cur.getLsbD 9 && f.cur.getLsbD 10) then modPro (fun p => { p with weldOk := false }) s else s
    connectWatch s

/-! ### Current results -/

/-- OC_CHARGE and OC_DISCHARGE (R252): the larger magnitude of the valid channels, in mA. -/
def overCurrent (s : State) (charge : Bool) : Option Int :=
  let d (i : Int) : Int := if charge then i else -i
  let a := if shuntValid s then [d s.smp.iShunt] else []
  let b := if hallValid s then [d s.smp.iHall] else []
  match a ++ b with
  | [] => none
  | x :: r => some (r.foldl max x)

/-- Both channels disagree (Table 8.3, 0x12). -/
def disagree (s : State) : Bool :=
  let c := s.cfgPro
  shuntValid s && hallValid s &&
    decide (c.curDevAbs * 1000 + c.curDevRel * s.smp.iShunt.natAbs < ((s.smp.iShunt - s.smp.iHall).natAbs : Int) * 1000000000)

/-- Overcurrent counts. -/
def ocFx (s : State) : State :=
  let c := s.cfgPro
  let step (lim : Option Int) (v : Option Int) (n : Nat) : Nat := match lim, v with
    | some l, some i => if l < i * 1000000 then n + 1 else 0
    | _, _ => n
  let ch := overCurrent s true
  let dis := overCurrent s false
  let s := modPro (fun p => { p with nOcCh := step c.ocChTrip ch p.nOcCh, nOcDis := step c.ocDisTrip dis p.nOcDis }) s
  let s := fire 0x0F (if c.ocN ≤ s.pro.nOcCh then some (0, ch.getD 0) else none) (c.ocChTrip.getD 0 / 1000000) s
  fire 0x10 (if c.ocN ≤ s.pro.nOcDis then some (0, -(dis.getD 0)) else none) (c.ocDisTrip.getD 0 / 1000000) s

/-- CUR_DISAGREE begins and ends its times. -/
def disagreeFx (s : State) : State :=
  let d := disagree s
  let on := s.pro.active.getLsbD 0x12
  modPro (fun p => { p with disRun := d && !on, disClear := !d && on }) s

/-- NO_CURRENT: the derate at once, the OPEN after CUR_LOSS_T. -/
def noCurrentFx (s : State) : State :=
  if (iSel s).isSome then setAct 0x13 false (modPro (fun p => { p with lossRun := false }) s)
  else if s.pro.active.getLsbD 0x13 then s
  else derateZero 0x13 (note 0x13 0 0 0 (modPro (fun p => { p with lossRun := true }) s))

/-- SHUNT_OT: its second runs while a valid temperature lies above the trip; it holds while NTC_FAULT is 1. -/
def shuntOtFx (s : State) : State :=
  if s.smp.ntcFault then s
  else match s.smp.tShunt with
    | none => s
    | some t =>
      let s := modPro (fun p => { p with shOtRun := decide (s.cfgPro.shOtTrip < nanoK t) }) s
      if nanoK t < s.cfgPro.shOtTrip - 10000000000 then setAct 0x14 false s else s

/-- PRO takes a current result, with the comparators. -/
def proCurrent (x : CmpObs) (s : State) : State :=
  if !proRuns s then s
  else
    let s := cmpFx x s
    if s.pro.armed then connectWatch (rampStep (shuntOtFx (noCurrentFx (disagreeFx (ocFx s))))) else rampStep s

/-! ### Time persistences and grace -/

/-- PERSISTENCE_EXPIRY of a function; 0 stands for CELL_DEV_T of group `idx` (DESIGN CHOICE, log entry 2). A timer that does not run expires without
effect. -/
def persistFx (code idx : Nat) (s : State) : State :=
  let p := s.pro
  let c := s.cfgPro
  match code with
  | 0x00 => if p.devRun.getD idx 0 = 1 then
      let s := modPro (fun p => { p with devRun := p.devRun.set idx 2 }) s
      match c.place idx with
      | some (u, _) =>
        let t := devStart idx s
        if owIdle (s.owU u) && !owIdle (t.owU u) then modPro (fun p => { p with devRun := p.devRun.set idx 0 }) t else t
      | none => s
    else s
  | 0x07 => if p.otRun then
      fire 0x07 (some (p.tMaxSlot, p.tMax.toInt)) (c.tOtTrip / 10000000 - 27315) s else s
  | 0x09 => if p.tLost.getD idx 0 = 1 then note 0x09 idx (p.tCount.getD idx 0) c.tMinValid (modPro (fun p => { p with tLost := p.tLost.set idx 2 }) s) else s
  | 0x0C => if p.graceRun then openAct 0x0C p.staleG 0 0 false (modPro (fun p => { p with graceRun := false }) s) else s
  | 0x12 =>
    if p.disRun then
      note 0x12 0 (s.smp.iShunt - s.smp.iHall) ((c.curDevAbs * 1000 + c.curDevRel * s.smp.iShunt.natAbs) / 1000000000)
        (modPro (fun p => { p with disRun := false }) s)
    else if p.disClear then setAct 0x12 false (modPro (fun p => { p with disClear := false }) s)
    else s
  | 0x13 => if p.lossRun then openAct 0x13 0 0 0 false (modPro (fun p => { p with lossRun := false }) s) else s
  | 0x14 => if p.shOtRun && !s.smp.ntcFault then
      note 0x14 0 (s.smp.tShunt.getD 0) (c.shOtTrip / 10000000 - 27315) (modPro (fun p => { p with shOtRun := false }) s) else s
  | 0x17 =>
    let bit : BitVec 4 := 1#4 <<< (idx - 1)
    if 1 ≤ idx && idx ≤ 4 && (p.dropRun &&& bit) != 0 then
      kFeedback (idx - 1) (feedbackActive (modPro (fun p => { p with dropRun := p.dropRun &&& ~~~bit }) s))
    else s
  | _ => s

def execPersistenceExpiry (code : Fin 29) (idx : Nat) (s : State) : Host.Outcome State Fault Refusal :=
  act (fun s => if proRuns s && s.pro.armed then persistFx code idx s else s) s

/-! ### Insulation results (crossing 0x1D) -/

/-- INS_WARN and INS_FAULT on a result in ohm with INS_STATE (Table 8.3). -/
def insEval (r status : Nat) (s : State) : State :=
  if !s.pro.armed || !(BitVec.ofNat 8 status).getLsbD 2 then s
  else
    let c := s.cfgPro
    let v : Int := (r : Int) * 1000000000
    let ends (lim : Int) : Bool := decide (5 * lim ≤ 4 * v)
    let s := if v < c.insWarn then note 0x15 0 r (c.insWarn / 1000000000) s
      else if ends c.insWarn then setAct 0x15 false s else s
    if v < c.insTrip then
      let closed := kfClosed s 1 || kfClosed s 2
      let s := note 0x16 0 r (c.insTrip / 1000000000) s
      let s := if closed && c.insClosedOpen then openAct 0x16 0 r (c.insTrip / 1000000000) false s else s
      connectWatch s
    else if ends c.insTrip then setAct 0x16 false s
    else s

/-! ### Reference, supply, restart, starvation (R37, R39) -/

/-- REF_CHECK: the deviation in ppm; two consecutive checks beyond 0.5% are REF_FAIL. BREATH stops meanwhile (Table 14.1). -/
def refCheckFx (ppm : Nat) (s : State) : State :=
  let bad := decide (5000 < ppm)
  let s := modPro (fun p => { p with refOk := !bad, refBad := if bad then p.refBad + 1 else 0 }) s
  if !s.pro.armed then s
  else if 2 ≤ s.pro.refBad then fire 0x1A (some (0, (ppm : Int))) 5000 s
  else fire 0x1A none 5000 s

def execRefCheck (ppm : Nat) (s : State) : Host.Outcome State Fault Refusal :=
  act (fun s => if proRuns s then refCheckFx ppm s else s) s

/-- FRAME_STARVATION: 8 periods without a frame; every mapped group counts as stale (R39, R64, Table 8.3). -/
def starveFx (s : State) : State :=
  if s.pro.armed && sampling s && !s.pro.starved then staleFx s.cfgPro.mapped.head? (modPro (fun p => { p with starved := true }) s)
  else s

def execFrameStarvation (s : State) : Host.Outcome State Fault Refusal :=
  act (fun s => if proRuns s then starveFx s else s) s

/-- PRO_SUPPLY_FAULT (H6): every channel is released at once, GATE_EN goes low, PRO is held in reset. Its counters and the records of
its latches end with it; the classifications too. -/
def supplyFaultFx (s : State) : State :=
  let s := brokeAbove 0xF (parkEngine 2 s)
  let s := disarmed s
  let s := { s with xng := { s.xng with told := s.xng.told.erase 13 } }
  let conn := s.pro.conn
  let s := modPro (fun p =>
    ({ inReset := true, kf := p.kf, tripCnt := p.tripCnt, owCnt := p.owCnt, guardCnt := p.guardCnt, bellTest := p.bellTest
       owPause := p.owPause } : Pro)) s
  if conn = 0 then s
  else
    let s := completeOp 0x0702 stForbidden [0, 0] (completeOp 0x0701 stForbidden [BitVec.ofNat 8 conn, 0, 0] s)
    continueOut (notice 1 0x12 [0, 0, 0, 0] s)

def execProSupplyFault (s : State) : Host.Outcome State Fault Refusal :=
  act (fun s => if s.pwr.ready && !s.pro.inReset then supplyFaultFx s else s) s

/-- PRO_RESTART after H6: the feedback is read anew, function 0x1C latches; the channels are already released. -/
def proRestartFx (s : State) : State :=
  if s.pro.inReset then
    let s := kfSettle (modPro (fun p => { p with inReset := false, supplyOk := true }) s)
    tellEst (openAct 0x1C 0 0 0 false (offer 0x12 (.derate 0 0) s))
  else s

def execProRestart (s : State) : Host.Outcome State Fault Refusal :=
  act (fun s => if s.pwr.ready then proRestartFx s else s) s

/-! ### Mailbox -/

/-- PRO_TRIP_RESET (R242): latches whose condition no longer holds clear; K_WELD only while the contactors found welded report open. -/
def tripResetFx (s : State) : State :=
  let p := s.pro
  let weldHeld := (p.welded &&& p.kf) != 0
  let keep := p.latched &&& (p.active ||| (if weldHeld then 1#29 <<< 0x18 else 0))
  let gone := keep != p.latched
  let s := modPro (fun p => { p with latched := keep, welded := if keep.getLsbD 0x18 then p.welded else 0 }) s
  raiseIf gone 0x0B 15 (tellEst s)

def execProTripReset (r : Req) (s : State) : Host.Outcome State Fault Refusal :=
  act (request r 0x0703 operator (fun s => { forbidden := !stateOk measuring s })
    (fun s =>
      let s := tripResetFx s
      respond r 0x0703 stOk (le 4 s.pro.latched.toNat) s)) s

/-- Clears the classifications of a slot and has it tested again within one OW_PERIOD (R262). -/
def classClear (u : Nat) (s : State) : State :=
  tellEst (modOw u (fun o => { o with openMask := 0, incon := false, fault := 0, inconCnt := List.replicate 17 0 }) s)

def execProClassClear (r : Req) (slot : Byte) (s : State) : Host.Outcome State Fault Refusal :=
  act (request r 0x0704 engineer
    (fun s => {
      absent := decide (slot.toNat < 144) && !portPresent s (slot.toNat / 3)
      forbidden := !stateOk measuring s
      range := decide (144 ≤ slot.toNat) || !(s.posU slot.toNat).present })
    (fun s => respond r 0x0704 stOk [] (classClear slot.toNat s))) s

/-- The value registers at offsets 0x0020 to 0x0058 (Table 8.11). -/
def proValue (s : State) (off : Nat) : Word :=
  let p := s.pro
  match off with
  | 0x20 => p.active.zeroExtend 32
  | 0x24 => p.latched.zeroExtend 32
  | 0x28 => fldAt p.firstCode 8 24 ||| fldAt p.firstIdx 16 0
  | 0x2C => s32 p.firstVal
  | 0x30 => p.firstInst
  | 0x34 => if p.armed then u32 (derMa p.iCh) else 0
  | 0x38 => if p.armed then u32 (derMa p.iDis) else 0
  | 0x3C => if p.armed then fldAt p.srcDis 8 8 ||| fldAt p.srcCh 8 0 else 0xFFFF
  | 0x40 => fldAt p.vMaxG 10 16 ||| fldAt p.vMax 16 0
  | 0x44 => fldAt p.vMinG 10 16 ||| fldAt p.vMin 16 0
  | 0x48 => fldAt p.tMaxIn 2 24 ||| fldAt p.tMaxSlot 8 16 ||| p.tMax.zeroExtend 32
  | 0x4C => (List.range 4).foldl (fun w k =>
      w ||| bitAt (p.kA.getLsbD k) (4 * k) ||| bitAt (p.kB.getLsbD k) (4 * k + 1) ||| bitAt (p.kf.getLsbD k) (4 * k + 2) |||
        bitAt ((p.misA ||| p.misB).getLsbD k) (4 * k + 3)) 0
  | 0x50 => p.tripCnt
  | 0x54 => p.owCnt
  | 0x58 => p.guardCnt
  | _ => 0

def execProStatus (r : Req) (s : State) : Host.Outcome State Fault Refusal :=
  act (request r 0x0705 observer (fun s => { forbidden := !stateOk awake s })
    (fun s => respond r 0x0705 stOk
      (leW (proStatus s) ++ (List.range 15).flatMap fun i => leW (proValue s (0x20 + 4 * i))) s)) s

end Sys2Proof.Machine
end

