-- ==== Sys2Proof/Machine/Service.lean ====
section
/-! DEFINITION. Service cycles (R54, R114): enumeration of a port (R71, R72), delay measurement (R66 to R68), corrections (R69), image load
(R105), configuration of the units (R89), and the same on the far side of a split port (R79, R369, R410). -/

namespace Sys2Proof.Machine

open Sys2Proof

/-- Index of the present service cycle (R111, R114). -/
def svcIdx (s : State) : Nat := s.smp.timeNs / 62500 + s.smp.svc

def modSvc (p : Nat) (f : Svc → Svc) (s : State) : State := modPort p (fun x => { x with svc := f x.svc }) s

/-- The port goes on with a phase and its jobs. -/
def enterPhase (ph : SvcPhase) (jobs : List SvcJob) (p : Nat) (s : State) : State :=
  modSvc p (fun v => { v with phase := ph, jobs := jobs, n := 0 }) s

/-- The lane on which the module begins: in a split port its own, else N (R72, R78). -/
def homeLane (s : State) (p : Nat) : Lane := if split s p && role s == 2 then .S else .N

/-- The lane from which a unit is reached. -/
def posLane (s : State) (p c : Nat) : Lane := if (s.pos p c).viaS then .S else .N

/-- The units that this module commands: in a split port that did not close, those it has addressed itself (R410). -/
def ownUnits (s : State) (p : Nat) : List Nat :=
  [0, 1, 2].filter fun c =>
    (s.pos p c).present && (!split s p || (s.port p).svc.closed || posLane s p c == homeLane s p)

/-- The lanes that a broadcast needs: one in a closed ring, else those from which units are reached. -/
def svcLanes (s : State) (p : Nat) : List Lane :=
  if (s.port p).svc.closed then [homeLane s p] else [Lane.N, Lane.S].filter fun l => (ownUnits s p).any fun c => posLane s p c == l

/-- One command to each of some units, each from its lane. -/
def unitJobs (s : State) (p : Nat) (cs : List Nat) (f : Nat → LinkReq) : List SvcJob :=
  [Lane.N, Lane.S].filterMap fun l =>
    match (cs.filter fun c => posLane s p c == l).map f with
    | [] => none
    | rs => some (.cmds l rs)

/-- A broadcast on a lane. -/
def broadcastJob (opc : Byte) (data : Bytes) (l : Lane) : SvcJob := .cmds l [{ pri := 4, dst := 0xFF, opc := opc, data := data }]

/-! ### Pack swaps (R171, R173, R229, R262) -/

/-- SERIAL and PACK_ID of the units of a port, by position. -/
def foundUnits (s : State) (p : Nat) : List (Nat × Nat) :=
  (s.port p).pos.filterMap fun x => x.ident.map fun i => (i.serial, i.packId)

/-- The learned data of a port's units go with a swap on a DISCARD port (R173, R229). -/
def discardPort (p : Nat) (s : State) : State :=
  let s := forAll (portGroups s.cfg p) (fun g s => modCtx g (fun x => { x with mustInsert := true, valid := false }) s) s
  raise 0x08 4 (dropWires p s)

/-- After an enumeration: a swap is detected where the identities differ from the stored ones, which they then replace. Where none
are stored there is nothing to differ from (DEDUCED, log entry 32). -/
def swapCheck (p : Nat) (s : State) : State :=
  let found := foundUnits s p
  let stored := s.est.ports.getD p {}
  let swap := stored.known && found != stored.units
  let retain := s.est.retain.getLsbD p
  let s := if swap then forAll [slotOf p 0, slotOf p 1, slotOf p 2] classClear s else s
  let s := if swap && !retain then discardPort p s else s
  let s := if retain then forAll (portGroups s.cfg p) (fun g s => modCtx g (fun x => { x with outage := true }) s) s else s
  modEst (fun e => { e with ports := e.ports.modify p fun x => { x with known := true, units := found } }) s

/-! ### The beginning (Table 12.5, step 3; Table 2.13) -/

/-- Tests and probes of a re-enumerated unit end without a result; its classification stays. -/
def testsEnd (u : Nat) (s : State) : State :=
  modOw u (fun o => { openMask := o.openMask, incon := o.incon, fault := o.fault, inconCnt := o.inconCnt }) s

/-- A port begins service cycles: positions, delays and D_ring of the last enumeration are gone; CSEQ series and staleness go on. A module that
does not hold SELECT follows (R369). -/
def beginEnum (p : Nat) (s : State) : State :=
  let s := forAll [0, 1, 2] (fun c s => testsEnd (slotOf p c) (unitRestarted (slotOf p c) s)) s
  let s := diagDrop (fun u => u / 3 == p) s
  modPort p (fun x => { x with
    pos := x.pos.map fun y => { cseq := y.cseq, stale := y.stale, missRun := y.missRun }
    link := 1, cad := 3, ringDly := none, ringService := none, returns := [], badRun := 0, goodRun := 0
    tooLong := false, provisional := false, waiting := [], wasIncomplete := false
    svc := { phase := if commands s then .lock else .follow, lane := homeLane s p } }) s

/-! ### The walk (R71, R72) -/

/-- The last frame came back at the other end: the ring is closed (R72, R78). -/
def returned (s : State) (p : Nat) : Bool :=
  if split s p then peerIs s fun f => f.ring.getLsbD p
  else if (s.port p).svc.lane == Lane.N then (s.port p).backN else (s.port p).backS

/-- The position that the next unit from the lane in use takes (R72, steps 2 and 3); none: no further one. -/
def nextPlace (s : State) (p : Nat) : Option Nat :=
  let v := (s.port p).svc
  let free (c : Nat) : Option Nat := if (s.pos p c).present then none else some c
  match v.lane with
  | .N => if v.nN < 3 then free v.nN else none
  | .S =>
    let last := if onDefaults s then 3 else (s.cfg.port p).ke
    if v.nS < last then free (last - 1 - v.nS) else none

/-- Identity pages that the module asks for after the walk, one command to each unit at a time (DESIGN CHOICE, log entry 57: R72 states the
answer of ADDR_ASSIGN, page 0, and no time for the others). -/
def identityJobs (s : State) (p : Nat) : List SvcJob :=
  [1, 2, 4].flatMap fun page => unitJobs s p (ownUnits s p) fun c => reqTo 4 p c 0x02 [BitVec.ofNat 8 page]

/-- The walk is over: a split port whose ring did not close leaves its far side to the peer (R410). -/
def walkEnd (p : Nat) (s : State) : State :=
  if split s p && !(s.port p).svc.closed && commands s then enterPhase .handWalk [] p s
  else enterPhase .identity (identityJobs s p) p s

/-- The walk from the lane in use is over; a ring that is not split goes on from lane S. -/
def laneEnd (p : Nat) (s : State) : State :=
  let v := (s.port p).svc
  if !split s p && v.lane == Lane.N && !v.closed && !(s.port p).tooLong then
    modSvc p (fun v => { v with lane := .S, asg := none, ended := false, n := 2 }) s
  else walkEnd p (modSvc p (fun v => { v with asg := none, ended := false }) s)

/-- The unit at the address of an assignment answered, with its serial number: the position is assigned. -/
def assigned (p : Nat) (a : Assign) (serial : Nat) (s : State) : State :=
  let c := a.addr.toNat % 4
  let l := (s.port p).svc.lane
  modSvc p (fun v => { v with
      asg := none, n := 0
      nN := if l == Lane.N then v.nN + 1 else v.nN
      nS := if l == Lane.S then v.nS + 1 else v.nS })
    (modPort p (fun x => { x with provisional := x.provisional || (l == Lane.S && onDefaults s) })
      (modPos p c (fun y => { y with present := true, viaS := l == Lane.S, ident := some ⟨serial, 0, 0, 0, 0, 0, 0⟩ }) s))

/-- An answer to ADDR_ASSIGN: DONE assigns; RANGE on 0xFC tells of a fourth unit (R72, step 4); any other ends the walk of the lane. -/
def assignAnswer (p : Nat) (a : Assign) (stat : Nat) (data : Bytes) (s : State) : State :=
  if a.addr = 0xFC then
    modSvc p (fun v => { v with asg := none, ended := true }) (modPort p (fun x => { x with tooLong := x.tooLong || stat == 7 }) s)
  else if stat = 0 then assigned p a (leNat data) s
  else modSvc p (fun v => { v with asg := none, ended := true }) s

/-- The assignment is abandoned: no answer 4 cycles after the third retry (R59). -/
def assignDead (s : State) (p c : Nat) : Bool :=
  match (s.port p).svc.asg with
  | some a => a.addr.toNat % 4 == c && decide (3 ≤ a.tries) && decide (4 ≤ a.age) && a.check.isNone
  | none => false

/-- ADDR_ASSIGN in a slot. -/
def assignCmd (a : Assign) : DownCmd := { dst := 0xFE, cseq := a.cseq, opc := 0x01, data := [a.addr] }

/-- A new assignment takes a fresh CSEQ of the 0xFE series (R56). -/
def assignNew (p : Nat) (addr : Byte) (s : State) : State × List DownCmd :=
  let a : Assign := { addr := addr, cseq := (s.port p).cseqFirst }
  (modPort p (fun x => { x with cseqFirst := x.cseqFirst + 1, svc := { x.svc with asg := some a, n := 1 } }) s, [assignCmd a])

/-- A cycle with an assignment in flight: after 4 cycles IDENT_READ page 0 asks whether a unit holds the address, and 4 cycles later the
assignment is retried, at most 3 times (R59; R72, step 2). No unit can hold 0xFC, which is retried at once. -/
def assignWait (p : Nat) (a : Assign) (s : State) : State × List DownCmd :=
  let put (b : Assign) (s : State) : State := modSvc p (fun v => { v with asg := some b, n := 1 }) s
  let retry : Assign := { a with tries := a.tries + 1, age := 0, check := none }
  match a.check with
  | some (k, n) => if n + 1 < 4 then (put { a with check := some (k, n + 1) } s, []) else (put retry s, [assignCmd retry])
  | none =>
    let a := { a with age := a.age + 1 }
    if a.age < 4 || 3 ≤ a.tries then (put a s, [])
    else if a.addr = 0xFC then (put retry s, [assignCmd retry])
    else
      let c := a.addr.toNat % 4
      let k := (s.pos p c).cseq
      (put { a with check := some (k, 0) } (modPos p c (fun y => { y with cseq := y.cseq + 1 }) s),
        [{ dst := a.addr, cseq := k, opc := 0x02, data := [0] }])

/-- One cycle of the walk: the commands of its frame; none: the walk is over. A frame without a command follows each assignment, to see
whether the ring has closed. -/
def walkStep (p : Nat) (s : State) : State × Option (List DownCmd) :=
  let v := (s.port p).svc
  if v.n != 2 && returned s p then (laneEnd p (modSvc p (fun v => { v with closed := true }) s), none)
  else if v.ended then (laneEnd p s, none)
  else match v.asg with
    | some a => (match assignWait p a s with | (s, l) => (s, some l))
    | none =>
      if v.n = 0 then (modSvc p (fun v => { v with n := 1 }) s, some [])
      else match nextPlace s p with
        | some c => (match assignNew p (addrOf p c) s with | (s, l) => (s, some l))
        | none =>
          if v.lane == Lane.N && v.nN == 3 && !v.closed then (match assignNew p 0xFC s with | (s, l) => (s, some l))
          else (laneEnd p s, none)

/-! ### Measurement and corrections (R66 to R69, R79) -/

/-- The probes of some units: from both lanes in a closed ring, from one where the other does not reach; in a closed split port one from the
own lane, one in a cycle handed to the peer for each unit. -/
def probeJobs (s : State) (p : Nat) (cs : List Nat) : List SvcJob :=
  let probe (l : Lane) (c : Nat) : SvcJob := .cmds l [reqTo 4 p c 0x04 []]
  if !(s.port p).svc.closed then cs.map fun c => probe (posLane s p c) c
  else if split s p then cs.map (probe (homeLane s p)) ++ cs.map fun _ => .hand
  else cs.flatMap fun c => [probe .N c, probe .S c]

/-- k as CHAIN_SET gives it: the units of a closed ring; where it did not close the chain length of the configuration, 3 without one
(DESIGN CHOICE, log entry 57). -/
def chainLen (s : State) (p : Nat) : Nat :=
  let v := (s.port p).svc
  if v.closed then v.nN + v.nS else if 0 < (s.cfg.port p).ke then (s.cfg.port p).ke else 3

/-- CHAIN_SET, then CORR_SET; in a closed split port a cycle for the peer's CORR_SET to each unit. -/
def writeJobs (s : State) (p : Nat) : List SvcJob :=
  let cs := ownUnits s p
  unitJobs s p cs (fun c => reqTo 4 p c 0x05 (le 1 (chainLen s p))) ++
    unitJobs s p cs (fun c => reqTo 4 p c 0x03 (corrBytes (s.pos p c))) ++
    (if split s p && (s.port p).svc.closed then cs.map fun _ => .hand else [])

/-- After the probes: units that fail the check of R68 are measured again, from both lanes, up to 3 times (DESIGN CHOICE, log entry 57: R68
does not say what one repetition measures); then the check counts. -/
def measureEnd (p : Nat) (s : State) : State :=
  let ring := (s.port p).ringService
  let wrong := if split s p then [] else (ownUnits s p).filter fun c => delayBad (s.pos p c) ring
  if !wrong.isEmpty && decide ((s.port p).svc.redo < 3) then
    modSvc p (fun v => { v with redo := v.redo + 1, jobs := probeJobs s p wrong }) s
  else
    let s := forAll wrong (fun c s => raise (20 + p) 6 (modPos p c (fun y => { y with skewUnv := true }) s)) s
    enterPhase .write (writeJobs s p) p s

/-! ### Image load (R104, R105) -/

/-- The loads of a port: one for all units where they take the same image, else one for each unit that takes one. -/
def loadsOf (s : State) (p : Nat) : List Load :=
  let cs := ownUnits s p
  let img (c : Nat) : Option Bytes := ((s.pos p c).ident).bind (imageOf s)
  match cs.map img with
  | some b :: r =>
    if r.all (· == some b) then [⟨0xFF, cs, b⟩] else cs.filterMap fun c => (img c).map fun b => ⟨addrOf p c, [c], b⟩
  | _ => cs.filterMap fun c => (img c).map fun b => ⟨addrOf p c, [c], b⟩

/-- A command of a load to its units: on every lane in use by broadcast, else to its unit. -/
def loadCmd (s : State) (p : Nat) (l : Load) (opc : Byte) (data : Bytes) : List SvcJob :=
  if l.dst = 0xFF then (svcLanes s p).map (broadcastJob opc data)
  else unitJobs s p l.units fun _ => { pri := 4, dst := l.dst, opc := opc, data := data }

/-- LOAD_BEGIN, then the segments in order (R105, steps 1 and 2). -/
def beginJobs (s : State) (p : Nat) (l : Load) : List SvcJob :=
  let lane := match svcLanes s p, l.units with
    | x :: _, c :: _ => if l.dst = 0xFF then x else posLane s p c
    | _, _ => homeLane s p
  loadCmd s p l 0x10 (le 4 l.image.length ++ leW (crc32 l.image)) ++ [.bulk lane l.dst l.image 0]

/-- The units of a load that have not failed. -/
def loading (s : State) (p : Nat) (l : Load) : List Nat := l.units.filter fun c => !(s.port p).svc.failed.contains c

/-- LOAD_CHECK to each unit (R105, step 3). -/
def checkJobs (s : State) (p : Nat) (l : Load) : List SvcJob := unitJobs s p (loading s p l) fun c => reqTo 4 p c 0x11 []

/-- The units that were loaded run 2 ms after LOAD_START at the latest (R107): 32 cycles. -/
def startCycles : Nat := 32

/-- The units that took an image and are to be configured. -/
def configUnits (s : State) (p : Nat) : List Nat :=
  (ownUnits s p).filter fun c => !(s.port p).svc.failed.contains c && (((s.pos p c).ident).bind (imageOf s)).isSome

/-- INPUT_CFG to some units (R89). -/
def inputJobs (s : State) (p : Nat) (cs : List Nat) : List SvcJob :=
  let inputs (c : Nat) : Half := (s.cfg.slotGroups (slotOf p c)).foldl (fun m e => m ||| (1#16 <<< e.2)) 0
  unitJobs s p cs fun c => reqTo 4 p c 0x20 (le 2 (inputs c).toNat ++ le 1 (s.cfg.slot (slotOf p c)).tMask.toNat)

/-- The rest of the configuration of each unit, after INPUT_CFG (R89): TSENS_CFG, BLEED_MODE. -/
def configJobs (s : State) (p : Nat) : List SvcJob :=
  let cs := configUnits s p
  let slot (c : Nat) : CfgSlot := s.cfg.slot (slotOf p c)
  unitJobs s p cs (fun c => reqTo 4 p c 0x21 ([0x0F] ++ le 2 (slot c).r26 ++ le 2 (slot c).b)) ++
    unitJobs s p cs fun c => reqTo 4 p c 0x22 [if slotMode s (slotOf p c) s.bal.modeEff then 1 else 0]

/-- Waits for LOADED = 1 in the next UP block of each unit (R105, step 5). A unit sends one in service cycles only to answer a command (R93): from
32 cycles after LOAD_START on that is INPUT_CFG, the first command of its configuration, which goes to it again while it answers with
LOADED = 0. A unit that has not shown LOADED = 1 after 32 such rounds has failed to load (DESIGN CHOICE, log entry 57: the rule gives the
wait no end). -/
def awaitImages (p : Nat) (s : State) : State :=
  let v := (s.port p).svc
  let boot := (configUnits s p).filter fun c => !(s.pos p c).loaded
  if v.n < startCycles then s
  else if boot.isEmpty then enterPhase .config (configJobs s p) p s
  else if v.n < 2 * startCycles then modSvc p (fun v => { v with n := v.n + 1, jobs := inputJobs s p boot }) s
  else
    let s := modSvc p (fun v => { v with failed := v.failed ++ boot }) s
    enterPhase .config (configJobs s p) p s

/-- The next load of a port, or what follows the last one. -/
def nextLoad (p : Nat) (s : State) : State :=
  match (s.port p).svc.loads with
  | l :: _ => enterPhase .load (beginJobs s p l) p (modSvc p (fun v => { v with pass := 0, gaps := [] }) s)
  | [] =>
    if split s p && !(s.port p).svc.closed && commands s then enterPhase .handLoad [] p s
    else enterPhase .wait [] p s

/-- After LOAD_CHECK: a gap-fill pass from the first missing segment on, at most 3, then LOAD_START (R105, steps 3 and 4). -/
def checked (p : Nat) (l : Load) (s : State) : State :=
  let v := (s.port p).svc
  let gaps := v.gaps.filter fun e => decide (0 < e.2.1)
  if gaps.isEmpty || 3 ≤ v.pass then
    let s := modSvc p (fun v => { v with failed := v.failed ++ gaps.map Prod.fst }) s
    enterPhase .start (if (loading s p l).isEmpty then [] else loadCmd s p l 0x12 (leW (crc32 l.image))) p s
  else
    enterPhase .fill (gaps.map fun e => .bulk (posLane s p e.1) (addrOf p e.1) l.image e.2.2) p
      (modSvc p (fun v => { v with pass := v.pass + 1, gaps := [] }) s)

/-! ### The end of an enumeration (R72, step 6; R104) -/

/-- The units found have no image in the table: UNIT_NO_IMAGE (R104). -/
def noteImages (p : Nat) (cs : List Nat) (s : State) : State :=
  forAll cs (fun c s => match (s.pos p c).ident with
    | some i => if (imageOf s i).isSome then s else recordNoImage p c i (modPos p c (fun y => { y with noImage := true }) s)
    | none => s) s

/-- The enumeration of a port is over. ENUM_DONE, the swap and the check of the port are the holder's alone (R369, R410); a standby that walked the
far side of a split port goes on to its loads. RING and BREAK_SEG, before any sampling cycle has shown them, follow from the walk: CLOSED where it closed, else BROKEN where
every expected position is filled, else INCOMPLETE, the break behind the last unit addressed from lane N (DESIGN CHOICE, log entry 57). -/
def enumDone (p : Nat) (s : State) : State :=
  let found := [0, 1, 2].filter fun c => (s.pos p c).present
  let v := (s.port p).svc
  let complete := [0, 1, 2].all fun c => decide ((s.cfg.port p).ke ≤ c) || found.contains c
  let fromN := found.countP fun c => !(s.pos p c).viaS
  let s := modPort p (fun x => { x with
    kFound := found.length
    ring := if found.isEmpty then 3 else if v.closed then 0 else if complete then 1 else 2
    breakSeg := if v.closed || found.isEmpty then 0 else fromN
    lastBreak := if v.closed then x.lastBreak else fromN
    wasIncomplete := !v.closed && !complete
    link := if found.isEmpty then 3 else 1 }) s
  let s := noteImages p (if commands s then found else ownUnits s p) s
  let s := onlyIf (commands s) (fun s => swapCheck p (raise (20 + p) 9 s)) s
  if found.isEmpty then onlyIf (commands s) (portCheck p) (enterPhase .off [] p s)
  else nextLoad p (modSvc p (fun v => { v with loads := loadsOf s p }) s)

/-- The units that the peer has addressed, or loaded, on its side of the port. -/
def peerUnits (p : Nat) (l : List (Nat × UnitIdent)) (s : State) : State :=
  let far := !(homeLane s p == Lane.S)
  forAll l (fun e s => modPos p e.1 (fun y => { y with present := true, viaS := if y.present then y.viaS else far, ident := some e.2 }) s) s

/-- The jobs of a phase are done: what follows. -/
def nextPhase (p : Nat) (o : LinkObs) (s : State) : State :=
  let x := s.port p
  let v := x.svc
  match v.phase with
  | .lock =>
    if 8 ≤ v.n || ((x.lockN || !laneOn s p .N) && (x.lockS || !laneOn s p .S) && 0 < v.n) then
      enterPhase .reset (if split s p then [broadcastJob 0x06 [] (homeLane s p), .hand] else [broadcastJob 0x06 [] .N, broadcastJob 0x06 [] .S]) p s
    else s
  | .reset => modSvc p (fun v => { v with lane := homeLane s p, n := 2 }) (enterPhase .walk [] p s)
  | .handWalk =>
    match o.peer with
    | some l => let s := peerUnits p l s; enterPhase .identity (identityJobs s p) p s
    | none => if s.pai.peerUp then s else enterPhase .identity (identityJobs s p) p s
  | .identity => enterPhase .measure (probeJobs s p (ownUnits s p)) p s
  | .measure => measureEnd p s
  | .write => enumDone p s
  | .load => match v.loads with | l :: _ => enterPhase .check (checkJobs s p l) p s | [] => nextLoad p s
  | .check => match v.loads with | l :: _ => checked p l s | [] => nextLoad p s
  | .fill => match v.loads with | l :: _ => enterPhase .check (checkJobs s p l) p s | [] => nextLoad p s
  | .start => nextLoad p (modSvc p (fun v => { v with loads := v.loads.drop 1 }) s)
  | .handLoad =>
    match o.peer with
    | some l =>
      let far := [0, 1, 2].filter fun c => (s.pos p c).present && !(ownUnits s p).contains c && !(l.any fun e => e.1 == c)
      enterPhase .wait [] p (modSvc p (fun v => { v with failed := v.failed ++ far }) s)
    | none => if s.pai.peerUp then s else enterPhase .wait [] p s
  | .wait => awaitImages p s
  | .config =>
    onlyIf (commands s) (portCheck p) (enterPhase .ready [] p (forAll (ownUnits s p) (fun c => modSlot (slotOf p c) fun b =>
      let m := slotMode s (slotOf p c) s.bal.modeEff
      { b with comp := m, compOn := m, compDue := none }) s))
  | .off | .walk | .ready | .follow => s

/-! ### One service cycle (R54) -/

/-- A first job whose commands are all sent and answered, or abandoned, is done. -/
def jobsLeft (x : Port) : List SvcJob :=
  match x.svc.jobs with
  | .cmds _ [] :: r => if x.pos.any fun y => y.cmd.isSome then x.svc.jobs else r
  | l => l

/-- What a cycle sends: a lane with commands and perhaps a BULK frame; none: nothing. -/
structure SvcSend where
  lane : Lane
  cmds : List DownCmd := []
  bulk : Option Bytes := none
  deriving DecidableEq, Repr

/-- The cycle of the first job. -/
def jobStep (p : Nat) (s : State) : State × Option SvcSend :=
  let x := s.port p
  match x.svc.jobs with
  | [] => (modSvc p (fun v => { v with n := v.n + 1 }) s, some { lane := x.svc.lane })
  | .idle :: r => (modSvc p (fun v => { v with jobs := r }) s, some { lane := x.svc.lane })
  | .cmds l rs :: r =>
    let f := fillSlots (fun _ => true) { x with waiting := rs }
    (modPort p (fun _ => { f.port with waiting := x.waiting, svc := { x.svc with jobs := .cmds l f.left :: r, lane := l } }) s,
      some { lane := l, cmds := f.cmds })
  | .bulk l dst img n :: r =>
    let more := decide (176 * (n + 1) < img.length)
    (modSvc p (fun v => { v with jobs := if more then .bulk l dst img (n + 1) :: r else r, lane := l }) s,
      some { lane := l, bulk := some (bulkBytes l dst n (slice img (176 * n) 176)) })
  | .hand :: r => (modSvc p (fun v => { v with jobs := r }) s, none)

/-- Phases in which FLAGS.ENUM is set: the port is enumerating (R72), a standby's handed cycles of it among them (R79). -/
def enumPhase (v : Svc) : Bool :=
  v.phase == .follow || v.phase == .lock || v.phase == .reset || v.phase == .walk || v.phase == .identity || v.phase == .measure || v.phase == .write

/-- FLAGS.BLEED_STOP of a port's next DOWN frame (R212, R362, R411). -/
def bleedStopFlag (s : State) (p : Nat) : Bool :=
  let probing := [0, 1, 2].any fun c => (s.bal.slots.getD (slotOf p c) {}).probe != 0
  commands s &&
    (planInhibit s || s.bal.stopPorts.contains p || s.pwr.leaving || (!planning s && s.bal.learn.isNone && !probing))

/-- Sends the frames of a service cycle; the result is the DOWN frame as sent: none on a lane whose transmitter is held off (Table 2.9). -/
def sendService (p : Nat) (x : SvcSend) (s : State) : State × Bytes :=
  if !laneOn s p x.lane then (s, []) else
  let idx := svcIdx s
  let bit (b : Bool) (n : Nat) : Byte := if b then 1#8 <<< n else 0
  let y := s.port p
  let flags := bit (bleedStopFlag s p) 1 ||| bit (enumPhase y.svc) 2 ||| bit (y.lastIdx != some (idx - 1) || idx == 0) 3
  let b := downBytes x.lane 3 (idx % 2 ^ 32) flags p x.cmds
  let s := modPort p (fun y => { y with lastIdx := some idx, cad := 3, svc := { y.svc with lane := x.lane } }) s
  match takeSeed s with
  | (k, s) =>
    let s := send (.down p x.lane k b) s
    match x.bulk with
    | some d => (match takeSeed s with | (k, s) => (send (.bulk p x.lane k d) s, b))
    | none => (s, b)

/-- The machine of a port between two cycles, then the frame of the cycle. The first argument bounds the phases that pass without a cycle of
their own. -/
def svcStep : Nat → Nat → LinkObs → State → State × Option SvcSend
  | 0, p, _, s => jobStep p s
  | k + 1, p, o, s =>
    let s := modPort p (fun x => { x with svc := { x.svc with jobs := jobsLeft x } }) s
    let v := (s.port p).svc
    if (s.port p).link != 1 then (s, none)
    else if v.phase == .walk then
      match walkStep p s with
      | (s, some l) => (s, some { lane := (s.port p).svc.lane, cmds := l })
      | (s, none) => svcStep k p o s
    else if !v.jobs.isEmpty then jobStep p s
    else
      let t := nextPhase p o s
      if (t.port p).svc.phase != v.phase || !(t.port p).svc.jobs.isEmpty then svcStep k p o t
      else if v.phase == .handWalk || v.phase == .handLoad then (t, none)
      else jobStep p t

/-- CSEQ of the commands that the other module sends: the series go on from them (R56). -/
def heardSeq (p : Nat) (k : LinkCmd) (s : State) : State :=
  if k.dst = 0xFF then modPort p (fun x => { x with cseqAll := k.cseq + 1 }) s
  else if k.dst = 0xFE then modPort p (fun x => { x with cseqFirst := k.cseq + 1 }) s
  else if k.dst.toNat / 4 = p then modPos p (k.dst.toNat % 4) (fun y => { y with cseq := k.cseq + 1 }) s
  else s

/-- A standby that follows, in a cycle handed to it: UNIT_RESET from its side first; then, where the holder's frames come through, its probes
and corrections; else it walks the far side (R79, R369, R410). -/
def followStep (p : Nat) (s : State) : State × Option SvcSend :=
  let v := (s.port p).svc
  let l := homeLane s p
  let cs := [0, 1, 2].filter fun c => (s.pos p c).present
  let s :=
    if v.n = 0 then modSvc p (fun v => { v with n := 1, jobs := [broadcastJob 0x06 [] l] }) s
    else if !v.jobs.isEmpty then s
    else if !v.closed then modSvc p (fun v => { v with phase := .walk, lane := l, n := 2 }) s
    else if cs.isEmpty then s
    else if v.n = 1 then modSvc p (fun v => { v with n := 2, jobs := cs.map fun c => .cmds l [reqTo 4 p c 0x04 []] }) s
    else modSvc p (fun v => { v with n := 3, jobs := cs.map fun c => .cmds l [reqTo 4 p c 0x03 (corrBytes (s.pos p c))] }) s
  if (s.port p).svc.phase == .follow && !(s.port p).svc.jobs.isEmpty then jobStep p s else (s, none)

/-- What PEER tells a standby: the units that the holder has addressed (R369), before it hands over its first probe (R79). The standby neither
raises ENUM_DONE nor checks the port: only the holder runs those steps (R369, R410). -/
def heardPeer (p : Nat) (o : LinkObs) (s : State) : State :=
  match o.peer with
  | none => s
  | some l =>
    let s := peerUnits p l s
    if (s.port p).svc.phase != .follow then s
    else
      let k := (s.port p).pos.countP Pos.present
      modPort p (fun x => { x with
        kFound := k, ring := if k = 0 then 3 else if x.svc.closed then 0 else if k = (s.cfg.port p).ke then 1 else 2 }) s

/-- One service cycle of a port: what it sends, then what its lanes hear. Only the module that holds SELECT transmits, but for the cycles it hands
to the peer (R78); in a split port a frame of the other module closes the ring for a follower. -/
def serviceCycle (p : Nat) (o : LinkObs) (s : State) : State :=
  let holder := commands s
  let s := modPort p (fun x => { x with svc := { x.svc with jobs := jobsLeft x } }) (noBlocks p s)
  let s := if holder then s else heardPeer p o s
  let act_ : State × Option SvcSend :=
    if !holder && (s.port p).svc.phase == .follow then (if o.handed then followStep p s else (s, none))
    else if holder || o.handed then svcStep 16 p o s
    else (s, none)
  match act_ with
  | (s, x) =>
    let sent : State × Bytes := match x with
      | some x => sendService p x s
      | none => (s, [])
    match sent with
    | (s, b) =>
      let l := (s.port p).svc.lane
      match hearReturns p o (if l == Lane.N then b else []) (if l == Lane.S then b else []) s with
      | (s, hN, hS) =>
        let other := if split s p && b.isEmpty then ((if role s = 2 then hS else hN).bind downIn) else none
        match other with
        | some f =>
          forAll f.slots (heardSeq p) (modSvc p (fun v => { v with closed := v.closed || (v.phase == .follow && v.n != 0 && f.cad == 3) }) s)
        | none => s

/-! ### Answers in service cycles (R58, R59, R114) -/

/-- The identity of a position as a page tells it (Table 3.2). -/
def identPageSeen (page : Nat) (d : Bytes) (i : UnitIdent) : UnitIdent :=
  match page with
  | 0 => { i with serial := leNat d }
  | 1 => { i with vendor := BitVec.ofNat 16 (leNat (slice d 0 2)), model := BitVec.ofNat 16 (leNat (slice d 2 2)), hwRev := d.getD 4 0 }
  | 2 => { i with packId := leNat d }
  | _ => { i with bleedImax := (d.getD 2 0).toNat, owCaps := d.getD 3 0 }

/-- A command of a service cycle ended: answered with RSTAT `stat`, or abandoned. A unit that refuses a command of its load or of its
configuration, or does not answer it, has failed to load (R368); one that answers INPUT_CFG with NOT_LOADED is still awaited (R105, step 5). -/
def svcAnswer (p c : Nat) (q : LinkReq) (stat : Option Nat) (data : Bytes) (s : State) : State :=
  let done := stat == some 0
  if q.opc = 0x02 && done then
    modPos p c (fun y => { y with ident := y.ident.map (identPageSeen (q.data.getD 0 0).toNat (fit 8 data)) }) s
  else if q.opc = 0x11 && done then
    modSvc p (fun v => { v with gaps := v.gaps ++ [(c, leNat (slice data 0 2), leNat (slice data 2 2))] }) s
  else if q.opc = 0x20 && stat == some 6 then s
  else if [0x10, 0x11, 0x12, 0x20, 0x21, 0x22].contains q.opc.toNat && !done then
    modSvc p (fun v => { v with failed := v.failed ++ [c] }) s
  else s

/-- The first copy of a block of a service cycle (R54, R71, R114): the answer to ADDR_ASSIGN, to the IDENT_READ before its retry, or to the
command in flight, which goes on with PENDING. A follower learns from it that the unit is there (R369). -/
def svcAnswered (p : Nat) (l : Lane) (b : Bytes) (s : State) : State × Option (Nat × LinkReq × Nat × Bytes) :=
  let status := leNat (slice b 4 2)
  let rseq := b.getD 48 0
  let ropc := b.getD 49 0
  let stat := (b.getD 50 0).toNat
  let data := slice b 52 (min 8 (b.getD 51 0).toNat)
  let a := (b.getD 1 0).toNat
  let c := a % 4
  let asg := (s.port p).svc.asg
  match asg.filter fun e => e.cseq == rseq && ropc == 0x01 with
  | some e => (assignAnswer p e stat data s, none)
  | none =>
    match asg.filter fun e => e.addr == b.getD 1 0 && ropc == 0x02 && (e.check.map Prod.fst) == some rseq && stat == 0 with
    | some e => (assigned p e (leNat data) s, none)
    | none =>
      let s := if a / 4 == p && (s.port p).svc.phase == .follow then
          modPos p c (fun y => { y with present := true, ident := y.ident.or (some ⟨0, 0, 0, 0, 0, 0, 0⟩) }) s
        else s
      if a / 4 != p || !(s.pos p c).present then (s, none)
      else
        let s := modPos p c (fun y => { y with
          loaded := status / 64 % 2 == 1
          ageN := if l == Lane.N then 0 else y.ageN
          ageS := if l == Lane.S then 0 else y.ageS }) s
        match (s.pos p c).cmd with
        | none => (s, none)
        | some k =>
          if k.cseq != rseq || k.req.opc != ropc then (s, none)
          else if stat = 1 then (modPos p c (fun y => { y with cmd := some { k with age := 0, again := false } }) s, none)
          else (modPos p c (fun y => { y with cmd := none }) s, some (c, k.req, stat, data))

/-- A valid UP block of a service cycle: of another instant (R61), a second copy (R60, R61), or the first one. -/
def svcBlock (p : Nat) (l : Lane) (b : Bytes) (s : State) : State × Option (Nat × LinkReq × Nat × Bytes) :=
  let a := (b.getD 1 0).toNat
  if leNat (slice b 2 2) != svcIdx s % 65536 then
    (raise (20 + p) 10 (modPort p (fun x => { x with cnt := bumpAt x.cnt 5 }) s), none)
  else
    match (if a / 4 == p then (s.pos p (a % 4)).got else none) with
    | some (_, old, _) => (secondCopy p 59 old b s, none)
    | none =>
      let s := if a / 4 == p then modPos p (a % 4) (fun y => { y with got := some (blockOf b, b, l) }) s else s
      if (blockOf b).status.getLsbD 7 then svcAnswered p l b s else (s, none)

/-! ### Ports ready to sample -/

/-- Every unit found on the port runs; a port that was stopped meanwhile has none (R74). -/
def unitsRun (s : State) (p : Nat) : Bool :=
  (s.port p).link != 0 && ([0, 1, 2].all fun c =>
    !(s.pos p c).present || (!(s.port p).svc.failed.contains c && (((s.pos p c).ident).bind (imageOf s)).isSome))

/-- PHASE of a start-up (Table 12.7), the earliest of its ports: lock and reset, enumeration, reload, waiting for the first instant. -/
def startPhase (s : State) : Nat :=
  (List.range (nPorts s)).foldl (fun m p =>
    let x := s.port p
    let k := if portReady x then 5
      else match x.svc.phase with
        | .lock | .reset => 2
        | .walk | .follow | .handWalk | .identity | .measure | .write => 3
        | _ => 4
    min m k) 5

end Sys2Proof.Machine
end

