-- ==== Sys2Proof/Machine/Cycle.lean ====
section
/-! DEFINITION. The link cycle and what a coherent frame does (R47, R60 to R64, R131, R132), and the commands LINK_CYCLE,
UP_BLOCK_RECEIVED, CMD_TIMEOUT, UNIT_STALE, FRAME_CLOSE, CURRENT_RESULT. -/

namespace Sys2Proof.Machine

open Sys2Proof

/-! ### Answers of units -/

/-- A probe whose BLEED_SET was refused or abandoned ends without samples: an INCONCLUSIVE result of its wire (R259, R260). -/
def probeFailed (u : Nat) (s : State) : State :=
  match (s.owU u).probe with
  | none => s
  | some pr =>
    let s := modSlot u (fun b => { b with probe := 0, noPlan := commands s && s.bal.roundDue }) (modOw u (fun o => { o with probe := none }) s)
    match pr.wire with
    | some w => if pr.above then owInconclusive (u + 1) 0 s else owInconclusive u w s
    | none => modOw u (fun o => { o with dev := none, devSuspect := false }) s

/-- A command ended: answered with RSTAT `stat`, or abandoned (none). -/
def cmdEnded (p c : Nat) (q : LinkReq) (stat : Option Nat) (data : Bytes) (s : State) : State :=
  let u := slotOf p c
  let s := if (s.port p).link = 1 then svcAnswer p c q stat data s else s
  let done := stat == some 0
  if q.opc = 0x30 then
    let probing := (s.bal.slots.getD u {}).probe == 4
    let s := match stat with
      | some _ => bleedAnswer u done s
      | none => modBal (fun b => { b with sent := b.sent.filter fun x => x.slot != u })
          (stopSlotRecs u (BitVec.ofNat 16 (leNat (slice q.data 0 2))) s)
    onlyIf (probing && !done) (probeFailed u) s
  else if q.opc = 0x40 then onlyIf (!done) (owFailed u) s
  else if q.opc = 0x50 then diagAnswer u (if done then some data else none) s
  else s

/-- A response in an accepted block (R56 to R59). -/
def respFx (p c : Nat) (rseq : Byte) (stat : Nat) (data : Bytes) (s : State) : State :=
  match (s.pos p c).cmd with
  | none => s
  | some k =>
    if k.cseq != rseq then s
    else if stat = 1 then modPos p c (fun x => { x with cmd := some { k with age := 0, again := false } }) s
    else cmdEnded p c k.req (some stat) data (modPos p c (fun x => { x with cmd := none }) s)

/-! ### UP blocks (R60, R61, R64, R407) -/

/-- The unit of a position is reached again: the planner's BLEED_STOP that waited for it goes out (R230). -/
def recovered (u : Nat) (s : State) : State :=
  let s := portPulse (u / 3) 1 s
  if !(s.bal.slots.getD u {}).stopDue then s
  else onlyIf (commands s) (stopSlot u 0xFFFF) (modSlot u (fun b => { b with stopDue := false }) s)

/-- Accepts a block for the instant in course. One without samples, as a unit sends it after a watchdog expiry, brings no data: the unit goes
stale all the same (R82; DEDUCED, log entry 64). -/
def acceptBlock (p c : Nat) (lane : Lane) (b : Bytes) (s : State) : State :=
  let blk := blockOf b
  let live := blk.status.getLsbD 0
  let was := (s.pos p c).stale && live
  let s := modPos p c (fun x => { x with
    got := some (blk, b, lane), missRun := if live then 0 else x.missRun, stale := x.stale && !live
    ageN := if lane == Lane.N then 0 else x.ageN
    ageS := if lane == Lane.S then 0 else x.ageS
    flywheel := blk.status.getLsbD 1, droneS := blk.status.getLsbD 2, loaded := blk.status.getLsbD 6 }) s
  let s := if was then recovered (slotOf p c) s else s
  if (s.xr (6 + p / 8)).down then refuse (6 + p / 8) (modPos p c (fun x => { x with got := none }) s) else s

/-- A unit that answers as boot code again runs no timer (R223). -/
def bootSeen (p c : Nat) (was : Bool) (s : State) : State :=
  if was && !(s.pos p c).loaded then unitRestarted (slotOf p c) s else s

/-- The peer needs the block: it is forwarded (R407). -/
def forwardBlock (u : Nat) (b : Bytes) (s : State) : State :=
  if (blockOf b).status.getLsbD 0 && split s (u / 3) && s.pai.peerUp && ((s.pai.peer.map PeerStatus.need).getD 0).getLsbD u then
    sendPeer 0x90 (addrOf (u / 3) (u % 3) :: slice b 2 46) { s with pai := { s.pai with fwdTx := satAdd s.pai.fwdTx 1 } }
  else s

/-- The response of a block, where it holds one. -/
def blockResponse (p c : Nat) (b : Bytes) (s : State) : State :=
  if (blockOf b).status.getLsbD 7 then respFx p c (b.getD 48 0) (b.getD 50 0).toNat (slice b 52 (min 8 (b.getD 51 0).toNat)) s else s

/-- A valid block that carries the instant in course. The first copy may come after the frame has closed: late, and discarded (R61). A first
copy that the peer forwarded holds the bytes up to 47, no response (R407): that of the own copy counts. -/
def blockFx (p c : Nat) (lane : Lane) (b : Bytes) (s : State) : State :=
  match (s.pos p c).got, (s.pos p c).late with
  | some (_, old, _), _ =>
    if old.length = 48 then blockResponse p c b (secondCopy p 47 old b s) else secondCopy p 59 old b s
  | none, some old => secondCopy p 59 old b s
  | none, none =>
    if frameClosed s then
      portPulse p 2 (modPort p (fun x => { x with cnt := bumpAt x.cnt 6 }) (modPos p c (fun x => { x with late := some b }) s))
    else
      let was := (s.pos p c).loaded
      blockResponse p c b (forwardBlock (slotOf p c) b (bootSeen p c was (acceptBlock p c lane b s)))

/-- UP_BLOCK_RECEIVED: the frame that has just ended in an up window (R45, R46, R60, R61); a block of a service cycle is matched to its command
(R114). In a pair a standby learns from a valid block that its unit is there (R369). -/
def upBlockFx (p : Nat) (lane : Lane) (rx : Bits) (s : State) : State :=
  let link := (s.port p).link
  if link != 1 && link != 2 then s
  else match hearWindow p lane rx s with
    | (s, some (.frame b)) =>
      let a := (b.getD 1 0).toNat
      let c := a % 4
      if (b.getD 0 0).toNat / 16 != 2 then s
      else if link = 1 then
        match svcBlock p lane b s with
        | (s, some (c, q, stat, data)) => cmdEnded p c q (some stat) data s
        | (s, none) => s
      else if a / 4 != p || c == 3 then s
      else
        let s := if !commands s then modPos p c (fun x => { x with present := true }) s else s
        if !(s.pos p c).present then s
        else if leNat (slice b 2 2) != s.smp.instant % 65536 then
          raise (20 + p) 10 (modPort p (fun x => { x with cnt := bumpAt x.cnt 5 }) s)
        else blockFx p c lane b s
    | (s, _) => s

def execUpBlockReceived (p : Fin 48) (lane : Lane) (rx : Bits) (s : State) : Host.Outcome State Fault Refusal :=
  act (fun s => if alive s && portPresent s p then upBlockFx p lane rx s else s) s

/-- CMD_TIMEOUT: no response 4 cycles after the third retry (R59); the walk's part (R72), the planner's and PRO's (R230, R256). -/
def timeoutFx (p c : Nat) (s : State) : State :=
  let x := s.pos p c
  if (s.port p).link = 1 && assignDead s p c then
    modSvc p (fun v => { v with asg := none, ended := true }) (cmdTimeoutFx p 3 s)
  else match x.cmd with
    | none => s
    | some k => if cmdDead x then cmdEnded p c k.req none [] (cmdTimeoutFx p c s) else s

def execCmdTimeout (p : Fin 48) (c : Fin 3) (s : State) : Host.Outcome State Fault Refusal :=
  act (fun s => if alive s && portPresent s p then timeoutFx p c s else s) s

/-- UNIT_STALE: no block accepted for 8 consecutive instants (R64). The unit receives no BLEED_SET any more (R230): one that waits goes, and a probe
that waits for its BLEED_SET ends without samples. -/
def staleUnit (p c : Nat) (s : State) : State :=
  let x := s.pos p c
  if x.stale || x.missRun < 8 then s
  else
    let u := slotOf p c
    let b := s.bal.slots.getD u {}
    onlyIf (b.probe == 1 || b.probe == 2 || b.probe == 3) (probeFailed u) (withdraw u 0xFFFF
      (modSlot u (fun b => { b with stopDue := true }) (portPulse p 0 (modPos p c (fun y => { y with stale := true }) s))))

def execUnitStale (p : Fin 48) (c : Fin 3) (s : State) : Host.Outcome State Fault Refusal :=
  act (fun s => if alive s && portPresent s p then staleUnit p c s else s) s

/-! ### LINK_CYCLE -/

/-- Steps of the probes of a port before its frame (R222): the other bleeds stop, then the probe's BLEED_SET waits for its slot. -/
def probeStep (p : Nat) (s : State) : State :=
  forAll [0, 1, 2] (fun c s =>
    let u := slotOf p c
    let b := s.bal.slots.getD u {}
    match b.probe with
    | 1 => modSlot u (fun b => { b with probe := 2 }) (stopSlot u 0xFFFF (withdraw u 0xFFFF s))
    | 2 =>
      let m : Half := 1#16 <<< b.probeInput
      let d := s.cfgPro.probeT.toNat / 10000000
      modSlot u (fun b => { b with probe := 3 })
        (addReq p (reqTo 3 p c 0x30 (le 2 m.toNat ++ le 2 d ++ [if s.cfgEst.allowAdj then 1 else 0])) s)
    | 4 => onlyIf (s.owU u).probe.isNone (modSlot u fun b => { b with probe := 0 }) s
    | _ => s) s

/-- A BLEED_SET that a frame carries to a slot's unit: its answer is awaited, and the charge since is gathered (R223). -/
def sentFx (u : Nat) (mask : Half) (dur : Nat) (s : State) : State :=
  let gs := ((s.cfgEst.slotGroups u).filter fun e => mask.getLsbD e.2).map Prod.fst
  modBal (fun b => { b with
    sent := (b.sent.filter fun y => y.slot != u) ++ [{ slot := u, mask := mask, dur := dur, at_ := s.smp.timeNs }]
    recs := b.recs.mapIdx fun g r => if gs.contains g then { r with pq := 0, pUnconf := false, pComp := false } else r }) s

/-- What a command placed in a frame starts on the module's side. A retry starts no record anew: a BLEED_SET that FLAGS.BLEED_STOP voided stays
without one (R221). -/
def placed (p : Nat) (k : DownCmd) (s : State) : State :=
  let u := slotOf p (k.dst.toNat % 4)
  let first := match (s.pos p (k.dst.toNat % 4)).cmd with | some c => c.tries == 0 | none => true
  let mode : Option Bool := if k.opc = 0x22 then some (k.data.getD 0 0 == 1) else none
  if k.dst = 0xFF && mode.isSome then forAll [0, 1, 2] (fun c => modSlot (slotOf p c) fun b => { b with compDue := mode }) s
  else if k.dst.toNat / 4 != p then s
  else if mode.isSome then modSlot u (fun b => { b with compDue := mode }) s
  else if k.opc = 0x30 && first then
    let s := sentFx u (BitVec.ofNat 16 (leNat (slice k.data 0 2))) (leNat (slice k.data 2 2)) s
    if (s.bal.slots.getD u {}).probe = 3 then
      (if (s.owU u).probe.isSome then probeSent u (modSlot u (fun b => { b with probe := 4 }) s) else modSlot u (fun b => { b with probe := 0 }) s)
    else s
  else if k.opc = 0x31 then stopSentFx u (BitVec.ofNat 16 (leNat (slice k.data 0 2))) s
  else if k.opc = 0x40 then owSent u s
  else s

/-- Records of a port after a frame with FLAGS.BLEED_STOP: every timer stops, every BLEED_SET not yet answered is void (R212, R221). -/
def stopWithFrame (p : Nat) (s : State) : State :=
  let t := s.smp.timeNs
  modBal (fun b => { b with
    sent := b.sent.filter fun x => x.slot / 3 != p
    recs := b.recs.mapIdx fun g r => if portOf s.cfgEst g == some p then r.stopBy t else r }) s

/-- A command that the standby hears the holder send to one unit: it awaits the answer and records as the holder does (R231, R263). The
unit's CSEQ series goes on from it. A retry of the holder's changes nothing but the count of them (R59, R221). -/
def heardUnit (p c : Nat) (k : DownCmd) (s : State) : State :=
  let u := slotOf p c
  let x := s.pos p c
  let mask : Half := BitVec.ofNat 16 (leNat (slice k.data 0 2))
  let dur := leNat (slice k.data 2 2)
  let same (y : InFlight) : Bool := y.cseq == k.cseq && y.req.opc == k.opc
  if x.cmd.isNone && x.cseq == k.cseq + 1 then s
  else if (x.cmd.map same).getD false then
    modPos p c (fun z => { z with cmd := z.cmd.map fun y => { y with tries := y.tries + 1, age := 0, again := false } }) s
  else
    let s := match x.cmd with
      | some y => cmdEnded p c y.req none [] s
      | none => s
    let s := modPos p c (fun z => { z with
      cmd := some { req := { pri := 3, dst := k.dst, opc := k.opc, data := k.data }, cseq := k.cseq }, cseq := k.cseq + 1 }) s
    if k.opc = 0x30 then
      heardProbe u mask dur (sentFx u mask dur s)
    else if k.opc = 0x31 then stopSentFx u mask s
    else if k.opc = 0x22 then modSlot u (fun b => { b with comp := k.data.getD 0 0 == 1, compDue := some (k.data.getD 0 0 == 1) }) s
    else if k.opc = 0x40 then heardPass u (BitVec.ofNat 24 (leNat (slice k.data 0 3))) ((k.data.getD 3 0).getLsbD 7) s
    else if k.opc = 0x41 then owFailed u s
    else s

/-- One command of the holder's DOWN frame as a standby hears it. -/
def heardCmd (p : Nat) (q : LinkCmd) (s : State) : State :=
  let k : DownCmd := { dst := q.dst, cseq := q.cseq, opc := q.opc, data := q.data }
  let c := k.dst.toNat % 4
  if k.dst = 0xFF then
    let s := modPort p (fun x => { x with cseqAll := k.cseq + 1 }) s
    if k.opc = 0x31 then forAll [0, 1, 2] (fun c => stopSentFx (slotOf p c) (BitVec.ofNat 16 (leNat (slice k.data 0 2)))) s
    else if k.opc = 0x22 then
      let m := k.data.getD 0 0 == 1
      forAll [0, 1, 2] (fun c => modSlot (slotOf p c) fun b => { b with comp := m, compDue := some m }) (modBal (fun b => { b with modeEff := m }) s)
    else s
  else if k.dst = 0xFE then modPort p (fun x => { x with cseqFirst := k.cseq + 1 }) s
  else if k.dst.toNat / 4 != p || c == 3 || !(s.pos p c).present then s
  else heardUnit p c k s

/-- What the standby hears of the holder's DOWN frame at its own lane of a split port (R77, R231, R263). -/
def heardFrame (p : Nat) (f : DownIn) (s : State) : State :=
  if commands s || !split s p || f.port != p then s
  else
    let s := forAll f.slots (heardCmd p) s
    if f.flags.getLsbD 1 then stopWithFrame p s else s

/-- No BLEED_SET goes to a stale unit (R230), and the planner sends its own only while it plans (R211); those of learning and of probes go on. -/
def mayBleed (s : State) (p : Nat) (r : LinkReq) : Bool :=
  let u := slotOf p (r.dst.toNat % 4)
  let probe := (s.bal.slots.getD u {}).probe
  r.opc != 0x30 || (!(s.posU u).stale && (s.bal.learn.isSome || probe == 3 || probe == 4 || planning s))

/-- The command may go to its unit: a broadcast, or one to a unit reached by the module's own frames in the last 16 cycles (R409). -/
def reaches (s : State) (p : Nat) (r : LinkReq) : Bool := r.dst.toNat / 4 != p || ownReach s (slotOf p (r.dst.toNat % 4))

/-- A BLEED_SET whose retry may not go any more is abandoned (R211, R230). -/
def dropRetries (p : Nat) (s : State) : State :=
  forAll [0, 1, 2] (fun c s =>
    match (s.pos p c).cmd with
    | some k => if k.again && !mayBleed s p k.req then cmdEnded p c k.req none [] (modPos p c (fun x => { x with cmd := none }) s) else s
    | none => s) s

/-- The DOWN frames of a port at the instant just issued, and their returns (R51, R55, R62, R77). -/
def downPort (p : Nat) (first : Bool) (o : LinkObs) (s : State) : State :=
  let holder := commands s
  let s := if holder then dropRetries p (probeStep p s) else s
  let stop := bleedStopFlag s p
  let x := s.port p
  let f := fillSlots (reaches s p) { x with waiting := x.waiting.filter (mayBleed s p) }
  let cmds := if holder then f.cmds else []
  let s := if holder then modPort p (fun _ => { f.port with waiting := f.left }) s else s
  let s := modPort p (fun x => { x with
    cad := s.smp.cad, lastIdx := some s.smp.instant, pos := x.pos.map fun y => { y with got := none, late := none } }) s
  let s := forAll cmds (placed p) s
  let s := if stop then stopWithFrame p s else s
  let bit (b : Bool) (n : Nat) : Byte := if b then 1#8 <<< n else 0
  let flags := bit (!holder) 0 ||| bit stop 1 ||| bit (s.smp.timeStep || first) 3
  let frame (l : Lane) : Bytes := if laneOn s p l then downBytes l s.smp.cad (s.smp.instant % 2 ^ 32) flags p cmds else []
  let out (l : Lane) (s : State) : State :=
    if laneOn s p l then (match takeSeed s with | (k, s) => send (.down p l k (frame l)) s) else s
  let n := frame .N
  let m := frame .S
  match hearReturns p o n m (out .S (out .N s)) with
  | (s, hN, hS) =>
    let s := if split s p then s else judgeRing p s
    match (if role s = 2 then hS else hN).bind downIn with
    | some g => heardFrame p g s
    | none => s

/-- A port that is ready begins to sample at a whole millisecond (R72, R114, R366). A standby, which has followed the enumeration, compares the
identities for its own estimator then (R171, R369). -/
def beginPort (p : Nat) (s : State) : State × Bool :=
  if (s.port p).link = 1 && portReady (s.port p) && s.smp.timeNs % ms = 0 then
    (onlyIf (!commands s) (swapCheck p) (modPort p (fun x => { x with link := 2, svc := { x.svc with phase := .off } }) s), true)
  else (s, false)

/-- A port that receives nothing. -/
def noObs : LinkObs := { rxN := [], rxS := [], ringPs := none }

/-- ENUM_PORT completes when each of its ports is ready or found to be without units (R74). -/
def enumPortEnd (s : State) : State :=
  match running 0x0E01 s with
  | none => s
  | some d =>
    let ps := (List.range 48).filter fun p => d.arg / 2 ^ p % 2 == 1
    if ps.all fun p => portReady (s.port p) then
      completeOp 0x0E01 stOk (le 6 (ps.foldl (fun m p => if unitsRun s p then m + 2 ^ p else m) 0)) s
    else s

/-- The cycle of one port: service, or sampling where an instant was issued. -/
def portCycle (instant : Bool) (o : LinkObs) (p : Nat) (s : State) : State :=
  if !instant then (if (s.port p).link = 1 then serviceCycle p o s else s)
  else match beginPort p s with
    | (s, first) =>
      if (s.port p).link = 2 then downPort p first o s else if (s.port p).link = 1 then serviceCycle p o s else s

/-- TMB passes the instant index and its reference time to the islands of the ports (P1, crossings 0x00 to 0x05). -/
def tellPorts (s : State) : State := forAll (List.range 6) (fun x s => offerNow x (.instant s.smp.instant s.smp.timeNs) s) s

/-- LINK_CYCLE: the cycle that ends is judged, the timebase issues the next instant or the next service cycle (R111, R114), every port sends its
frames. -/
def linkCycleFx (obs : List LinkObs) (s : State) : State :=
  let ps := List.range (nPorts s)
  let instant := !serviceDue s
  let s := forAll ps (fun p s =>
    let k := (s.port p).link
    if k = 1 || (k = 2 && instant) then endCycle p s else s) s
  let s := tellPorts (if instant then advance s else serviceTick s)
  let s := forAll ps (fun p => portCycle instant (obs.getD p noObs) p) s
  let s := enumPortEnd (if s.pwr.waitFirst then modPwr (fun p => { p with phase := startPhase s }) s else s)
  if !instant then s
  else
    let later := s.bal.later
    let s := forAll later (fun e s => addReq e.1 e.2 s) (modBal (fun b => { b with stopPorts := [], later := [] }) s)
    let s := heldBounds (toneDescFx s)
    if s.pwr.leaving then finishTransition 1 s else s

def execLinkCycle (obs : List LinkObs) (s : State) : Host.Outcome State Fault Refusal :=
  act (fun s => if alive s then linkCycleFx obs s else s) s

/-! ### FRAME_CLOSE -/

/-- The block of a slot that reached the aggregator in time; a port in service cycles contributes none (R114), a block without samples is
none (R82). -/
def slotBlock (s : State) (u : Nat) : Option Block :=
  if (s.port (u / 3)).link = 2 then (((s.posU u).got).map fun e => e.1).filter fun b => b.status.getLsbD 0 else none

/-- A unit's data is stale from the eighth instant in a row without a block (R64). -/
def staleNow (x : Pos) : Bool := x.stale || decide (8 ≤ x.missRun)

/-- A temperature is valid (Table 3.5). -/
def blockTemps (b : Option Block) : List Int :=
  match b with
  | some b => (b.t.filter fun v => v != 0x8000 && v != 0x7FFF).map BitVec.toInt
  | none => []

/-- GF[g] (Table 4.7). -/
def groupFlags (s : State) (u n : Nat) : Byte :=
  let x := s.posU u
  match slotBlock s u with
  | none => 1 ||| (if staleNow x then 2 else 0) ||| (if x.skewUnv then 8 else 0)
  | some b =>
    let o := s.owU u
    let wires := match o.pass, o.since with | some (m, _), some _ => m | _, _ => 0
    let raw := b.v.getD n 0
    let bit (f : Bool) (k : Nat) : Byte := if f then 1#8 <<< k else 0
    bit (b.status.getLsbD 1) 2 ||| bit x.skewUnv 3 ||| bit (b.status.getLsbD 4) 4 |||
      bit (b.status.getLsbD 5 && (wires.getLsbD n || wires.getLsbD (n + 1))) 5 ||| bit (raw == 0 || raw == 0xFFFF) 6

/-- UF[u] (Table 4.8). -/
def slotFlags (s : State) (u : Nat) : Byte :=
  let x := s.posU u
  if !x.present then 0
  else
    let bit (f : Bool) (k : Nat) : Byte := if f then 1#8 <<< k else 0
    match slotBlock s u with
    | none => 1 ||| 2 ||| bit (staleNow x) 2
    | some b =>
      1 ||| bit (staleNow x) 2 ||| bit (b.status.getLsbD 2) 3 ||| bit (b.status.getLsbD 8) 4 ||| bit (b.status.getLsbD 6) 5 |||
        bit (b.status.getLsbD 3) 6

/-- FRAME_FLAGS and CUR_FLAGS (Table 4.6). -/
def frameFlags (s : State) (last : Bool) : Half :=
  let bit (f : Bool) (k : Nat) : Half := if f then 1#16 <<< k else 0
  BitVec.ofNat 16 (s.smp.cad % 4) ||| bit s.smp.lowCad 2 ||| bit s.smp.timeStep 3 ||| bit last 4 ||| bit (s.smp.tb == 2) 5 |||
    (BitVec.ofNat 16 (s.smp.tb % 4) <<< 6)

def curFlags (s : State) : Half :=
  let m := s.smp
  let bit (f : Bool) (k : Nat) : Half := if f then 1#16 <<< k else 0
  bit (shuntValid s) 0 ||| bit m.shOvr 1 ||| bit m.shFault 2 ||| bit m.shuntOfs.isSome 3 ||| bit (hallValid s) 4 ||| bit m.hallOvr 5 |||
    bit m.hallFault 6 ||| bit m.hallOfs.isSome 7 ||| bit m.ntcFault 8 ||| bit m.vStrOk 9 ||| bit m.vLnkOk 10 ||| bit (iSelHall s) 11

/-- The last instant of its tick, whole or short (R21, R113). -/
def tickLast (s : State) : Bool := (s.smp.instant + 1) % perTick s == 0 || nextStep s

/-- The coherent frame of the latest instant (R131, R132), with the correction of R224. -/
def buildFrame (s : State) : Frame :=
  let c := s.cfg
  let blocks := (List.range 144).map (slotBlock s)
  let blk (u : Nat) : Option Block := blocks.getD u none
  let raw (g : Nat) : Half := match c.place g with
    | some (u, n) => match blk u with | some b => b.v.getD n 0 | none => 0
    | none => 0
  let on (g : Nat) : Bool × Bool :=
    let r := s.bal.recs.getD g {}
    let t := s.smp.timeNs
    match c.place g, r.ends with
    | some (u, n), some e =>
      let hot := match blk u with | some b => b.status.getLsbD 8 | none => true
      (decide (r.since < t) && (decide (t < e) || (t == e && !r.cut)) && !hot, !(groupFlags s u n).getLsbD 5)
    | _, _ => (false, false)
  let temps (u : Nat) : List Int := blockTemps (blk u)
  let gs := List.range 768
  { instant := s.smp.instant
    time := s.smp.timeNs
    flags := frameFlags s (tickLast s)
    cur := curFlags s
    iShunt := s.smp.iShunt
    iHall := s.smp.iHall
    vStr := s.smp.vStr
    vLnk := s.smp.vLnk
    ins := insState s
    v := gs.map fun g => match c.place g with
      | some (u, n) => if (blk u).isNone then 0 else corrected s raw temps on u n
      | none => 0
    gf := gs.map fun g => match c.place g with | some (u, n) => groupFlags s u n | none => 0x80
    t := (List.range 144).map fun u => match blk u with
      | some b => b.t
      | none => if (s.posU u).present then [0x8000, 0x8000, 0x8000, 0x8000] else [0, 0, 0, 0]
    vstk := (List.range 144).map fun u => match blk u with | some b => b.vstk | none => 0
    uf := (List.range 144).map (slotFlags s) }

/-- The bytes of a frame (Table 4.5). -/
def frameBytes (f : Frame) : Bytes :=
  le 8 f.instant ++ le 8 f.time ++ le 2 f.flags.toNat ++ le 2 f.cur.toNat ++ leI 4 f.iShunt ++ leI 4 f.iHall ++ leI 4 f.vStr ++
    leI 4 f.vLnk ++ [f.ins, 0, 0, 0] ++ (f.v.flatMap fun x => le 2 x.toNat) ++ f.gf ++
    (f.t.flatMap fun l => (List.range 4).flatMap fun n => le 2 (l.getD n 0).toNat) ++ (f.vstk.flatMap fun x => le 2 x.toNat) ++ f.uf ++
    List.replicate 8 0

/-- A frame joins the tick in course (R22). -/
def addToTick (f : Frame) (a : Tick) : Tick :=
  let empty := a.n = 0
  { a with
    n := a.n + 1
    v := (List.range 768).map fun g =>
      let x := a.v.getD g (0, 0)
      if (f.gf.getD g 0x80) &&& 0x81 != 0 then x else (x.1 + (f.v.getD g 0).toNat, x.2 + 1)
    gf := (List.range 768).map fun g => (a.gf.getD g 0) ||| f.gf.getD g 0x80
    iShunt := a.iShunt + f.iShunt
    iHall := a.iHall + f.iHall
    vStr := a.vStr + f.vStr
    vLnk := a.vLnk + f.vLnk
    vStrOk := a.vStrOk + if f.cur.getLsbD 9 then 1 else 0
    t := (List.range 144).map fun u => if (f.uf.getD u 0).getLsbD 1 && !empty then a.t.getD u [] else f.t.getD u []
    uf := (List.range 144).map fun u => if (f.uf.getD u 0).getLsbD 1 && !empty then a.uf.getD u 0 else f.uf.getD u 0
    cur := f.cur }

/-- The items of a frame (Table 11.9). -/
def frameItems (f : Frame) (s : State) : State :=
  let n : Quad := BitVec.ofNat 64 f.instant
  let s := produce 0x01 f.instant (fun q => n :: quads ((List.range q.count).flatMap fun k => le 2 (f.v.getD (q.first + k) 0).toNat)) s
  let s := produce 0x02 f.instant (fun _ => quads (frameBytes f)) s
  produce 0x03 f.instant (fun _ => n :: quads (leI 4 f.iShunt ++ leI 4 f.iHall ++ leI 4 f.vStr ++ leI 4 f.vLnk ++
    le 2 f.cur.toNat ++ le 2 f.flags.toNat ++ [f.ins])) s

/-- A frame for QUE, which takes all that wait; while it lags, eight wait and the ninth costs the oldest, a loss to the full crossing 0x0E
and an overrun of its consumer (R20, R434). -/
def toQueues (lags : Bool) (f : Frame) (s : State) : State :=
  if (s.xr 0x0E).down then refuse 0x0E s
  else
    let l := s.smp.queFrames ++ [f]
    let put (l : List Frame) (s : State) : State := modSmp (fun m => { m with queFrames := l }) s
    let gone (s : State) : State := { s with que := s.que.map fun q => { q with old := q.old - 1 } }
    if !lags then forAll l (fun f s => gone (frameItems f s)) (put [] s)
    else if l.length ≤ 8 then put l s
    else
      let s := raiseXng 2 (modX 0x0E (fun r => { r with loss := satAdd r.loss 1 }) s)
      raise 0x06 10 (put (l.drop 1) <| gone (modSmp (fun m => { m with ovrQue := satAdd m.ovrQue 1 }) s))

/-- Instants without a block (R64, Table 2.14), on a port where no unit was found as well (R367), NEED of the pair, outages of RETAIN ports
(R175). NEED has every slot without a block (Table 14.3). -/
def countMisses (s : State) : State :=
  let s := forAll (List.range 144) (fun u s =>
    let x := s.posU u
    let k := (s.port (u / 3)).link
    if !(x.present || expected s (u / 3) (u % 3)) || k == 0 || (slotBlock s u).isSome then s
    else modPort (u / 3) (fun y => { y with cnt := bumpAt y.cnt (9 + u % 3) })
      (modPos (u / 3) (u % 3) (fun y => { y with missRun := y.missRun + 1 }) s)) s
  let need : BitVec 144 := (List.range 144).foldl (fun m u =>
    if (slotBlock s u).isNone then m ||| (1#144 <<< u) else m) 0
  let s := { s with pai := { s.pai with need := need } }
  forAll (List.range (nPorts s)) (fun p s =>
    let here := (s.port p).pos.filter Pos.present
    if s.est.retain.getLsbD p && !here.isEmpty && here.all (fun x => x.stale && decide (15 ≤ x.missRun)) then
      forAll (portGroups s.cfgEst p) (fun g s => modCtx g (fun c => { c with outage := true }) s) s
    else s) s

/-- PRO's inhibits as the planner has them stop what bleeds (R33, R219). -/
def inhibitStops (s : State) : State :=
  if !commands s || s.bal.learn.isSome then s
  else forAll (s.cfgEst.usedSlots) (fun u s =>
    let m := (s.cfgEst.slotGroups u).foldl (fun m e => if bleedInhibit s e.1 then m ||| (1#16 <<< e.2) else m) (0 : Half)
    if m = 0 then s else stopGroups u m s) s

/-- The first frame of a start-up, 50 µs after its instant, completes it: SURVEY takes effect, then the target beyond it (Tables 12.3 and 12.5). -/
def firstFrame (s : State) : State :=
  if !s.pwr.waitFirst then s
  else
    let t := s.smp.timeNs - s.pwr.startAt + 50000
    let s := modPwr (fun p => { p with waitFirst := false, startUs := u32 (t / 1000) }) s
    let s := raise 0x01 2 s
    let s := raiseIf (decide (450 * ms < t)) 0x01 4 s
    match s.pwr.target with
    | some t => finishTransition t (if t = 2 then s else setPower 2 (enterState 2 s))
    | none => s

/-- Modes that the instant's frame carried hold from its sample on (R89). -/
def modesInForce (s : State) : State :=
  modBal (fun b => { b with slots := b.slots.map fun x => { x with compOn := x.compDue.getD x.compOn, compDue := none } }) s

/-- FRAME_CLOSE: 48 µs after the instant (R19). -/
def frameCloseFx (v : VoltObs) (s : State) : State :=
  let ok (x : Int) (bad : Bool) : Bool := !bad && decide (x.natAbs ≤ 2600000)
  let s := modSmp (fun m => { m with
    vStr := v.vStr, vLnk := v.vLnk, vStrOk := ok v.vStr v.strFault, vLnkOk := ok v.vLnk v.lnkFault }) s
  let s := countMisses s
  let f := buildFrame s
  let last := tickLast s
  let s := modSmp (fun m => { m with frames := (f :: m.frames).take 8, acc := addToTick f m.acc, timeStep := false, closed := true }) s
  let s := modesInForce (creditFrame f false s)
  let s := if last then deliverTick s else s
  let s := toQueues v.queLags f (toImp f s)
  let s := firstFrame s
  let s := if (s.xr 0x0C).down then refuse 0x0C s else tellEst (proFrame f s)
  learnFrame f (inhibitStops s)

def execFrameClose (v : VoltObs) (s : State) : Host.Outcome State Fault Refusal :=
  act (fun s => if alive s && cycling s && s.smp.started && !frameClosed s then frameCloseFx v s else s) s

/-! ### CURRENT_RESULT -/

/-- CURRENT_RESULT: both channels' result, then what depends on it: zero learning, low-current cadence, the control engine's comparison,
PRO, the abort of wire learning above 1 A (R122 to R128, R226, R252). -/
def currentResultFx (x : CurObs) (s : State) : State :=
  let s := { s with cfgSmp := s.cfg }
  let s := ctlCurrent (currentFx x s)
  let big := match iSel s with | some i => decide (1000 < i.natAbs) | none => false
  let s := if big then learnAbort s else s
  proCurrent x.cmp s

def execCurrentResult (x : CurObs) (s : State) : Host.Outcome State Fault Refusal :=
  act (fun s => if alive s then currentResultFx x s else s) s

end Sys2Proof.Machine
end

