-- ==== Sys2Proof/Machine/Startup.lean ====
section
/-! DEFINITION. Start-up from LISTEN (R366 to R370): configuration taken, learned data restored, the ports begin their service cycles; and
ENUM_PORT. -/

namespace Sys2Proof.Machine

open Sys2Proof

/-! ### Learned data at module start (R170, R176, R384) -/

/-- A context restored from a saved group: σ_SOC grows by the charge of 10 s at the largest discharge current unless the save was the
last one of its run (R170). -/
def restoredCtx (c : Cfg) (m : Model) (imp final retain : Bool) (l : LearnedGroup) (x : Ctx) : Ctx :=
  let sq (v : F32) : F32 := F32.mul v v
  let more := F32.div (F32.div (F32.mul (imaxAt m (c.estF 33)).2 (F32.ofNat 10)) (F32.ofNat 3600)) l.cap
  let v := if final then sq l.sigma else F32.add (sq l.sigma) (sq more)
  { valid := l.valid, z := l.z, cc := l.cc, h := l.h, socRpt := l.z, age := l.age, cap := l.cap
    sSer := l.sSer, sFast := l.sFast, sSlow := l.sSlow, relearnReq := l.relearnReq, retained := l.retained
    p := [v, 0, 0, 0, 0, 0, 0, 0, 0], paramTable := !imp, outage := retain
    relearnCnt := x.relearnCnt, lastAnchor := x.lastAnchor, words := x.words, latch := x.latch }

/-- The array's contexts at module start: restored from the newest valid copy, or to be inserted (R170). -/
def restoreGroups (s : State) : State :=
  let c := s.cfgEst
  let at_ (g : Nat) : Bool := match (c.group g).slot with | some u => s.est.retain.getLsbD (u / 3) | none => false
  match newestCopy s.nv with
  | none => modEst (fun e => { e with ctx := e.ctx.map fun x => { x with valid := false, mustInsert := true, first := true } }) s
  | some k =>
    let one (g : Nat) (x : Ctx) : Ctx := restoredCtx c (c.model g) (hasImp s) s.nv.lastFinal (at_ g) (k.groups.getD g {}) x
    modEst (fun e => { e with ctx := e.ctx.mapIdx one }) s

/-- The ports' learned data and the wire data as NV holds them: at the end of the boot. -/
def restorePorts (s : State) : State :=
  let s := modBal (fun b => { b with slots := b.slots.mapIdx fun u x => { x with wire := s.nv.wires.getD u none } }) s
  match newestCopy s.nv with
  | none => s
  | some k =>
    modEst (fun e => { e with
      ports := (List.range 48).map fun p => k.ports.getD p {}
      retain := (k.ports.zipIdx.foldl (fun m x => if x.1.retain then m ||| (1#48 <<< x.2) else m) 0) }) s

/-! ### Ports (Table 12.5, steps 3 to 6) -/

/-- Ports begin service cycles: enumeration, reload, configuration and check, then sampling from a whole millisecond on. -/
def bringUp (ps : List Nat) (s : State) : State := forAll ps beginEnum s

/-- Engines take the ACTIVE configuration at a start-up (Table 12.5, step 2). -/
def takeConfig (s : State) : State :=
  kfSettle <| modCtl (fun c => { c with cfgDue := false })
    { s with cfgPro := s.cfg, cfgEst := s.cfg, cfgImp := s.cfg, cfgCtl := s.cfg, cfgSmp := s.cfg, imp := { s.imp with runDue := false } }

/-- STATE_SET out of LISTEN to `t`: the units are configured in the bleed mode of BAL_CTRL (DEDUCED, log entry 59); the islands run at once, the
ports begin; the transition ends with the first coherent frame (Table 12.5). -/
def startUp (t : Nat) (s : State) : State :=
  let s := modPwr (fun p => { p with target := some t, startAt := s.smp.timeNs, waitFirst := true, phase := 1, portOk := 0 }) s
  let s := modBal (fun b => { b with modeEff := b.mode }) (mapChanges (restoreGroups (takeConfig s)))
  bringUp (List.range (nPorts s)) s

/-! ### ENUM_PORT (R74, Table 11.3) -/

/-- ENUM_PORT runs the ports' part of the start-up; it completes when they are ready. -/
def enumPortRun (r : Req) (mask : BitVec 48) (s : State) : State :=
  let s := defer r 0x0E01 s
  let s := { s with ses := { s.ses with deferred := s.ses.deferred.map fun d => if d.op = 0x0E01 then { d with arg := mask.toNat } else d } }
  enumPortEnd (bringUp ((List.range 48).filter fun p => mask.getLsbD p) s)

/-- The port mask of ENUM_PORT: bytes 0 to 3, bytes 4 and 5 of its payload. -/
def portMask (low : Word) (high : Half) : BitVec 48 := high ++ low

def execEnumPort (r : Req) (low : Word) (high : Half) (s : State) : Host.Outcome State Fault Refusal :=
  let mask := portMask low high
  act (request r 0x0E01 engineer
    (fun s => {
      absent := (List.range 48).any fun p => mask.getLsbD p && !portPresent s p
      forbidden := !stateOk [2, 4] s
      busy := deferredBusy 0x0E01 s })
    (enumPortRun r mask)) s

end Sys2Proof.Machine
end

