-- ==== Sys2Proof/Machine/Admission.lean ====
section
/-! DEFINITION. Admission and commit of configuration images (R376 to R382): CFG_OPEN, CFG_WRITE, CFG_ADMIT, CFG_REVERT, CFG_READ,
CFG_INFO. -/

namespace Sys2Proof.Machine

open Sys2Proof

/-- The first failure of a check: its status and report. -/
structure Bad where
  status : Nat
  report : Refused
  deriving DecidableEq, Repr

def bad (status item : Nat) (index : Nat := 0xFFFF) (quant : Nat := 0) (computed allowed : Int := 0) : Bad :=
  ⟨status, { item := item, index := index, quant := quant, computed := computed, allowed := allowed }⟩

/-- Fails where the condition holds. -/
def badIf (b : Bool) (x : Bad) : Option Bad := if b then some x else none

/-- A figure that exceeds its limit (R378). -/
def overIf (item index quant : Nat) (computed allowed : Int) : Option Bad :=
  badIf (decide (allowed < computed)) (bad stDeadline item index quant computed allowed)

/-- The first failure of a list of checks. -/
def firstBad (l : List (Option Bad)) : Option Bad := l.findSome? id

/-! ### 0x0001 to 0x0003 (R372 to R374) -/

/-- The format of the running firmware. -/
def ownFormat (s : State) : Nat := s.nv.running.cfgFormat.toNat

/-- R373. -/
def formatOk (s : State) (f : Nat) : Bool := f / 65536 == ownFormat s / 65536 && decide (f % 65536 ≤ ownFormat s % 65536)

/-- Items of a scalar section. -/
def scalarItems (id : Nat) : Option (List Item) :=
  match id with
  | 0x10 => some samplingItems
  | 0x11 => some estimatorItems
  | 0x12 => some impedanceItems
  | 0x13 => some balancingItems
  | 0x14 => some protectionItems
  | 0x15 => some controlItems
  | 0x22 => some housekeepingItems
  | _ => none

/-- The length of a section as admitted, next to the length found; none: the ID is unknown (R374). -/
def sectionLen (id len : Nat) : Option Nat :=
  match scalarItems id with
  | some l => some (min (len / 8 * 8) (8 * l.length))
  | none =>
    match id with
    | 0x01 => some (48 * 8)
    | 0x02 => some (144 * 8)
    | 0x03 => some (768 * 24)
    | 0x04 => some (1312 * min (max (len / 1312) 1) 8)
    | 0x05 => some 32
    | 0x06 => some 160
    | 0x07 => some 72
    | 0x20 => some 24
    | 0x21 => some 584
    | _ => none

/-- Required sections (Table 13.2). -/
def requiredIds (s : State) : List Nat := [0x01, 0x02, 0x03, 0x04, 0x10, 0x14] ++ if hasCtl s then [0x06, 0x15] else []

/-- Faults of the section list, each with its ID and figures in bytes (DEDUCED, log entry 21). -/
def sectionFaults (s : State) (l : List (Nat × Bytes)) : List (Nat × Int × Int) :=
  (l.zipIdx.filterMap fun e =>
    let id := e.1.1
    let n : Nat := e.1.2.length
    if (l.take e.2).any fun x => x.1 == id then some (id, (n : Int), 0)
    else match sectionLen id n with
      | none => some (id, (n : Int), (0 : Int))
      | some k => if k = n then none else some (id, (n : Int), (k : Int))) ++
  ((requiredIds s).filterMap fun id =>
    if (sectionOf l id).isNone then some (id, 0, (((sectionLen id 0).getD 0 : Nat) : Int)) else none)

/-- The fault with the lowest ID. -/
def leastFault : List (Nat × Int × Int) → Option (Nat × Int × Int)
  | [] => none
  | x :: r => match leastFault r with
    | some y => if y.1 < x.1 then some y else some x
    | none => some x

/-- Checks 0x0001 to 0x0003. -/
def checkForm (s : State) (b : Bytes) : Option Bad :=
  if !imgFormed b then some (bad stFormat 0x0001)
  else if !formatOk s (imgFormat b) then some (bad stFormat 0x0002)
  else (leastFault (sectionFaults s (imgSections b))).map fun x => bad stFormat 0x0003 x.1 3 x.2.1 x.2.2

/-! ### 0x0101 to 0x0202 -/

/-- An address lies inside a block of Table 0.7 (R11). -/
def inWindow (a : Nat) : Bool :=
  let k := a / 65536
  decide (k < 0x14) && k != 3 && k != 5 && !(k == 4 && decide (0xC000 ≤ a % 65536))

/-- An address in the block of an absent unit, or in the part of PRT of an absent port (R5, R7). -/
def addrAbsent (s : State) (a : Nat) : Bool :=
  inWindow a && (!blockPresent s (a / 65536) || (a / 65536 == 4 && !portPresent s (a % 65536 / 1024)))

/-- The slot of a temperature reference TS_A or TS_B lies on an absent port (Table 5.2). -/
def sensorAbsent (s : State) (w : Half) : Bool := decide (w.toNat / 256 ≤ 143) && !portPresent s (w.toNat / 256 / 3)

/-- A section of an absent unit, or an item of one that refers to it: a TONE bin without CTL, a snapshot address in an absent block or port, a
temperature input of a mapped group on an absent port (R8, R189). Such a port counts under 0x0101 with the section's ID: Table 13.4 names units there,
and gives 0x0102 to k_e and mapped groups alone (DESIGN CHOICE, log entry 23). -/
def absentSection (s : State) (c : Cfg) (id : Nat) : Bool :=
  (id == 0x21 && c.classes.any fun k => k.regs.any (addrAbsent s)) ||
  (id == 0x03 && c.mapped.any fun g => sensorAbsent s (c.group g).tsA || sensorAbsent s (c.group g).tsB) ||
  ((id == 0x05 || id == 0x12) && !hasImp s) || ((id == 0x06 || id == 0x15) && !hasCtl s) || (id == 0x20 && !hasPai s) ||
    (id == 0x05 && !hasCtl s && (List.range 8).any fun b => binEn c b && binSrc c b == 2)

/-- The known section IDs in rising order. -/
def sectionIds : List Nat := [0x01, 0x02, 0x03, 0x04, 0x05, 0x06, 0x07, 0x10, 0x11, 0x12, 0x13, 0x14, 0x15, 0x20, 0x21, 0x22]

/-- Checks 0x0101 and 0x0102. -/
def checkPresence (s : State) (b : Bytes) : Option Bad :=
  let c := cfgOf b
  let l := imgSections b
  firstBad ((sectionIds.map fun id => badIf ((sectionOf l id).isSome && absentSection s c id) (bad stAbsent 0x0101 id)) ++
    ((List.range 48).map fun p =>
      badIf (!portPresent s p && (decide (0 < (c.port p).ke) || c.mapped.any fun g => portOf c g == some p)) (bad stAbsent 0x0102 p)))

/-- The boot check of R359. -/
def bootCheck (s : State) (b : Bytes) : Option Bad := firstBad [checkForm s b, checkPresence s b]

/-- Check 0x0103 (R381). -/
def checkStructure (s : State) (c : Cfg) : Option Bad :=
  let a := s.cfg
  let place (c : Cfg) (g : Nat) : Option (Nat × Nat) := c.place g
  let busy := s.ctl.state != 0 && s.ctl.state != 1
  if stateOk [1, 2] s then none
  else firstBad [
    badIf (a.ports != c.ports) (bad stForbidden 0x0103 0x01),
    badIf (a.slots != c.slots) (bad stForbidden 0x0103 0x02),
    badIf ((List.range 768).any fun g => place a g != place c g) (bad stForbidden 0x0103 0x03),
    badIf (busy && (a.ctlI 0 != c.ctlI 0 || a.ctlI 1 != c.ctlI 1)) (bad stForbidden 0x0103 0x15)]

/-! ### Items (0x1000 + 64 ID + n) -/

/-- One field of an entry: its value and its least and greatest admitted value. -/
structure Field where
  val : Int
  lo : Int
  hi : Int
  deriving DecidableEq, Repr

/-- The figure that a value passes. -/
def limitOf (lo hi v : Int) : Int := if v < lo then lo else if hi < v then hi else 0

/-- Field `n` of entry `index`. -/
def checkField (id n index : Nat) (f : Field) : Option Bad :=
  badIf (decide (f.val < f.lo) || decide (f.hi < f.val)) (bad stRange (0x1000 + 64 * id + n) index 0 f.val (limitOf f.lo f.hi f.val))

/-- The fields of every entry of a block: code by code, each in rising order of entries (R377). -/
def checkEntries (id : Nat) (entries : List (Nat × List Field)) : Option Bad :=
  let width := entries.foldl (fun m e => max m e.2.length) 0
  firstBad ((List.range width).flatMap fun n => entries.map fun e =>
    match e.2[n]? with
    | some f => checkField id n e.1 f
    | none => none)

def fU8 (b : Bytes) (o : Nat) (lo hi : Int) : Field := ⟨u8At b o, lo, hi⟩
def fU16 (b : Bytes) (o : Nat) (lo hi : Int) : Field := ⟨u16At b o, lo, hi⟩
def fU32 (b : Bytes) (o : Nat) (lo hi : Int) : Field := ⟨u32At b o, lo, hi⟩
def fS32 (b : Bytes) (o : Nat) (lo hi : Int) : Field := ⟨leInt (slice b o 4), lo, hi⟩
/-- A field shown as 0. -/
def fZero (b : Bytes) (o n : Nat) : Field := ⟨leNat (slice b o n), 0, 0⟩
/-- A field with every value admitted. -/
def fAny : Field := ⟨0, 0, 0⟩

/-- PORTS (Table 13.2, R232). -/
def portFields (b : Bytes) : List Field := [fU8 b 0 0 3, fU8 b 1 0 1, fU16 b 2 10 10000, fZero b 4 4]

/-- SLOTS. -/
def slotFields (b : Bytes) : List Field := [fU8 b 0 0 15, fZero b 1 1, fAny, fAny, fZero b 6 2]

/-- TS_A and TS_B: slot 0 to 143, input 0 to 3 (Table 5.2). The limit reported is the part of the field that passes its own, at that (DESIGN CHOICE,
log entry 60). -/
def fSensor (b : Bytes) (o : Nat) : Field := ⟨u16At b o, 0, 256 * min (u8At b (o + 1)) 143 + min (u8At b o) 3⟩

/-- A register address of a snapshot: a multiple of 4 inside a block. Of any other one the report gives the least admitted address, 0 (DESIGN CHOICE,
log entry 60). -/
def fAddress (a : Nat) : Field := if a % 4 == 0 && inWindow a then fAny else ⟨a, 0, 0⟩

/-- GROUPS; an unmapped group carries no items (R152; DESIGN CHOICE, log entry 23). -/
def groupFields (b : Bytes) : List Field :=
  if u8At b 0 = 0xFF then [fAny, fAny, fAny, fZero b 3 1]
  else [fU8 b 0 0 143, fU8 b 1 0 15, fU8 b 2 0 7, fZero b 3 1, fAny, fAny, fAny, fAny, fSensor b 14, fSensor b 16, fAny, fAny, fAny]

/-- MODELS: the bytes shown as 0 in Table 5.1; every other condition of it is check 0x0210. -/
def modelFields (b : Bytes) : List Field := [fAny, fAny, fZero b 134 2]

/-- BINS as the fields of Table 6.11; only an enabled bin's SRC and FREQ are checked (R189). -/
def binFields (b : Bytes) : List Field :=
  let w : Nat := u32At b 0
  let src : Nat := w / 2 ^ 24 % 4
  [fAny, ⟨((w / 2 ^ 26 % 32 : Nat) : Int), 0, 0⟩, if w < 2 ^ 31 then fAny else ⟨(src : Int), 0, 2⟩, ⟨((w / 2 ^ 18 % 64 : Nat) : Int), 0, 0⟩]

/-- BANKS as the fields of Table 9.12: B0 to B3, A1 to A3, SHIFT_B, ORDER, the bits shown as "—", U_MIN, U_MAX (R285; DESIGN CHOICE, log entry 23). -/
def bankFields (b : Bytes) : List Field :=
  let w : Nat := u32At b 28
  List.replicate 7 fAny ++ [⟨((w % 16 : Nat) : Int), 0, 8⟩, fAny, ⟨((w / 16 % 16 + w / 512 : Nat) : Int), 0, 0⟩]

/-- NETWORK (R306 to R326). -/
def netFields (b : Bytes) : List Field :=
  [fU8 b 0 0 1, fU8 b 1 0 1, fU8 b 2 0 1, fAny, fU16 b 4 1024 65535, fU8 b 6 0 63, fU8 b 7 0 63, fU8 b 8 6 255, fZero b 9 3,
   fS32 b 12 (-10000) 10000, fS32 b 16 (-10000) 10000, fU16 b 20 5 600, fU16 b 22 1 168, fAny, fAny, fAny, fAny, fU8 b 52 0 128,
   fZero b 53 3]

/-- PAIR (Table 14.1). -/
def pairFields (b : Bytes) : List Field := [fU8 b 0 1 2, fZero b 1 1, fU16 b 2 10 70, fU32 b 4 16777 838861, fAny, fZero b 16 8]

/-- The head of RECORDER and one class (R448). -/
def recHeadFields (b : Bytes) : List Field := [fU16 b 0 16 255, fU16 b 2 1 60, fZero b 4 4]
def recClassFields (k : Nat) (b : Bytes) : List Field :=
  [⟨u8At b 0, if k = 0 || k = 7 then 1 else 0, 1⟩, fU8 b 1 0 1, fU8 b 2 0 16, fZero b 3 5] ++
    (List.range 16).map fun i =>
      if u8At b 2 ≤ i then fAny else fAddress (u32At b (8 + 4 * i))

/-- Entries of a block with a stride. -/
def entriesOf (b : Bytes) (stride count : Nat) (f : Bytes → List Field) : List (Nat × List Field) :=
  (pieces stride count b).zipIdx.map fun e => (e.2, f e.1)

/-- A block's items. -/
def checkBlock (id : Nat) (b : Bytes) : Option Bad :=
  match id with
  | 0x01 => checkEntries id (entriesOf b 8 48 portFields)
  | 0x02 => checkEntries id (entriesOf b 8 144 slotFields)
  | 0x03 => checkEntries id (entriesOf b 24 768 groupFields)
  | 0x04 => checkEntries id (entriesOf b 1312 (b.length / 1312) modelFields)
  | 0x05 => checkEntries id (entriesOf b 4 8 binFields)
  | 0x06 => checkEntries id (entriesOf b 40 4 bankFields)
  | 0x07 => checkEntries id [(0xFFFF, netFields b)]
  | 0x20 => checkEntries id [(0xFFFF, pairFields b)]
  | 0x21 =>
    let rows := (pieces 72 8 (b.drop 8)).zipIdx.map fun e => (e.2, List.replicate 3 fAny ++ recClassFields e.2 e.1)
    firstBad [checkEntries id [(0xFFFF, recHeadFields b)], checkEntries id rows]
  | _ => none

/-- An item without a default may be left out: I_CH_CFG and I_DIS_CFG take I_RATED, HALL_SENS is needed with HALL_EN = 1 only. -/
def needsItem (c : Cfg) (id n : Nat) : Bool :=
  if id = 0x10 && n = 5 then c.smpI 4 == 1 else !(id == 0x15 && (n == 24 || n == 25))

/-- The least admitted figure of an item that must exceed another one of its section: AO_T1, T_THR, T_SHUT (Table 9.7, R466). -/
def itemLeast (c : Cfg) (id n : Nat) : Option Int :=
  if id = 0x15 && n = 47 then some (c.ctlI 46 + 1)
  else if id = 0x22 && 14 ≤ n && n < 26 then some (c.hkpI (n - 6) + 1)
  else none

/-- An item lies below that figure. -/
def itemBelow (c : Cfg) (id n : Nat) (v : Int) : Bool := match itemLeast c id n with | some l => decide (v < l) | none => false

/-- The end of a range that a value passes, 0 where it lies within. -/
def rngLimit (r : Rng) (v : Int) : Int :=
  match r with
  | .span lo hi => limitOf lo hi v
  | .oneOf l => limitOf (l.foldl min (l.headD 0)) (l.foldl max (l.headD 0)) v
  | .zeroOr lo hi _ => limitOf (min 0 lo) hi v

/-- OW_CODE, where it is given, lies among the OW_CAPS of every unit identified at the last enumeration (Table 8.4); a unit whose page 4 was read
has bit 1 (Table 3.2). The least admitted figure it reports is that code (DESIGN CHOICE, log entry 60). -/
def owCodeOk (s : State) (v : Int) : Bool :=
  s.prt.all fun p => p.pos.all fun x => match x.ident with
    | some i => !i.owCaps.getLsbD 1 || i.owCaps.getLsbD v.toNat
    | none => true

/-- Item `n` of a scalar section (R375). -/
def checkItem (s : State) (c : Cfg) (id : Nat) (vals : List (Option Int)) (n : Nat) (x : Item) : Option Bad :=
  let code := 0x1000 + 64 * id + n
  match itemOf [] vals n, x.dflt with
  | some v, _ =>
    if inRng x.rng v && id == 0x14 && n == 49 && !owCodeOk s v then badIf true (bad stRange code 0xFFFF 0 v 1)
    else if !inRng x.rng v then some (bad stRange code 0xFFFF 0 v (rngLimit x.rng v))
    else badIf (itemBelow c id n v) (bad stRange code 0xFFFF 0 v ((itemLeast c id n).getD 0))
  | none, some v => badIf (itemBelow c id n v) (bad stRange code 0xFFFF 0 v ((itemLeast c id n).getD 0))
  | none, none => badIf (needsItem c id n) (bad stRange code)

/-- All items, section by section. -/
def checkItems (s : State) (c : Cfg) (l : List (Nat × Bytes)) : Option Bad :=
  firstBad (sectionIds.map fun id =>
    match sectionOf l id with
    | none => none
    | some b => match scalarItems id with
      | some tab => firstBad (tab.zipIdx.map fun e => checkItem s c id (scalars b) e.2 e.1)
      | none => checkBlock id b)

/-! ### 0x0210 to 0x0215 -/

def rising (l : List Int) : Bool := match l with | [] => true | x :: r => (r.foldl (fun a y => (a.1 && decide (a.2 < y), y)) (true, x)).1

/-- Check 0x0210: the conditions of Table 5.1 (R151). -/
def modelOk (m : Model) : Bool :=
  let ax := m.socAx.map Int.ofNat
  m.socAx.getD 0 1 == 0 && m.socAx.getD 63 0 == 10000 && rising ax && rising m.tAx &&
    m.ocv.all (fun t => t.all (fun b => rising (b.map Int.ofNat)) &&
      (List.range 64).all fun n => decide ((t.getD 1 []).getD n 0 ≤ (t.getD 0 []).getD n 0)) &&
    m.flat.all fun f => decide (f < 2 ^ 63)

/-- Check 0x0211 for one mapped group. -/
def placeOk (s : State) (c : Cfg) (g : Nat) : Bool :=
  match c.place g with
  | none => true
  | some (u, n) =>
    decide (u % 3 < (c.port (u / 3)).ke) && decide ((c.group g).model < c.models.length) && decide (g < nGroups s) &&
      !((c.groups.take g).any fun k => k.slot == some u && k.input == n) &&
      decide ((c.groups.take (g + 1)).countP (fun k => k.slot.map (· / 3) == some (u / 3)) ≤ 48)

/-- Check 0x0212 (R246), with the full scale of the enabled channels: 50 mV over SHUNT_RES, 4.0 V over HALL_SENS (Tables 4.3, 4.4). -/
def protectOk (c : Cfg) : Bool :=
  let lt (a b : Int) : Bool := decide (a < b)
  let o (x : Option Int) : Int := x.getD 0
  let nb := o c.neverBreak
  let sh := match c.shuntRes with | some r => decide (nb * r ≤ 50000000000000000) | none => true
  let ha := match c.hallEn, c.hallSens with | true, some k => decide (nb * k ≤ 4000000000000000000) | _, _ => true
  lt c.ovDerStart c.ovDerEnd && lt c.ovDerEnd c.ovTrip && lt c.uvTrip c.uvDerEnd && lt c.uvDerEnd c.uvDerStart && lt c.tDerHi c.tOtTrip &&
    lt (o c.ocChTrip) (o c.hwOcLevel) && lt (o c.ocDisTrip) (o c.hwOcLevel) && lt (o c.hwOcLevel) nb && lt (o c.breakI) nb && sh && ha

/-- Check 0x0213 for one port (R232): V_MAX_SOP over R_BLEED is in mA, BLEED_IMAX in 10 mA. -/
def checkBleed (s : State) (c : Cfg) (p : Nat) : Option Bad :=
  let own := (portGroups c p).map fun g => (c.model g).vMax
  let v := (if own.isEmpty then c.models.map Model.vMax else own).foldl max 0
  let caps := (s.port p).pos.filterMap fun x => x.ident.map fun i => 10 * i.bleedImax
  match caps with
  | [] => none
  | a :: r =>
    let least := r.foldl min a
    let k := (c.port p).rBleed
    badIf (decide (least * k < v)) (bad stRange 0x0213 p 4 (roundRat ((v : Rat) / (k : Rat))) least)

/-- Check 0x0214 for bin `b` (R189), against the enabled bins below it. -/
def binOk (c : Cfg) (b : Nat) : Bool :=
  let f := binFreq c b
  let below := (List.range b).filter (binEn c)
  !binEn c b ||
    (decide (10 ≤ f) && decide (f ≤ 200000) &&
      below.all (fun k => let g := binFreq c k; decide (min f g ≤ 5 * (max f g - min f g))) &&
      (binSrc c b != 1 || (!(below.any fun k => binSrc c k == 1) && (f == 10000 || f == 12000))) &&
      (binSrc c b != 2 || (List.range 4).any fun k => c.toneF k == f))

/-- Check 0x0215 for the whole engine (R283, R299, R300, R304). -/
def controlOk (c : Cfg) : Bool :=
  let up := c.fSw * c.loopRate
  let step (rate : Int) : Int := roundRat ((rate : Rat) / 1000000000 * c.iRated / ((up : Nat) : Rat))
  let tones := ((List.range 4).map fun k => c.ctlI (40 + k)).filter (· != 0)
  !(c.fSw == 80000 && c.loopRate == 2) && decide (1 ≤ step c.srRise) && decide (1 ≤ step c.srFall) &&
    (c.tZero * up) % 1000000000 == 0 && decide (c.dMin < c.dMax) && decide (c.ctlI 19 < c.ctlI 20) &&
    [24, 25].all (fun n => match itemOf controlItems c.ctl n with | some v => decide (v ≤ c.iRatedN.getD 0) | none => true) &&
    decide ((c.dtH + c.dtL + 2 * c.minPulse) * 4 * c.fSw ≤ 8000000000) &&
    tones.eraseDups.length == tones.length && tones.all fun t => decide (20 * t ≤ (up : Int) * 1000000000)

/-- Checks 0x0210 to 0x0215. -/
def checkValues (s : State) (c : Cfg) : Option Bad :=
  firstBad (
    (c.models.zipIdx.map fun e => badIf (!modelOk e.1) (bad stRange 0x0210 e.2)) ++
    ((List.range 768).map fun g => badIf (!placeOk s c g) (bad stRange 0x0211 g)) ++
    [badIf (!protectOk c) (bad stRange 0x0212)] ++
    ((List.range (nPorts s)).map (checkBleed s c)) ++
    ((List.range 8).map fun b => badIf (!binOk c b) (bad stRange 0x0214 b)) ++
    (c.banks.zipIdx.map fun e => badIf (decide (e.1.uMax ≤ e.1.uMin)) (bad stRange 0x0215 e.2)) ++
    [badIf (c.hasCtl && !controlOk c) (bad stRange 0x0215)])

/-! ### 0x0301 to 0x0306 (R378) -/

/-- Cadences the image can reach. -/
def reachable (c : Cfg) : List Nat := [c.cadence] ++ if 0 < c.iLow && c.cadence != 2 then [2] else []

def proReaction (c : Cfg) (code n : Nat) : List (Option Bad) :=
  (reachable c).map fun k =>
    overIf 0x0301 code 1 (((n : Int) - 1) * tCad k + 62000) (if k = 0 then 400000 else if k = 1 then 1000000 else 4000000)

/-- Check 0x0302, in ps. -/
def linkLoad (s : State) (c : Cfg) (p : Nat) : Option Bad :=
  let k := (c.port p).ke
  let d := ((s.port p).ringDly).getD (110000 + 320000 * k)
  let ps : Int := 28280000 + 5720000 * ((k : Int) - 1) + d - 320000 * k
  badIf (decide (0 < k) && decide (40000000 < ps)) (bad stDeadline 0x0302 p 1 (roundRat ((ps : Rat) / 1000)) 40000)

/-- Check 0x0304 for a tick length. -/
def sopLoad (c : Cfg) (t : Int) : Option Bad := overIf 0x0304 0xFFFF 1 (t * (1 + c.tickSkipMax) + 850000) c.sopHold

/-- Check 0x0306, in 0.01%. -/
def spcLoad (c : Cfg) : Option Bad :=
  let u := (c.ports.map CfgPort.ke).sum
  let x : Rat := 3000 + ((u * 3000000 * 10000 : Nat) : Rat) / (c.owPeriod : Rat) + if c.pair.isSome then 600 else 0
  badIf (decide (7500 < x)) (bad stDeadline 0x0306 0xFFFF 7 (roundRat x) 7500)

def checkDeadlines (s : State) (c : Cfg) : Option Bad :=
  let n := c.mapped.length
  let bins := (List.range 8).countP (binEn c)
  firstBad (
    proReaction c 0x01 c.nOv ++ proReaction c 0x02 c.nUv ++
    ((List.range 48).map (linkLoad s c)) ++
    [overIf 0x0303 0xFFFF 1 (estBound c) 700000] ++
    (if hasCtl s then [sopLoad c 1000000] ++ (if 0 < c.iLow then [sopLoad c 100000000] else []) else []) ++
    [overIf 0x0305 0xFFFF 1 (20000000 + n * (300000 + 10000 * bins)) 400000000, spcLoad c])

/-- All checks of Table 13.4 in its order; CFG_REVERT leaves out 0x0201 (R377, R382). -/
def admission (s : State) (b : Bytes) (revert : Bool) : Option Bad :=
  match checkForm s b with
  | some x => some x
  | none =>
    match checkPresence s b with
    | some x => some x
    | none =>
      let c := cfgOf b
      firstBad [
        checkStructure s c,
        badIf (!revert && decide (c.version ≤ s.nv.versionHigh)) (bad stRange 0x0201 0xFFFF 0 c.version (s.nv.versionHigh + 1)),
        badIf (imgSerial b != 0 && imgSerial b != s.fac.serial) (bad stRange 0x0202),
        checkItems s c (imgSections b), checkValues s c, checkDeadlines s c]

/-! ### Commit (R379 to R381) -/

/-- Ports whose PORTS entry or mapped groups changed. -/
def changedPorts (a b : Cfg) : List Nat :=
  let groups (c : Cfg) (p : Nat) : List (Nat × Option (Nat × Nat)) := (portGroups c p).map fun g => (g, c.place g)
  (List.range 48).filter fun p => a.port p != b.port p || groups a p != groups b p

/-- INS_CTRL as a host write where a mode differs from that of the configuration before. -/
def commitIns (a b : Cfg) (s : State) : State :=
  if a.insMode = b.insMode && a.insClosedMode = b.insClosedMode then s else insWrite b.insMode b.insClosedMode s

/-- SRC, BANK_REQ and BAL_CTRL.MODE as host writes where the item changed or there was no ACTIVE image (Table 13.5). -/
def commitFields (had : Bool) (a b : Cfg) (s : State) : State :=
  let s := if hasCtl s && b.hasCtl && (!had || a.srcInit != b.srcInit) then srcFx b.srcInit s else s
  let s := if hasCtl s && b.hasCtl && (!had || a.bankInit != b.bankInit) then bankReqFx b.bankInit s else s
  if !had || a.balMode != b.balMode then modBal (fun x => { x with mode := b.balMode }) s else s

/-- The commit pulse: every engine takes the configuration at its own boundary. In SURVEY the changed ports are brought up anew (R381); PRO,
EST and BAL of a module that does not sample have no boundary to wait for. -/
def commitPulse (had : Bool) (c : Cfg) (s : State) : State :=
  let old := s.cfg
  let s := modCtl (fun x => { x with cfgDue := true }) { s with cfg := c, imp := { s.imp with runDue := true, runFrom := s.smp.timeNs } }
  let s := if s.pwr.state = 1 && s.pwr.target.isNone then takeConfig s else s
  let s := commitFields had old c (commitIns old c s)
  if s.pwr.state = 2 then bringUp ((changedPorts old c).filter (portPresent s)) s else s

/-- The answer of a refused image: CFG_REFUSED, LAST_STATUS, the stored report (R377, R382). -/
def cfgRefused (op : Nat) (x : Bad) (s : State) : State :=
  let s := raise 0x02 3 { s with lcy := { s.lcy with cfgLast := x.status, report := x.report } }
  completeOp op x.status x.report.bytes s

/-- PENDING as far as it is an image: the length set by CFG_OPEN, bytes not written reading 0 (DESIGN CHOICE, log entry 24). -/
def pendingBytes (s : State) : Bytes :=
  if s.image.opened then (List.range s.image.len).map fun o => ((s.image.bytes.find? fun e => e.1 == o).map Prod.snd).getD 0 else []

/-- CFG_ADMIT. `cut`: a power loss or an SPC reset comes before step 2 of R379, which leaves the old pair of slots in force; the command stays in
course until that reset. -/
def cfgAdmitRun (r : Req) (cut : Bool) (s : State) : State :=
  let s := defer r 0x0303 s
  let b := pendingBytes s
  if cut then s
  else match admission s b false with
  | some x => cfgRefused 0x0303 x s
  | none =>
    let c := cfgOf b
    let had := s.nv.active.isSome
    let s := { s with
      nv := { s.nv with previous := s.nv.active, active := some b, slotSeq := s.nv.slotSeq + 1, versionHigh := c.version, activeFailed := false,
                         formatStale := false, prevStale := s.nv.formatStale }
      image := {} }
    let s := commitPulse had c s
    let s := { s with lcy := { s.lcy with defaultsLocked := false, cfgLast := stOk } }
    completeOp 0x0303 stOk (le 4 c.version) (raise 0x02 2 s)

/-- CFG commands outside RETIRED (R385). -/
def cfgLocked (s : State) : Bool := s.nv.lcy == 4

def execCfgAdmit (r : Req) (cut : Bool) (s : State) : Host.Outcome State Fault Refusal :=
  act (request r 0x0303 engineer
    (fun s => { locked := cfgLocked s, forbidden := !stateOk awake s, busy := deferredBusy 0x0303 s }) (cfgAdmitRun r cut)) s

/-- CFG_REVERT, with `cut` as in CFG_ADMIT (R379, R382). -/
def cfgRevertRun (r : Req) (cut : Bool) (s : State) : State :=
  let s := defer r 0x0304 s
  if cut then s
  else match s.nv.previous with
  | none => cfgRefused 0x0304 (bad stRange 0x0001) s
  | some b =>
    if s.nv.prevStale || imgFormat b / 65536 != ownFormat s / 65536 then cfgRefused 0x0304 (bad stFormat 0x0002) s
    else
      match admission s b true with
      | some x => cfgRefused 0x0304 x s
      | none =>
        let c := cfgOf b
        let had := s.nv.active.isSome
        let s := { s with
          nv := { s.nv with
            previous := s.nv.active, active := some b, slotSeq := s.nv.slotSeq + 1, activeFailed := false
            formatStale := false, prevStale := s.nv.formatStale } }
        let s := commitPulse had c s
        let s := { s with lcy := { s.lcy with cfgLast := stOk } }
        completeOp 0x0304 stOk (le 4 c.version) (raise 0x02 4 s)

def execCfgRevert (r : Req) (cut : Bool) (s : State) : Host.Outcome State Fault Refusal :=
  act (request r 0x0304 engineer
    (fun s => { locked := cfgLocked s, forbidden := !stateOk awake s, busy := deferredBusy 0x0304 s }) (cfgRevertRun r cut)) s

/-! ### PENDING and readout (R376) -/

/-- CFG_OPEN: an image has 64 to 65,536 bytes. -/
def execCfgOpen (r : Req) (len : Nat) (s : State) : Host.Outcome State Fault Refusal :=
  act (request r 0x0301 engineer
    (fun s => {
      locked := cfgLocked s, forbidden := !stateOk awake s, range := decide (len < 64) || decide (65536 < len)
      busy := (running 0x0303 s).isSome || (running 0x0304 s).isSome })
    (fun s => respond r 0x0301 stOk [] { s with image := { len := len, opened := true, bytes := [] } })) s

def execCfgWrite (r : Req) (off : Nat) (data : Bytes) (s : State) : Host.Outcome State Fault Refusal :=
  act (request r 0x0302 engineer
    (fun s => {
      format := data.isEmpty
      locked := cfgLocked s, forbidden := !stateOk awake s
      range := !s.image.opened || decide (s.image.len < off + data.length)
      busy := (running 0x0303 s).isSome || (running 0x0304 s).isSome })
    (fun s =>
      let s := { s with image := { s.image with bytes := putBytes off data s.image.bytes } }
      respond r 0x0302 stOk (le 4 s.image.bytes.length) s)) s

/-- The image of a slot: 0 ACTIVE, 1 PREVIOUS, 2 PENDING. -/
def slotImage (s : State) (slot : Nat) : Option Bytes :=
  match slot with
  | 0 => s.nv.active
  | 1 => s.nv.previous
  | 2 => if s.image.opened then some (pendingBytes s) else none
  | _ => none

def execCfgRead (r : Req) (slot : Byte) (off len : Nat) (s : State) : Host.Outcome State Fault Refusal :=
  act (request r 0x0305 engineer
    (fun s => {
      locked := cfgLocked s
      forbidden := !stateOk awake s
      range := decide (2 < slot.toNat) || len == 0 || decide (1392 < len) ||
        (match slotImage s slot.toNat with | some b => decide (b.length ≤ off) | none => true) })
    (fun s => respond r 0x0305 stOk (le 4 off ++ slice ((slotImage s slot.toNat).getD []) off len) s)) s

/-- CFG_INFO; the version of PENDING is that of the bytes written so far. -/
def execCfgInfo (r : Req) (s : State) : Host.Outcome State Fault Refusal :=
  act (request r 0x0306 observer (fun s => { locked := cfgLocked s, forbidden := !stateOk awake s })
    (fun s => respond r 0x0306 stOk
      (le 4 (slotVersion s.nv.active) ++ le 4 (slotVersion s.nv.previous) ++
        le 4 (if s.image.opened then imgVersion (pendingBytes s) else 0) ++
        le 4 ((s.nv.active.map imgFormat).getD 0) ++ le 1 s.lcy.cfgLast ++ [0, 0, 0] ++ s.lcy.report.bytes) s)) s

end Sys2Proof.Machine
end

