-- ==== Sys2Proof/Machine/Supervisor.lean ====
section
/-! DEFINITION. The supervisor processor: its reset and restart (R34 to R36, R364), firmware images (R389, R393 to R395), the
configuration that a boot or a restart takes (R359, R384), and the commands SPC_RESET, SPC_RESTART_DONE, ACTIVATION_PAUSE_END. -/

namespace Sys2Proof.Machine

open Sys2Proof

def modNv (f : Nv → Nv) (s : State) : State := { s with nv := f s.nv }
def modLcy (f : Lcy → Lcy) (s : State) : State := { s with lcy := f s.lcy }
def modPai (f : Pai → Pai) (s : State) : State := { s with pai := f s.pai }

/-! ### Reset of the SPC island -/

/-- A transition in course is abandoned; a start-up returns the ports to the condition of R362 (R364). -/
def abandon (s : State) : State :=
  match s.pwr.target with
  | none => s
  | some _ =>
    let s := if s.pwr.waitFirst then stopSampling s else s
    raise 0x01 5 (failTransition stBusy s)

/-- SNAPSHOT records that the supervisor had still to take are lost (R449). -/
def dropSnaps (s : State) : State :=
  forAll s.recd.snaps (fun _ s => raise 0x11 3 (modRec (fun d => { d with snapLost := satAdd d.snapLost 1 }) s))
    (modRec (fun d => { d with snaps := [] }) s)

/-- R34 to R36: sessions end without CLOSE, their queues are flushed, the engine parks, CTL_SP_HOST is cleared, a transition is abandoned;
PRO, the contactors, sampling, estimator and balancing go on. PENDING is RAM of the processor. -/
def spcResetFx (cause : Nat) (s : State) : State :=
  let s := forAll (List.range 256) (fun c s => if (s.sess c).opened || (s.sess c).half then freeContext c s else s) s
  let s := { s with ses := { s.ses with hsReady := false, deferred := [], waiting := [] }, image := {} }
  let s := modCtl (fun c => { c with spHost := 0 }) (parkEngine 4 s)
  let s := dropSnaps (abandon s)
  let s := modPai (fun p => { p with handover := false, activate := false }) s
  modLcy (fun l => { l with spcDown := true, spcInReset := true, spcCause := cause }) { s with xng := { s.xng with told := s.xng.told.erase 2 } }

/-! ### Firmware images (R389, R393) -/

/-- MAGIC "ZFWI". -/
def fwMagic : Bytes := [0x5A, 0x46, 0x57, 0x49]

/-- The section table: type, offset, length. -/
def fwTable (b : Bytes) : List (Nat × Nat × Nat) :=
  (pieces 12 (u16At b 20) (b.drop 128)).map fun e => (u16At e 0, u32At e 4, u32At e 8)

/-- The content of a section of the image. -/
def fwSection (b : Bytes) (type : Nat) : Option Bytes :=
  ((fwTable b).find? fun e => e.1 == type).map fun e => slice b e.2.1 e.2.2

/-- BLOCK_CODE of the engines that run microcode and are fitted (R394). -/
def ucodeBlocks (s : State) : List Nat := [0x04, 0x06, 0x08, 0x09, 0x0B, 0x0C, 0x0E].filter (blockPresent s)

/-- Entries of the unit-image table; the first argument bounds their number. -/
def unitEntries : Nat → Bytes → List (Half × Half × Byte × Bytes)
  | 0, _ => []
  | n + 1, b =>
    if b.length < 16 then []
    else
      let len := u32At b 8
      (BitVec.ofNat 16 (u16At b 0), BitVec.ofNat 16 (u16At b 2), b.getD 4 0, slice b 16 len) :: unitEntries n (b.drop (16 + len))

/-- What an image holds. -/
def fwOf (b : Bytes) : FwImage :=
  let t := (fwSection b 0x0200).getD []
  { ver := BitVec.ofNat 32 (u32At b 4), minVer := BitVec.ofNat 32 (u32At b 8), cfgFormat := BitVec.ofNat 32 (u32At b 12)
    ucode := (fwTable b).filterMap fun e => if e.1 / 256 = 1 then some (e.1 % 256, slice b e.2.1 e.2.2) else none
    units := unitEntries (t.length / 16) t
    raw := b }

/-- The form of an image: MAGIC, LENGTH, section bounds, DIGEST, microcode of every fitted engine. -/
def fwFormed (s : State) (b : Bytes) : Bool :=
  let n := u16At b 20
  decide (128 ≤ b.length) && decide (b.length ≤ 2 ^ 24) && slice b 0 4 == fwMagic && u32At b 16 == b.length &&
    decide (2 ≤ n) && decide (n ≤ 32) && decide (128 + 12 * n ≤ b.length) &&
    (fwTable b).all (fun e => decide (e.2.1 + e.2.2 ≤ b.length)) &&
    Config.sha256 (b.drop 128) == slice b 24 32 &&
    (ucodeBlocks s).all (fun k => (fwSection b (0x100 + k)).isSome)

/-- The check of an image before it runs: OK, FORMAT, AUTH_FAIL or RANGE (R393). -/
def fwCheck (s : State) (b : Bytes) : Nat :=
  if !fwFormed s b then stFormat
  else if !Config.ed25519Ok (slice b 0 56) (slice b 56 64) s.fac.verifyKey then stAuth
  else if u32At b 4 < s.nv.fwMin.toNat || u8At b 22 / 2 ^ s.fac.variant % 2 = 0 then stRange
  else stOk

/-- The staged image: complete when the bytes held equal the length (R390). -/
def stagedImage (s : State) : Option Bytes := if s.nv.stagedLen = 0 then none else bufferBytes s.nv.stagedLen s.nv.staged

/-- The image that a mark names: staging for an install, ALTERNATE for a swap. -/
def markedImage (s : State) : Option FwImage :=
  if s.nv.mark = 1 then (stagedImage s).map fwOf else s.nv.alternate

/-- Carries out a mark (Table 13.9, steps 4 and 5): the slots swap roles after a passed check; a failed one keeps them, a failed install
erases the staging area. FW_INSTALLED or FW_REJECTED. -/
def carryOut (s : State) : State :=
  if s.nv.mark = 0 then s
  else
    let install := s.nv.mark == 1
    let img := markedImage s
    let st := match img with | some f => fwCheck s f.raw | none => stFormat
    let s := modNv (fun n => { n with
      mark := 0, updLast := st, updKind := if install then 1 else 2
      staged := if install then [] else n.staged, stagedLen := if install then 0 else n.stagedLen }) s
    match img, st with
    | some f, 0 => raise 0x02 5 (modNv (fun n => { n with running := f, alternate := some n.running, newFw := true, badStarts := 0 }) s)
    | _, _ => raise 0x02 6 s

/-- Two starts of new firmware without HS_READY: the slots swap back (R395). -/
def fallBack (s : State) : State :=
  if s.nv.newFw && decide (2 ≤ s.nv.badStarts) then
    match s.nv.alternate with
    | some f => raise 0x02 7 (modNv (fun n => { n with
        running := f, alternate := some n.running, newFw := false, badStarts := 0, updLast := stFormat, updKind := 3 }) s)
    | none => s
  else s

/-- HS_READY of the running image: its MIN_VER raises the stored minimum (R395). -/
def hsReached (s : State) : State :=
  let s := modNv (fun n => { n with
    newFw := false, badStarts := 0, fwMin := if n.fwMin.toNat < n.running.minVer.toNat then n.running.minVer else n.fwMin }) s
  { s with ses := { s.ses with hsReady := true } }

/-- A start that ends before HS_READY: a mark has been carried out by then, and new firmware has failed once more (R393, R395). -/
def failedStart (s : State) : State :=
  let s := if s.nv.newFw then s else carryOut s
  if s.nv.newFw then modNv (fun n => { n with badStarts := n.badStarts + 1 }) s else s

/-- Microcode of one block. -/
def ucodeOf (l : List (Nat × Bytes)) (k : Nat) : Option Bytes := (l.find? fun e => e.1 == k).map Prod.snd

/-- Step 6 of the pause: EST, IMP, CTL and SES take new microcode at once, EST missing up to 40 ticks where it runs; that of PRT, SMP and PRO waits for
a module reset (R394). How many ticks is free (DESIGN CHOICE, log entry 4). -/
def loadUcode (s : State) : State :=
  let new := s.nv.running.ucode
  let old := s.lcy.ucode
  let now : List Nat := [0x08, 0x09, 0x0C, 0x0E]
  let wait : List Nat := [0x04, 0x06, 0x0B]
  let pend : Nat := (wait.filter fun k => ucodeOf new k != ucodeOf old k).foldl (fun m k => m + 2 ^ k) 0
  let est := ucodeOf new 0x08 != ucodeOf old 0x08
  let s := modLcy (fun l => { l with
    ucodePend := BitVec.ofNat 32 pend
    ucode := (new.filter fun e => now.contains e.1) ++ (old.filter fun e => wait.contains e.1) }) s
  if est && sampling s then
    match takeWord s with
    | (w, s) => modEst (fun e => { e with missLeft := e.missLeft + w.toNat % 41 }) s
  else s

/-! ### The configuration that runs (R359, R384) -/

/-- The ACTIVE image as a boot judges it: its configuration, or defaults with what was wrong (major format, boot check). -/
def bootConfig (s : State) : Option Cfg × Bool × Bool :=
  match s.nv.active with
  | none => (none, false, false)
  | some b =>
    if imgFormat b / 65536 ≠ ownFormat s / 65536 then (none, true, false)
    else if (bootCheck s b).isSome then (none, false, true)
    else (some (cfgOf b), false, false)

/-- Marks of the NV that the judgement leaves, and DEFAULTS_LOCKED with DEFAULTS_TAKEN on defaults. A major format that differs marks both slots
FORMAT_STALE (R384); a boot that runs ACTIVE takes the mark from a PREVIOUS of its own major format (DEDUCED, log entry 68). -/
def bootMarks (s : State) : State :=
  let j := bootConfig s
  let other := match s.nv.previous with | some b => imgFormat b / 65536 != ownFormat s / 65536 | none => false
  let s := modNv (fun n => { n with
    formatStale := j.2.1, prevStale := if j.2.1 then n.previous.isSome else n.prevStale && other
    activeFailed := n.activeFailed || j.2.2 }) s
  if j.1.isNone then raise 0x02 8 (modLcy (fun l => { l with defaultsLocked := true }) s) else s

/-- After an activation that changes the major format the restart takes what the new firmware can run (R384). -/
def reconfigure (s : State) : State :=
  let j := bootConfig s
  if j.2.1 = s.nv.formatStale then s
  else commitPulse s.nv.active.isSome (j.1.getD defaultCfg) (bootMarks s)

/-! ### Restart -/

/-- The restart ends (R35, Table 13.9, step 7): fallback or mark, microcode, configuration, HS_READY, the SPC_RESET record. -/
def spcStart (s : State) : State :=
  let s := reconfigure (loadUcode (carryOut (fallBack s)))
  let s := modLcy (fun l => { l with spcDown := false, spcInReset := false }) (hsReached s)
  recordCode 2 0x1183 0xFFFF (le 1 s.lcy.spcCause) s

/-- SPC_RESET: lockstep, watchdog or ECC; cause 2, ACTIVATE, comes with UPD_ACTIVATE alone. -/
def execSpcReset (cause : Fin 4) (s : State) : Host.Outcome State Fault Refusal :=
  act (fun s =>
    if alive s && cause != 2 then spcResetFx cause.val (if s.lcy.spcDown then failedStart s else s) else s) s

def execSpcRestartDone (s : State) : Host.Outcome State Fault Refusal :=
  act (fun s => if alive s && s.lcy.spcDown && s.lcy.spcCause != 2 then spcStart s else s) s

def execActivationPauseEnd (s : State) : Host.Outcome State Fault Refusal :=
  act (fun s => if alive s && s.lcy.spcDown && s.lcy.spcCause == 2 then spcStart s else s) s

end Sys2Proof.Machine
end

