-- ==== Sys2Proof/Machine/Islands.lean ====
section
/-! DEFINITION. Crossings between clock islands (15): delivery of values and of pulse counts, reset of one side, ready exchange, wake and
stop of an island's clock. -/

namespace Sys2Proof.Machine

open Sys2Proof

/-! ### Delivery (R431, R432) -/

/-- EST takes what PRO passes: a probe request that is new begins, one that is gone ends unless it bleeds already (R222); inhibits stop what
bleeds (R219). -/
def takeView (v : ProView) (s : State) : State :=
  let asked (u : Nat) : Option Nat := (v.probes.find? fun e => e.1 == u).map Prod.snd
  inhibitStops (forAll (List.range 144) (fun u s =>
    match asked u, (s.bal.slots.getD u {}).probe with
    | some n, 0 => modSlot u (fun b => { b with probe := 1, probeInput := n }) s
    | none, 1 | none, 2 | none, 3 => modSlot u (fun b => { b with probe := 0, noPlan := commands s && s.bal.roundDue }) s
    | _, _ => s) s)

/-- IMP takes the state of a tick; it keeps what a window can still need (R200). -/
def takeTickState (x : TickState) (s : State) : State :=
  let span := 60000000000 + (s.cfgImp.impI 8).toNat
  { s with imp := { s.imp with ticks := (x :: s.imp.ticks).filter fun y => decide (x.time ≤ y.time + span) } }

/-- What a value does at its destination (Table 15.2). -/
def deliver (x : Nat) (v : XVal) (s : State) : State :=
  match x, v with
  | 0x10, .sop t c d => modCtl (fun k => { k with sopCh := c, sopDis := d, sopTick := t, sopStale := false }) s
  | 0x11, .sop t c d => { s with ses := { s.ses with sopCh := c, sopDis := d, sopAt := t } }
  | 0x12, .derate c d => modCtl (fun k => { k with derCh := c, derDis := d }) s
  | 0x13, .prot v => takeView v s
  | 0x15, .results l => forAll l (fun e s => modCtx e.1 (fun x => { x with imp := some e.2 }) s) s
  | 0x16, .tickState x => takeTickState x s
  | 0x20, .phase e => if s.pai.follower then s else phaseFx e s
  | 0x1D, .iso r st => if proRuns s then insEval r st s else s
  | 0x1E, .throttle l k d => modEst (fun e => { e with throttle := (l, k, d) }) s
  | 0x1F, .throttle l k d =>
    if sampling s && s.smp.started then modImp (fun m => { m with thrNext := some (l, k, d) }) s else setThrottle (l, k, d) s
  | _, _ => s

/-- The transfer in flight arrives whole; the pending value goes out as the acknowledge returns (R431). -/
def valueDelivered (x : Nat) (s : State) : State :=
  let r := s.xr x
  if r.down || !xngPresent s x then s
  else
    match r.fly with
    | none => s
    | some v => deliver x v (modX x (fun r => { r with held := some v, fly := r.pend, pend := none }) s)

def execCrossingValueDelivered (x : Byte) (s : State) : Host.Outcome State Fault Refusal :=
  act (fun s => if alive s || (recRuns s && x == 0x1D) then valueDelivered x.toNat s else s) s

/-- Flag of the event block that an accumulator feeds: TMB events in SMP_EVENT, UNIT_STALE, UNIT_RECOVERED and LATE_DATA of the ports of
an island (Table 15.2). -/
def pulseFlag (x key : Nat) : Nat × Nat :=
  if x = 0x23 then (0x06, key) else (20 + 8 * (x - 0x24) + key / 3, if key % 3 = 0 then 4 else if key % 3 = 1 then 5 else 7)

/-- Every count in flight is added at the destination, one set event per occurrence (R436); then the accumulator's count goes out. -/
def pulsesDelivered (x : Nat) (s : State) : State :=
  let r := s.xr x
  if r.down || !xngPresent s x then s
  else
    let put (k : Nat) (s : State) : State :=
      let a := r.accs.getD k ({} : Sys2Proof.Machine.Acc)
      forAll (List.range a.fly) (fun _ s => raise (pulseFlag x k).1 (pulseFlag x k).2 s) s
    forAll (List.range r.accs.length) put
      (modX x (fun r => { r with accs := r.accs.map fun a => { fly := a.acc, acc := 0 } }) s)

def execCrossingPulseDelivered (x : Byte) (s : State) : Host.Outcome State Fault Refusal :=
  act (fun s => if alive s then pulsesDelivered x.toNat s else s) s

/-! ### Reset of one side (R440 to R442) -/

/-- The crossings that an island shares. -/
def sharedBy (s : State) (i : Nat) : List Nat :=
  (List.range 81).filter fun x =>
    xngPresent s x && (match xngDef x with | some (a, b, _, _) => a == i || b == i | none => false)

/-- The live side: values, pending values and counts without an acknowledge are discarded, a transfer in progress too; the flush is
counted, the crossing is DOWN. -/
def flushCrossing (x : Nat) (s : State) : State :=
  raiseXng 0 (modX x (fun r => { r with
    down := true, ready := false, refusedOnce := false, flush := satAdd r.flush 1, fly := none, pend := none, accs := [] }) s)

/-- Only SPC (2) and PRO (13) reset alone. The indication comes once in each reset, also where the crossing is DOWN still from the reset
before (R440). -/
def islandInReset (s : State) (i : Nat) : Bool := (i == 2 && s.lcy.spcInReset) || (i == 13 && s.pro.inReset)

def execCrossingResetIndication (i : Fin 17) (s : State) : Host.Outcome State Fault Refusal :=
  act (fun s =>
    if alive s && islandInReset s i.val && !s.xng.told.contains i.val then
      forAll (sharedBy s i.val) flushCrossing { s with xng := { s.xng with told := i.val :: s.xng.told } }
    else s) s

/-- Ready again: a VALUE crossing sends its source's current value first. -/
def readyCrossing (x : Nat) (s : State) : State :=
  modX x (fun r => { r with down := false, ready := true, fly := r.cur }) s

/-- No crossing that an island shares is DOWN. -/
def allReady (s : State) (i : Nat) : Bool := (sharedBy s i).all fun x => !(s.xr x).down

/-- An island has left reset: its crossings become READY, but for one whose other side is still in reset. REHANDSHAKE_DONE rises for an island
whose last crossing that is (R442). -/
def rehandshakeFx (i : Nat) (s : State) : State :=
  let other := if i = 2 then 13 else 2
  let shut (x : Nat) : Bool := islandInReset s other && (sharedBy s other).contains x
  let t := forAll ((sharedBy s i).filter fun x => (s.xr x).down && !shut x) readyCrossing
    { s with xng := { s.xng with told := s.xng.told.erase i } }
  forAll [i, other] (fun k u => onlyIf (!allReady s k && allReady t k) (raiseXng 5) u) t

/-- The ready exchange of an island. PRO has left reset with PRO_RESTART; the SPC island leaves it before its processor has restarted, and this
event says so (R35, R442; DEDUCED, log entry 67). -/
def execRehandshakeDone (i : Fin 17) (s : State) : Host.Outcome State Fault Refusal :=
  act (fun s =>
    if !alive s || (s.pro.inReset && i.val == 13) then s
    else if i.val = 2 then rehandshakeFx 2 (modLcy (fun l => { l with spcInReset := false }) s)
    else if i.val = 13 then rehandshakeFx 13 s
    else s) s

/-! ### Stopped clocks (R439) -/

/-- The island's clock is stopped while the module is awake: in LISTEN (Table 1.3), and that of IMP at module level 3 (Table 16.6). -/
def clockStopped (s : State) (i : Nat) : Bool :=
  (s.pwr.state == 1 && s.pwr.target.isNone && ((decide (3 ≤ i) && decide (i ≤ 8)) || i == 10 || i == 11 || i == 12 || i == 14)) ||
    (i == 12 && s.hkp.impStopped)

def execIslandWake (i : Fin 17) (ns : Nat) (s : State) : Host.Outcome State Fault Refusal :=
  act (fun s =>
    if alive s && clockStopped s i.val && islandPresent s i.val && !s.xng.woken.contains i.val then
      let s := { s with xng := { s.xng with
        wakeMax := if s.xng.wakeMax.toNat < ns then u32 ns else s.xng.wakeMax, woken := i.val :: s.xng.woken } }
      if 2000 < ns then raiseXng 4 s else s
    else s) s

def execIslandClockStop (i : Fin 17) (s : State) : Host.Outcome State Fault Refusal :=
  act (fun s => if alive s then { s with xng := { s.xng with woken := s.xng.woken.filter fun k => k != i.val } } else s) s

end Sys2Proof.Machine
end

