-- ==== Sys2Proof/Machine/Lifecycle.lean ====
section
/-! DEFINITION. Life cycle (R385 to R388), credentials (R320, R386) and firmware update by the host (R390 to R392, R396, R397): LCY_GET,
LCY_SET, WIPE_DONE, CRED_SET, CRED_DEL, UPD_OPEN, UPD_WRITE, UPD_ACTIVATE, UPD_INFO. -/

namespace Sys2Proof.Machine

open Sys2Proof

/-- Every open session closes with a cause. -/
def closeAll (cause : Nat) (s : State) : State := forAll (List.range 256) (fun c s => closeSession c cause true s) s

/-! ### Life cycle -/

/-- A credential of role SERVICE other than 0x0000. -/
def serviceCred (l : List Cred) : Bool := l.any fun c => c.role == 3 && c.id != 0

/-- The transitions of Table 13.7. -/
def lcyAdmits (a b : Nat) : Bool :=
  [(0, 1), (1, 2), (3, 2), (2, 3), (2, 1), (3, 1), (1, 4), (2, 4), (3, 4)].contains (a, b)

/-- The condition of a transition holds; RETIRED needs every record read out (R460). -/
def lcyCond (s : State) (t : Nat) : Bool :=
  if t = 1 && s.nv.lcy = 0 then serviceCred s.nv.creds
  else if t = 2 then !s.lcy.defaultsLocked
  else if t = 4 then s.recNv.exportMark == s.recNv.next
  else true

/-- Whether a transition wipes: all of them but those to COMMISSIONED and from COMMISSIONED to SERVICE. -/
def lcyWipes (t : Nat) : Bool := t == 1 || t == 4

/-- The end of a transition: LAST_STATUS, COMPLETION, sessions close with cause 4, LCY_CHANGED (R387). -/
def lcyDone (s : State) : State :=
  raise 0x02 0 (closeAll 4 (completeOp 0x0B02 stOk [] (modNv (fun n => { n with lcyLast := stOk }) s)))

/-- LCY_SET accepted: the target is in NV before the wipe starts (R388). DEBUG_EN clears on leaving SERVICE. -/
def lcySetRun (r : Req) (t : Nat) (s : State) : State :=
  let s := flushTrigger (defer r 0x0B02 s)
  let s := modLcy (fun l => { l with debugEn := l.debugEn && s.nv.lcy != 3 }) s
  let s := modNv (fun n => { n with lcy := t, wipeFrom := n.lcy, wipePending := lcyWipes t }) s
  if lcyWipes t then s else lcyDone s

def execLcySet (r : Req) (target : Byte) (confirm : Word) (s : State) : Host.Outcome State Fault Refusal :=
  act (requestNoting r 0x0B02 service
    (fun s =>
      let t := target.toNat
      let known := lcyAdmits s.nv.lcy t
      { forbidden := !stateOk [1] s || (known && !lcyCond s t)
        range := !known || confirm != BitVec.ofNat 32 s.fac.serial
        busy := deferredBusy 0x0B02 s })
    (fun st s => modNv (fun n => { n with lcyLast := st }) s) (lcySetRun r target.toNat)) s

def execLcyGet (r : Req) (s : State) : Host.Outcome State Fault Refusal :=
  act (request r 0x0B01 observer (fun s => { forbidden := !stateOk awake s })
    (fun s => respond r 0x0B01 stOk (le 1 s.nv.lcy ++ le 1 s.nv.lcyLast ++ le 2 s.nv.creds.length) s)) s

/-! ### The wipe (R387, R388) -/

/-- Both configuration slots, VERSION_HIGH, learned data, wire data, port identities, staging area. -/
def wipeFull (s : State) : State :=
  let s := modNv (fun n => { n with
    active := none, previous := none, versionHigh := 0, activeFailed := false, formatStale := false, prevStale := false
    copyA := {}, copyB := {}, wires := List.replicate 144 none, staged := [], stagedLen := 0 }) s
  let s := modEst (fun e => { e with retain := 0, ports := List.replicate 48 {} }) s
  modBal (fun b => { b with slots := b.slots.map fun x => { x with wire := none } }) s

/-- The recorder's NV region: indexing starts at 0 again; records still in the ring are numbered from there (DESIGN CHOICE, log entry 25). -/
def wipeRecords (s : State) : State :=
  let s := modRec (fun d => { d with ring := d.ring.mapIdx fun i x => { x with index := i }, snaps := [] }) s
  modRecNv (fun n => { n with records := [], oldest := 0, exportMark := 0, wrapped := false, next := s.recd.ring.length }) s

/-- Every item of the set is erased; defaults are taken with one commit pulse where both slots went (R387). -/
def wipeSet (s : State) : State :=
  if s.nv.wipeFrom = 0 then modNv (fun n => { n with creds := n.creds.filter fun c => c.id != 0 }) s
  else
    let had := s.nv.active.isSome
    let s := wipeFull s
    let s := if s.nv.lcy = 4 then modNv (fun n => { n with creds := [] }) (wipeRecords s) else s
    raise 0x02 8 (modLcy (fun l => { l with defaultsLocked := true }) (commitPulse had defaultCfg s))

/-- WIPE_DONE: an item that fails verification raises WIPE_FAIL and is erased again; the verified end raises WIPE_DONE (R388). -/
def wipeDoneFx (verified : Bool) (s : State) : State :=
  if !s.nv.wipePending then s
  else if !verified then raise 0x02 9 (modLcy (fun l => { l with wipeFail := true }) s)
  else
    let s := modNv (fun n => { n with wipePending := false }) (wipeSet s)
    lcyDone (raise 0x02 1 (modLcy (fun l => { l with wipeFail := false }) s))

def execWipeDone (verified : Bool) (s : State) : Host.Outcome State Fault Refusal :=
  act (fun s => if spcUp s then wipeDoneFx verified s else s) s

/-! ### Credentials -/

/-- A table that keeps a credential of role SERVICE where R386 asks for one. -/
def credsOk (s : State) (l : List Cred) : Bool :=
  !(s.nv.lcy == 1 || s.nv.lcy == 2 || s.nv.lcy == 3) || l.any fun c => c.role == 3

/-- The table with an entry installed or replaced. -/
def credPut (c : Cred) (l : List Cred) : List Cred := c :: l.filter fun x => x.id != c.id

def execCredSet (r : Req) (id : Half) (role : Byte) (key : Bytes) (s : State) : Host.Outcome State Fault Refusal :=
  act (request r 0x0B03 service
    (fun s => {
      format := key.length != 32
      forbidden := !stateOk notRun s
      range := id == 0 || decide (3 < role.toNat) ||
        (!(s.nv.creds.any fun c => c.id == id) && decide (32 ≤ s.nv.creds.length)) ||
        !credsOk s (credPut { id := id, role := role.toNat, key := key } s.nv.creds) })
    (fun s => respond r 0x0B03 stOk []
      (modNv (fun n => { n with creds := credPut { id := id, role := role.toNat, key := key } n.creds }) s))) s

/-- CRED_DEL: the answer goes out before the sessions under the credential close. -/
def credDelRun (r : Req) (id : Half) (s : State) : State :=
  let s := respond r 0x0B04 stOk [] (modNv (fun n => { n with creds := n.creds.filter fun c => c.id != id }) s)
  forAll (List.range 256) (fun c s => if (s.sess c).cred == id then closeSession c 4 true s else s) s

def execCredDel (r : Req) (id : Half) (s : State) : Host.Outcome State Fault Refusal :=
  act (request r 0x0B04 service
    (fun s => {
      forbidden := !stateOk notRun s
      range := !(s.nv.creds.any fun c => c.id == id) || !credsOk s (s.nv.creds.filter fun c => c.id != id) })
    (credDelRun r id)) s

/-! ### Firmware update -/

/-- CFG and UPD commands are answered LOCKED in RETIRED (R385). -/
def updLocked (s : State) : Bool := s.nv.lcy == 4

def execUpdOpen (r : Req) (len : Nat) (s : State) : Host.Outcome State Fault Refusal :=
  act (request r 0x0A01 service
    (fun s => {
      locked := updLocked s, forbidden := !stateOk notRun s, range := decide (2 ^ 24 < len), busy := (running 0x0A03 s).isSome })
    (fun s => respond r 0x0A01 stOk [] (modNv (fun n => { n with stagedLen := len, staged := [] }) s))) s

def execUpdWrite (r : Req) (off : Nat) (data : Bytes) (s : State) : Host.Outcome State Fault Refusal :=
  act (request r 0x0A02 service
    (fun s => {
      format := data.isEmpty
      locked := updLocked s, forbidden := !stateOk notRun s, range := decide (s.nv.stagedLen < off + data.length)
      busy := (running 0x0A03 s).isSome })
    (fun s =>
      let s := modNv (fun n => { n with staged := putBytes off data n.staged }) s
      respond r 0x0A02 stOk (le 4 s.nv.staged.length) s)) s

/-- A standby that can take SELECT: PEER up and its HEALTH high (R428). -/
def hasStandby (s : State) : Bool := inPair s && s.pai.select && peerIs s PeerStatus.health

/-- The major part of the staged image's format differs from the running firmware's (R391). -/
def stagedMajor (s : State) : Bool :=
  match stagedImage s with
  | some b => decide (u32At b 12 / 65536 ≠ ownFormat s / 65536)
  | none => false

/-- UPD_ACTIVATE accepted: the mark, the RESPONSE, then the pause; a holder of a pair hands SELECT over first (R391, R396). -/
def updActivateRun (r : Req) (s : State) : State :=
  let s := modNv (fun n => { n with mark := if (stagedImage s).isSome then 1 else 2 }) s
  let s := flushTrigger (defer r 0x0A03 s)
  if inPair s && s.pai.select then modPai (fun p => { p with handover := true, activate := true }) s else spcResetFx 2 s

def execUpdActivate (r : Req) (s : State) : Host.Outcome State Fault Refusal :=
  act (requestNoting r 0x0A03 service
    (fun s => {
      locked := updLocked s
      forbidden := !stateOk awake s || (engineRuns s && !hasStandby s) || (stagedMajor s && s.pro.conn != 0)
      range := (stagedImage s).isNone && s.nv.alternate.isNone
      busy := s.bal.learn.isSome || (s.pro.conn != 0 && s.pro.conn != 5) || deferredBusy 0x0A03 s })
    (fun st s => modNv (fun n => { n with updLast := st }) s) (updActivateRun r)) s

/-- STAGED_VER: FW_VER of the staged header when its first 8 bytes are held. -/
def stagedVer (s : State) : Nat :=
  match bufferBytes 8 s.nv.staged with
  | some b => u32At b 4
  | none => 0

/-- Table 13.10. -/
def updBytes (s : State) : Bytes :=
  le 4 s.nv.stagedLen ++ le 4 s.nv.staged.length ++ le 4 (stagedVer s) ++ le 1 s.nv.updLast ++ le 1 s.nv.updKind ++ [0, 0] ++
    leW s.nv.running.ver ++ leW ((s.nv.alternate.map FwImage.ver).getD 0) ++ leW s.lcy.ucodePend ++ leW s.nv.fwMin

def execUpdInfo (r : Req) (s : State) : Host.Outcome State Fault Refusal :=
  act (request r 0x0A04 observer (fun s => { locked := updLocked s, forbidden := !stateOk awake s })
    (fun s => respond r 0x0A04 stOk (updBytes s) s)) s

end Sys2Proof.Machine
end

