-- ==== Sys2Proof/Machine/Pair.lean ====
section
/-! DEFINITION. The redundant pair (14): PEER frames, following the leader's time, mirrored channels, the state copy, the arbiter, SELECT,
hand-over, and the commands of PEER_HELLO to PAIR_GE_SETTLE with PAI_STATUS and PAI_HANDOVER. -/

namespace Sys2Proof.Machine

open Sys2Proof

/-- PEER runs: a pair unit with a PAIR section, in every state but DORMANT (R403). -/
def peerRuns (s : State) : Bool := alive s && inPair s

def modArb (f : Arb → Arb) (s : State) : State := { s with arb := f s.arb }

/-! ### HELLO (R405) -/

/-- The checks of R405. -/
def helloOk (s : State) (h : PeerHello) : Bool :=
  let want := (s.cfg.pair.map PairCfg.peerSerial).getD 0
  h.role + role s == 3 && h.role != 0 && role s != 0 && (want == 0 || h.serial == want) && h.proto == 1

def peerHelloFx (h : PeerHello) (s : State) : State :=
  if s.pai.peerUp then s
  else if !helloOk s h then raise 0x10 5 (modPai (fun p => { p with helloRun := 0 }) s)
  else
    let s := modPai (fun p => { p with helloRun := p.helloRun + 1, peerSn := h.serial }) s
    if s.pai.helloRun < 16 then s
    else raise 0x10 3 (modPai (fun p => { p with peerUp := true, quiet := 0, mapMatch := h.mapCrc == mapCrc s, peer := none }) s)

def execPeerHello (h : PeerHello) (s : State) : Host.Outcome State Fault Refusal :=
  act (fun s => if peerRuns s then peerHelloFx h s else s) s

/-! ### Time (R406) -/

/-- The standby, or B when neither module holds SELECT, follows. -/
def follows (s : State) : Bool := !s.pai.select && (peerIs s PeerStatus.select || role s == 2)

/-- ALIGNED after 16 measurements within 20 ns in a row, cleared at 4 in a row beyond 40 ns. The operand is 2θ in ps. -/
def alignFx (twice : Int) (s : State) : State :=
  let near := decide (twice.natAbs ≤ 40000)
  let far := decide (80000 < twice.natAbs)
  let s := modPai (fun p => { p with alignIn := if near then p.alignIn + 1 else 0, alignOut := if far then p.alignOut + 1 else 0 }) s
  if s.pai.aligned && decide (4 ≤ s.pai.alignOut) then raise 0x10 11 (modPai (fun p => { p with aligned := false }) s)
  else modPai (fun p => { p with aligned := p.aligned || decide (16 ≤ p.alignIn) }) s

/-- The follower's correction, from 2θ in ps: θ is its time less the leader's, so that the phase error is -θ (DEDUCED, log entry 26). LOCKED needs ALIGNED and
the leader's LOCKED. -/
def followPhase (twice : Int) (locked : Bool) (s : State) : State :=
  let ok := s.pai.aligned && locked
  let s := if ok then s
    else if s.smp.tb = 2 then tmbPulse 2 (modSmp (fun x => { x with tb := 1, inRun := 0 }) s)
    else modSmp (fun x => { x with inRun := min x.inRun 14 }) s
  phaseFx (roundRat (-(twice : Rat) / 2000)) s

/-- The stamp in the frame is of the same cycle as the own one: the frame before this is the last received, one instant earlier, or of the same
instant below 16 kS/s (R406). -/
def samePair (f : PeerStatus) (s : State) : Bool :=
  let d := (BitVec.ofNat 32 f.instant - BitVec.ofNat 32 s.pai.rxInst).toNat
  decide (s.pai.quiet ≤ 1) && decide (d ≤ 1)

/-- θ and δ from the two receipts of the same instant: the follower's own of the STATUS before, the leader's in this one. Where a STATUS was lost
between, this one gives none. `paired`: the two belong together. -/
def followFx (f : PeerStatus) (rx : Int) (paired : Bool) (s : State) : State :=
  let mine := s.pai.rxStamp
  let s := modPai (fun p => { p with rxStamp := rx, rxInst := f.instant, follower := follows s }) s
  if !s.pai.follower || !paired then s
  else
    let twice := mine - f.rxStamp
    followPhase twice f.locked (alignFx twice (modPai (fun p => { p with
      peerOfs := roundRat ((twice : Rat) / 2), peerDly := roundRat (((mine + f.rxStamp : Int) : Rat) / 2) }) s))

/-! ### Channels (R270, R413) -/

/-- Channels A and B of a STATUS frame, bit k for K(k+1). -/
def channelBits (c : Byte) (b : Nat) : BitVec 4 :=
  (List.range 4).foldl (fun m k => if c.getLsbD (2 * k + b) then m ||| (1#4 <<< k) else m) 0

/-- The standby may assert a channel: its own PRO lets it, and it does not leave RUN (R236). -/
def mirrorOk (s : State) : Bool :=
  s.pwr.state == 3 && s.pwr.target.isNone && s.pro.armed && !tripped s && !s.lcy.defaultsLocked && !s.pro.inReset

/-- The standby's channels take the holder's state; CONNECT_STATE follows it between OPEN and CONNECTED (DEDUCED, log entry 27). -/
def mirrorFx (f : PeerStatus) (s : State) : State :=
  if s.pai.select || !f.select || s.pro.inReset then s
  else
    let keep (want have_ : BitVec 4) : BitVec 4 := if mirrorOk s then want else if s.pwr.state = 3 then want &&& have_ else 0
    let a := keep (channelBits f.channels 0) s.pro.kA
    let b := keep (channelBits f.channels 1) s.pro.kB
    let was := s.pro.kA &&& s.pro.kB
    let on := (a &&& b) &&& ~~~was
    let off := was &&& ~~~(a &&& b)
    let s := brokeAbove (~~~(a &&& b)) s
    let s := feedbackActive <| modPro (fun p => { p with
      kA := a, kB := b
      closing := (p.closing ||| on) &&& ~~~off, released := (p.released ||| off) &&& ~~~on, dropRun := p.dropRun &&& ~~~off
      misA := p.misA &&& ~~~(on ||| off), misB := p.misB &&& ~~~(on ||| off) }) s
    if (s.pro.conn == 0 || s.pro.conn == 5) && (f.connect == 0 || (f.connect == 5 && mirrorOk s)) then setConn f.connect s
    else openingStep s

/-! ### The shadow loop (R417) -/

/-- d of the frame's update against the standby's own of the same update. -/
def divergeFx (f : PeerStatus) (s : State) : State :=
  let lim := (s.cfg.pair.map PairCfg.dutyDev).getD 0
  match (if s.ctl.state == 5 then (ownAt f s).filter ShadowRec.ran else none) with
  | none => modPai (fun p => { p with devHist := (0 :: p.devHist).take 1600, devRun := 0, okRun := 0 }) s
  | some o =>
    let dev := (o.d - f.d).natAbs
    let s := modPai (fun p => { p with
      devHist := (dev :: p.devHist).take 1600
      devRun := if lim < dev then p.devRun + 1 else 0
      okRun := if 2 * dev ≤ lim then p.okRun + 1 else 0 }) s
    if 16 ≤ s.pai.devRun && !s.pai.diverge then raise 0x10 10 (modPai (fun p => { p with diverge := true }) s)
    else if 1600 ≤ s.pai.okRun then modPai (fun p => { p with diverge := false }) s
    else s

/-! ### Hand-over (R396, R428) -/

/-- Hand-over is complete when SELECT is low and the peer's STATUS shows SELECT; a pair activation then starts its pause. -/
def handoverDone (s : State) : State :=
  if s.pai.handover && !s.pai.select && peerIs s PeerStatus.select then
    let go := s.pai.activate
    let s := modPai (fun p => { p with handover := false, activate := false }) s
    let s := completeOp 0x0C02 stOk [] (raise 0x10 12 s)
    if go then spcResetFx 2 s else s
  else s

/-! ### STATUS (R406, R413, R415 to R417) -/

def peerStatusFx (f : PeerStatus) (rx : Int) (s : State) : State :=
  if !s.pai.peerUp then s
  else
    let paired := samePair f s
    let s := srcWatch (srcNow s) (modPai (fun p => { p with peer := some f, peerFresh := true, quiet := 0, mapMatch := f.mapCrc == mapCrc s }) s)
    let s := if f.select && s.arb.next + role s == 3 then modArb (fun a => { a with holder := a.next, next := 0 }) s else s
    handoverDone (shadowCheck (divergeFx f (mirrorFx f (followFx f rx paired s))))

def execPeerStatus (f : PeerStatus) (rx : Int) (s : State) : Host.Outcome State Fault Refusal :=
  act (fun s => if peerRuns s then peerStatusFx f rx s else s) s

/-- An epoch that fails is discarded; the last committed one stays (R419). -/
def epochFail (s : State) : State :=
  raise 0x10 6 (modPai (fun p => { p with buf := {}, epochFails := satAdd p.epochFails 1 }) s)

/-- PEER_DOWN: 16 cycles without a valid STATUS. The standby keeps its channels (R405, R413). -/
def peerDownFx (s : State) : State :=
  if !s.pai.peerUp || s.pai.quiet < 16 then s
  else
    let was := s.pai.follower
    let s := raiseIf s.pai.aligned 0x10 11 (raise 0x10 4 (modPai (fun p => { p with
      peerUp := false, mapMatch := false, helloRun := 0, aligned := false, alignIn := 0, alignOut := 0, follower := false }) s))
    let s := if s.pai.buf.data.isEmpty then s else epochFail s
    shadowCheck (if was then phaseLost s else s)

def execPeerDown (s : State) : Host.Outcome State Fault Refusal := act (fun s => if peerRuns s then peerDownFx s else s) s

/-! ### FWD (R407) -/

/-- A forwarded block, bytes 2 to 47 of the UP block, counts as one accepted on the own port; it comes from the other lane's end. Where the own
copy is there already, it is the second copy (R60). -/
def peerFwdFx (unit : Byte) (body : Bytes) (late : Bool) (s : State) : State :=
  let p := unit.toNat / 4
  let c := unit.toNat % 4
  if !s.pai.peerUp || c == 3 || !split s p || (s.port p).link != 2 || !(s.pos p c).present || body.length != 46 then s
  else if leNat (slice body 0 2) != s.smp.instant % 65536 || !s.smp.started then s
  else if late || frameClosed s then raise 0x10 8 (modPai (fun x => { x with fwdLate := satAdd x.fwdLate 1 }) s)
  else match (s.pos p c).got with
  | some (_, old, _) => secondCopy p 47 old ([0x20, unit] ++ body) s
  | none =>
    let lane : Lane := if role s = 2 then .N else .S
    let b : Bytes := [0x20, unit] ++ body
    let was := (s.pos p c).loaded
    modPai (fun x => { x with fwdRx := satAdd x.fwdRx 1 }) (bootSeen p c was (acceptBlock p c lane b s))

def execPeerFwd (unit : Byte) (body : Bytes) (late : Bool) (s : State) : Host.Outcome State Fault Refusal :=
  act (fun s => if peerRuns s then peerFwdFx unit body late s else s) s

/-! ### COPY (R418, R419) -/

/-- The standby takes a part of an epoch; a new epoch discards an unfinished one. -/
def peerCopyFx (epoch offset len : Nat) (data : Bytes) (s : State) : State :=
  if !s.pai.peerUp || s.pai.select then s
  else
    let s := if s.pai.buf.num != epoch && !s.pai.buf.data.isEmpty then epochFail s else s
    modPai (fun p => { p with buf := { num := epoch, data := putBytes offset (data.take len) p.buf.data } }) s

def execPeerCopy (epoch offset len : Nat) (data : Bytes) (s : State) : Host.Outcome State Fault Refusal :=
  act (fun s => if peerRuns s then peerCopyFx epoch offset len data s else s) s

/-- COPY_END: the epoch is committed when every offset has arrived, the CRC matches and MAP_MATCH is 1. -/
def peerCopyEndFx (epoch len : Nat) (crc : Word) (s : State) : State :=
  if !s.pai.peerUp || s.pai.select then s
  else
    match (if s.pai.buf.num = epoch then bufferBytes len s.pai.buf.data else none) with
    | some b =>
      if crc32 b = crc && s.pai.mapMatch then
        modPai (fun p => { p with good := p.buf, buf := {}, epochOk := BitVec.ofNat 32 epoch, epochValid := true }) s
      else epochFail s
    | none => epochFail s

def execPeerCopyEnd (epoch len : Nat) (crc : Word) (s : State) : Host.Outcome State Fault Refusal :=
  act (fun s => if peerRuns s then peerCopyEndFx epoch len crc s else s) s

/-! ### TRIP (R412) -/

/-- PEER_TRIP: the engine parks as for a trip; TRIPPED does not set. -/
def execPeerTrip (_code : Byte) (_instant : Word) (s : State) : Host.Outcome State Fault Refusal :=
  act (fun s => if peerRuns s then raise 0x10 9 (parkEngine 2 s) else s) s

/-! ### PEER_CYCLE (R404, Tables 14.2 and 14.3) -/

/-- The bytes of STATUS after PTYPE and before the CRC. Without a selected current I_SEL is free (DESIGN CHOICE, log entry 4). -/
def statusBytes (s : State) : Bytes :=
  let b (x : Bool) (n : Nat) : Nat := if x then 2 ^ n else 0
  let ch := (List.range 4).foldl (fun m k => m + b (s.pro.kA.getLsbD k) (2 * k) + b (s.pro.kB.getLsbD k) (2 * k + 1)) 0
  let c := s.ctl
  let i : Bytes := match iSel s with | some v => leI 4 v | none => leW (Config.freeWord s.fresh)
  let first := if s.pwr.waitFirst && !s.smp.started && portsReady s && commands s then nextTime s / tCad (configuredCad s) % 2 ^ 32 else 0
  le 4 s.smp.instant ++
    le 1 (role s + b s.pai.select 2 + b (health s) 3 + 16 * s.pwr.state + b (tripped s) 7) ++
    le 1 (s.pro.conn + b ((s.pro.active &&& s.pro.latched) != 0) 4 + b (s.smp.tb == 2) 5) ++ le 1 ch ++
    le 1 (c.state + 8 * c.src + 64 * c.bankReq) ++ le 1 (healthWhy s) ++ leI 4 c.spHost ++ leW c.updCnt ++ leI 4 c.out ++
    leI 1 c.lastDir ++ [0] ++ le 2 (c.tZero / max 1 s.cfgCtl.tUpd) ++ [0, 0] ++ leI 4 c.u1 ++ leI 4 c.u2 ++ leI 4 c.u3 ++ leI 4 c.bal ++
    leI 4 c.duty ++ i ++ leI 4 s.pai.rxStamp ++ le 18 s.pai.need.toNat ++ le 4 first ++ leW s.pai.epochOk ++ leW (mapCrc s) ++
    le 6 s.pai.ring.toNat

/-- The COPY or COPY_END frame of a cycle. -/
def copyFrame (s : State) : State :=
  match (if s.pai.select then s.pai.tx else none) with
  | none => modPai (fun p => { p with tx := none }) s
  | some (n, b, off) =>
    if off < b.length then
      let part := slice b off 128
      sendPeer 0xA0 (le 4 n ++ le 4 off ++ le 2 part.length ++ fit 128 part) (modPai (fun p => { p with tx := some (n, b, off + 128) }) s)
    else
      sendPeer 0xA1 (le 4 n ++ le 4 b.length ++ leW (crc32 b)) (modPai (fun p => { p with tx := none, epochTx := BitVec.ofNat 32 n }) s)

def peerCycleFx (s : State) : State :=
  if !s.pai.peerUp then
    sendPeer 0xD0 (le 1 (role s) ++ le 8 s.fac.serial ++ [1, 0] ++ leW (mapCrc s)) (modPai (fun p => { p with tx := none }) s)
  else
    let s := modPai (fun p => { p with quiet := p.quiet + 1 }) s
    let body := statusBytes s
    let s := if (iSel s).isSome then s else (takeWord s).2
    copyFrame (sendPeer 0x80 body s)

def execPeerCycle (s : State) : Host.Outcome State Fault Refusal := act (fun s => if peerRuns s then peerCycleFx s else s) s

/-! ### The arbiter (R424, R425) -/

/-- 1 for module A, 2 for module B. -/
def roleNum (m : Role) : Nat := match m with | .A => 1 | .B => 2

/-- The module is FIT as the arbiter has it. -/
def Arb.fit (a : Arb) (m : Nat) : Bool := if m = 1 then a.fitA else if m = 2 then a.fitB else false

/-- The module has been FIT throughout the last 10 ms. -/
def Arb.long (a : Arb) (m : Nat) : Bool := if m = 1 then a.longA else if m = 2 then a.longB else false

/-- BREATH of a module is lost: the own one as it runs, the peer's as the arbiter reports it (DEDUCED, log entry 28). -/
def breathLost (x : FitReport) (m : Nat) (s : State) : Bool := if m = role s then !breath s else x.noBreath

/-- The five outputs of the arbiter: the holder's signals, all low while no module holds SELECT (R402). -/
def stageOut (s : State) : Stage :=
  if s.arb.holder = 0 then {} else if s.arb.holder = role s then stagePins s else s.arb.other

/-- What the arbiter has of a module's fitness, with the other module's five signals at that moment. An arbiter that reports drives both SELECT
pairs (R421; DEDUCED, log entry 43). -/
def fitSeen (m : Nat) (fit long : Bool) (other : Stage) (s : State) : State :=
  modPai (fun p => { p with selectValid := true }) <| modArb (fun a => { a with
    fitA := if m = 1 then fit else a.fitA, fitB := if m = 1 then a.fitB else fit
    longA := if m = 1 then long else a.longA, longB := if m = 1 then a.longB else long, other := other }) s

/-- SELECT leaves the holder; the other module gets it after the gap (Table 14.4, steps 3 and 4). -/
def moveSelect (m : Nat) (s : State) : State := modArb (fun a => { a with holder := 0, next := m }) s

/-- ARBITER_NOT_FIT: SELECT moves to the other module where it has been FIT for 10 ms; else it is withdrawn when BREATH is lost (R424). -/
def notFitFx (x : FitReport) (s : State) : State :=
  let m := roleNum x.m
  let s := fitSeen m false false x.other s
  if s.arb.holder ≠ m then s
  else if s.arb.long (3 - m) then moveSelect (3 - m) s
  else if breathLost x m s then modArb (fun a => { a with holder := 0 }) s
  else s

def execArbiterNotFit (x : FitReport) (s : State) : Host.Outcome State Fault Refusal :=
  act (fun s => if hasPai s then notFitFx x s else s) s

/-- ARBITER_FIT: a module FIT for 10 ms is given SELECT when no module holds it, A first; it takes it from a holder that is not FIT. In the gap
SELECT is on its way already (R424). -/
def fitFx (x : FitReport) (s : State) : State :=
  let m := roleNum x.m
  let s := fitSeen m true x.long x.other s
  let a := s.arb
  if !x.long then s
  else if a.holder = 0 then (if a.next = 0 then modArb (fun a => { a with holder := if a.longA then 1 else m }) s else s)
  else if !a.fit a.holder then moveSelect m s
  else s

def execArbiterFit (x : FitReport) (s : State) : Host.Outcome State Fault Refusal :=
  act (fun s => if hasPai s then fitFx x s else s) s

/-! ### SELECT (R420, R426) -/

/-- PAIR_CHANGE (R429): 0 first SELECT, 1 gained, 2 lost, 3 withdrawn from both. -/
def pairChange (how : Nat) (s : State) : State :=
  let b (x : Bool) (n : Nat) : Nat := if x then 2 ^ n else 0
  let epoch : Bytes := if how < 2 && s.pai.epochValid then leW s.pai.epochOk else leW 0xFFFFFFFF
  notice 4 0x40 (le 1 (b s.pai.select 0 + b (peerIs s PeerStatus.select) 1) ++ le 1 how ++
    [(s.pai.peer.map PeerStatus.why).getD 0, 0] ++ epoch) s

/-- The shadow engine takes over: RUNNING, or STOPPING when the holder was; its pattern waits for PAIR_GE_SETTLE. -/
def takeEngine (s : State) : State :=
  if s.ctl.state != 5 then s
  else
    let stopping := (s.pai.peer.map PeerStatus.ctlState).getD 0 == 4
    modPai (fun p => { p with settle := true })
      (modCtl (fun c => { c with state := if stopping then 4 else 3, enable := true, quietRun := 0 }) s)

/-- SP_HOST, SRC and BANK_REQ of the last STATUS; HOST_SP_HOLD restarts. -/
def takeHost (f : PeerStatus) (s : State) : State :=
  if hasCtl s then
    srcWatch (srcNow s)
      (modCtl (fun c => { c with spHost := f.spHost, hostStale := false, spRun := true, src := min f.src 4, bankReq := f.bankReq % 4 }) s)
  else s

/-- CONNECT_STATE of the last STATUS; any but OPEN and CONNECTED opens the string. A module whose own PRO has opened it keeps its own
state (DEDUCED, log entry 27). -/
def takeSequence (f : PeerStatus) (s : State) : State :=
  if tripped s || !(s.pro.conn == 0 || s.pro.conn == 5) then s
  else
    let s := setConn f.connect s
    if f.connect = 0 || f.connect = 5 then s else if f.connect < 7 then openString false s else beginOpen false s

/-- SELECT gained (R420, R426). No answer to a command of the former holder is awaited any more. -/
def selectGainedFx (s : State) : State :=
  if s.pai.select then s
  else
    let how := if s.pai.everSelect then 1 else 0
    let s := insChange (modPai fun p => { p with
      select := true, selectValid := true, everSelect := true, follower := false, takeEpoch := true, selectCnt := satAdd p.selectCnt 1 })
      (modArb (fun a => { a with holder := role s, next := 0 }) s)
    let s := match s.pai.peer with
      | some f => takeSequence f (takeEngine (takeHost f s))
      | none => takeEngine s
    let s := modBal (fun b => { b with planNow := true, sent := [] }) (stopAllPorts s)
    let s := { s with prt := s.prt.map fun x => { x with pos := x.pos.map fun y => { y with cmd := none } } }
    pairChange how (raise 0x10 0 s)

def execSelectGained (s : State) : Host.Outcome State Fault Refusal :=
  act (fun s => if peerRuns s then selectGainedFx s else s) s

/-- R278: RUNNING and STOPPING go to SHADOW, STARTING parks. -/
def loseEngine (s : State) : State :=
  if s.ctl.state = 3 || s.ctl.state = 4 then
    let old := srcNow s
    let s := srcWatch old (modCtl (fun c => { c with
      state := 5, stopCause := 6, enable := false, pwm0 := none, pwm1 := none, tones := [], tonesNext := none, clipAt := none, quietRun := 0 }) s)
    completeOp 0x0802 stOk [] { s with pai := { s.pai with own := [], devRun := 0, okRun := 0, settle := false } }
  else parkEngine 6 s

/-- Planning and testing end (R426): wire learning aborts, probes and passes end without a result. -/
def stopTests (s : State) : State :=
  let s := learnAbort s
  let s := forAll (List.range 144) testsEnd s
  modBal (fun b => { b with
    roundDue := false, planNow := false, later := [], slots := b.slots.map fun x => { x with probe := 0, noPlan := false } }) s

def selectLostFx (s : State) : State :=
  if !s.pai.select then s
  else
    let s := insChange (fun s => insModeSettle (modPai (fun p => { p with select := false, selectValid := true }) s)) s
    let none_ := s.arb.holder == 0 && s.arb.next == 0 && !peerIs s PeerStatus.select
    let s := modPai (fun p => { p with follower := follows s, takeEpoch := false, tx := none }) s
    let s := connectWatch (stopTests (loseEngine s))
    let s := raiseIf none_ 0x10 2 (raise 0x10 1 s)
    handoverDone (pairChange (if none_ then 3 else 2) s)

def execSelectLost (s : State) : Host.Outcome State Fault Refusal := act (fun s => if peerRuns s then selectLostFx s else s) s

/-- PAIR_GE_SETTLE: from here the pins carry the latched pattern (R426). -/
def execPairGeSettle (s : State) : Host.Outcome State Fault Refusal :=
  act (fun s => if peerRuns s then modPai (fun p => { p with settle := false }) s else s) s

/-- HANDOVER_TIMEOUT: 100 ms without the hand-over: BUSY; the mark that UPD_ACTIVATE made stays (R342, R391, R396, R428). -/
def handoverTimeoutFx (s : State) : State :=
  if !s.pai.handover then s
  else
    let act_ := s.pai.activate
    let s := completeOp 0x0C02 stBusy [] (modPai (fun p => { p with handover := false, activate := false }) s)
    if act_ then completeOp 0x0A03 stBusy [] (modNv (fun n => { n with updLast := stBusy }) s) else s

def execHandoverTimeout (s : State) : Host.Outcome State Fault Refusal :=
  act (fun s => if peerRuns s then handoverTimeoutFx s else s) s

/-! ### Mailbox (R428, R429) -/

/-- PAI registers 0x0020 to 0x004C. -/
def paiValue (s : State) (off : Nat) : Word :=
  let p := s.pai
  match off with
  | 0x20 => s32 p.peerOfs
  | 0x24 => s32 p.peerDly
  | 0x28 => p.epochTx
  | 0x2C => p.epochOk
  | 0x30 => p.epochFails
  | 0x34 => p.fwdTx
  | 0x38 => p.fwdRx
  | 0x3C => p.fwdLate
  | 0x40 => p.selectCnt
  | 0x44 => BitVec.ofNat 32 (p.devHist.foldl max 0 % 2 ^ 25)
  | 0x48 => BitVec.ofNat 32 (p.peerSn % 2 ^ 32)
  | 0x4C => BitVec.ofNat 32 (p.peerSn / 2 ^ 32)
  | _ => 0

def execPaiStatus (r : Req) (s : State) : Host.Outcome State Fault Refusal :=
  act (request r 0x0C01 observer (fun s => { absent := !hasPai s, forbidden := !stateOk awake s })
    (fun s => respond r 0x0C01 stOk (leW (paiStatus s) ++ ((List.range 12).flatMap fun k => leW (paiValue s (0x20 + 4 * k)))) s)) s

def execPaiHandover (r : Req) (s : State) : Host.Outcome State Fault Refusal :=
  act (request r 0x0C02 operator
    (fun s => {
      absent := !hasPai s, forbidden := !stateOk [3, 4] s || !hasStandby s, busy := deferredBusy 0x0C02 s || s.pai.handover })
    (fun s => modPai (fun p => { p with handover := true }) (defer r 0x0C02 s))) s

end Sys2Proof.Machine
end

