-- ==== Sys2Proof/Machine/Session.lean ====
section
/-! DEFINITION. Sessions (R320 to R326), stream queues as the session engine reads them (R329 to R334), subscriptions (R349 to R351)
and notices on demand: HELLO, CONFIRM, HOST_CLOSE, STREAM_ACK, HS_TIMEOUT, SES_IDLE_TIMEOUT, SES_LIFETIME_EXPIRY, STREAM_RECORD_SEND,
QUE_TAIL_TMO, SOP_LIMITS, SUB_BIND, SUB_UNBIND, SUB_LIST, NOTICE_SUB. -/

namespace Sys2Proof.Machine

open Sys2Proof

/-- Adds to a counter of SES: 0 HS_OK, 1 HS_FAIL, 2 HELLO_DROP, 3 TAG_FAIL, 4 REPLAY, 5 RX_DISCARD. -/
def sesCount (i : Nat) (s : State) : State := { s with ses := { s.ses with cnt := bumpAt s.ses.cnt i } }

/-! ### Handshake (R322, R323) -/

/-- The life-cycle state admits a session of the role (Table 13.6); none while WIPE_FAIL stands (R388). -/
def admitsRole (s : State) (role : Nat) : Bool :=
  !s.lcy.wipeFail && (match s.nv.lcy with
    | 0 => role == 3
    | 4 => false
    | _ => true)

/-- The HELLO record, bytes 0 to 79. -/
def helloBytes (h : HelloRec) : Bytes :=
  [0x01, 0x01, 0, 0] ++ List.replicate 8 0 ++ le 2 h.credId.toNat ++ [h.role, 0] ++ h.ri ++ h.xi

/-- The CHALLENGE record, bytes 0 to 75. -/
def challengeBytes (ctx gen : Byte) (rm xm : Bytes) : Bytes := [0x01, 0x02, ctx, gen] ++ List.replicate 8 0 ++ rm ++ xm

/-- "TLG-SES v1" in ASCII. -/
def sesInfo : Bytes := [0x54, 0x4C, 0x47, 0x2D, 0x53, 0x45, 0x53, 0x20, 0x76, 0x31]

/-- The lowest context that is neither open nor half-open. -/
def freeCtx (s : State) : Option Nat := (List.range 256).find? fun c => !(s.sess c).opened && !(s.sess c).half

/-- Reserves context `c` half-open and computes the keys and the CHALLENGE (R322, Table 10.5, steps 1 and 2). -/
def reserve (h : HelloRec) (c : Nat) (s : State) : State :=
  let ctx : Byte := BitVec.ofNat 8 c
  let gen := (s.sess c).gen + 1
  match takeBytes 32 s with
  | (rm, s) => match takeBytes 32 s with
    | (sk, s) => match takeBytes 32 s with
      | (randomKey, s) =>
        let cred := s.nv.creds.find? fun e => e.id == h.credId
        let psk := match cred with | some e => e.key | none => randomKey
        let xm := Config.x25519Base sk
        let dh := Config.x25519 sk h.xi
        let prk := Config.hkdfExtract (h.ri ++ rm) (psk ++ dh)
        let th := Config.sha256 (helloBytes h ++ challengeBytes ctx gen rm xm)
        let okm := Config.hkdfExpand prk (sesInfo ++ th) 136
        let macM := Config.hmacSha256 (slice okm 72 32) th
        let body := rm ++ xm ++ macM
        let s := modSess c (fun _ => {
          half := true, gen := gen, cred := h.credId
          role := min h.role.toNat (match cred with | some e => e.role | none => 0)
          ri := h.ri, challenge := body, known := cred.isSome
          kIn := slice okm 0 32, kOut := slice okm 32 32, nIn := slice okm 64 4, nOut := slice okm 68 4
          kmI := slice okm 104 32, th := th, macM := macM, addr := h.src
          dhZero := dh.all (· == 0) }) s
        send (.challenge ctx gen body) s

/-- HELLO: rate, then form, then a half-open context of the same host, then LOCKED and BUSY in the order of R340 (R323). -/
def helloFx (h : HelloRec) (s : State) : State :=
  if !spcUp s then s
  else
    let s := { s with ses := { s.ses with src := h.src } }
    let sec := s.smp.timeNs / 1000000000
    let n := if s.ses.helloSec = sec then s.ses.helloN else 0
    if 16 ≤ n then sesCount 2 (raise 0x0E 5 s)
    else
      let s := { s with ses := { s.ses with helloSec := sec, helloN := n + 1 } }
      if !h.wellFormed then send (.reject 0 0 stFormat) s
      else
        match (List.range 256).find? fun c => (s.sess c).half && (s.sess c).cred == h.credId && (s.sess c).ri == h.ri with
        | some c =>
          send (.challenge (BitVec.ofNat 8 c) (s.sess c).gen (s.sess c).challenge) (modSess c (fun x => { x with addr := h.src }) s)
        | none =>
          if !admitsRole s h.role.toNat then send (.reject 0 0 stLocked) s
          else
            let serviceOpen := h.role == 3 && s.ses.ctx.any fun x => x.opened && x.role == 3
            match freeCtx s with
            | some c =>
              if 32 ≤ halfCount s || serviceOpen then raise 0x0E 4 (send (.reject 0 0 stBusy) s) else reserve h c s
            | none => raise 0x0E 4 (send (.reject 0 0 stBusy) s)

def execHello (h : HelloRec) (s : State) : Host.Outcome State Fault Refusal := act (helloFx h) s

/-- The ACCEPT body (Table 10.4). -/
def acceptBody (s : State) (role : Nat) : Bytes :=
  le 1 role ++ [0] ++ le 2 s.net.idle ++ le 8 s.smp.timeNs ++ le 2 s.net.lifetime ++ [0, 0]

/-- CONFIRM: the right MAC_I opens the context, any other fails the handshake (Table 10.5, step 4). -/
def confirmFx (ctx gen : Byte) (k : ConfirmRec) (s : State) : State :=
  let c := ctx.toNat
  let s := { s with ses := { s.ses with src := k.src } }
  let x := s.sess c
  if !spcUp s || !x.half || x.gen != gen then s
  else if x.known && !x.dhZero && k.macI == Config.hmacSha256 x.kmI (x.th ++ x.macM) then
    let s := modSess c (fun x => { x with opened := true, half := false, lastRx := s.smp.timeNs, txSeq := 1, addr := k.src }) s
    raise 0x0E 0 (sesCount 0 (send (.accept ctx (acceptBody s x.role)) s))
  else
    raise 0x0E 2 (sesCount 1 (send (.reject ctx gen stAuth) (modSess c (fun x => { gen := x.gen }) s)))

def execConfirm (ctx gen : Byte) (x : ConfirmRec) (s : State) : Host.Outcome State Fault Refusal := act (confirmFx ctx gen x) s

/-- HS_TIMEOUT: no CONFIRM within 2 s (Table 10.5, step 3). -/
def execHsTimeout (ctx : Byte) (s : State) : Host.Outcome State Fault Refusal :=
  act (fun s =>
    if alive s && (s.sess ctx.toNat).half then raise 0x0E 3 (modSess ctx.toNat (fun x => { gen := x.gen }) s) else s) s

/-! ### Protected records (R324) -/

/-- A SEQ that the replay window accepts. -/
def seqFresh (x : Sess) (q : Nat) : Bool :=
  decide (x.rxHigh < q) || (decide (0 < q) && decide (x.rxHigh < q + 64) && !x.rxSeen.getLsbD (x.rxHigh - q))

/-- The window after a record was accepted: bit i stands for the SEQ i below the highest. -/
def seqTake (x : Sess) (q : Nat) : Sess :=
  if x.rxHigh < q then { x with rxHigh := q, rxSeen := (x.rxSeen <<< (q - x.rxHigh)) ||| 1 }
  else { x with rxSeen := x.rxSeen ||| (1#64 <<< (x.rxHigh - q)) }

/-- The additional data of a record: bytes 0 to 11 (R321). -/
def recordAad (h : RecHdr) (type : Byte) : Bytes := [0x01, type, h.ctx, h.gen] ++ le 8 h.seq

/-- The checks of R324 on a record of the given type; a record that fails one is discarded and counted. -/
def protected_ (h : RecHdr) (type : Byte) (body : Bytes) (run : State → State) (s : State) : State :=
  let c := h.ctx.toNat
  let x := s.sess c
  if !alive s then s
  else if h.len < 28 || !h.known || !x.opened || x.gen != h.gen then sesCount 5 s
  else if !seqFresh x h.seq then sesCount 5 (sesCount 4 (raise 0x0E 7 s))
  else if h.tag ≠ Config.gcmTag x.kIn (x.nIn ++ le 8 h.seq) (recordAad h type) body then sesCount 5 (sesCount 3 (raise 0x0E 6 s))
  else run (modSess c (fun x => { seqTake x h.seq with lastRx := s.smp.timeNs, addr := h.src }) s)

/-- HOST_CLOSE: the host's own CLOSE is not answered (R326). -/
def execHostClose (h : RecHdr) (body : Bytes) (s : State) : Host.Outcome State Fault Refusal :=
  act (protected_ h 0x14 body (closeSession h.ctx.toNat 0 false)) s

/-- A STREAM_ACK for RSEQ n acknowledges every record up to n (R330). -/
def ackFx (ctx q : Nat) (n : Word) (s : State) : State :=
  let x := s.queue q
  if x.bound && x.ctx.toNat == ctx && decide ((n - x.acked).toNat ≤ (x.rseq - x.acked).toNat) then
    modQ q (fun x => { x with acked := n }) s
  else s

def execStreamAck (h : RecHdr) (body : Bytes) (s : State) : Host.Outcome State Fault Refusal :=
  act (protected_ h 0x12 body (ackFx h.ctx.toNat (body.getD 0 0).toNat (BitVec.ofNat 32 (leNat (slice body 4 4))))) s

/-- SES_IDLE_TIMEOUT and SES_LIFETIME_EXPIRY (R326): causes 1 and 2. -/
def execSesIdleTimeout (ctx : Byte) (s : State) : Host.Outcome State Fault Refusal :=
  act (fun s => if alive s then closeSession ctx.toNat 1 true s else s) s

def execSesLifetimeExpiry (ctx : Byte) (s : State) : Host.Outcome State Fault Refusal :=
  act (fun s => if alive s then closeSession ctx.toNat 2 true s else s) s

/-! ### Stream records (R330, R331, R333) -/

/-- Offset of the first item header among words, 0xFFFF when none starts (Table 10.7). -/
def hdrOfs (ws : List (Quad × Bool)) : Nat :=
  match ws.findIdx? Prod.snd with
  | some i => i
  | none => 0xFFFF

/-- Rebuilds a queue from its words: the head, whole blocks, the tail. -/
def relay (q : Queue) (ws : List (Quad × Bool)) : Queue :=
  ws.foldl Queue.push { q with head := [], spill := [], tail := [] }

/-- An uncorrectable word at index `i`: everything from its item's start to the next item's start goes (R333). The number that comes
before it, and the queue without it. -/
def dropItem (i : Nat) (q : Queue) : Nat × Queue :=
  let ws := q.words
  let before := ws.take i
  let start := match (before.reverse).findIdx? Prod.snd with
    | some k => if (ws.getD i (0, false)).2 then i else i - 1 - k
    | none => if (ws.getD i (0, false)).2 then i else 0
  let rest := ws.drop (i + 1)
  let next := match rest.findIdx? Prod.snd with
    | some k => i + 1 + k
    | none => ws.length
  (start, { relay q (ws.take start ++ ws.drop next) with
    lost := satAdd q.lost 1, cause := 3, unc := satAdd q.unc 1, windex := q.windex + (next - start) })

/-- The reader takes the `n` oldest words of queue `i` and sends them; WSEQ is the index of the first (R330). -/
def sendWords (i n : Nat) (first : Nat) (s : State) : State :=
  let q := s.queue i
  let ws := q.words.take n
  let r := q.rseq + 1
  let s := modQ i (fun q =>
    { q.dropWords ws.length with rseq := r, windex := q.windex + ws.length, waited := false }) s
  send (.stream q.ctx i r (BitVec.ofNat 32 first) (hdrOfs ws) (ws.map Prod.fst))
    (modSess q.ctx.toNat (fun x => { x with txSeq := x.txSeq + 1 }) s)

/-- What a code error does to the record that is read (R333): a single bit is corrected and counted; an uncorrectable word takes its item
with it, and the record ends before it (DEDUCED, log entry 51). -/
def flawFx (i : Nat) (bad : Option (Nat × Bool)) (s : State) : State :=
  let q := s.queue i
  match bad with
  | none => sendWords i 174 q.windex s
  | some (k, single) =>
    if min 174 q.held ≤ k then sendWords i 174 q.windex s
    else if single then sendWords i 174 q.windex (raise 0x0F 1 (modQ i (fun q => { q with ce := satAdd q.ce 1 }) s))
    else
      match dropItem k q with
      | (n, q') =>
        let s := raise 0x0F 2 (modQ i (fun _ => q') s)
        if 0 < n then sendWords i n q.windex s
        else if q'.held = 0 then s
        else sendWords i 174 q'.windex s

/-- STREAM_RECORD_SEND of queue `i`: a window with room and 174 words, or words that waited QUE_TAIL_TMO (R330). A read of an empty
queue stalls the reader (R331). -/
def streamSendFx (i : Nat) (bad : Option (Nat × Bool)) (timeout : Bool) (s : State) : State :=
  let q := s.queue i
  if !alive s || !q.bound || !(s.sess q.ctx.toNat).opened then s
  else if q.held = 0 then modQ i (fun q => { q with stalled := true }) s
  else if q.qwin ≤ (q.rseq - q.acked).toNat || !(decide (174 ≤ q.held) || timeout || q.waited) then s
  else flawFx i bad s

def execStreamRecordSend (q : Fin 64) (bad : Option (Nat × Bool)) (timeout : Bool) (s : State) : Host.Outcome State Fault Refusal :=
  act (streamSendFx q bad timeout) s

/-- The tail's partial block moves on (R329). -/
def Queue.tailMove (q : Queue) : Queue :=
  if q.spill.isEmpty then
    let n := 16 - q.head.length
    let q := { q with head := q.head ++ q.tail.take n, tail := q.tail.drop n }
    if !q.tail.isEmpty && decide (0 < q.qcap) then { q with spill := [q.tail], tail := [] } else q
  else if !q.tail.isEmpty && decide (q.spill.length < q.qcap) then { q with spill := q.spill ++ [q.tail], tail := [] }
  else q

def execQueTailTmo (q : Fin 64) (s : State) : Host.Outcome State Fault Refusal :=
  act (fun s =>
    if alive s && decide (0 < (s.queue q).held) then modQ q (fun x => { x.tailMove with waited := true }) s else s) s

/-! ### SOP_LIMITS (R29, R353) -/

def execSopLimits (s : State) : Host.Outcome State Fault Refusal :=
  act (fun s =>
    if alive s then
      notice 2 0x20 (leW s.est.tick ++ leW s.est.iCh ++ leW s.est.iDis ++ leW s.est.pCh ++ leW s.est.pDis ++ leW s.est.limGroup) s
    else s) s

/-! ### Subscriptions (R334, R349, R351) -/

/-- Words of an item without GAP (Table 11.9). -/
def itemWords (itype count : Nat) : Nat :=
  match itype with
  | 0x01 => 2 + (count + 3) / 4
  | 0x02 => 493
  | 0x03 => 5
  | 0x04 => 10
  | 0x05 => 2 + 8 * count
  | 0x06 => 2 + 14 * count
  | 0x07 => 2 + 2 * count
  | 0x08 => 6
  | 0x09 => 9
  | _ => 5

/-- Items in 10 s at the highest rate of the source under the ACTIVE configuration (R349). -/
def itemsPer10s (s : State) (itype : Nat) : Nat :=
  match itype with
  | 0x01 | 0x02 | 0x03 => 10 * fsOf s.cfg.cadence
  | 0x06 | 0x07 => 1
  | 0x08 => 10 * (s.cfg.fSw * s.cfg.loopRate)
  | _ => 10000

/-- The charged rate in bit/s, rounded up (R334, R349). -/
def chargedRate (s : State) (itype count decim : Nat) : Nat :=
  let num := itemsPer10s s itype * itemWords itype count * 64 * 1532
  let den := 10 * max decim 1 * 1392
  (num + den - 1) / den

/-- The charged rate of a bound queue, and the sum over all of them. -/
def Queue.rateIn (s : State) (q : Queue) : Nat := if q.bound then chargedRate s q.itype q.count q.decim else 0
def rateSum (s : State) : Nat := (s.que.map (Queue.rateIn s)).sum

/-- The item type's producer is absent (R349). -/
def itemAbsent (s : State) (itype : Nat) : Bool := ((itype == 6 || itype == 7) && !hasImp s) || (itype == 8 && !hasCtl s)

/-- FIRST and COUNT as Table 11.9 wants them. -/
def itemRange (s : State) (b : BindReq) : Bool :=
  match b.itype with
  | 0x01 | 0x05 | 0x06 | 0x07 => !rangeOut s b.first b.count 768
  | 0x02 | 0x03 | 0x04 | 0x08 | 0x09 | 0x0A => b.first == 0 && b.count == 0
  | _ => false

/-- The queue that SUB_BIND names, or the lowest free one for 0xFF. -/
def bindTarget (s : State) (b : BindReq) : Option Nat :=
  if b.queue = 0xFF then (List.range 64).find? fun i => !(s.queue i).bound
  else if (s.queue b.queue).bound then none else some b.queue

/-- The stream budget in bit/s (R334). -/
def streamBudget : Nat := 640000000

def subBindJudge (b : BindReq) (s : State) : Judge :=
  let sum := rateSum s + chargedRate s b.itype b.count b.decim
  { forbidden := !stateOk awake s
    absent := itemAbsent s b.itype
    range := !itemRange s b || b.decim == 0 || decide (32768 < b.qcap) || decide (1000 < b.tailTmo) ||
      (b.queue != 0xFF && decide (63 < b.queue))
    busy := (bindTarget s b).isNone
    refused := if streamBudget < sum then
      some (Refused.bytes { item := 0x0400, index := 0xFFFF, quant := 2, computed := sum, allowed := streamBudget }) else none }

/-- Binds the queue to the session; its sequences go on (R332, R349). Frames that wait for QUE were complete before the RESPONSE: they are none of
its (R351). -/
def subBindRun (r : Req) (b : BindReq) (s : State) : State :=
  match bindTarget s b with
  | none => s
  | some i =>
    let rate := chargedRate s b.itype b.count b.decim
    let s := modQ i (fun q => { q with
      bound := true, ctx := r.ctx, itype := b.itype, first := b.first, count := b.count, decim := b.decim
      qcap := if b.qcap = 0 then 32768 else b.qcap
      qwin := if b.qwin = 0 then 32 else b.qwin
      tmo := if b.tailTmo = 0 then 10 else b.tailTmo
      old := if b.itype = 1 || b.itype = 2 || b.itype = 3 then s.smp.queFrames.length else 0
      rate := rate, acked := q.rseq, waited := false, stalled := false }) s
    respond r 0x0401 stOk (le 1 i ++ [0, 0, 0] ++ le 4 rate) s

def execSubBind (r : Req) (b : BindReq) (s : State) : Host.Outcome State Fault Refusal :=
  act (request r 0x0401 observer (subBindJudge b) (subBindRun r b)) s

/-- The queue is bound to the session of the request. -/
def mine (r : Req) (q : Byte) (s : State) : Bool := (s.queue q.toNat).bound && (s.queue q.toNat).ctx == r.ctx

def execSubUnbind (r : Req) (q : Byte) (s : State) : Host.Outcome State Fault Refusal :=
  act (request r 0x0402 observer (fun s => { forbidden := !stateOk awake s, range := !mine r q s })
    (fun s => respond r 0x0402 stOk [] (unbindQueue q.toNat s))) s

/-- The 8 bytes of SUB_LIST for one queue. -/
def listBytes (i : Nat) (q : Queue) : Bytes := le 1 i ++ le 1 q.itype ++ le 2 q.first ++ le 2 q.count ++ le 2 q.decim

def execSubList (r : Req) (s : State) : Host.Outcome State Fault Refusal :=
  act (request r 0x0403 observer (fun s => { forbidden := !stateOk awake s })
    (fun s => respond r 0x0403 stOk
      ((List.range 64).flatMap fun i =>
        if (s.queue i).bound && (s.queue i).ctx == r.ctx then listBytes i (s.queue i) else []) s)) s

/-- NOTICE_SUB: the six classes of Table 11.8 can be in force. -/
def execNoticeSub (r : Req) (mask : Word) (s : State) : Host.Outcome State Fault Refusal :=
  act (request r 0x0404 observer (fun s => { forbidden := !stateOk awake s })
    (fun s => respond r 0x0404 stOk (leW (mask &&& 0x3F)) (modSess r.ctx.toNat (fun x => { x with mask := mask &&& 0x3F }) s))) s

end Sys2Proof.Machine
end

