-- ==== Sys2Proof/Machine/Uplink.lean ====
section
/-! DEFINITION. Uplinks: frames and PRP, addressing, PTP (R306, R307, R311 to R319), and their commands. -/

namespace Sys2Proof.Machine

open Sys2Proof

def modUpl (f : Upl → Upl) (s : State) : State := { s with upl := f s.upl }

/-- One link of the two. -/
def uplink (s : State) (l : Link) : UpLink := match l with | .A => s.upl.a | .B => s.upl.b
def modLink (l : Link) (f : UpLink → UpLink) (s : State) : State :=
  modUpl (fun u => match l with | .A => { u with a := f u.a } | .B => { u with b := f u.b }) s

/-- 0 for link A, 1 for link B: the offset of the link's flags and counters. -/
def linkIdx (l : Link) : Nat := match l with | .A => 0 | .B => 1
def otherLink (l : Link) : Link := match l with | .A => .B | .B => .A

/-- Adds to a counter of UPL: 0 RX_A, 1 RX_B, 2 FCS_A, 3 FCS_B, 4 PRP_DUP, 5 PRP_LAN, 6 PRP_FULL, 7 SYNC_RX, 8 ANN_TMO, 9 ICMP_DROP. -/
def uplCount (i : Nat) (s : State) : State := modUpl (fun u => { u with cnt := bumpAt u.cnt i }) s

/-! ### Frames (R307, R312, R314, R315, R324, R336) -/

/-- 400 ms and the PRP node table of 128 sources (R312). -/
def entryForget : Nat := 400 * ms
def nodeMax : Nat := 128

/-- A frame with a valid RCT: whether it is passed up. One whose LanId does not match its link is counted and passed up, and no copy is
looked for (R312). -/
def prpFx (l : Link) (src seq lan : Nat) (s : State) : State × Bool :=
  if lan ≠ (match l with | .A => 0xA | .B => 0xB) then (raise 0x0D 12 (uplCount 5 s), true) else
  let now := s.smp.timeNs
  match s.upl.nodes.find? fun n => n.mac == src with
  | some n =>
    let live := n.seen.filter fun e => decide (now ≤ e.2 + entryForget)
    let dup := live.any fun e => e.1 == seq
    let put (seen : List (Nat × Nat)) : State :=
      modUpl (fun u => { u with nodes := u.nodes.map fun x => if x.mac == src then { x with seen := seen } else x }) s
    if dup then (uplCount 4 (put live), false) else (put ((seq, now) :: live), true)
  | none =>
    if s.upl.nodes.length < nodeMax then
      (modUpl (fun u => { u with nodes := { mac := src, seen := [(seq, now)] } :: u.nodes }) s, true)
    else (raise 0x0D 13 (uplCount 6 s), true)

/-- A mailbox message whose form is wrong (KIND, LEN, opcode, payload) is answered FORMAT (R336, Table 11.2). One of the right form waits to be
executed, by its own command; with 64 that wait it is answered BUSY at once and is not executed (R338; DEDUCED, log entry 63). -/
def mailboxForm (h : RecHdr) (body : Bytes) (s : State) : State :=
  let op := leNat (slice body 0 2)
  let tag : Half := BitVec.ofNat 16 (leNat (slice body 2 2))
  let bad := decide (body.length < 8) || body.getD 4 0 != 0x01 || leNat (slice body 6 2) + 8 != body.length ||
    decide (1404 < leNat (slice body 6 2)) || !payloadOk op (body.drop 8)
  let r : Req := { ctx := h.ctx, tag := tag, zeros := false }
  if !spcUp s then s
  else if bad then respond r op stFormat [] s
  else if 64 ≤ s.ses.waiting.length then sendResponse r op stBusy [] s
  else { s with ses := { s.ses with waiting := s.ses.waiting ++ [(h.ctx, tag)] } }

/-- A datagram that is passed up: to SES_PORT, at most 1,440 bytes, a zero checksum only over IPv4, no fragment and no options (R314, R315). -/
def datagramTaken (d : Datagram) (s : State) : Bool :=
  d.port == s.net.port && decide (d.len ≤ 1440) && (!d.zeroSum || d.v4) && !d.frag

def frameFx (l : Link) (f : EthFrame) (s : State) : State :=
  if !alive s || !(uplink s l).up then s
  else if !f.fcsOk then uplCount (2 + linkIdx l) s
  else
    let s := uplCount (linkIdx l) s
    if 1506 < f.len || !(f.vid == none || f.vid == some 0) then s
    else
      let p := match f.rct with
        | some (seq, lan) => prpFx l f.src seq lan s
        | none => (s, true)
      if !p.2 then p.1
      else match f.body with
        | .mailbox d h body => if datagramTaken d p.1 then protected_ h 0x10 body (mailboxForm h body) p.1 else p.1
        | .udp _ => p.1
        | .other => p.1

def execEthernetFrameReceived (l : Link) (f : EthFrame) (s : State) : Host.Outcome State Fault Refusal := act (frameFx l f) s

/-- PRP_SUPERVISION: every 2 s on both links (R313). -/
def execPrpSupervision (s : State) : Host.Outcome State Fault Refusal :=
  act (fun s => if alive s then send (.supervision .B) (send (.supervision .A) s) else s) s

/-- NODE_FORGET_TIME: 60 s without a frame from the source (R312). -/
def execNodeForgetTime (mac : Nat) (s : State) : Host.Outcome State Fault Refusal :=
  act (fun s => if alive s then modUpl (fun u => { u with nodes := u.nodes.filter fun n => n.mac != mac }) s else s) s

/-- Echo requests of up to 64 bytes are answered, at most 10 in a second (R314). -/
def icmpFx (v6 : Bool) (bytes : Nat) (s : State) : State :=
  let sec := s.smp.timeNs / 1000000000
  let n := if s.upl.icmpSec = sec then s.upl.icmpN else 0
  if 64 < bytes || 10 ≤ n then uplCount 9 s
  else send (.echoReply v6 bytes) (modUpl (fun u => { u with icmpSec := sec, icmpN := n + 1 }) s)

def execIcmpEchoRequest (v6 : Bool) (bytes : Nat) (s : State) : Host.Outcome State Fault Refusal :=
  act (fun s => if alive s then icmpFx v6 bytes s else s) s

/-- ARP_REQUEST for the module's IPv4 address (R314). -/
def execArpRequest (ip : Word) (s : State) : Host.Outcome State Fault Refusal :=
  act (fun s => if alive s && ip == s.upl.ip4 && s.upl.ip4 != 0 then send (.arpReply ip) s else s) s

/-- The link-local IPv6 address: fe80::/64 with the modified EUI-64 of the MAC address (R314). -/
def linkLocal (s : State) : BitVec 128 :=
  let m := s.fac.mac
  let hi := m / 2 ^ 24 ^^^ 0x020000
  let lo := m % 2 ^ 24
  BitVec.ofNat 128 (0xFE80 * 2 ^ 112 + hi * 2 ^ 40 + 0xFFFE * 2 ^ 24 + lo)

/-- The static global IPv6 address, in network byte order; 0 for none (Table 13.2). -/
def global6 (s : State) : BitVec 128 := BitVec.ofNat 128 (leNat s.net.ip6.reverse)

/-- NEIGHBOUR_SOLICITATION for one of the module's IPv6 addresses (R314). -/
def execNeighbourSolicitation (ip : BitVec 128) (s : State) : Host.Outcome State Fault Refusal :=
  act (fun s =>
    if alive s && (ip == linkLocal s || (ip == global6 s && ip != 0)) then send (.neighbourAdvert ip) s else s) s

/-- DHCPv4 begins when a link comes up and no address is held: DISCOVER (R314; DEDUCED, log entry 70). -/
def dhcpStart (s : State) : State :=
  if s.net.ip4Mode = 1 && s.upl.dhcp != 3 then send .dhcpDiscover (modUpl (fun u => { u with dhcp := 1 }) s) else s

/-- A server's answer where IP4_MODE asks for DHCPv4 (R314): the offer is requested, and the answer to that request gives the address. An
answer that was not asked for is ignored (DEDUCED, log entry 70). -/
def dhcpFx (addr mask gw : Word) (s : State) : State :=
  if s.net.ip4Mode != 1 then s
  else if s.upl.dhcp = 1 then send (.dhcpRequest addr) (modUpl (fun u => { u with dhcp := 2, offered := addr }) s)
  else if s.upl.dhcp = 2 && s.upl.offered == addr then
    modUpl (fun u => { u with dhcp := 3, ip4 := addr, ip4Mask := mask, ip4Gw := gw }) s
  else s

def execDhcpv4Reply (addr mask gw : Word) (s : State) : Host.Outcome State Fault Refusal :=
  act (fun s => if alive s then dhcpFx addr mask gw s else s) s

/-! ### PTP (R316 to R319) -/

/-- IEC 61588 port state codes used (Table 10.10). -/
def ptpListening : Nat := 4
def ptpSlave : Nat := 9
def ptpPassiveSlave : Nat := 10

/-- The selected link. -/
def selLink (s : State) : Option Link := if s.upl.sel = 1 then some .A else if s.upl.sel = 2 then some .B else none

/-- Port states follow the selection: SLAVE, PASSIVE_SLAVE with a master, else LISTENING (R317). -/
def ptpStates (s : State) : State :=
  let st (l : Link) (x : UpLink) : Nat :=
    if s.upl.sel = linkIdx l + 1 then ptpSlave else if x.master.isSome then ptpPassiveSlave else ptpListening
  modLink .B (fun x => { x with ptp := st .B x }) (modLink .A (fun x => { x with ptp := st .A x }) s)

/-- The grandmaster of the selected port is published; another identity raises GM_CHANGE. -/
def ptpGm (s : State) : State :=
  let gm := (selLink s).bind fun l => (uplink s l).master
  let change := match s.upl.gm, gm with
    | some a, some b => a.gm != b.gm
    | _, _ => false
  raiseIf change 0x0D 11 (modUpl (fun u => { u with gm := gm }) s)

/-- All conditions of R318 hold. -/
def ptpGood (s : State) : Bool :=
  match selLink s with
  | some l =>
    let x := uplink s l
    x.ptp == ptpSlave && x.syncOk && x.pdelayOk && (match x.master with | some m => decide (m.cls ≤ s.net.classMax) | none => false)
  | none => false

/-- Validity is judged anew; its loss is a loss for the timebase unless that follows the peer (R318, R406). -/
def ptpCheck (s : State) : State :=
  let g := ptpGood s
  if g = s.upl.ptpValid then s
  else
    let s := modUpl (fun u => { u with ptpValid := g }) s
    if g then raise 0x0D 10 s
    else
      let s := raise 0x0D 9 s
      if s.pai.follower then s else phaseLost s

/-- Moves the selection (R317). -/
def ptpSelect (sel : Nat) (s : State) : State :=
  if s.upl.sel = sel then ptpCheck (ptpGm (ptpStates s))
  else
    let first := s.upl.sel = 0
    let s := ptpStates (modUpl (fun u => { u with sel := sel }) s)
    ptpCheck (ptpGm (raiseIf (!first) 0x0D 8 s))

/-- The members of a master's data set in the order of the dataset comparison of IEC 61588, the smaller being the better: priority1,
clockClass, clockAccuracy, offsetScaledLogVariance, priority2, clockIdentity (PRESUMED, log entry 62). -/
def masterRank (m : Master) : List Nat := [m.prio1, m.cls, m.acc, m.variance, m.prio2, m.gm]

/-- The first difference of two lists decides; `tie` where there is none. -/
def lexLess (tie : Bool) : List Nat → List Nat → Bool
  | x :: xs, y :: ys => if x = y then lexLess tie xs ys else decide (x < y)
  | _, _ => tie

/-- The port that an Announce selects. The port whose best master compares better; where both see the same grandmaster the selection is
kept, link A at the start (R317; a port that hears alone is selected: DEDUCED, log entry 70). -/
def ptpChoice (l : Link) (m : Master) (tie : Bool) (s : State) : Nat :=
  let here := linkIdx l + 1
  match (uplink s (otherLink l)).master with
  | none => if s.upl.sel = 0 then here else s.upl.sel
  | some o =>
    if o.gm = m.gm then (if s.upl.sel = 0 then here else if s.upl.ptpStarted then s.upl.sel else 1)
    else if lexLess tie (masterRank m) (masterRank o) then here
    else linkIdx (otherLink l) + 1

/-- ANNOUNCE: the port's best master; `tie` is the outcome for data sets that agree in every member. -/
def announceFx (l : Link) (m : Master) (tie : Bool) (s : State) : State :=
  let s := modLink l (fun x => { x with master := some m }) s
  let sel := ptpChoice l m tie s
  let moved := s.upl.sel != 0 && s.upl.sel != sel
  let s := ptpSelect sel s
  if moved || (uplink s (otherLink l)).master.isSome then modUpl (fun u => { u with ptpStarted := true }) s else s

def execAnnounce (l : Link) (m : Master) (tie : Bool) (s : State) : Host.Outcome State Fault Refusal :=
  act (fun s => if alive s && (uplink s l).up && m.domain == s.net.domain then announceFx l m tie s else s) s

/-- ANNOUNCE_RECEIPT_TIMEOUT: the selection moves to the other port if it has a master (R317). -/
def announceTimeoutFx (l : Link) (s : State) : State :=
  let s := uplCount 8 (modLink l (fun x => { x with master := none }) s)
  if s.upl.sel = linkIdx l + 1 then
    modUpl (fun u => { u with ptpStarted := true })
      (ptpSelect (if (uplink s (otherLink l)).master.isSome then linkIdx (otherLink l) + 1 else 0) s)
  else ptpSelect s.upl.sel s

def execAnnounceReceiptTimeout (l : Link) (s : State) : Host.Outcome State Fault Refusal :=
  act (fun s => if alive s && (uplink s l).master.isSome then announceTimeoutFx l s else s) s

/-- The delay asymmetry of a link in ns (Table 10.1). -/
def asymmetry (s : State) (l : Link) : Int := match l with | .A => s.net.asymA | .B => s.net.asymB

/-- SYNC (with its Follow_Up): on the selected port one phase error while PTP is valid, over crossing 0x20 (R318); on the other its offset (R317). The
operand is PTP time less module time without the asymmetry of the link, which is added (PRESUMED, log entry 62); the port's offset from its
master is the negative. -/
def syncFx (l : Link) (phaseErr : Int) (s : State) : State :=
  let s := uplCount 7 (modLink l (fun x => { x with offset := -phaseErr, syncOk := true }) s)
  let s := match selLink s with
    | some k => modUpl (fun u => { u with ptpDiff := (uplink s (otherLink k)).offset - (uplink s k).offset }) s
    | none => s
  let s := ptpCheck s
  if s.upl.sel = linkIdx l + 1 && s.upl.ptpValid then offer 0x20 (.phase phaseErr) s else s

/-- A Sync of the module's domain whose interval lies in the accepted range (Table 10.1). -/
def execSync (l : Link) (x : SyncMsg) (s : State) : Host.Outcome State Fault Refusal :=
  act (fun s =>
    if alive s && (uplink s l).up && x.domain == s.net.domain && decide (-4 ≤ x.logInt) && decide (x.logInt ≤ 0) then
      syncFx l (x.phaseErr + asymmetry s l) s
    else s) s

/-- PTP_VALID_TIMEOUT: no Sync for 3 intervals, or no mean path delay for 3 s, on the port (R318). -/
def execPtpValidTimeout (x : PtpLoss) (s : State) : Host.Outcome State Fault Refusal :=
  act (fun s =>
    if alive s then ptpCheck (modLink x.link (fun y => if x.pdelay then { y with pdelayOk := false } else { y with syncOk := false }) s)
    else s) s

/-- PDELAY_REQ_TIMER: every 1 s on each link (R319). -/
def execPdelayReqTimer (s : State) : Host.Outcome State Fault Refusal :=
  act (fun s => if alive s then send (.pdelayReq .B) (send (.pdelayReq .A) s) else s) s

/-- PDELAY_REQ: every request is answered, in two steps (R319, Table 10.1). -/
def execPdelayReq (l : Link) (s : State) : Host.Outcome State Fault Refusal :=
  act (fun s => if alive s && (uplink s l).up then send (.pdelayRespFollowUp l) (send (.pdelayResp l) s) else s) s

/-- PDELAY_RESP: the mean path delay of the link in ns (R318). -/
def execPdelayResp (l : Link) (delay : Nat) (s : State) : Host.Outcome State Fault Refusal :=
  act (fun s =>
    if alive s && (uplink s l).up then ptpCheck (modLink l (fun x => { x with pdelay := delay, pdelayOk := true }) s) else s) s

/-! ### Links (R306, R310) -/

/-- LINK_STATE_CHANGE; a link held off stays down (Table 10.9). PTP loses its Syncs and path delays by their own timeouts (R318). -/
def linkChangeFx (l : Link) (up : Bool) (s : State) : State :=
  let x := uplink s l
  let up := up && !x.off
  if up = x.up then s
  else
    let s := raise 0x0D ((if up then 2 else 0) + linkIdx l) (modLink l (fun x => { x with up := up }) s)
    if up then dhcpStart s else s

def execLinkStateChange (l : Link) (up : Bool) (s : State) : Host.Outcome State Fault Refusal :=
  act (fun s => if alive s then linkChangeFx l up s else s) s

/-- TC10_SLEEP_REQUEST: a partner's request is rejected in every state but DORMANT (R310). -/
def execTc10SleepRequest (l : Link) (s : State) : Host.Outcome State Fault Refusal :=
  act (fun s => if alive s then send (.sleepReject l) s else s) s

end Sys2Proof.Machine
end

