-- ==== Sys2Proof/Machine/Power.lean ====
section
/-! DEFINITION. Power states on the host's command (R360 to R363), feeds and hold-up (R309, R456, R457), the boot (R357, R365, R479), and
the commands STATE_SET, TC10_WAKE, FEED_LOST, FEED_BACK, SUPPLY_LOST, HOLDUP_LOAD_SHED, HOLDUP_END, POWER_UP. -/

namespace Sys2Proof.Machine

open Sys2Proof

/-! ### STATE_SET -/

/-- The transitions of Table 12.3; DORMANT is left by wake alone. -/
def edgeOk (a b : Nat) : Bool :=
  [(1, 0), (1, 2), (1, 3), (1, 4), (2, 3), (2, 4), (4, 2), (4, 3), (3, 2), (3, 4), (2, 1), (4, 1), (3, 1)].contains (a, b)

/-- The life-cycle state forbids the power state (Table 13.6). -/
def stateLocked (s : State) (t : Nat) : Bool :=
  (t == 3 && s.nv.lcy != 2) || (s.nv.lcy == 4 && (t == 2 || t == 4))

/-- In a pair, neither module holds SELECT (R427). -/
def noSelect (s : State) : Bool := inPair s && !s.pai.select && !peerIs s PeerStatus.select

/-- Both test buses are disconnected (R482). -/
def atbOff (s : State) : State := { s with cap := { s.cap with atb0 := 0, atb1 := 0 } }

/-- A transition out of RUN: the host disconnect first, unless the string is open (R268). A standby starts no sequence (R270): it releases the
channels that it mirrors through R254, since none is asserted outside RUN (R236). -/
def leaveRun (t : Nat) (s : State) : State :=
  let s := modPwr (fun p => { p with target := some t }) s
  if s.pro.conn = 0 && (s.pro.kA ||| s.pro.kB) == 0 then proceedTo t s
  else if commands s then disconnectFx s
  else openString false s

/-- The transition to `t` from the present state (Table 12.3). -/
def transition (t : Nat) (s : State) : State :=
  match s.pwr.state, t with
  | 1, 0 => goDormant s
  | 1, _ => startUp t s
  | 3, _ => leaveRun t s
  | _, 1 => proceedTo 1 (modPwr (fun p => { p with target := some 1 }) s)
  | _, _ => finishTransition t s

/-- STATE_SET; the learned data is saved on the way to LISTEN or DORMANT, which NV takes or not (R169). -/
def stateSetRun (r : Req) (t : Nat) (nvOk : Bool) (s : State) : State :=
  let s := modPwr (fun p => { p with saveOk := nvOk }) (defer r 0x0202 s)
  if t = s.pwr.state then
    completeOp 0x0202 stOk [BitVec.ofNat 8 t] (modPwr (fun p => { p with lastStatus := stOk }) s)
  else transition t (if s.pwr.state = 4 then atbOff s else s)

def execStateSet (r : Req) (target : Byte) (nvOk : Bool) (s : State) : Host.Outcome State Fault Refusal :=
  act (requestNoting r 0x0202 operator
    (fun s =>
      let t := target.toNat
      { locked := stateLocked s t
        forbidden := decide (t ≤ 4) && ((t != s.pwr.state && !edgeOk s.pwr.state t) || ((t == 2 || t == 3 || t == 4) && noSelect s))
        range := decide (4 < t)
        busy := deferredBusy 0x0202 s || s.pwr.target.isSome })
    (fun st s => modPwr (fun p => { p with lastStatus := st }) s) (stateSetRun r target.toNat nvOk)) s

/-! ### The boot (Table 12.4) -/

/-- The provisioning credential of a BLANK module (R386). -/
def blankCred (s : State) : State :=
  if s.nv.lcy = 0 && !(s.nv.creds.any fun c => c.id == 0) then
    modNv (fun n => { n with creds := { id := 0, role := 3, key := s.fac.provKey } :: n.creds }) s
  else s

/-- What a module reset leaves: the factory data, NV, the units on the ports, the arbiter and the levels at the pins; everything else is as
State.reset has it. PCYC counts, OPTIME resumes (R357, R445). New firmware whose restart the reset cut short has failed once more (R395). Records that were in the
ring only are gone, and with them their indexes (R459; DEDUCED, log entry 39).
DEFAULTS_LOCKED stays: only a commit by CFG_ADMIT clears it (R359; DEDUCED, log entry 68). -/
def resetState (s : State) : State :=
  let cut := s.lcy.spcDown && s.nv.newFw
  let newest := (s.recNv.records.getLast?.map Record.optime).getD 0
  let next := s.recNv.oldest + s.recNv.records.length
  { pending := s.pending, out := s.out, fresh := s.fresh, fac := s.fac, units := s.units, arb := s.arb
    nv := { s.nv with badStarts := if cut then s.nv.badStarts + 1 else s.nv.badStarts }
    recNv := { s.recNv with
      pcyc := (s.recNv.pcyc + 1) % 2 ^ 32, next := next, exportMark := min s.recNv.exportMark next, wrapped := false }
    cap := { kfRaw := s.cap.kfRaw, di := s.cap.di }
    recd := { optime := (1 + max s.recNv.optimeSaved newest) % 2 ^ 48 }
    ctl := { gdN := s.ctl.gdN }
    lcy := { defaultsLocked := s.lcy.defaultsLocked }
    upl := { a := { mv := s.upl.a.mv, ma := s.upl.a.ma, feedOk := s.upl.a.feedOk, ptp := ptpListening }
             b := { mv := s.upl.b.mv, ma := s.upl.b.ma, feedOk := s.upl.b.feedOk, ptp := ptpListening } } }

/-- Step 4: a fallback or a pending mark, then the microcode of every engine (R393 to R395). -/
def bootFirmware (s : State) : State :=
  let s := hsReached (carryOut (fallBack s))
  modLcy (fun l => { l with ucode := s.nv.running.ucode, ucodePend := 0 }) s

/-- Step 5: the ACTIVE configuration or defaults, the fields it initialises, learned data as NV holds them (a save from LISTEN then
keeps them, R169). -/
def bootLoad (s : State) : State :=
  let c := (bootConfig s).1.getD defaultCfg
  let s := takeConfig { bootMarks s with cfg := c, net := c.net }
  let s := if hasCtl s && c.hasCtl then modCtl (fun x => { x with src := c.srcInit, bankReq := c.bankInit, bank := c.bankInit }) s else s
  let s := modBal (fun x => { x with mode := c.balMode }) s
  let s := modIns (fun x => { x with mode := c.insMode, closedMode := c.insClosedMode }) s
  let s := modPro (fun p => { p with kf := ~~~(s.cap.kfRaw ^^^ c.kfPol), supplyOk := true }) s
  let s := modUpl (fun u => { u with ip4 := if c.net.ip4Mode = 0 then c.net.ip4 else 0
                                     ip4Mask := if c.net.ip4Mode = 0 then c.net.mask else 0
                                     ip4Gw := if c.net.ip4Mode = 0 then c.net.gw else 0 }) s
  blankCred (restoreGroups (restorePorts s))

/-- POWER_CYCLE (R457); what it reports of the cycle before is then cleared. -/
def powerCycle (s : State) : State :=
  let n := s.recNv
  let s := recTake { island := 16, code := 0x1180, source := 0xFFFF, instant := 0
                     data := le 1 n.ending ++ [0, 0, 0] ++ le 4 n.heldCount ++ le 6 n.optimeSaved } s
  modRecNv (fun n => { n with ending := 0, heldCount := 0 }) s

/-- Every crossing starts afresh and becomes READY (R442, R443). -/
def crossingsReady (s : State) : State := { s with xng := { s.xng with xrec := s.xng.xrec.map fun r => { r with ready := true } } }

/-- A module reset and its boot to LISTEN. In BLANK, TEST_MODE_N low stops it after step 3 (R479). The time that the boot took is free
(DESIGN CHOICE, log entry 4). -/
def moduleReset (testLow : Bool) (s : State) : State :=
  let s := resetState s
  let stop := testLow && s.nv.lcy == 0
  let s := { s with cap := { s.cap with testMode := testLow, factoryStop := stop } }
  if stop then s
  else
    match takeWord s with
    | (w, s) =>
      let s := modPwr (fun p => { p with ready := true, bootMs := w.toNat % 65536 }) s
      powerCycle (bootLoad (bootFirmware (crossingsReady s)))

/-- The current that the module can draw from a feed: 26 W at most (R308). -/
def feedMax (mv : Nat) : Nat := min 65535 (26000000 / mv)

/-- The feed at the higher voltage carries the load, the other nothing (R309; link A where they are equal: DESIGN CHOICE, log entry 69). The
current is measured, free within 26 W (R308; DESIGN CHOICE, log entry 4). -/
def feedLoad (s : State) : State :=
  match takeWord s with
  | (w, s) =>
    let onA := decide (s.upl.b.mv ≤ s.upl.a.mv)
    let ma (mv : Nat) : Nat := w.toNat % (feedMax mv + 1)
    modLink .B (fun x => { x with ma := if onA then 0 else ma x.mv }) (modLink .A (fun x => { x with ma := if onA then ma x.mv else 0 }) s)

/-- A feed of a link at a voltage in mV. -/
def feedFx (f : Link) (mv : Nat) (ok : Bool) (s : State) : State := feedLoad (modLink f (fun x => { x with mv := mv, feedOk := ok }) s)

/-- POWER_UP: the first feed reaches 36 V while the module is not powered. -/
def powerUpFx (f : Link) (testLow : Bool) (s : State) : State :=
  if s.pwr.ready then s else moduleReset testLow (feedFx f 36000 true s)

def execPowerUp (f : Link) (testModeLow : Bool) (s : State) : Host.Outcome State Fault Refusal := act (powerUpFx f testModeLow) s

/-- TC10_WAKE: in DORMANT, on either link; the contact of TEST_MODE_N is sampled as at the last boot (R310, R357). -/
def tc10WakeFx (s : State) : State :=
  if s.pwr.ready && s.pwr.state == 0 then moduleReset s.cap.testMode s else s

def execTc10Wake (_l : Link) (s : State) : Host.Outcome State Fault Refusal := act tc10WakeFx s

/-! ### Feeds and hold-up (R309, Table 16.4) -/

def feedLostFx (f : Link) (mv : Nat) (s : State) : State :=
  if mv < 36000 then
    let s := feedFx f mv false s
    raiseIf (alive s) 0x0D (4 + linkIdx f) s
  else s

def execFeedLost (f : Link) (mv : Nat) (s : State) : Host.Outcome State Fault Refusal := act (feedLostFx f mv) s

/-- A feed back at 38 V; before the load shed it ends the hold-up, and SUPPLY_LOST is no longer active. -/
def feedBackFx (f : Link) (mv : Nat) (s : State) : State :=
  if mv < 38000 then s
  else
    let s := feedFx f mv true s
    let s := raiseIf (alive s) 0x0D (6 + linkIdx f) s
    if s.upl.holdup = 1 then setAct 0x1B false (modUpl (fun u => { u with holdup := 0 }) s) else s

/-- FEED_BACK; beyond the absolute maximum rating the spec gives no effect (R472). -/
def execFeedBack (f : Link) (mv : Nat) (s : State) : Host.Outcome State Fault Refusal :=
  if 60000 < mv then .fault .absoluteMaximum else act (feedBackFx f mv) s

/-- SUPPLY_LOST: both feeds below 36 V, the higher at `mv`. PRO acts where it is armed; the flush starts; records carry HOLDUP. -/
def supplyLostFx (mv : Nat) (s : State) : State :=
  if !s.pwr.ready || s.upl.holdup != 0 || 36000 ≤ mv then s
  else
    let low (x : UpLink) : UpLink := { x with feedOk := false, mv := min x.mv mv }
    let s := feedLoad (modUpl (fun u => { u with holdup := 1, a := low u.a, b := low u.b }) s)
    let s := if s.pro.armed && !s.pro.inReset then openAct 0x1B 0 mv 36000 false (activate 0x1B 0 mv 36000 s) else s
    flushTrigger s

def execSupplyLost (mv : Nat) (s : State) : Host.Outcome State Fault Refusal := act (supplyLostFx mv) s

/-- HOLDUP_LOAD_SHED: UPL, SES, SPC, PRT, AGG, EST, IMP and CTL stop; the final flush is due (Table 16.4, steps 2 and 3). -/
def loadShedFx (s : State) : State :=
  if s.upl.holdup = 1 then flushTrigger (parkEngine 2 (modUpl (fun u => { u with holdup := 2 }) s)) else s

def execHoldupLoadShed (s : State) : Host.Outcome State Fault Refusal := act loadShedFx s

/-- HOLDUP_END: a module reset; it boots at once where a feed is back, else at the next POWER_UP, which counts the power cycle
(DEDUCED, log entry 30). -/
def holdupEndFx (s : State) : State :=
  if s.upl.holdup = 0 then s
  else
    let s := releaseK 0xF (modRecNv (fun n => { n with ending := if n.ending = 1 || n.ending = 2 then n.ending else 3 }) s)
    if s.upl.a.feedOk || s.upl.b.feedOk then moduleReset s.cap.testMode s
    else
      let t := resetState s
      { t with recNv := { t.recNv with pcyc := s.recNv.pcyc } }

def execHoldupEnd (s : State) : Host.Outcome State Fault Refusal := act holdupEndFx s

end Sys2Proof.Machine
end

