-- ==== Sys2Proof/Machine/Mailbox.lean ====
section
/-! DEFINITION. The mailbox commands about the module as a whole: IDENT_GET, CAP_GET, TIME_GET, STATE_GET, UNIT_DIAG, ATB_SET, and the answer
to an unknown opcode (11, 17). -/

namespace Sys2Proof.Machine

open Sys2Proof

/-- Octets of the MAC address, octet 1 first (Table 11.4). -/
def macBytes (m : Nat) : Bytes := (le 6 m).reverse

/-- IDENT_GET (Table 11.4). -/
def identBytes (s : State) : Bytes :=
  le 8 s.fac.serial ++ macBytes s.fac.mac ++ le 1 s.fac.variant ++ le 1 s.nv.lcy ++ leW s.nv.running.ver ++
    leW ((s.nv.alternate.map FwImage.ver).getD 0) ++ le 4 (ownFormat s) ++ le 4 (slotVersion s.nv.active)

def execIdentGet (r : Req) (s : State) : Host.Outcome State Fault Refusal :=
  act (request r 0x0101 observer (fun _ => {}) (fun s => respond r 0x0101 stOk (identBytes s) s)) s

/-- BLOCKS and PORTS of CAP_GET. -/
def blockMask (s : State) : Nat := ((List.range 20).filter (blockPresent s)).foldl (fun m b => m + 2 ^ b) 0

/-- CAP_GET (Table 11.5). -/
def capBytes (s : State) : Bytes :=
  le 4 (blockMask s) ++ le 6 (2 ^ nPorts s - 1) ++ le 2 (nGroups s) ++ le 1 s.pwr.state ++ le 1 (conditions s).toNat ++
    le 1 (role s + (if hasPai s && s.pai.select then 4 else 0)) ++ le 1 (64 - boundCount s) ++ le 4 (640000000 - rateSum s) ++
    List.replicate 12 0

def execCapGet (r : Req) (s : State) : Host.Outcome State Fault Refusal :=
  act (request r 0x0102 observer (fun _ => {}) (fun s => respond r 0x0102 stOk (capBytes s) s)) s

def execTimeGet (r : Req) (s : State) : Host.Outcome State Fault Refusal :=
  act (request r 0x0103 observer (fun _ => {})
    (fun s => respond r 0x0103 stOk (le 8 s.smp.timeNs ++ le 1 s.smp.tb ++ [0, 0, 0] ++ leW (s32 s.smp.phaseErr)) s)) s

def execStateGet (r : Req) (s : State) : Host.Outcome State Fault Refusal :=
  act (request r 0x0201 observer (fun _ => {})
    (fun s => respond r 0x0201 stOk
      (le 1 s.pwr.state ++ le 1 (conditions s).toNat ++ le 1 (s.pwr.target.getD 0xFF) ++ le 1 s.pwr.lastStatus) s)) s

/-- UNIT_DIAG sends DIAG_READ and is answered when the unit has answered. Where the module sends the unit no command (a standby, a unit
reached only from the peer's side) it answers BUSY (DESIGN CHOICE, log entry 20). -/
def diagRun (r : Req) (p c : Nat) (page : Byte) (s : State) : State :=
  let s := addReq p (reqTo 4 p c 0x50 [page]) s
  { s with ses := { s.ses with deferred := s.ses.deferred ++
    [{ op := 0x0E02, ctx := r.ctx, gen := (s.sess r.ctx.toNat).gen, tag := r.tag, at_ := s.smp.timeNs, arg := slotOf p c }] } }

def execUnitDiag (r : Req) (unit page : Byte) (s : State) : Host.Outcome State Fault Refusal :=
  let p := unit.toNat / 4
  let c := unit.toNat % 4
  act (request r 0x0E02 observer
    (fun s => {
      absent := decide (p < 48) && !portPresent s p
      forbidden := !stateOk measuring s
      range := decide (48 ≤ p) || c == 3 || !(s.pos p c).present || decide (1 < page.toNat)
      busy := !commands s || !ownReach s (slotOf p c) })
    (diagRun r p c page)) s

/-- Codes of Table 17.13; those that need the control engine. -/
def atbNodes : List Nat :=
  [0x00, 0x01, 0x02, 0x10, 0x11, 0x12, 0x13, 0x20, 0x21, 0x22, 0x23, 0x24, 0x25, 0x30, 0x31, 0x40, 0x41, 0x42, 0x43, 0x44, 0x45,
   0x50, 0x51, 0x52, 0x53, 0x54, 0x55]
def atbNeedsCtl (n : Nat) : Bool := decide (0x40 ≤ n) && decide (n ≤ 0x45)

/-- ATB_SET (R481). -/
def atbRun (r : Req) (bus : Byte) (node : Half) (s : State) : State :=
  let s := { s with cap := if bus = 0 then { s.cap with atb0 := node } else { s.cap with atb1 := node } }
  respond r 0x0E03 stOk (le 2 s.cap.atb0.toNat ++ le 2 s.cap.atb1.toNat) s

def execAtbSet (r : Req) (bus : Byte) (node : Half) (s : State) : Host.Outcome State Fault Refusal :=
  act (request r 0x0E03 service
    (fun s => {
      absent := atbNeedsCtl node.toNat && !hasCtl s
      forbidden := !stateOk [4] s
      range := decide (1 < bus.toNat) || !atbNodes.contains node.toNat })
    (atbRun r bus node)) s

/-- An opcode that Table 11.3 does not name is answered FORMAT (Table 11.2). -/
def opcodes : List Nat := payloads.map Prod.fst

def execUnknownOpcode (r : Req) (opcode : Half) (s : State) : Host.Outcome State Fault Refusal :=
  act (fun s =>
    if opcodes.contains opcode.toNat then s
    else request r opcode.toNat observer (fun _ => { format := true }) (fun s => s) s) s

end Sys2Proof.Machine
end

