-- ==== Sys2Proof/Machine/Registers.lean ====
section
/-! DEFINITION. The register window (R4, R5, R11 to R14, R347, R348, R435 to R438): what every register reads, what a read and a write of
it do, and the commands of the table that are a read or a write of one register. SNAPSHOT and ECC_ERROR stand here too. -/

namespace Sys2Proof.Machine

open Sys2Proof

/-! ### Addresses -/

/-- The block of an address; none outside every block of Table 0.7. -/
def blockAt (a : Nat) : Option Nat :=
  let b := a / 65536
  if b ≤ 0x13 && b != 3 && b != 5 && (b != 4 || decide (a % 65536 < 0xC000)) then some b else none

/-- An address lies in a block or a port that the variant does not have (R5, R7). -/
def absentAt (s : State) (a : Nat) : Bool :=
  let b := a / 65536
  if b = 4 then !portPresent s (a % 65536 / 0x400) else !blockPresent s b

/-- The event block whose EVENT register lies at an address, and the address of one. CAP has none. -/
def eventAt (a : Nat) : Option Nat :=
  let b := a / 65536
  let o := a % 65536
  if b = 4 then (if o % 0x400 = 0xC then some (20 + o / 0x400) else none)
  else if o = 0xC && b != 0 then some b
  else none

def eventAddr (e : Nat) : Nat := if 20 ≤ e then 0x40000 + 0x400 * (e - 20) + 0xC else 0x10000 * e + 0xC

/-- Flags of an event block (the EVENT tables). -/
def flagCount (e : Nat) : Nat :=
  if 20 ≤ e then 12
  else
    match e with
    | 0x01 => 6 | 0x02 => 10 | 0x06 => 11 | 0x07 => 3 | 0x08 => 11 | 0x09 => 8 | 0x0A => 7 | 0x0B => 16 | 0x0C => 16
    | 0x0D => 14 | 0x0E => 8 | 0x0F => 4 | 0x10 => 13 | 0x11 => 4 | 0x12 => 5 | 0x13 => 6
    | _ => 0

/-- EVCNT registers of an event block: four flags in each (R437). -/
def evcntRegs (e : Nat) : Nat := (flagCount e + 3) / 4

/-- An EVCNT register: the latched counters, or the present ones before any read of EVENT (R438). -/
def evcntWord (x : Ev) (k : Nat) : Word := (x.latch.getD x.cnt).extractLsb' (32 * k) 32

/-- EVENT and EVCNT of block `e` at offset `o`. -/
def eventValue (s : State) (e o : Nat) : Option Word :=
  if o = 0xC then some ((s.event e).flags.zeroExtend 32)
  else if 0x10 ≤ o && decide (o < 0x10 + 4 * evcntRegs e) then some (evcntWord (s.event e) ((o - 0x10) / 4))
  else none

/-- `off` is a word of a table at `base` with `n` words. -/
def wordsAt (base n off : Nat) : Bool := decide (base ≤ off) && decide (off < base + 4 * n)

/-! ### What the registers read; none: no map names the offset (R347) -/

def capValue (s : State) (o : Nat) : Option Word :=
  match o with
  | 0x4 => some (fldAt s.fac.hwRev 8 16 ||| bitAt (hasPai s) 10 ||| bitAt (hasCtl s) 9 ||| bitAt (nPorts s == 48) 8 |||
      fldAt s.fac.variant 4 0)
  | 0x8 => some (capPins s)
  | 0xC => some (s.cap.atb1.zeroExtend 32 <<< 16 ||| s.cap.atb0.zeroExtend 32)
  | _ => none

def pwrValue (s : State) (o : Nat) : Option Word :=
  match o with
  | 0x8 => some (pwrStatus s)
  | 0x18 => some (fldAt s.pwr.bootMs 16 0)
  | 0x1C => some s.pwr.startUs
  | 0x20 => some (s.pwr.portOk.truncate 32)
  | 0x24 => some ((s.pwr.portOk >>> 32).truncate 32)
  | 0x28 => some (u32 s.recNv.pcyc)
  | 0x2C => some s.pwr.transCnt
  | _ => none

def lcyValue (s : State) (o : Nat) : Option Word :=
  match o with
  | 0x4 => some (bitAt s.lcy.debugEn 0)
  | 0x8 => some (lcyStatus s)
  | 0x1C => some (u32 (slotVersion s.nv.active))
  | 0x20 => some (u32 (slotVersion s.nv.previous))
  | 0x24 => some (u32 s.nv.versionHigh)
  | 0x28 => some (u32 (ownFormat s))
  | 0x2C => some s.nv.running.ver
  | 0x30 => some ((s.nv.alternate.map FwImage.ver).getD 0)
  | 0x34 => some s.nv.fwMin
  | 0x38 => some s.lcy.ucodePend
  | 0x3C => some (fldAt s.nv.creds.length 6 0)
  | _ => none

/-- A delay in use (Table 2.13). -/
def delayWord (d : Option Nat) : Word := match d with | some v => bitAt true 24 ||| fldAt v 24 0 | none => 0

/-- PRT_UNITc (Table 2.12). -/
def unitWord (p c : Nat) (x : Pos) : Word :=
  bitAt x.stale 12 ||| bitAt x.loaded 11 ||| bitAt (decide (x.ageS < 16)) 10 ||| bitAt (decide (x.ageN < 16)) 9 ||| bitAt x.present 8 |||
    (if x.present then fldAt (4 * p + c) 8 0 else 0)

def prtValue (s : State) (p o : Nat) : Option Word :=
  let x := s.port p
  if o = 0x4 then some (bitAt (split s p) 3 ||| bitAt x.forceS 2 ||| bitAt x.forceN 1)
  else if o = 0x8 then some (prtStatus s p)
  else if wordsAt 0x20 3 o then some (unitWord p ((o - 0x20) / 4) (s.pos p ((o - 0x20) / 4)))
  else if wordsAt 0x30 3 o then some (delayWord (s.pos p ((o - 0x30) / 4)).dlyN)
  else if wordsAt 0x40 3 o then some (delayWord (s.pos p ((o - 0x40) / 4)).dlyS)
  else if o = 0x4C then some (delayWord x.ringDly)
  else if wordsAt 0x50 12 o then some (x.cnt.getD ((o - 0x50) / 4) 0)
  else none

def smpValue (s : State) (o : Nat) : Option Word :=
  let m := s.smp
  match o with
  | 0x4 => some (bitAt m.lowHold 1)
  | 0x8 => some (smpStatus s)
  | 0x1C => some (s32 m.phaseErr)
  | 0x20 => some (s32 m.freqAdj)
  | 0x24 => some (BitVec.ofNat 32 m.instant)
  | 0x28 => some m.instHi
  | 0x2C => some (s32 (shuntOfs s))
  | 0x30 => some (s32 (hallOfs s))
  | 0x34 => some ((BitVec.ofInt 16 m.ntcCode).zeroExtend 32)
  | 0x38 => some m.ovrImp
  | 0x3C => some m.ovrQue
  | 0x40 => some m.holdTime
  | 0x44 => some m.tickNum
  | _ => none

def insValue (s : State) (o : Nat) : Option Word :=
  let x := s.ins
  match o with
  | 0x4 => some (fldAt x.closedMode 2 2 ||| fldAt x.mode 2 0)
  | 0x8 => some (insStatus s)
  | 0x14 => some (if x.valid then x.rIso else 0xFFFFFFFF)
  | 0x18 => some (fldAt x.cY 16 0)
  | 0x1C => some (fldAt x.pos 16 0)
  | 0x20 => some (s32 x.vPos)
  | 0x24 => some (s32 x.vNeg)
  | 0x28 => some x.seq
  | _ => none

def estWord (s : State) (o : Nat) : Option Word :=
  if o = 0x4 then some (bitAt s.est.freeze 1)
  else if o = 0x8 then some (estStatus s)
  else if wordsAt 0x1C 15 o then some (estValue s o)
  else if wordsAt 0x1000 (16 * nGroups s) o then
    let g := (o - 0x1000) / 0x40
    let k := (o - 0x1000) % 0x40 / 4
    some (if k = 0 || (s.cfgEst.group g).slot.isNone then (groupRecord s g).getD k 0
          else ((s.ectx g).latch.getD (groupRecord s g)).getD k 0)
  else none

def impWord (s : State) (o : Nat) : Option Word :=
  if o = 0x4 then some (bitAt s.imp.stepInhibit 1)
  else if o = 0x8 then some (impStatus s)
  else if wordsAt 0x18 6 o || wordsAt 0x40 8 o || wordsAt 0x800 27 o || wordsAt 0x1000 (4 * nGroups s) o then some (impValue s o)
  else none

def balWord (s : State) (o : Nat) : Option Word :=
  if o = 0x4 then some (bitAt s.bal.mode 1 ||| bitAt s.bal.en 0)
  else if o = 0x8 then some (balStatus s)
  else if wordsAt 0x18 2 o || wordsAt 0x1000 (nGroups s) o || wordsAt 0x3000 (3 * nPorts s) o || wordsAt 0x4000 (54 * nPorts s) o then
    some (balValue s o)
  else none

def proWord (s : State) (o : Nat) : Option Word :=
  if o = 0x4 then some (bitAt s.pro.owPause 1 ||| bitAt s.pro.bellTest 0)
  else if o = 0x8 then some (proStatus s)
  else if wordsAt 0x20 15 o then some (proValue s o)
  else if wordsAt 0x1000 (6 * nPorts s) o then
    let x := s.owU ((o - 0x1000) / 8)
    some (if (o - 0x1000) % 8 = 0 then bitAt x.incon 17 ||| x.openMask.zeroExtend 32 else x.fault.zeroExtend 32)
  else none

/-- One word of a coefficient bank (Table 9.12). -/
def bankWord (b : Bank) (o : Nat) : Option Word :=
  if o < 0x10 then some (s32 (b.b.getD (o / 4) 0))
  else if o < 0x1C then some (s32 (b.a.getD ((o - 0x10) / 4) 0))
  else if o = 0x1C then some (bitAt b.order3 8 ||| fldAt b.shift 4 0)
  else if o = 0x20 then some (s32 b.uMin)
  else if o = 0x24 then some (s32 b.uMax)
  else none

def ctlValue (s : State) (o : Nat) : Option Word :=
  let c := s.ctl
  if wordsAt 0x100 64 o then bankWord (bankOf s.cfg ((o - 0x100) / 0x40)) ((o - 0x100) % 0x40)
  else
    match o with
    | 0x4 => some (fldAt c.bankReq 2 4 ||| fldAt c.src 3 0)
    | 0x8 => some (ctlStatus s)
    | 0x20 => some (s32 c.spHost)
    | 0x24 => some (s32 c.srcVal)
    | 0x28 => some (s32 c.out)
    | 0x2C => some (s32 c.ref)
    | 0x30 => some (s32 c.meas)
    | 0x34 => some (u32 c.limCh)
    | 0x38 => some (u32 c.limDis)
    | 0x3C => some (fldAt c.limSrcDis 2 2 ||| fldAt c.limSrcCh 2 0)
    | 0x40 => some (fldAt c.duty.toNat 25 0)
    | 0x44 => some (s32 c.u)
    | 0x48 => some (s32 c.vBus)
    | 0x4C => some (s32 c.vStr)
    | 0x50 => some (s32 c.i0)
    | 0x54 => some (s32 c.i1)
    | 0x58 => some c.chFreq
    | 0x5C => some (s32 c.chVolt)
    | 0x60 => some (s32 (stepRise s))
    | 0x64 => some (s32 (stepFall s))
    | 0x68 => some c.pulseSkip
    | 0x6C => some c.chBad
    | 0x70 => some (fldAt c.aoOut 16 16 ||| fldAt c.aoHost 16 0)
    | 0x74 => some c.updCnt
    | _ => none

/-- Voltage at a power interface in 10 mV and its current in mA (UPL_FEED). -/
def feedWord (l : UpLink) : Word := fldAt (min l.ma 65535) 16 16 ||| fldAt (min (l.mv / 10) 65535) 16 0

def uplValue (s : State) (o : Nat) : Option Word :=
  let u := s.upl
  let gm := (u.gm.map Master.gm).getD 0
  if wordsAt 0x48 10 o then some (u.cnt.getD ((o - 0x48) / 4) 0)
  else
    match o with
    | 0x4 => some (bitAt u.b.off 1 ||| bitAt u.a.off 0)
    | 0x8 => some (uplStatus s)
    | 0x20 => some (BitVec.ofNat 32 (s.fac.mac % 2 ^ 32))
    | 0x24 => some (fldAt (s.fac.mac / 2 ^ 32) 16 0)
    | 0x28 => some (feedWord u.a)
    | 0x2C => some (feedWord u.b)
    | 0x30 => some (BitVec.ofNat 32 (gm % 2 ^ 32))
    | 0x34 => some (BitVec.ofNat 32 (gm / 2 ^ 32))
    | 0x38 => some (match u.gm with
      | some m => fldAt m.steps 16 16 ||| fldAt m.acc 8 8 ||| fldAt m.cls 8 0
      | none => 0)
    | 0x3C => some (u32 u.a.pdelay)
    | 0x40 => some (u32 u.b.pdelay)
    | 0x44 => some (s32 u.ptpDiff)
    | _ => none

/-- The two words of a context (Table 10.15). -/
def ctxWord (s : State) (c k : Nat) : Word :=
  let x := s.sess c
  if k = 0 then
    x.cred.zeroExtend 32 <<< 16 ||| x.gen.zeroExtend 32 <<< 8 ||| fldAt x.role 2 2 ||| bitAt x.half 1 ||| bitAt x.opened 0
  else if x.opened then
    fldAt (s.que.countP fun q => q.bound && q.ctx.toNat == c) 8 16 ||| fldAt (min ((s.smp.timeNs - x.lastRx) / 1000000000) 65535) 16 0
  else 0

def sesValue (s : State) (o : Nat) : Option Word :=
  if o = 0x4 then some 0
  else if o = 0x8 then some (sesStatus s)
  else if o = 0x18 then some (fldAt s.net.port 16 0)
  else if wordsAt 0x1C 6 o then some (s.ses.cnt.getD ((o - 0x1C) / 4) 0)
  else if wordsAt 0x1000 512 o then some (ctxWord s ((o - 0x1000) / 8) ((o - 0x1000) % 8))
  else none

/-- The words of a queue (Table 10.17). -/
def queWord (q : Queue) (o : Nat) : Word :=
  match o with
  | 0x0 => fldAt q.tmo 10 16 ||| fldAt q.qwin 8 8
  | 0x4 => bitAt q.bound 31 ||| bitAt q.stalled 30 ||| bitAt (q.bound && decide (q.qwin ≤ (q.rseq - q.acked).toNat)) 29 |||
      bitAt (!q.spill.isEmpty) 28 ||| (if q.bound then fldAt q.ctx.toNat 8 16 ||| fldAt (q.qcap % 32768) 16 0 else 0)
  | 0x8 => u32 q.held
  | 0xC => q.iseq
  | 0x10 => q.drop
  | 0x14 => q.ce
  | 0x18 => q.unc
  | _ => q.rseq

def queValue (s : State) (o : Nat) : Option Word :=
  if o = 0x4 then some 0
  else if o = 0x8 then some (queStatus s)
  else if wordsAt 0x1000 512 o then some (queWord (s.queue ((o - 0x1000) / 0x20)) ((o - 0x1000) % 0x20))
  else none

def paiWord (s : State) (o : Nat) : Option Word :=
  if o = 0x4 then some (bitAt s.pai.holdOff 0)
  else if o = 0x8 then some (paiStatus s)
  else if wordsAt 0x20 12 o then some (paiValue s o)
  else none

/-- The 64-bit figures of REC_NEXT, REC_OLDEST, REC_EXPORT and OPTIME. -/
def recFigure (s : State) (k : Nat) : Nat :=
  match k with
  | 0 => s.recNv.next
  | 1 => s.recNv.oldest
  | 2 => s.recNv.exportMark
  | _ => s.recd.optime

def recValue (s : State) (o : Nat) : Option Word :=
  let lo (k : Nat) : Option Word := some (BitVec.ofNat 32 (recFigure s k))
  let hi (k : Nat) : Option Word := some (s.recd.hi.getD k 0)
  match o with
  | 0x4 => some 0
  | 0x8 => some (recStatus s)
  | 0x14 => lo 0
  | 0x18 => hi 0
  | 0x1C => lo 1
  | 0x20 => hi 1
  | 0x24 => lo 2
  | 0x28 => hi 2
  | 0x2C => some (u32 s.recNv.pcyc)
  | 0x30 => lo 3
  | 0x34 => hi 3
  | 0x38 => some s.recd.lostCnt
  | 0x3C => some s.recd.foldCnt
  | 0x40 => some s.recd.flushCnt
  | 0x44 => some s.recd.unreadOvw
  | 0x48 => some s.recd.snapLost
  | 0x4C => some s.recd.flushMax
  | _ => none

def hkpValue (s : State) (o : Nat) : Option Word :=
  if o = 0x4 then some 0
  else if o = 0x8 then some (hkpStatus s)
  else if wordsAt 0x18 6 o then
    let n := (o - 0x18) / 4
    some ((BitVec.ofInt 16 (s.hkp.rate.getD n 0)).zeroExtend 32 <<< 16 |||
      (match s.hkp.temp.getD n none with | some t => (BitVec.ofInt 16 t).zeroExtend 32 | none => 0x8000))
  else if wordsAt 0x30 8 o then some (s.hkp.ecc.getD ((o - 0x30) / 4) 0)
  else if o = 0x50 then some s.hkp.thrTime
  else if o = 0x54 then some s.hkp.rounds
  else none

/-- A word of a crossing record (Table 15.6); a crossing that the variant lacks reads 0. -/
def xrecWord (s : State) (x k : Nat) : Word :=
  let r := s.xr x
  if !xngPresent s x then 0
  else
    match xngDef x, k with
    | some (src, dst, kind, depth), 0 =>
      bitAt true 31 ||| bitAt r.ready 30 ||| bitAt r.down 29 ||| fldAt kind 2 27 ||| fldAt depth 8 16 ||| fldAt dst 8 8 ||| fldAt src 8 0
    | _, 1 => r.flush
    | _, 2 => r.loss
    | _, _ => r.refused

def xngValue (s : State) (o : Nat) : Option Word :=
  if o = 0x4 then some 0
  else if o = 0x8 then some (xngStatus s)
  else if o = 0x18 then some s.xng.wakeMax
  else if wordsAt 0x1000 324 o then some (xrecWord s ((o - 0x1000) / 16) ((o - 0x1000) % 16 / 4))
  else none

/-- A register of a present block: its word, or none where no map names the offset. -/
def presentValue (s : State) (b o : Nat) : Option Word :=
  if b = 4 then
    let p := o / 0x400
    let q := o % 0x400
    if q = 0 then some 0x00040100 else (eventValue s (20 + p) q).or (prtValue s p q)
  else if o = 0 then some (BitVec.ofNat 32 (65536 * b + 0x100))
  else if b = 0 then capValue s o
  else
    (eventValue s b o).or
      (match b with
        | 0x01 => pwrValue s o
        | 0x02 => lcyValue s o
        | 0x06 => smpValue s o
        | 0x07 => insValue s o
        | 0x08 => estWord s o
        | 0x09 => impWord s o
        | 0x0A => balWord s o
        | 0x0B => proWord s o
        | 0x0C => ctlValue s o
        | 0x0D => uplValue s o
        | 0x0E => sesValue s o
        | 0x0F => queValue s o
        | 0x10 => paiWord s o
        | 0x11 => recValue s o
        | 0x12 => hkpValue s o
        | 0x13 => xngValue s o
        | _ => none)

/-- What a read of an address shows, without side effects (R4, R5, R347): an absent block shows ABSENT in its identity word and 0
elsewhere. -/
def regShow (s : State) (a : Nat) : Word :=
  if absentAt s a then (if (if a / 65536 = 4 then a % 0x400 else a % 65536) = 0 then 1 else 0)
  else (presentValue s (a / 65536) (a % 65536)).getD 0

/-! ### Side effects of a read (R141, R188, R210, R438, R468) -/

/-- EVENT: the block's counters are latched. -/
def eventLatch (e : Nat) (s : State) : State := modEv e (fun x => { x with latch := some x.cnt }) s

/-- Word 0 of a group record: the record is latched. -/
def groupLatch (g : Nat) (s : State) : State := modCtx g (fun x => { x with latch := some (groupRecord s g) }) s

/-- SMP_INST_LO latches SMP_INST_HI; a _LO register of the recorder latches its _HI. -/
def instLatch (s : State) : State := modSmp (fun m => { m with instHi := BitVec.ofNat 32 (m.instant / 2 ^ 32) }) s
def recLatch (k : Nat) (s : State) : State := modRec (fun d => { d with hi := d.hi.set k (BitVec.ofNat 32 (recFigure s k / 2 ^ 32)) }) s

/-- What a read of an address does. -/
def regLatch (a : Nat) (s : State) : State :=
  let b := a / 65536
  let o := a % 65536
  if absentAt s a then s
  else
    match eventAt a with
    | some e => eventLatch e s
    | none =>
      if b = 8 && wordsAt 0x1000 (16 * nGroups s) o && o % 0x40 == 0 then groupLatch ((o - 0x1000) / 0x40) s
      else if b = 9 && wordsAt 0x1000 (4 * nGroups s) o && o % 0x10 == 0 then modelLatch ((o - 0x1000) / 0x10) s
      else if a = 0x60024 then instLatch s
      else if a = 0x110014 then recLatch 0 s
      else if a = 0x11001C then recLatch 1 s
      else if a = 0x110024 then recLatch 2 s
      else if a = 0x110030 then recLatch 3 s
      else s

/-- Reads registers in ascending order (R348). -/
def regReads (a : Nat) : Nat → State → List Word × State
  | 0, s => ([], s)
  | n + 1, s =>
    let t := regLatch a s
    let r := regReads (a + 4) n t
    (regShow t a :: r.1, r.2)

/-! ### Requests -/

/-- A register access to PRO while its crossing is DOWN is refused (R441); it answers BUSY (DEDUCED, log entry 31). -/
def proShut (s : State) (a : Nat) : Bool := a / 65536 == 0x0B && (s.xr 0x4D).down

/-- A refused access counts in the crossing's record. -/
def countRefused (a : Nat) (s : State) : State := if proShut s a then refuse 0x4D s else s

/-- REG_READ (R347, R348). -/
def readRequest (r : Req) (a n : Nat) (s : State) : State :=
  requestNoting r 0x0D01 observer
    (fun s => {
      forbidden := !stateOk awake s
      range := a % 4 != 0 || n == 0 || decide (256 < n) || (blockAt a).isNone || blockAt a != blockAt (a + 4 * (n - 1))
      busy := proShut s a })
    (fun st s => if st = stBusy then countRefused a s else s)
    (fun s =>
      let x := regReads a n s
      respond r 0x0D01 stOk (le 4 a ++ x.1.flatMap leW) x.2) s

/-- What is wrong with a value written to a register (R12): locked fields that would change outside their states, values out of range,
parts that are absent. -/
structure WriteJudge where
  absent : Bool := false
  locked : Bool := false
  range : Bool := false
  deriving DecidableEq, Repr

/-- MAINTAIN, also through a transition (R361). -/
def inMaintain (s : State) : Bool := stateOk [4] s

/-- RETAIN as a write leaves it: the half at `hi`. -/
def retainAfter (s : State) (hi : Bool) (w : Word) : BitVec 48 :=
  let old := s.est.retain
  if hi then (old &&& 0xFFFFFFFF#48) ||| ((w.truncate 16).zeroExtend 48 <<< 32)
  else (old &&& ~~~0xFFFFFFFF#48) ||| w.zeroExtend 48

/-- Set bits of a mask. -/
def popCount (m : BitVec 48) : Nat := (List.range 48).countP fun n => m.getLsbD n

/-- A write of PRT_CTRL, SMP_CTRL … judged by its value. -/
def writeJudge (s : State) (b o : Nat) (w : Word) : WriteJudge :=
  if b = 4 then
    let x := s.port (o / 0x400)
    if o % 0x400 = 4 then { locked := (x.forceN != ctlBit w 1 || x.forceS != ctlBit w 2) && !inMaintain s } else {}
  else if b = 2 then
    if o = 4 then { locked := s.lcy.debugEn != ctlBit w 0 && !(s.nv.lcy == 3 && inMaintain s) } else {}
  else if b = 6 then
    if o = 4 then { locked := ctlBit w 0 && !stateOk [2, 4] s } else {}
  else if b = 7 then
    if o = 4 then { range := ctlField w 0 2 == 3 || ctlField w 2 2 == 3 } else {}
  else if b = 8 then
    if o = 0x48 || o = 0x4C then
      let m := retainAfter s (o == 0x4C) w
      { absent := nPorts s == 24 && m &&& 0xFFFFFF000000#48 != 0, range := decide (8 < popCount m) }
    else {}
  else if b = 9 then
    if o = 0x2C then { range := decide (nGroups s ≤ ctlField w 0 10) } else {}
  else if b = 0x0B then
    if o = 4 then { locked := (s.pro.bellTest != ctlBit w 0 || s.pro.owPause != ctlBit w 1) && !inMaintain s } else {}
  else if b = 0x0C then
    if o = 4 then { range := decide (4 < ctlField w 0 3) }
    else if o = 0x20 then { locked := s32 s.ctl.spHost != w && !stateOk [3] s }
    else if o = 0x70 then { range := decide (10000 < ctlField w 0 16) }
    else {}
  else if b = 0x0D then
    if o = 4 then
      { locked := (s.upl.a.off != ctlBit w 0 || s.upl.b.off != ctlBit w 1) && !inMaintain s, range := ctlBit w 0 && ctlBit w 1 }
    else {}
  else if b = 0x0F then
    if wordsAt 0x1000 512 o && o % 0x20 == 0 then
      { range := ctlField w 16 10 == 0 || decide (1000 < ctlField w 16 10) || ctlField w 8 8 == 0 }
    else {}
  else {}

/-! ### Effects of writes -/

/-- W1C: ones clear flags; the counters stay (R12, R437). -/
def clearFlags (e : Nat) (mask : Half) (s : State) : State := modEv e (fun x => { x with flags := x.flags &&& ~~~mask }) s

def prtCtrlFx (p : Nat) (w : Word) (s : State) : State :=
  modPort p (fun x => { x with
    forceN := ctlBit w 1, forceS := ctlBit w 2, cnt := if ctlBit w 0 then List.replicate 12 0 else x.cnt }) s

/-- A request written while learning runs has no further effect (R126). -/
def smpCtrlFx (w : Word) (s : State) : State :=
  modSmp (fun m => { m with
    lowHold := ctlBit w 1, lowEnter := if ctlBit w 1 then none else m.lowEnter, zeroReq := m.zeroReq || (ctlBit w 0 && m.zeroRun.isNone) }) s

def estCtrlFx (w : Word) (s : State) : State :=
  modEst (fun e => { e with freeze := ctlBit w 1, saveBusy := e.saveBusy || ctlBit w 0, saveWhole := e.saveWhole || ctlBit w 0 }) s

def impCtrlFx (w : Word) (s : State) : State :=
  onlyIf (ctlBit w 0) winRestartFx (stepInhibitFx (ctlBit w 1) s)

def balCtrlFx (w : Word) (s : State) : State := modBal (fun b => { b with mode := ctlBit w 1, en := ctlBit w 0 }) s

/-- OW_NOW starts a test of every present unit in SURVEY, RUN and MAINTAIN (Table 8.8). -/
def proCtrlFx (w : Word) (s : State) : State :=
  let s := modPro (fun p => { p with bellTest := ctlBit w 0, owPause := ctlBit w 1 }) s
  onlyIf (ctlBit w 2 && stateOk measuring s) (forAll (List.range 144) owStart) s

/-- SRC and BANK_REQ (Tables 9.6, 9.9). -/
def ctlCtrlFx (w : Word) (s : State) : State := bankReqFx (ctlField w 4 2) (srcFx (ctlField w 0 3) s)

def uplCtrlFx (w : Word) (s : State) : State :=
  let s := modUpl (fun u => { u with
    a := { u.a with off := ctlBit w 0 }, b := { u.b with off := ctlBit w 1 }
    cnt := if ctlBit w 2 then List.replicate 10 0 else u.cnt }) s
  let s := onlyIf (ctlBit w 0) (linkChangeFx .A false) s
  onlyIf (ctlBit w 1) (linkChangeFx .B false) s

def sesCtrlFx (w : Word) (s : State) : State :=
  let s := onlyIf (ctlBit w 0) (fun s => { s with ses := { s.ses with cnt := List.replicate 6 0 } }) s
  onlyIf (ctlBit w 16) (closeSession (ctlField w 8 8) 3 true) s

def queCtrlFx (w : Word) (s : State) : State :=
  onlyIf (ctlBit w 0) (fun s => { s with que := s.que.map fun q => { q with drop := 0, ce := 0, unc := 0 } }) s

/-- QUE_QCTRLq: TAIL_TMO, QWIN, FLUSH (R332). -/
def qctrlFx (q : Nat) (w : Word) (s : State) : State :=
  onlyIf (ctlBit w 0) (flushQueue q) (modQ q (fun x => { x with tmo := ctlField w 16 10, qwin := ctlField w 8 8 }) s)

def paiCtrlFx (w : Word) (s : State) : State :=
  modPai (fun p => { p with
    holdOff := ctlBit w 0
    epochFails := if ctlBit w 1 then 0 else p.epochFails
    fwdTx := if ctlBit w 1 then 0 else p.fwdTx
    fwdRx := if ctlBit w 1 then 0 else p.fwdRx
    fwdLate := if ctlBit w 1 then 0 else p.fwdLate
    selectCnt := if ctlBit w 1 then 0 else p.selectCnt }) s

def recCtrlFx (w : Word) (s : State) : State :=
  let s := onlyIf (ctlBit w 0) flushTrigger s
  onlyIf (ctlBit w 1) (modRec fun d => { d with lostCnt := 0, foldCnt := 0, flushCnt := 0, unreadOvw := 0, snapLost := 0 }) s

def hkpCtrlFx (w : Word) (s : State) : State := onlyIf (ctlBit w 0) (modHkp fun h => { h with ecc := List.replicate 8 0 }) s

/-- CNT_CLR zeroes the crossing counters, EVCNT_CLR every event counter of every block, latched ones with them (R437, R443). -/
def xngCtrlFx (w : Word) (s : State) : State :=
  let s := onlyIf (ctlBit w 0)
    (fun s => { s with xng := { s.xng with xrec := s.xng.xrec.map fun r => { r with flush := 0, loss := 0, refused := 0 } } }) s
  onlyIf (ctlBit w 1) (fun s => { s with ev := s.ev.map fun x => { x with cnt := 0, latch := x.latch.map fun _ => 0 } }) s

/-- What a write to a register does once it is not refused; a read-only register ignores it (R12). -/
def writeFx (a : Nat) (w : Word) (s : State) : State :=
  let b := a / 65536
  let o := a % 65536
  match eventAt a with
  | some e => clearFlags e (w.truncate 16) s
  | none =>
    if b = 4 then (if o % 0x400 = 4 then prtCtrlFx (o / 0x400) w s else s)
    else if o = 4 then
      match b with
      | 0x02 => modLcy (fun l => { l with debugEn := ctlBit w 0 }) s
      | 0x06 => smpCtrlFx w s
      | 0x07 => insWrite (ctlField w 0 2) (ctlField w 2 2) s
      | 0x08 => estCtrlFx w s
      | 0x09 => impCtrlFx w s
      | 0x0A => balCtrlFx w s
      | 0x0B => proCtrlFx w s
      | 0x0C => ctlCtrlFx w s
      | 0x0D => uplCtrlFx w s
      | 0x0E => sesCtrlFx w s
      | 0x0F => queCtrlFx w s
      | 0x10 => paiCtrlFx w s
      | 0x11 => recCtrlFx w s
      | 0x12 => hkpCtrlFx w s
      | 0x13 => xngCtrlFx w s
      | _ => s
    else if a = 0x80048 || a = 0x8004C then modEst (fun e => { e with retain := retainAfter s (a == 0x8004C) w }) s
    else if a = 0x9002C then gselFx (ctlField w 0 10) s
    else if a = 0xC0020 then onlyIf (stateOk [3] s) (spHostFx w.toInt) s
    else if a = 0xC0070 then modCtl (fun c => { c with aoHost := ctlField w 0 16 }) s
    else if b = 0x0F && wordsAt 0x1000 512 o && o % 0x20 == 0 then qctrlFx ((o - 0x1000) / 0x20) w s
    else s

/-- REG_WRITE (R12, R347, R435): the answer follows the effect. Where the write closes the session that asked, the answer is its
last record before CLOSE (R326, R337; DEDUCED, log entry 37). -/
def writeRequest (r : Req) (a : Nat) (w : Word) (s : State) : State :=
  requestNoting r 0x0D02 engineer
    (fun s =>
      let j := writeJudge s (a / 65536) (a % 65536) w
      let inside := (blockAt a).isSome && a % 4 == 0
      { absent := (blockAt a).isSome && (absentAt s a || (inside && j.absent))
        locked := inside && j.locked
        forbidden := !stateOk awake s
        range := !inside || (presentValue s (a / 65536) (a % 65536)).isNone || j.range
        busy := proShut s a })
    (fun st s => if st = stBusy then countRefused a s else s)
    (fun s =>
      let t := writeFx a w s
      if (t.sess r.ctx.toNat).opened then respond r 0x0D02 stOk [] t else writeFx a w (respond r 0x0D02 stOk [] s)) s

def execRegRead (r : Req) (addr : Word) (count : Half) (s : State) : Host.Outcome State Fault Refusal :=
  act (readRequest r addr.toNat count.toNat) s

def execRegWrite (r : Req) (addr value : Word) (s : State) : Host.Outcome State Fault Refusal :=
  act (writeRequest r addr.toNat value) s

/-! ### Commands that are one read or one write -/

/-- A W1C write to EVENT of a block in the cycle in which hardware sets the flags `sets`: the set wins (R13). -/
def execEventFlagClear (r : Req) (blk : Fin 68) (mask : Half) (sets : Half) (s : State) : Host.Outcome State Fault Refusal :=
  act (fun s =>
    let t := writeRequest r (eventAddr blk.val) (mask.zeroExtend 32) s
    if alive s then forAll ((List.range (flagCount blk.val)).filter fun n => sets.getLsbD n) (raise blk.val) t else t) s

def execEventReadLatch (r : Req) (blk : Fin 68) (s : State) : Host.Outcome State Fault Refusal :=
  act (readRequest r (eventAddr blk.val) 1) s

def execGroupRecordLatch (r : Req) (g : Fin 768) (s : State) : Host.Outcome State Fault Refusal :=
  act (readRequest r (0x81000 + 0x40 * g.val) 1) s

def execModelRecordLatch (r : Req) (g : Fin 768) (s : State) : Host.Outcome State Fault Refusal :=
  act (readRequest r (0x91000 + 0x10 * g.val) 1) s

def execSmpInstLoRead (r : Req) (s : State) : Host.Outcome State Fault Refusal := act (readRequest r 0x60024 1) s

/-- REC_NEXT_LO, REC_OLDEST_LO, REC_EXPORT_LO, REC_OPTIME_LO. -/
def recLoAddr (k : Nat) : Nat :=
  match k with
  | 0 => 0x110014
  | 1 => 0x11001C
  | 2 => 0x110024
  | _ => 0x110030

def execRecLoRead (r : Req) (which : Fin 4) (s : State) : Host.Outcome State Fault Refusal :=
  act (readRequest r (recLoAddr which.val) 1) s

/-- PRT_CTRL of a port. -/
def prtCtrl (p : Nat) : Nat := 0x40000 + 0x400 * p + 4

def execPrtCntClr (r : Req) (p : Fin 48) (w : Word) (s : State) : Host.Outcome State Fault Refusal :=
  act (writeRequest r (prtCtrl p.val) w) s
def execForceNOff (r : Req) (p : Fin 48) (w : Word) (s : State) : Host.Outcome State Fault Refusal :=
  act (writeRequest r (prtCtrl p.val) w) s
def execForceSOff (r : Req) (p : Fin 48) (w : Word) (s : State) : Host.Outcome State Fault Refusal :=
  act (writeRequest r (prtCtrl p.val) w) s

def execZeroReq (r : Req) (w : Word) (s : State) : Host.Outcome State Fault Refusal := act (writeRequest r 0x60004 w) s
def execLowcadHold (r : Req) (w : Word) (s : State) : Host.Outcome State Fault Refusal := act (writeRequest r 0x60004 w) s
def execInsModeWrite (r : Req) (w : Word) (s : State) : Host.Outcome State Fault Refusal := act (writeRequest r 0x70004 w) s
def execSaveReq (r : Req) (w : Word) (s : State) : Host.Outcome State Fault Refusal := act (writeRequest r 0x80004 w) s
def execLearnFreeze (r : Req) (w : Word) (s : State) : Host.Outcome State Fault Refusal := act (writeRequest r 0x80004 w) s
def execEstRetainWrite (r : Req) (hi : Bool) (w : Word) (s : State) : Host.Outcome State Fault Refusal :=
  act (writeRequest r (if hi then 0x8004C else 0x80048) w) s
def execWinRestart (r : Req) (w : Word) (s : State) : Host.Outcome State Fault Refusal := act (writeRequest r 0x90004 w) s
def execStepInhibit (r : Req) (w : Word) (s : State) : Host.Outcome State Fault Refusal := act (writeRequest r 0x90004 w) s
def execImpGselWrite (r : Req) (w : Word) (s : State) : Host.Outcome State Fault Refusal := act (writeRequest r 0x9002C w) s
def execBalModeWrite (r : Req) (w : Word) (s : State) : Host.Outcome State Fault Refusal := act (writeRequest r 0xA0004 w) s
def execBalEn (r : Req) (w : Word) (s : State) : Host.Outcome State Fault Refusal := act (writeRequest r 0xA0004 w) s
def execOwNow (r : Req) (w : Word) (s : State) : Host.Outcome State Fault Refusal := act (writeRequest r 0xB0004 w) s
def execOwPause (r : Req) (w : Word) (s : State) : Host.Outcome State Fault Refusal := act (writeRequest r 0xB0004 w) s
def execBellTest (r : Req) (w : Word) (s : State) : Host.Outcome State Fault Refusal := act (writeRequest r 0xB0004 w) s
def execBankReq (r : Req) (w : Word) (s : State) : Host.Outcome State Fault Refusal := act (writeRequest r 0xC0004 w) s
def execSrcWrite (r : Req) (w : Word) (s : State) : Host.Outcome State Fault Refusal := act (writeRequest r 0xC0004 w) s
def execCtlSpHostWrite (r : Req) (w : Word) (s : State) : Host.Outcome State Fault Refusal := act (writeRequest r 0xC0020 w) s
def execAoHostWrite (r : Req) (w : Word) (s : State) : Host.Outcome State Fault Refusal := act (writeRequest r 0xC0070 w) s
def execUplCntClr (r : Req) (w : Word) (s : State) : Host.Outcome State Fault Refusal := act (writeRequest r 0xD0004 w) s
def execLinkAOff (r : Req) (w : Word) (s : State) : Host.Outcome State Fault Refusal := act (writeRequest r 0xD0004 w) s
def execLinkBOff (r : Req) (w : Word) (s : State) : Host.Outcome State Fault Refusal := act (writeRequest r 0xD0004 w) s
def execSesCntClr (r : Req) (w : Word) (s : State) : Host.Outcome State Fault Refusal := act (writeRequest r 0xE0004 w) s
def execSesClose (r : Req) (w : Word) (s : State) : Host.Outcome State Fault Refusal := act (writeRequest r 0xE0004 w) s
def execQueCntClr (r : Req) (w : Word) (s : State) : Host.Outcome State Fault Refusal := act (writeRequest r 0xF0004 w) s
def execQueueFlush (r : Req) (q : Fin 64) (w : Word) (s : State) : Host.Outcome State Fault Refusal :=
  act (writeRequest r (0xF1000 + 0x20 * q.val) w) s
def execHoldOff (r : Req) (w : Word) (s : State) : Host.Outcome State Fault Refusal := act (writeRequest r 0x100004 w) s
def execPaiCntClr (r : Req) (w : Word) (s : State) : Host.Outcome State Fault Refusal := act (writeRequest r 0x100004 w) s
def execDebugEn (r : Req) (w : Word) (s : State) : Host.Outcome State Fault Refusal := act (writeRequest r 0x20004 w) s
def execXngCntClr (r : Req) (w : Word) (s : State) : Host.Outcome State Fault Refusal := act (writeRequest r 0x130004 w) s
def execEvcntClr (r : Req) (w : Word) (s : State) : Host.Outcome State Fault Refusal := act (writeRequest r 0x130004 w) s
def execFlushReq (r : Req) (w : Word) (s : State) : Host.Outcome State Fault Refusal := act (writeRequest r 0x110004 w) s
def execRecCntClr (r : Req) (w : Word) (s : State) : Host.Outcome State Fault Refusal := act (writeRequest r 0x110004 w) s
def execHkpCntClr (r : Req) (w : Word) (s : State) : Host.Outcome State Fault Refusal := act (writeRequest r 0x120004 w) s

/-! ### Snapshots (R449) -/

/-- A SNAPSHOT record's bytes 16 to 59. -/
def snapBytes (s : State) (idx : Nat) (vals : List Word) : Bytes :=
  le 4 (idx % 2 ^ 32) ++ le 4 (slotVersion s.nv.active) ++ fit 32 (vals.flatMap leW) ++ [0, 0, 0, 0]

/-- One SNAPSHOT record enters the ring, or is lost like an event that finds no room (R452). -/
def snapRecord (idx part : Nat) (vals : List Word) (s : State) : State :=
  if s.recd.lostOpen || !decide (s.recd.ring.length + 1 < ringSlots) then loseEvent 0x1184 part s
  else
    let r := newRecord { island := 2, code := 0x1184, source := part, data := [], instant := 0 } s
    enterRing { r with snap := some (snapBytes s idx vals) } s

/-- The supervisor reads the registers of the oldest record that waits for its snapshot, in list order and without side effects. A read that
crossing 0x4D refuses gives no value: it is free (R441; DESIGN CHOICE, log entry 4). -/
def snapshotFx (s : State) : State :=
  match s.recd.snaps with
  | [] => s
  | (idx, cls) :: rest =>
    let regs := (s.cfg.recClass cls).regs
    let free := (takeWord s).1
    let vals := regs.map fun a => if proShut s a then free else regShow s a
    let s := forAll regs countRefused (modRec (fun d => { d with snaps := rest }) { s with fresh := s.fresh + 1 })
    let s := if vals.isEmpty then s else snapRecord idx 0 (vals.take 8) s
    if 8 < vals.length then snapRecord idx 1 (vals.drop 8) s else s

def execSnapshot (s : State) : Host.Outcome State Fault Refusal := act (fun s => if spcUp s then snapshotFx s else s) s

/-! ### Memory errors (R467, Table 16.8) -/

/-- ECC_ERROR: memory 0 LPDDR4 (`idx` 1: a word in SPC use), 1 SPC memories, 2 EST context memory (`idx` the group), 3 recorder NV
region (`idx` the record). After the load shed the errors are counted still: HKP runs (R456). -/
def eccFx (mem : Nat) (ue : Bool) (idx : Nat) (s : State) : State :=
  let s := eccCount mem ue s
  if !ue || !(alive s || mem == 3) then s
  else if mem = 1 || (mem = 0 && idx = 1) then spcResetFx 3 (if s.lcy.spcDown then failedStart s else s)
  else if mem = 2 then modCtx idx (fun x => { x with mustInsert := true }) s
  else if mem = 3 then
    modRecNv (fun n => { n with records := n.records.map fun r => if r.index = idx then { r with unread := true } else r }) s
  else s

def execEccError (mem : Fin 4) (ue : Bool) (idx : Nat) (s : State) : Host.Outcome State Fault Refusal :=
  act (fun s => if recRuns s then eccFx mem.val ue idx s else s) s

/-- DRAM_SCRUB: a pass over LPDDR4; each error it found. A word in SPC use that is uncorrectable resets the SPC island; those of other users are
refetched (Table 16.8). -/
def execDramScrub (bad : List ScrubError) (s : State) : Host.Outcome State Fault Refusal :=
  act (fun s => if recRuns s then forAll bad (fun e => eccFx 0 e.ue (if e.spc then 1 else 0)) s else s) s

end Sys2Proof.Machine
end

