-- ==== Sys2Proof/Machine/Unit.lean ====
section
/-! DEFINITION. Conforming monitor units (03): what a unit does with each frame, link command, timeout and sample. The unit wired at
position c of port p is unit 3p + c of State.units. -/

namespace Sys2Proof.Machine

open Sys2Proof

/-- Saturation of the 16-bit diagnostic counters (R109). -/
def sat16 (n : Nat) : Nat := min n 0xFFFF

/-- The unit holds an address. -/
def addressed (m : MUnit) : Bool := m.st == .bootAddressed || m.st == .loading || m.st == .running

/-- The running timers of a unit as a mask (R95). -/
def runMask (m : MUnit) : Half :=
  (List.range 16).foldl (fun w n => match m.timers.getD n none with
    | some e => if m.clock < e then w ||| (1#16 <<< n) else w
    | none => w) 0

/-- A unit in BOOT_UNADDRESSED: everything volatile is discarded, the restart cause is kept, and the timeouts go on from the last
reference edge (R81, R103). -/
def unaddressed (cause : Nat) (m : MUnit) : MUnit :=
  { st := .bootUnaddressed, ident := m.ident, cause := cause, clock := m.clock, edgeAt := m.edgeAt }

/-- Every bleed timer cleared (R98, R103). -/
def clearTimers (m : MUnit) : MUnit := { m with timers := List.replicate 16 none }

/-- Every open-wire source off: a test that ran is answered DONE, which is its stored response from then on (R57, R101, R103). -/
def owDone (m : MUnit) : MUnit :=
  match m.ow with
  | some t =>
    let r : Resp := { cseq := t.cseq, opc := 0x40, stat := 0x00, data := le 3 t.wires.toNat }
    { m with ow := none, resp := m.resp ++ [r], lastOwn := m.lastOwn.map fun l => if l.cseq = t.cseq then r else l }
  | none => m

/-! ### Frames -/

/-- The lane at the other end of the ring. -/
def otherLane : Lane → Lane
  | .N => .S
  | .S => .N

/-- Frames as a unit sends them on: unchanged, 320 ns, 40 bits, after they came in (R49). -/
def repeated (rx : Bits) : List (Nat × List Group) := (windowFrames rx).map fun e => (e.1 + 40, e.2)

/-- A unit that holds an address repeats what comes in from one side to the other, whatever its CRC (R49, R82). -/
def repeatOn (p c : Nat) (lane : Lane) (rx : Bits) (s : State) : State :=
  if addressed (s.unit (slotOf p c)) && !(windowFrames rx).isEmpty then
    match takeSeed s with
    | (k, s) => send (.repeats p c (otherLane lane) k (repeated rx)) s
  else s

/-- Opcodes of Table 3.3. -/
def linkOpcodes : List Nat :=
  [0x01, 0x02, 0x03, 0x04, 0x05, 0x06, 0x07, 0x10, 0x11, 0x12, 0x20, 0x21, 0x22, 0x30, 0x31, 0x40, 0x41, 0x50]

/-- A command addressed to the unit carries the CSEQ of the last one of its series (R57). -/
def repeatOwn (k : LinkCmd) (m : MUnit) : Option Resp := m.lastOwn.filter fun r => r.cseq == k.cseq

/-- A command that repeats the CSEQ of the last one executed returns its stored response, once (R57); that of DELAY_PROBE is the ECHO. -/
def answerAgain (r : Resp) (m : MUnit) : MUnit :=
  if r.opc == 0x04 && r.stat == 0x00 then { m with echo := some m.frameLane }
  else if m.resp.any fun e => e.cseq == r.cseq && e.opc == r.opc then m
  else { m with resp := m.resp ++ [r] }

/-- The unit answers a command addressed to it. -/
def answered (k : LinkCmd) (stat : Byte) (data : Bytes) (m : MUnit) : MUnit :=
  let r : Resp := { cseq := k.cseq, opc := k.opc, stat := stat, data := data }
  { m with resp := m.resp ++ [r], lastOwn := some r }

/-- A command slot whose opcode Table 3.3 does not list is answered UNKNOWN_OPCODE, by an unaddressed unit when it comes to DST 0xFE
(R71, R88). -/
def unknownFx (m : MUnit) (k : LinkCmd) : MUnit :=
  if linkOpcodes.contains k.opc.toNat then m
  else if addressed m && k.dst == m.addr then
    match repeatOwn k m with
    | some r => answerAgain r m
    | none => answered k 0x03 [] m
  else if !addressed m && k.dst == 0xFE then { m with resp := [{ cseq := k.cseq, opc := k.opc, stat := 0x03 }] }
  else m

/-- A frame counts in CRC_RX: its CRC fails or its CAD is reserved; nothing of it is executed (R46, R109). -/
def badFrame (m : MUnit) : MUnit := { m with crcRx := sat16 (m.crcRx + 1), obey := false, stopFrame := false, hush := false, slots := [] }

/-- A DOWN frame whose CRC is valid (R46, R63, R84, R98, R103). -/
def downFx (lane : Lane) (f : DownIn) (m : MUnit) : MUnit :=
  if 4 ≤ f.cad then badFrame m
  else
    let mine := !addressed m || f.port == m.addr.toNat / 4
    let passive := f.flags.getLsbD 0
    let m := { m with
      instant := f.instant
      cad := f.cad
      edgeAt := m.clock
      obey := mine && !passive
      stopFrame := mine && f.flags.getLsbD 1
      hush := f.flags.getLsbD 2 || f.slots.any (fun k => k.opc == 0x04)
      framePort := f.port
      frameLane := lane
      slots := if mine && !passive then f.slots else []
      portMis := if mine then m.portMis else sat16 (m.portMis + 1)
      edgeN := m.edgeN || (lane == Lane.N && !passive)
      edgeS := m.edgeS || (lane == Lane.S && !passive)
      passN := m.passN || (lane == Lane.N && passive)
      passS := m.passS || (lane == Lane.S && passive) }
    m.slots.foldl unknownFx (if m.stopFrame then clearTimers m else m)

/-- What a unit makes of a window that it receives in a downstream window; a window with another frame than DOWN leaves it as it was. -/
def hearDown (lane : Lane) (rx : Bits) (m : MUnit) : MUnit :=
  if m.st = .sleep then m
  else match hearLast rx with
    | some (.frame b) => (match downIn b with | some f => downFx lane f m | none => m)
    | some .crc => badFrame m
    | _ => m

/-- DOWN_FRAME: a down window, so far as it has come in. -/
def execDownFrame (p : Fin 48) (c : Fin 3) (x : LinkRx) (s : State) : Host.Outcome State Fault Refusal :=
  act (fun s => modUnit (slotOf p c) (hearDown x.lane x.rx) (repeatOn p c x.lane x.rx s)) s

/-- A valid BULK frame at a unit that loads, from the cycle after LOAD_BEGIN on (R53, R106). One that comes between an accepted LOAD_START and
the start of the image, in LOADING still, is ignored (DESIGN CHOICE, log entry 56). -/
def bulkFx (b : Bytes) (m : MUnit) : MUnit :=
  let dst := b.getD 1 0
  let seg := leNat (slice b 2 2)
  let data := slice b 8 (leNat (slice b 4 2))
  if (b.getD 0 0).toNat / 16 != 3 || m.st != .loading || m.starting || m.begun || !(dst == m.addr || dst == 0xFF) then m
  else if data.isEmpty || 176 < data.length || m.loadLen < 176 * seg + data.length then m
  else { m with segs := assocSet seg data m.segs }

/-- What a unit makes of a BULK window. -/
def hearBulk (rx : Bits) (m : MUnit) : MUnit :=
  if m.st = .sleep then m
  else match hearLast rx with
    | some (.frame b) => bulkFx b m
    | some .crc => { m with crcRx := sat16 (m.crcRx + 1) }
    | _ => m

/-- BULK_FRAME: a BULK window, in from the side of `lane`: its lead-in, the frame, what follows it. -/
def execBulkFrame (p : Fin 48) (c : Fin 3) (lane : Lane) (lead frame tail : Bits) (s : State) : Host.Outcome State Fault Refusal :=
  act (fun s => modUnit (slotOf p c) (hearBulk (lead ++ frame ++ tail)) (repeatOn p c lane (lead ++ frame ++ tail) s)) s

/-! ### The command set (R57, R86, R88) -/

def rsDone : Byte := 0x00
def rsPending : Byte := 0x01
def rsRejected : Byte := 0x02
def rsBadLength : Byte := 0x04
def rsAdjacent : Byte := 0x05
def rsNotLoaded : Byte := 0x06
def rsRange : Byte := 0x07
def rsHot : Byte := 0x08
def rsLoadState : Byte := 0x09
def rsCrcFail : Byte := 0x0A

/-- What a unit finds wrong with a command, in the order of R88. -/
structure LinkJudge where
  notLoaded : Bool := false
  loadState : Bool := false
  range : Bool := false
  hot : Bool := false
  adjacent : Bool := false
  crcFail : Bool := false
  deriving DecidableEq, Repr

/-- The first RSTAT that applies (R88). -/
def LinkJudge.first (j : LinkJudge) : Option Byte :=
  if j.notLoaded then some rsNotLoaded
  else if j.loadState then some rsLoadState
  else if j.range then some rsRange
  else if j.hot then some rsHot
  else if j.adjacent then some rsAdjacent
  else if j.crcFail then some rsCrcFail
  else none

/-- One row of Table 3.3: payload length, accepted by broadcast, what is wrong, and the effect with RSTAT and RDATA. -/
structure LinkOp where
  len : Nat
  all : Bool := false
  judge : MUnit → LinkJudge := fun _ => {}
  run : MUnit → MUnit × Byte × Bytes

/-- The unit judges and executes a command: RSTAT and RDATA; nothing is executed where a rule is broken. -/
def judgeCmd (o : LinkOp) (k : LinkCmd) (m : MUnit) : MUnit × Byte × Bytes :=
  if k.len ≠ o.len then (m, rsBadLength, [])
  else match (o.judge m).first with
    | some st => (m, st, [])
    | none => o.run m

/-- A command of a frame that the unit obeys (R57, R71, R84, R86): by its DST it is answered, executed silently, or passed over. A known
command in a DST form that Table 3.3 does not list for it is passed over, neither executed nor answered (DESIGN CHOICE, log entry 56). -/
def linkCmd (o : LinkOp) (k : LinkCmd) (m : MUnit) : MUnit :=
  if !addressed m || !m.obey then m
  else if k.dst = m.addr then
    match repeatOwn k m with
    | some r => answerAgain r m
    | none =>
      match judgeCmd o k m with
      | (m, st, d) => answered k st d m
  else if k.dst = 0xFF && o.all then
    if m.lastAll = some k.cseq then m
    else { (judgeCmd o k m).1 with lastAll := some k.cseq }
  else m

/-- Slot `i` of the frame in course, where it holds the command with this opcode. -/
def onSlot (opc : Byte) (i : Nat) (f : LinkCmd → MUnit → MUnit) (m : MUnit) : MUnit :=
  match m.slots[i]? with
  | some k => if k.opc = opc then f k m else m
  | none => m

/-- One link command as a meaning. -/
def linkAct (p : Fin 48) (c i : Fin 3) (opc : Byte) (f : LinkCmd → MUnit → MUnit) (s : State) : Host.Outcome State Fault Refusal :=
  act (modUnit (slotOf p c) (onSlot opc i f)) s

/-- A unit must be RUNNING. -/
def needRunning (m : MUnit) : LinkJudge := { notLoaded := m.st != .running }

/-- Identity pages (Table 3.2). -/
def identPage (m : MUnit) (page : Nat) : Bytes :=
  match page with
  | 0 => le 8 m.ident.serial
  | 1 => le 2 m.ident.vendor.toNat ++ le 2 m.ident.model.toNat ++ [m.ident.hwRev, 0x01] ++ le 2 (Config.bootRev m.ident.serial).toNat
  | 2 => le 8 m.ident.packId
  | 3 => if m.st = .running then leW m.fwId ++ leW m.fwCrc else List.replicate 8 0
  | _ => [16, 4] ++ le 1 m.ident.bleedImax ++ [m.ident.owCaps] ++ le 1 m.cause ++ [0, 0, 0]

/-- ADDR_ASSIGN: only an unaddressed unit, to DST 0xFE (R71, R81, R86); the answer is page 0. To any other DST it is passed over
(DESIGN CHOICE, log entry 56). -/
def addrAssignFx (k : LinkCmd) (m : MUnit) : MUnit :=
  if m.st != .bootUnaddressed || !m.obey || k.dst != 0xFE then m
  else
    let a := k.data.getD 0 0
    if k.len ≠ 1 then { m with resp := [{ cseq := k.cseq, opc := 0x01, stat := rsBadLength }] }
    else if a.toNat / 4 ≠ m.framePort then { m with resp := [{ cseq := k.cseq, opc := 0x01, stat := rsRange }] }
    else
      { m with st := .bootAddressed, addr := a, lastOwn := none, lastAll := none,
               resp := [{ cseq := k.cseq, opc := 0x01, stat := rsDone, data := identPage m 0 }] }

def execAddrAssign (p : Fin 48) (c i : Fin 3) (s : State) : Host.Outcome State Fault Refusal := linkAct p c i 0x01 addrAssignFx s

def identReadOp (k : LinkCmd) : LinkOp :=
  { len := 1
    judge := fun _ => { range := decide (4 < (k.data.getD 0 0).toNat) }
    run := fun m => (m, rsDone, identPage m (k.data.getD 0 0).toNat) }

def execIdentRead (p : Fin 48) (c i : Fin 3) (s : State) : Host.Outcome State Fault Refusal :=
  linkAct p c i 0x02 (fun k => linkCmd (identReadOp k) k) s

/-- A correction as CORR_SET carries it. -/
def corrOf (b : Bytes) : Option Nat := if leNat b = 0xFFFFFFFF then none else some (leNat b)

def corrSetOp (k : LinkCmd) : LinkOp :=
  { len := 8
    run := fun m =>
      ({ m with cfgCorrN := (corrOf (slice k.data 0 4)).or m.cfgCorrN, cfgCorrS := (corrOf (slice k.data 4 4)).or m.cfgCorrS }, rsDone, []) }

def execCorrSet (p : Fin 48) (c i : Fin 3) (s : State) : Host.Outcome State Fault Refusal :=
  linkAct p c i 0x03 (fun k => linkCmd (corrSetOp k) k) s

/-- DELAY_PROBE: the ECHO frame takes the place of an UP block (R66). -/
def delayProbeFx (k : LinkCmd) (m : MUnit) : MUnit :=
  if !addressed m || !m.obey || k.dst != m.addr then m
  else match repeatOwn k m with
    | some r => answerAgain r m
    | none =>
      if k.len ≠ 0 then answered k rsBadLength [] m
      else { m with echo := some m.frameLane, lastOwn := some { cseq := k.cseq, opc := 0x04, stat := rsDone } }

def execDelayProbe (p : Fin 48) (c i : Fin 3) (s : State) : Host.Outcome State Fault Refusal := linkAct p c i 0x04 delayProbeFx s

def chainSetOp (k : LinkCmd) : LinkOp :=
  { len := 1
    judge := fun m => { range := decide ((k.data.getD 0 0).toNat ≤ m.addr.toNat % 4) || decide (3 < (k.data.getD 0 0).toNat) }
    run := fun m => ({ m with cfgChain := (k.data.getD 0 0).toNat }, rsDone, []) }

def execChainSet (p : Fin 48) (c i : Fin 3) (s : State) : Host.Outcome State Fault Refusal :=
  linkAct p c i 0x05 (fun k => linkCmd (chainSetOp k) k) s

/-- UNIT_RESET: no answer; executed after the up windows of the cycle (R87), at most once per CSEQ of its series (R57). -/
def unitResetFx (k : LinkCmd) (m : MUnit) : MUnit :=
  if !addressed m || !m.obey then m
  else if k.dst = m.addr then
    match repeatOwn k m with
    | some r => answerAgain r m
    | none =>
      if k.len ≠ 0 then answered k rsBadLength [] m else { m with resetDue := true }
  else if k.dst = 0xFF && m.lastAll != some k.cseq then
    if k.len ≠ 0 then { m with lastAll := some k.cseq } else { m with resetDue := true }
  else m

def execUnitReset (p : Fin 48) (c i : Fin 3) (s : State) : Host.Outcome State Fault Refusal := linkAct p c i 0x06 unitResetFx s

def packIdSetOp (k : LinkCmd) : LinkOp :=
  { len := 8, run := fun m => ({ m with ident := { m.ident with packId := leNat k.data } }, rsDone, []) }

def execPackIdSet (p : Fin 48) (c i : Fin 3) (s : State) : Host.Outcome State Fault Refusal :=
  linkAct p c i 0x07 (fun k => linkCmd (packIdSetOp k) k) s

def loadBeginOp (k : LinkCmd) : LinkOp :=
  { len := 8, all := true
    judge := fun m =>
      let n := leNat (slice k.data 0 4)
      { loadState := m.st == .running, range := n == 0 || decide (131072 < n) }
    run := fun m =>
      ({ m with st := .loading, loadLen := leNat (slice k.data 0 4), loadCrc := BitVec.ofNat 32 (leNat (slice k.data 4 4)),
                segs := [], starting := false, begun := true }, rsDone, []) }

def execLoadBegin (p : Fin 48) (c i : Fin 3) (s : State) : Host.Outcome State Fault Refusal :=
  linkAct p c i 0x10 (fun k => linkCmd (loadBeginOp k) k) s

/-- Segments of an image of this length. -/
def loadSegCount (len : Nat) : Nat := (len + 175) / 176

/-- The missing segments of a load, in order (R106). -/
def missing (m : MUnit) : List Nat := (List.range (loadSegCount m.loadLen)).filter fun i => !(m.segs.any fun e => e.1 == i)

/-- The image as held: every byte at its offset. -/
def heldImage (m : MUnit) : Bytes :=
  ((List.range (loadSegCount m.loadLen)).flatMap fun i =>
    fit 176 (((m.segs.find? fun e => e.1 == i).map Prod.snd).getD [])).take m.loadLen

/-- LOAD_CHECK: while segments are missing the CRC has no stated value, with none missing the first missing one has none; both are
then free (DESIGN CHOICE, log entry 4). -/
def loadCheckOp (free : Word) : LinkOp :=
  { len := 0
    judge := fun m => { loadState := m.st != .loading }
    run := fun m =>
      let l := missing m
      (m, rsDone,
        le 2 l.length ++ (match l with
          | [] => le 2 free.toNat ++ leW (crc32 (heldImage m))
          | i :: _ => le 2 i ++ leW free)) }

def execLoadCheck (p : Fin 48) (c i : Fin 3) (s : State) : Host.Outcome State Fault Refusal :=
  act (fun s => match takeWord s with
    | (free, s) => modUnit (slotOf p c) (onSlot 0x11 i (linkCmd (loadCheckOp free))) s) s

def loadStartOp (k : LinkCmd) : LinkOp :=
  { len := 4, all := true
    judge := fun m =>
      let w := BitVec.ofNat 32 (leNat (slice k.data 0 4))
      { loadState := m.st != .loading || !(missing m).isEmpty
        crcFail := w != m.loadCrc || w != crc32 (heldImage m) }
    run := fun m => ({ m with starting := true }, rsDone, []) }

def execLoadStart (p : Fin 48) (c i : Fin 3) (s : State) : Host.Outcome State Fault Refusal :=
  linkAct p c i 0x12 (fun k => linkCmd (loadStartOp k) k) s

/-- UNIT_IMAGE_START: the accepted image runs (R107). -/
def imageStartFx (m : MUnit) : MUnit :=
  if m.st = .loading && m.starting then
    { m with st := .running, starting := false, fwCrc := m.loadCrc, fwId := BitVec.ofNat 32 ((Config.fwIdent (heldImage m)).val + 1) }
  else m

def execUnitImageStart (p : Fin 48) (c : Fin 3) (s : State) : Host.Outcome State Fault Refusal :=
  act (modUnit (slotOf p c) imageStartFx) s

def inputCfgOp (k : LinkCmd) : LinkOp :=
  { len := 3
    judge := needRunning
    run := fun m => ({ m with cfgIn := BitVec.ofNat 16 (leNat (slice k.data 0 2)), cfgT := (k.data.getD 2 0).truncate 4 }, rsDone, []) }

def execInputCfg (p : Fin 48) (c i : Fin 3) (s : State) : Host.Outcome State Fault Refusal :=
  linkAct p c i 0x20 (fun k => linkCmd (inputCfgOp k) k) s

def tsensCfgOp (k : LinkCmd) : LinkOp :=
  { len := 5
    judge := needRunning
    run := fun m =>
      let v : SensorCurve := { r26 := 10 * leNat (slice k.data 1 2), b := leNat (slice k.data 3 2) }
      ({ m with cfgSensor := m.cfgSensor.mapIdx fun n x => if (k.data.getD 0 0).getLsbD n then v else x }, rsDone, []) }

def execTsensCfg (p : Fin 48) (c i : Fin 3) (s : State) : Host.Outcome State Fault Refusal :=
  linkAct p c i 0x21 (fun k => linkCmd (tsensCfgOp k) k) s

def bleedModeOp (k : LinkCmd) : LinkOp :=
  { len := 1, all := true
    judge := fun m => { needRunning m with range := decide (1 < (k.data.getD 0 0).toNat) }
    run := fun m => ({ m with cfgComp := k.data.getD 0 0 == 1 }, rsDone, []) }

def execBleedMode (p : Fin 48) (c i : Fin 3) (s : State) : Host.Outcome State Fault Refusal :=
  linkAct p c i 0x22 (fun k => linkCmd (bleedModeOp k) k) s

/-- Two neighbouring groups in a mask (R96). -/
def adjacentIn (m : Half) : Bool := (m &&& (m >>> 1)) != 0

/-- Starts or restarts the timers of a mask (R95). -/
def startTimers (mask : Half) (dur : Nat) (m : MUnit) : MUnit :=
  { m with timers := m.timers.mapIdx fun i t => if mask.getLsbD i then some (m.clock + dur * 10000000) else t }

/-- Stops the timers of a mask. -/
def stopTimers (mask : Half) (m : MUnit) : MUnit :=
  { m with timers := m.timers.mapIdx fun i t => if mask.getLsbD i then none else t }

/-- Longest remaining time of a unit's timers in 10 ms, rounded up (DESIGN CHOICE, log entry 56: Table 3.3 gives no rounding). -/
def longest (m : MUnit) : Nat :=
  m.timers.foldl (fun a t => match t with | some e => max a ((e - m.clock + 9999999) / 10000000) | none => a) 0

/-- BLEED_SET: a frame with BLEED_STOP voids it before any other check (R88, R98). -/
def bleedSetOp (k : LinkCmd) : LinkOp :=
  { len := 5
    judge := fun m =>
      let mask := BitVec.ofNat 16 (leNat (slice k.data 0 2))
      { needRunning m with
        range := leNat (slice k.data 2 2) == 0
        hot := m.hot
        adjacent := !(k.data.getD 4 0).getLsbD 0 && adjacentIn (runMask m ||| mask) }
    run := fun m =>
      let m := startTimers (BitVec.ofNat 16 (leNat (slice k.data 0 2))) (leNat (slice k.data 2 2)) m
      (m, rsDone, le 2 (runMask m).toNat ++ le 2 (longest m)) }

def bleedSetFx (k : LinkCmd) (m : MUnit) : MUnit :=
  if addressed m && m.obey && m.stopFrame && k.dst == m.addr && (repeatOwn k m).isNone then answered k rsRejected [] m
  else linkCmd (bleedSetOp k) k m

def execBleedSet (p : Fin 48) (c i : Fin 3) (s : State) : Host.Outcome State Fault Refusal := linkAct p c i 0x30 bleedSetFx s

def bleedStopOp (k : LinkCmd) : LinkOp :=
  { len := 2, all := true
    judge := needRunning
    run := fun m =>
      let m := stopTimers (BitVec.ofNat 16 (leNat (slice k.data 0 2))) m
      (m, rsDone, le 2 (runMask m).toNat) }

def execBleedStop (p : Fin 48) (c i : Fin 3) (s : State) : Host.Outcome State Fault Refusal :=
  linkAct p c i 0x31 (fun k => linkCmd (bleedStopOp k) k) s

/-- OW_TEST: the answer is PENDING until the sources are off (R58, R101, R102). A test that a new one replaces gets no other answer than
its PENDING; its sources stay on until those of the new test switch on, through the sample of the command's own cycle (`old`); bits 17 to 23
of the mask, which name no wire, are dropped without a RANGE (DESIGN CHOICE, log entry 56: the rules settle none of these). -/
def owTestOp (k : LinkCmd) : LinkOp :=
  { len := 5
    judge := fun m =>
      let code := (k.data.getD 3 0).toNat % 4
      { needRunning m with range := !m.ident.owCaps.getLsbD code || code == 3 || k.data.getD 4 0 == 0 }
    run := fun m =>
      let old := match m.ow with
        | some t => if t.first then t.old else t.wires
        | none => 0
      ({ m with ow := some {
          wires := BitVec.ofNat 24 (leNat (slice k.data 0 3)) &&& 0x1FFFF#24
          code := (k.data.getD 3 0).toNat % 4
          pol := (k.data.getD 3 0).getLsbD 7
          left := (k.data.getD 4 0).toNat
          cseq := k.cseq
          old := old } }, rsPending, []) }

def execOwTest (p : Fin 48) (c i : Fin 3) (s : State) : Host.Outcome State Fault Refusal :=
  linkAct p c i 0x40 (fun k => linkCmd (owTestOp k) k) s

/-- OW_STOP switches every source off at once; the test that ran is answered DONE (R101, R102). -/
def owStopOp : LinkOp := { len := 0, all := true, judge := needRunning, run := fun m => (owDone m, rsDone, []) }

def execOwStop (p : Fin 48) (c i : Fin 3) (s : State) : Host.Outcome State Fault Refusal := linkAct p c i 0x41 (linkCmd owStopOp) s

/-- DIAG_READ (Table 3.8). The die temperature and the supply are measurements that no command carries: free (DESIGN CHOICE, log entry 4). -/
def diagReadOp (free : Word) (k : LinkCmd) : LinkOp :=
  { len := 1
    judge := fun _ => { range := decide (1 < (k.data.getD 0 0).toNat) }
    run := fun m =>
      (m, rsDone,
        if k.data.getD 0 0 = 0 then leW free ++ leI 2 m.refDev ++ [0, 0]
        else le 2 m.crcRx ++ le 2 m.flyCnt ++ le 2 m.portMis ++ le 2 m.wdog) }

def execDiagRead (p : Fin 48) (c i : Fin 3) (s : State) : Host.Outcome State Fault Refusal :=
  act (fun s => match takeWord s with
    | (free, s) => modUnit (slotOf p c) (onSlot 0x50 i fun k => linkCmd (diagReadOp free k) k) s) s

/-! ### Timers, timeouts and states (R81 to R83, R95, R99 to R103) -/

/-- A bleed timer expires within the present cycle; a BLEED_SET of the same cycle has restarted it and wins (R100). -/
def timerExpiryFx (n : Nat) (m : MUnit) : MUnit :=
  match m.timers.getD n none with
  | some e => if e ≤ m.clock + tCad m.cad then { m with timers := m.timers.set n none } else m
  | none => m

def execBleedTimerExpiry (p : Fin 48) (c : Fin 3) (n : Fin 16) (s : State) : Host.Outcome State Fault Refusal :=
  act (modUnit (slotOf p c) (timerExpiryFx n)) s

/-- OW_SOURCE_OFF: the sources switch off after their last sample, and the test is answered DONE (R101). -/
def owSourceOffFx (m : MUnit) : MUnit :=
  match m.ow with
  | some t => if t.left = 0 then owDone m else m
  | none => m

def execOwSourceOff (p : Fin 48) (c : Fin 3) (s : State) : Host.Outcome State Fault Refusal :=
  act (modUnit (slotOf p c) owSourceOffFx) s

/-- A timeout of Table 3.7 runs out within the present cycle: no valid reference edge has come for it. Before the first edge it runs from
the unit's start (DESIGN CHOICE, log entry 56). -/
def edgeLost (t : Nat) (m : MUnit) : Bool := decide (m.edgeAt + t ≤ m.clock + tCad m.cad)

/-- 8 ms without a valid DRONE: no bleed FET and no source stays on (Table 3.7, step 2). -/
def bleedTimeoutFx (m : MUnit) : MUnit := if m.st = .sleep || !edgeLost (8 * ms) m then m else owDone (clearTimers m)

def execUnitBleedTimeout (p : Fin 48) (c : Fin 3) (s : State) : Host.Outcome State Fault Refusal :=
  act (modUnit (slotOf p c) bleedTimeoutFx) s

/-- 100 ms: boot code, no address (Table 3.7, step 3; R81). -/
def droneTimeoutFx (m : MUnit) : MUnit := if addressed m && edgeLost (100 * ms) m then unaddressed 2 m else m

def execUnitDroneTimeout (p : Fin 48) (c : Fin 3) (s : State) : Host.Outcome State Fault Refusal :=
  act (modUnit (slotOf p c) droneTimeoutFx) s

/-- 10 s: SLEEP (Table 3.7, step 4). -/
def sleepTimeoutFx (m : MUnit) : MUnit :=
  if m.st = .sleep || !edgeLost (10000 * ms) m then m else { unaddressed m.cause m with st := .sleep }

def execUnitSleepTimeout (p : Fin 48) (c : Fin 3) (s : State) : Host.Outcome State Fault Refusal :=
  act (modUnit (slotOf p c) sleepTimeoutFx) s

/-- UNIT_WATCHDOG: the loaded firmware is gone, address, corrections and chain length stay (R82). An open-wire test that ran is never answered
DONE, though its sources are off: the firmware that would answer is gone, and a retry gets the stored PENDING (DESIGN CHOICE, log entry 56). -/
def watchdogFx (m : MUnit) : MUnit :=
  if m.st = .running then
    { clearTimers m with
      st := .bootAddressed, cause := 3, wdog := sat16 (m.wdog + 1), ow := none, segs := [], loadLen := 0, loadCrc := 0, fwCrc := 0,
      fwId := 0, starting := false, hush := false, inMask := 0, tMask := 0, cfgIn := 0, cfgT := 0, cfgComp := false, comp := false,
      sensor := [{}, {}, {}, {}], cfgSensor := [{}, {}, {}, {}], begun := false, slots := [], resp := [], echo := none }
  else m

def execUnitWatchdog (p : Fin 48) (c : Fin 3) (s : State) : Host.Outcome State Fault Refusal :=
  act (modUnit (slotOf p c) watchdogFx) s

/-- UNIT_WAKE: line activity ends SLEEP (R83). -/
def execUnitWake (p : Fin 48) (c : Fin 3) (s : State) : Host.Outcome State Fault Refusal :=
  act (modUnit (slotOf p c) fun m => if m.st = .sleep then { unaddressed 4 m with clock := 0, edgeAt := 0 } else m) s

/-- UNIT_POWER_UP (R81). -/
def execUnitPowerUp (p : Fin 48) (c : Fin 3) (s : State) : Host.Outcome State Fault Refusal :=
  act (modUnit (slotOf p c) fun m => { unaddressed 0 m with clock := 0, edgeAt := 0 }) s

/-- UNIT_HOT: the die temperature in 0.01 K relative to 273.15 K crosses 110 °C or falls below 100 °C (Table 3.6, R99). -/
def hotFx (dieTemp : Int) (m : MUnit) : MUnit :=
  if m.st = .sleep then m
  else if 11000 ≤ dieTemp then { clearTimers m with hot := true }
  else if dieTemp < 10000 then { m with hot := false }
  else m

def execUnitHot (p : Fin 48) (c : Fin 3) (dieTemp : Int) (s : State) : Host.Outcome State Fault Refusal :=
  act (modUnit (slotOf p c) (hotFx dieTemp)) s

/-! ### The sample (R63, R90 to R93, R97, R102) -/

/-- A voltage as a unit codes it: 0 at or below 0 V, 0xFFFF at or above 6.5535 V (Table 3.5). -/
def codeV (v : Int) : Half := BitVec.ofInt 16 (max 0 (min v 65535))

/-- A FET conducts, apart from the mute window: its timer runs, no source is on a wire of its group (R95, R99). -/
def fetOn (m : MUnit) (n : Nat) : Bool :=
  (runMask m).getLsbD n && (match m.ow with
    | some t => let w := if t.first then t.old else t.wires; !(w.getLsbD n || w.getLsbD (n + 1))
    | none => true)

/-- A FET is on at the sample: in GATED mode every FET is held off around it (R97). -/
def fetAtSample (m : MUnit) (n : Nat) : Bool := m.comp && fetOn m n

/-- Some open-wire source is on at the sample. -/
def owOn (m : MUnit) : Bool :=
  match m.ow with
  | some t => if t.first then t.old != 0 else t.wires != 0 && decide (0 < t.left)
  | none => false

/-- STATUS of the UP block (Table 3.6). In a service cycle, which has no sample, BLEEDING, COMP and OW_TEST show the state at the instant
(DESIGN CHOICE, log entry 56). -/
def upStatus (m : MUnit) (sampled fly droneS : Bool) : Nat :=
  let b (x : Bool) (n : Nat) : Nat := if x then 2 ^ n else 0
  b sampled 0 + b (sampled && fly) 1 + b (sampled && droneS) 2 + b (runMask m != 0) 3 +
    b ((List.range 16).any (fetAtSample m)) 4 + b (owOn m) 5 + b (m.st == .running) 6 + b (!m.resp.isEmpty) 7 + b m.hot 8

/-- The UP block of Table 2.7 toward a lane, with its CRC. VSTK is rounded down to its 2 mV (DESIGN CHOICE, log entry 56). The SRC of a unit
without an address is free (DESIGN CHOICE, log entry 4). -/
def upBlock (free : Word) (m : MUnit) (x : UnitObs) (sampled fly droneS : Bool) (toward : Lane) : Bytes :=
  let v := (List.range 16).flatMap fun n =>
    le 2 (if sampled && m.inMask.getLsbD n then (codeV (x.v.getD n 0)).toNat else 0)
  let t := (List.range 4).flatMap fun n =>
    let k := m.sensor.getD n {}
    le 2 (if !sampled then 0
      else if m.tMask.getLsbD n then (sensorCode (free.truncate 16) (k.r26 * 1000000000) k.b (x.t.getD n .opened)).toNat else 0x8000)
  let vstk := if sampled then le 2 (max 0 (min (x.vstk / 2) 65535)).toNat else [0, 0]
  let r := match m.resp with
    | r :: _ => [r.cseq, r.opc, r.stat] ++ le 1 r.data.length ++ fit 8 r.data
    | [] => List.replicate 12 0
  let src := if addressed m then m.addr else free.truncate 8
  withCrc (le 1 (0x20 + (8 - dirBit toward)) ++ [src] ++ le 2 m.instant ++ le 2 (upStatus m sampled fly droneS) ++ v ++ t ++ vstk ++ r)

/-! ### The up windows (R48 to R50, R71) -/

/-- The unit's slot in the up window toward a lane: j = c toward N, j = k - 1 - c toward S; 0 while it knows no chain length (DESIGN CHOICE,
log entry 56). -/
def upSlot (m : MUnit) : Lane → Nat
  | .N => m.addr.toNat % 4
  | .S => m.chain - 1 - m.addr.toNat % 4

/-- The bit of the window at which slot j starts: 1.000 µs and 5.400 µs for each slot before it (Table 2.5). -/
def slotBit (j : Nat) : Nat := 125 + 675 * j

/-- Where the own block starts: at its slot, or late, right after a frame that the unit repeats at that moment; R50 lets it start only when it
repeats none and does not say whether it starts late or not at all (DESIGN CHOICE, log entry 56). -/
def holdBack : List (Nat × List Group) → Nat → Nat
  | [], n => n
  | (off, g) :: r, n => holdBack r (if off ≤ n && n < off + 5 * g.length then off + 5 * g.length else n)

/-- A unit's answer to a command sent to the first unaddressed unit leaves in slot 0 of the window back toward that command's lane, and in no
other (R71). -/
def answersFirst (m : MUnit) : Bool := !addressed m || (m.resp.head?.map Resp.opc) == some 0x01

/-- The pieces of a unit's up window toward a lane: the frames it repeats and its own block. A frame that comes in during the own block is laid
after it, whole (DESIGN CHOICE, log entry 56: R50 speaks only of a block that would start during a frame). -/
def upPieces (m : MUnit) (toward : Lane) (rx : Bits) (own : Option Bytes) : List (Nat × List Group) :=
  let rep := if addressed m then repeated rx else []
  let block : List (Nat × List Group) := match own with
    | some b =>
      if answersFirst m then (if toward = m.frameLane then [(slotBit 0, frameGroups b)] else [])
      else [(holdBack rep (slotBit (upSlot m toward)), frameGroups b)]
    | none => []
  sortBy (fun a b => decide (a.1 ≤ b.1)) (block ++ rep)

/-- Sends an up window that has something in it. -/
def sendUp (p c : Nat) (toward : Lane) (l : List (Nat × List Group)) (s : State) : State :=
  if l.isEmpty then s
  else match takeSeed s with
    | (k, s) => send (.up p c toward k l) s

/-- How the sample is timed: by no copy (FLYWHEEL), by the down-S copy (R63, R77). -/
def flywheel (m : MUnit) : Bool := !(m.edgeN || m.edgeS || m.passN || m.passS)

def byDownS (m : MUnit) : Bool := !m.edgeN && (m.edgeS || (!m.passN && m.passS))

/-- The unit at the instant: in flywheel the index goes on by itself; a test that runs is answered PENDING (R58, R63). -/
def atInstant (m : MUnit) : MUnit :=
  let m := if flywheel m then { m with instant := (m.instant + 1) % 2 ^ 32 } else m
  match m.ow with
  | some t => if m.resp.isEmpty && addressed m then { m with resp := [{ cseq := t.cseq, opc := 0x40, stat := rsPending }] } else m
  | none => m

/-- The cycle takes a sample of this unit (R93). -/
def samples (m : MUnit) : Bool := m.st == .running && m.cad != 3

/-- A command of the frame in course reaches this unit, by its address or as the first unaddressed one. -/
def reachedBy (m : MUnit) : Bool :=
  m.slots.any fun k => (addressed m && k.dst == m.addr) || (answersFirst m && k.dst == 0xFE)

/-- The unit sends its block: in sampling cycles, else with a response, unless the frame lets only the units that its commands reach
transmit (R54); not where an ECHO takes its place (R66, R93). -/
def sendsBlock (m : MUnit) : Bool :=
  m.echo.isNone && if m.cad == 3 then !m.resp.isEmpty && (!m.hush || reachedBy m) else addressed m || !m.resp.isEmpty

/-- Frames of the up windows whose CRC fails, of those that the unit receives to repeat (R48, R109). -/
def badUps (x : UnitObs) : Nat := (windowFrames x.upN ++ windowFrames x.upS).countP fun e => hearGroups e.2 == .crc

/-- What the cycle leaves behind. "The instant after the command" is the one of the next cycle: chain length, corrections, masks, curves and
mode apply from it (DESIGN CHOICE, log entry 56). REF_DEV is the stack in mV less the sum of the inputs, which is rounded down to 1 mV
(DESIGN CHOICE, log entry 56). A reset that UNIT_RESET ordered comes last (R87). -/
def afterCycle (x : UnitObs) (m : MUnit) : MUnit :=
  let fly := flywheel m
  let sum := (List.range 16).foldl (fun a n => a + if m.inMask.getLsbD n then max 0 (min (x.v.getD n 0) 65535) else 0) 0
  let t := { m with
    crcRx := sat16 (m.crcRx + badUps x)
    flyCnt := if samples m && fly then sat16 (m.flyCnt + 1) else m.flyCnt
    refDev := if samples m then max (-32768) (min (x.vstk - sum / 10) 32767) else m.refDev
    clock := m.clock + tCad m.cad
    edgeN := false, edgeS := false, passN := false, passS := false
    resp := if sendsBlock m then m.resp.drop 1 else m.resp
    echo := none, obey := false, stopFrame := false, hush := false, slots := [], begun := false
    chain := m.cfgChain, corrN := m.cfgCorrN, corrS := m.cfgCorrS
    inMask := m.cfgIn, tMask := m.cfgT, sensor := m.cfgSensor, comp := m.cfgComp
    ow := m.ow.map fun t =>
      if t.first then { t with first := false, old := 0 } else if m.cad != 3 then { t with left := t.left - 1 } else t }
  if m.resetDue then unaddressed 1 t else t

/-- UNIT_SAMPLE: the instant, the up windows of its cycle, and the end of the cycle. -/
def sampleFx (p c : Nat) (x : UnitObs) (s : State) : State :=
  let m := atInstant (s.unit (slotOf p c))
  if m.st = .sleep then s
  else
    match takeWord s with
    | (free, s) =>
      let s := match m.echo with
        | some l => (match takeSeed s with | (k, s) => send (.echo p c l k (echoBytes l m.addr (m.instant % 65536))) s)
        | none => s
      let own (l : Lane) : Option Bytes :=
        if sendsBlock m then some (upBlock free m x (samples m) (flywheel m) (byDownS m) l) else none
      let s := sendUp p c .N (upPieces m .N x.upN (own .N)) s
      let s := sendUp p c .S (upPieces m .S x.upS (own .S)) s
      modUnit (slotOf p c) (fun _ => afterCycle x m) s

def execUnitSample (p : Fin 48) (c : Fin 3) (x : UnitObs) (s : State) : Host.Outcome State Fault Refusal := act (sampleFx p c x) s

end Sys2Proof.Machine
end

