-- ==== Sys2Proof/Machine/Dispatch.lean ====
section
/-! DEFINITION. One arm per command: a direct call of its meaning. -/

namespace Sys2Proof.Machine

def exec (i : Instr) (s : State) : Host.Outcome State Fault Refusal :=
  match i with
  | .identGet r => Sys2Proof.Machine.execIdentGet r s
  | .capGet r => Sys2Proof.Machine.execCapGet r s
  | .timeGet r => Sys2Proof.Machine.execTimeGet r s
  | .stateGet r => Sys2Proof.Machine.execStateGet r s
  | .stateSet r target nvOk => Sys2Proof.Machine.execStateSet r target nvOk s
  | .cfgOpen r len => Sys2Proof.Machine.execCfgOpen r len s
  | .cfgWrite r off data => Sys2Proof.Machine.execCfgWrite r off data s
  | .cfgAdmit r cut => Sys2Proof.Machine.execCfgAdmit r cut s
  | .cfgRevert r cut => Sys2Proof.Machine.execCfgRevert r cut s
  | .cfgRead r slot off len => Sys2Proof.Machine.execCfgRead r slot off len s
  | .cfgInfo r => Sys2Proof.Machine.execCfgInfo r s
  | .subBind r b => Sys2Proof.Machine.execSubBind r b s
  | .subUnbind r q => Sys2Proof.Machine.execSubUnbind r q s
  | .subList r => Sys2Proof.Machine.execSubList r s
  | .noticeSub r mask => Sys2Proof.Machine.execNoticeSub r mask s
  | .estGroups r first count => Sys2Proof.Machine.execEstGroups r first count s
  | .estString r => Sys2Proof.Machine.execEstString r s
  | .impBins r g => Sys2Proof.Machine.execImpBins r g s
  | .impModels r first count => Sys2Proof.Machine.execImpModels r first count s
  | .estSave r nvOk => Sys2Proof.Machine.execEstSave r nvOk s
  | .balLearn r => Sys2Proof.Machine.execBalLearn r s
  | .balLearnAbort r => Sys2Proof.Machine.execBalLearnAbort r s
  | .balGroups r first count => Sys2Proof.Machine.execBalGroups r first count s
  | .proConnect r => Sys2Proof.Machine.execProConnect r s
  | .proDisconnect r => Sys2Proof.Machine.execProDisconnect r s
  | .proTripReset r => Sys2Proof.Machine.execProTripReset r s
  | .proClassClear r slot => Sys2Proof.Machine.execProClassClear r slot s
  | .proStatus r => Sys2Proof.Machine.execProStatus r s
  | .ctlStart r => Sys2Proof.Machine.execCtlStart r s
  | .ctlStop r => Sys2Proof.Machine.execCtlStop r s
  | .ctlFaultClear r => Sys2Proof.Machine.execCtlFaultClear r s
  | .ctlTone r tones => Sys2Proof.Machine.execCtlTone r tones s
  | .ctlSetpoint r sp src => Sys2Proof.Machine.execCtlSetpoint r sp src s
  | .recInfo r => Sys2Proof.Machine.execRecInfo r s
  | .recRead r first count => Sys2Proof.Machine.execRecRead r first count s
  | .updOpen r len => Sys2Proof.Machine.execUpdOpen r len s
  | .updWrite r off data => Sys2Proof.Machine.execUpdWrite r off data s
  | .updActivate r => Sys2Proof.Machine.execUpdActivate r s
  | .updInfo r => Sys2Proof.Machine.execUpdInfo r s
  | .lcyGet r => Sys2Proof.Machine.execLcyGet r s
  | .lcySet r target confirm => Sys2Proof.Machine.execLcySet r target confirm s
  | .credSet r id role key => Sys2Proof.Machine.execCredSet r id role key s
  | .credDel r id => Sys2Proof.Machine.execCredDel r id s
  | .paiStatus r => Sys2Proof.Machine.execPaiStatus r s
  | .paiHandover r => Sys2Proof.Machine.execPaiHandover r s
  | .regRead r addr count => Sys2Proof.Machine.execRegRead r addr count s
  | .regWrite r addr value => Sys2Proof.Machine.execRegWrite r addr value s
  | .enumPort r low high => Sys2Proof.Machine.execEnumPort r low high s
  | .unitDiag r unit page => Sys2Proof.Machine.execUnitDiag r unit page s
  | .atbSet r bus node => Sys2Proof.Machine.execAtbSet r bus node s
  | .hello h => Sys2Proof.Machine.execHello h s
  | .confirm ctx gen x => Sys2Proof.Machine.execConfirm ctx gen x s
  | .hostClose h body => Sys2Proof.Machine.execHostClose h body s
  | .streamAck h body => Sys2Proof.Machine.execStreamAck h body s
  | .hsTimeout ctx => Sys2Proof.Machine.execHsTimeout ctx s
  | .sesIdleTimeout ctx => Sys2Proof.Machine.execSesIdleTimeout ctx s
  | .sesLifetimeExpiry ctx => Sys2Proof.Machine.execSesLifetimeExpiry ctx s
  | .sesClose r w => Sys2Proof.Machine.execSesClose r w s
  | .streamRecordSend q bad timeout => Sys2Proof.Machine.execStreamRecordSend q bad timeout s
  | .queTailTmo q => Sys2Proof.Machine.execQueTailTmo q s
  | .sopLimits => Sys2Proof.Machine.execSopLimits s
  | .ethernetFrameReceived l f => Sys2Proof.Machine.execEthernetFrameReceived l f s
  | .prpSupervision => Sys2Proof.Machine.execPrpSupervision s
  | .nodeForgetTime mac => Sys2Proof.Machine.execNodeForgetTime mac s
  | .icmpEchoRequest v6 bytes => Sys2Proof.Machine.execIcmpEchoRequest v6 bytes s
  | .arpRequest ip => Sys2Proof.Machine.execArpRequest ip s
  | .neighbourSolicitation ip => Sys2Proof.Machine.execNeighbourSolicitation ip s
  | .dhcpv4Reply addr mask gw => Sys2Proof.Machine.execDhcpv4Reply addr mask gw s
  | .linkStateChange l up => Sys2Proof.Machine.execLinkStateChange l up s
  | .tc10SleepRequest l => Sys2Proof.Machine.execTc10SleepRequest l s
  | .tc10Wake l => Sys2Proof.Machine.execTc10Wake l s
  | .feedLost f mv => Sys2Proof.Machine.execFeedLost f mv s
  | .feedBack f mv => Sys2Proof.Machine.execFeedBack f mv s
  | .supplyLost mv => Sys2Proof.Machine.execSupplyLost mv s
  | .holdupLoadShed => Sys2Proof.Machine.execHoldupLoadShed s
  | .holdupEnd => Sys2Proof.Machine.execHoldupEnd s
  | .powerUp f testModeLow => Sys2Proof.Machine.execPowerUp f testModeLow s
  | .sync l x => Sys2Proof.Machine.execSync l x s
  | .announce l m better => Sys2Proof.Machine.execAnnounce l m better s
  | .announceReceiptTimeout l => Sys2Proof.Machine.execAnnounceReceiptTimeout l s
  | .ptpValidTimeout x => Sys2Proof.Machine.execPtpValidTimeout x s
  | .pdelayReqTimer => Sys2Proof.Machine.execPdelayReqTimer s
  | .pdelayReq l => Sys2Proof.Machine.execPdelayReq l s
  | .pdelayResp l delay => Sys2Proof.Machine.execPdelayResp l delay s
  | .linkCycle obs => Sys2Proof.Machine.execLinkCycle obs s
  | .upBlockReceived p lane rx => Sys2Proof.Machine.execUpBlockReceived p lane rx s
  | .echoReceived p lane rx tTx tRx => Sys2Proof.Machine.execEchoReceived p lane rx tTx tRx s
  | .cmdTimeout p c => Sys2Proof.Machine.execCmdTimeout p c s
  | .ringBroken p => Sys2Proof.Machine.execRingBroken p s
  | .ringRestored p => Sys2Proof.Machine.execRingRestored p s
  | .laneDown p lane => Sys2Proof.Machine.execLaneDown p lane s
  | .unitStale p c => Sys2Proof.Machine.execUnitStale p c s
  | .frameStarvation => Sys2Proof.Machine.execFrameStarvation s
  | .frameClose v => Sys2Proof.Machine.execFrameClose v s
  | .currentResult x => Sys2Proof.Machine.execCurrentResult x s
  | .zeroDone => Sys2Proof.Machine.execZeroDone s
  | .lowcadEnter => Sys2Proof.Machine.execLowcadEnter s
  | .lowcadExit => Sys2Proof.Machine.execLowcadExit s
  | .insCycleEnd x => Sys2Proof.Machine.execInsCycleEnd x s
  | .insPoleSample x => Sys2Proof.Machine.execInsPoleSample x s
  | .insForeignClear => Sys2Proof.Machine.execInsForeignClear s
  | .estimatorTick => Sys2Proof.Machine.execEstimatorTick s
  | .learnedDataSave whole nvOk => Sys2Proof.Machine.execLearnedDataSave whole nvOk s
  | .impFrame => Sys2Proof.Machine.execImpFrame s
  | .stepHoldEnd => Sys2Proof.Machine.execStepHoldEnd s
  | .windowClose => Sys2Proof.Machine.execWindowClose s
  | .windowDone => Sys2Proof.Machine.execWindowDone s
  | .planningRound => Sys2Proof.Machine.execPlanningRound s
  | .bleedDurationExpiry p c => Sys2Proof.Machine.execBleedDurationExpiry p c s
  | .owPeriodStart c => Sys2Proof.Machine.execOwPeriodStart c s
  | .persistenceExpiry code idx => Sys2Proof.Machine.execPersistenceExpiry code idx s
  | .refCheck ppm => Sys2Proof.Machine.execRefCheck ppm s
  | .hwOc x => Sys2Proof.Machine.execHwOc x s
  | .comparatorBelowLevel x => Sys2Proof.Machine.execComparatorBelowLevel x s
  | .breakWaitExpiry => Sys2Proof.Machine.execBreakWaitExpiry s
  | .kfInputChange levels => Sys2Proof.Machine.execKfInputChange levels s
  | .kfWindowExpiry k => Sys2Proof.Machine.execKfWindowExpiry k s
  | .readbackMismatch k x => Sys2Proof.Machine.execReadbackMismatch k x s
  | .weldTestTimer => Sys2Proof.Machine.execWeldTestTimer s
  | .prechgTmaxExpiry => Sys2Proof.Machine.execPrechgTmaxExpiry s
  | .k3OverlapExpiry => Sys2Proof.Machine.execK3OverlapExpiry s
  | .prechgCoolExpiry => Sys2Proof.Machine.execPrechgCoolExpiry s
  | .discRampMaxExpiry => Sys2Proof.Machine.execDiscRampMaxExpiry s
  | .proSupplyFault => Sys2Proof.Machine.execProSupplyFault s
  | .proRestart => Sys2Proof.Machine.execProRestart s
  | .loopUpdate x => Sys2Proof.Machine.execLoopUpdate x s
  | .gdFault => Sys2Proof.Machine.execGdFault s
  | .ciMismatchCheck => Sys2Proof.Machine.execCiMismatchCheck s
  | .chanterEdge rising ps => Sys2Proof.Machine.execChanterEdge rising ps s
  | .chanterLost => Sys2Proof.Machine.execChanterLost s
  | .hostSpStale => Sys2Proof.Machine.execHostSpStale s
  | .sopStale => Sys2Proof.Machine.execSopStale s
  | .stopTmaxExpiry => Sys2Proof.Machine.execStopTmaxExpiry s
  | .toneSetStart => Sys2Proof.Machine.execToneSetStart s
  | .spcReset cause => Sys2Proof.Machine.execSpcReset cause s
  | .spcRestartDone => Sys2Proof.Machine.execSpcRestartDone s
  | .activationPauseEnd => Sys2Proof.Machine.execActivationPauseEnd s
  | .wipeDone verified => Sys2Proof.Machine.execWipeDone verified s
  | .peerHello h => Sys2Proof.Machine.execPeerHello h s
  | .peerStatus f rx => Sys2Proof.Machine.execPeerStatus f rx s
  | .peerFwd unit body late => Sys2Proof.Machine.execPeerFwd unit body late s
  | .peerCopy epoch offset len data => Sys2Proof.Machine.execPeerCopy epoch offset len data s
  | .peerCopyEnd epoch len crc => Sys2Proof.Machine.execPeerCopyEnd epoch len crc s
  | .peerTrip code instant => Sys2Proof.Machine.execPeerTrip code instant s
  | .peerDown => Sys2Proof.Machine.execPeerDown s
  | .selectGained => Sys2Proof.Machine.execSelectGained s
  | .selectLost => Sys2Proof.Machine.execSelectLost s
  | .handoverTimeout => Sys2Proof.Machine.execHandoverTimeout s
  | .arbiterNotFit x => Sys2Proof.Machine.execArbiterNotFit x s
  | .recEvent => Sys2Proof.Machine.execRecEvent s
  | .flushStart => Sys2Proof.Machine.execFlushStart s
  | .flushRecordWritten verified => Sys2Proof.Machine.execFlushRecordWritten verified s
  | .snapshot => Sys2Proof.Machine.execSnapshot s
  | .timeMark => Sys2Proof.Machine.execTimeMark s
  | .optimeTick => Sys2Proof.Machine.execOptimeTick s
  | .housekeepingRound temps => Sys2Proof.Machine.execHousekeepingRound temps s
  | .dramScrub bad => Sys2Proof.Machine.execDramScrub bad s
  | .eccError mem ue idx => Sys2Proof.Machine.execEccError mem ue idx s
  | .crossingValueDelivered x => Sys2Proof.Machine.execCrossingValueDelivered x s
  | .crossingPulseDelivered x => Sys2Proof.Machine.execCrossingPulseDelivered x s
  | .crossingResetIndication isl => Sys2Proof.Machine.execCrossingResetIndication isl s
  | .rehandshakeDone isl => Sys2Proof.Machine.execRehandshakeDone isl s
  | .islandWake isl ns => Sys2Proof.Machine.execIslandWake isl ns s
  | .islandClockStop isl => Sys2Proof.Machine.execIslandClockStop isl s
  | .eventFlagClear r blk mask sets => Sys2Proof.Machine.execEventFlagClear r blk mask sets s
  | .eventReadLatch r blk => Sys2Proof.Machine.execEventReadLatch r blk s
  | .groupRecordLatch r g => Sys2Proof.Machine.execGroupRecordLatch r g s
  | .modelRecordLatch r g => Sys2Proof.Machine.execModelRecordLatch r g s
  | .smpInstLoRead r => Sys2Proof.Machine.execSmpInstLoRead r s
  | .recLoRead r which => Sys2Proof.Machine.execRecLoRead r which s
  | .prtCntClr r p w => Sys2Proof.Machine.execPrtCntClr r p w s
  | .forceNOff r p w => Sys2Proof.Machine.execForceNOff r p w s
  | .forceSOff r p w => Sys2Proof.Machine.execForceSOff r p w s
  | .zeroReq r w => Sys2Proof.Machine.execZeroReq r w s
  | .lowcadHold r w => Sys2Proof.Machine.execLowcadHold r w s
  | .insModeWrite r w => Sys2Proof.Machine.execInsModeWrite r w s
  | .saveReq r w => Sys2Proof.Machine.execSaveReq r w s
  | .learnFreeze r w => Sys2Proof.Machine.execLearnFreeze r w s
  | .estRetainWrite r hi w => Sys2Proof.Machine.execEstRetainWrite r hi w s
  | .winRestart r w => Sys2Proof.Machine.execWinRestart r w s
  | .stepInhibit r w => Sys2Proof.Machine.execStepInhibit r w s
  | .impGselWrite r w => Sys2Proof.Machine.execImpGselWrite r w s
  | .balModeWrite r w => Sys2Proof.Machine.execBalModeWrite r w s
  | .balEn r w => Sys2Proof.Machine.execBalEn r w s
  | .owNow r w => Sys2Proof.Machine.execOwNow r w s
  | .owPause r w => Sys2Proof.Machine.execOwPause r w s
  | .bellTest r w => Sys2Proof.Machine.execBellTest r w s
  | .bankReq r w => Sys2Proof.Machine.execBankReq r w s
  | .srcWrite r w => Sys2Proof.Machine.execSrcWrite r w s
  | .ctlSpHostWrite r w => Sys2Proof.Machine.execCtlSpHostWrite r w s
  | .aoHostWrite r w => Sys2Proof.Machine.execAoHostWrite r w s
  | .uplCntClr r w => Sys2Proof.Machine.execUplCntClr r w s
  | .linkAOff r w => Sys2Proof.Machine.execLinkAOff r w s
  | .linkBOff r w => Sys2Proof.Machine.execLinkBOff r w s
  | .sesCntClr r w => Sys2Proof.Machine.execSesCntClr r w s
  | .queCntClr r w => Sys2Proof.Machine.execQueCntClr r w s
  | .queueFlush r q w => Sys2Proof.Machine.execQueueFlush r q w s
  | .holdOff r w => Sys2Proof.Machine.execHoldOff r w s
  | .paiCntClr r w => Sys2Proof.Machine.execPaiCntClr r w s
  | .debugEn r w => Sys2Proof.Machine.execDebugEn r w s
  | .xngCntClr r w => Sys2Proof.Machine.execXngCntClr r w s
  | .evcntClr r w => Sys2Proof.Machine.execEvcntClr r w s
  | .flushReq r w => Sys2Proof.Machine.execFlushReq r w s
  | .recCntClr r w => Sys2Proof.Machine.execRecCntClr r w s
  | .hkpCntClr r w => Sys2Proof.Machine.execHkpCntClr r w s
  | .downFrame p c x => Sys2Proof.Machine.execDownFrame p c x s
  | .unitSample p c x => Sys2Proof.Machine.execUnitSample p c x s
  | .bulkFrame p c lane lead frame tail => Sys2Proof.Machine.execBulkFrame p c lane lead frame tail s
  | .addrAssign p c isl => Sys2Proof.Machine.execAddrAssign p c isl s
  | .identRead p c isl => Sys2Proof.Machine.execIdentRead p c isl s
  | .corrSet p c isl => Sys2Proof.Machine.execCorrSet p c isl s
  | .delayProbe p c isl => Sys2Proof.Machine.execDelayProbe p c isl s
  | .chainSet p c isl => Sys2Proof.Machine.execChainSet p c isl s
  | .unitReset p c isl => Sys2Proof.Machine.execUnitReset p c isl s
  | .packIdSet p c isl => Sys2Proof.Machine.execPackIdSet p c isl s
  | .loadBegin p c isl => Sys2Proof.Machine.execLoadBegin p c isl s
  | .loadCheck p c isl => Sys2Proof.Machine.execLoadCheck p c isl s
  | .loadStart p c isl => Sys2Proof.Machine.execLoadStart p c isl s
  | .inputCfg p c isl => Sys2Proof.Machine.execInputCfg p c isl s
  | .tsensCfg p c isl => Sys2Proof.Machine.execTsensCfg p c isl s
  | .bleedMode p c isl => Sys2Proof.Machine.execBleedMode p c isl s
  | .bleedSet p c isl => Sys2Proof.Machine.execBleedSet p c isl s
  | .bleedStop p c isl => Sys2Proof.Machine.execBleedStop p c isl s
  | .owTest p c isl => Sys2Proof.Machine.execOwTest p c isl s
  | .owStop p c isl => Sys2Proof.Machine.execOwStop p c isl s
  | .diagRead p c isl => Sys2Proof.Machine.execDiagRead p c isl s
  | .bleedTimerExpiry p c n => Sys2Proof.Machine.execBleedTimerExpiry p c n s
  | .owSourceOff p c => Sys2Proof.Machine.execOwSourceOff p c s
  | .unitBleedTimeout p c => Sys2Proof.Machine.execUnitBleedTimeout p c s
  | .unitDroneTimeout p c => Sys2Proof.Machine.execUnitDroneTimeout p c s
  | .unitSleepTimeout p c => Sys2Proof.Machine.execUnitSleepTimeout p c s
  | .unitWatchdog p c => Sys2Proof.Machine.execUnitWatchdog p c s
  | .unitWake p c => Sys2Proof.Machine.execUnitWake p c s
  | .unitHot p c dieTemp => Sys2Proof.Machine.execUnitHot p c dieTemp s
  | .unitPowerUp p c => Sys2Proof.Machine.execUnitPowerUp p c s
  | .phOc rail => Sys2Proof.Machine.execPhOc rail s
  | .phaseValley k => Sys2Proof.Machine.execPhaseValley k s
  | .chanterBack => Sys2Proof.Machine.execChanterBack s
  | .peerCycle => Sys2Proof.Machine.execPeerCycle s
  | .arbiterFit x => Sys2Proof.Machine.execArbiterFit x s
  | .pairGeSettle => Sys2Proof.Machine.execPairGeSettle s
  | .unitImageStart p c => Sys2Proof.Machine.execUnitImageStart p c s
  | .unknownOpcode r opcode => Sys2Proof.Machine.execUnknownOpcode r opcode s
  | .networkFault => Sys2Proof.Machine.execNetworkFault s

end Sys2Proof.Machine
end

