-- ==== Sys2Proof/Safety.lean ====
section
/-! DEFINITION. What a safe state of the module is (R236, R271), and the terms in which statements speak of a step: the state less what
reporting moves, the flags that a command sets, a request that reaches its judgement. -/

namespace Sys2Proof

open Sys2Proof.Machine

/-- Every contactor channel is released (R238, R239). -/
def released (s : State) : Bool := s.pro.kA == 0 && s.pro.kB == 0

/-- The control engine neither drives a pin nor enables the gates (R292). -/
def stageOff (s : State) : Bool := !s.ctl.enable && s.ctl.pwm0.isNone && s.ctl.pwm1.isNone

/-- The safe state of R271. -/
def safe (s : State) : Bool := released s && stageOff s

/-- A run of `k` steps neither faults nor is refused. -/
def runs (k : Nat) (s : State) : Bool :=
  match Sys2Proof.core.run k s with
  | .next _ => true
  | _ => false

/-! ### Frames -/

/-- The state less what reporting moves: the messages and frames sent, the event blocks, the events on their way to the recorder, the loss counts of
the crossings, the sequence numbers of what sessions and uplinks send, the conditions last reported. A statement that gives `still` of a next
state gives every other field of it. -/
def still (s : State) : State :=
  { s with
    out := []
    tx := []
    ev := []
    pwr := { s.pwr with conds := 0 }
    upl := { s.upl with rctSeq := 0 }
    recd := { s.recd with inq := [] }
    xng := { s.xng with xrec := s.xng.xrec.map fun r => { r with loss := 0, refused := 0, refusedOnce := false } }
    ses := { s.ses with ctx := s.ses.ctx.map fun x => { x with nseq := 0, txSeq := 0 } } }

/-- `still`, less what a request leaves: the time of its receipt and its stored answer in its own session, its place among those that wait
(R326, R338, R339). -/
def stillFor (c : Byte) (s : State) : State :=
  let t := still s
  modSess c.toNat (fun x => { x with lastRx := 0, store := [] }) { t with ses := { t.ses with waiting := [] } }

/-- Outside XNG, whose flags report lost records, the event blocks are those of `s` with the flags of the list set and counted, in
order. -/
def flagged (l : List (Nat × Nat)) (s t : State) : Prop :=
  ∀ k, k ≠ 0x13 → t.event k = (l.foldl (fun u f => setFlag f.1 f.2 u) s).event k

/-- The conditions in force are those last reported (R358): no command begins with a change still to be reported. -/
abbrev settled (s : State) : Prop := conditions s = s.pwr.conds

/-- The non-volatile data, the configurations in force and PENDING are the same. -/
def sameStores (s t : State) : Prop :=
  t.fac = s.fac ∧ t.nv = s.nv ∧ t.recNv = s.recNv ∧ t.cfg = s.cfg ∧ t.net = s.net ∧ t.cfgPro = s.cfgPro ∧ t.cfgEst = s.cfgEst ∧
    t.cfgImp = s.cfgImp ∧ t.cfgCtl = s.cfgCtl ∧ t.cfgSmp = s.cfgSmp ∧ t.image = s.image

/-- Ports, units, timebase and channels, insulation monitor, estimator, impedance engine and balancing are the same. -/
def sameMeasuring (s t : State) : Prop :=
  t.prt = s.prt ∧ t.units = s.units ∧ t.smp = s.smp ∧ t.ins = s.ins ∧ t.est = s.est ∧ t.imp = s.imp ∧ t.bal = s.bal

/-- An OPEN action (Table 8.2, R241 to R243) of a function not latched before: it latches, the first one is the trip that is reported, the
engine stops, an armed PRO's limits are 0; with no limit of R254 in the way (`free`) every channel is released, unless an earlier opening
waits. -/
def tripsWith (code : Nat) (free : Bool) (s t : State) : Prop :=
  t.pro.latched = s.pro.latched ||| (1#29 <<< code) ∧ tripped t = true ∧
    (tripped s = false → t.pro.firstCode = code ∧ t.pro.tripCnt = satAdd s.pro.tripCnt 1) ∧ engineRuns t = false ∧
    (s.pro.armed = true → t.pro.iCh = 0 ∧ t.pro.iDis = 0) ∧ (free = true → s.pro.conn < 7 → released t = true) ∧
    t.cfg = s.cfg ∧ t.fac = s.fac

/-! ### Requests -/

/-- The request's session is open on a running supervisor, its TAG is new, its zero fields are zero, its role suffices, no wipe holds
the command back, and its turn has come (R324, R336 to R340, R388): what is left to judge is the command's own. -/
abbrev heard (r : Req) (op least : Nat) (s : State) : Prop :=
  spcUp s = true ∧ (s.sess r.ctx.toNat).opened = true ∧
    (s.sess r.ctx.toNat).store.find? (fun e => e.tag == r.tag) = none ∧ r.zeros = true ∧
    least ≤ (s.sess r.ctx.toNat).role ∧ (s.nv.wipePending = true → duringWipe.contains op = true) ∧
    nextUp r s = true ∧ unanswered r s = none

/-- The command answers `body` with status OK, does `f`, sets no flag, sends nothing else and leaves the rest of the machine as it was. -/
def answersDoing (c : Instr) (r : Req) (op : Nat) (body : Bytes) (f : State → State) (s : State) : Prop :=
  ∃ t, exec c s = .next t ∧ stillFor r.ctx t = stillFor r.ctx (f s) ∧ t.ev = s.ev ∧ t.out = [.response r.ctx r.tag op stOk body]

/-- The command only answers. -/
def answersOnly (c : Instr) (r : Req) (op : Nat) (body : Bytes) (s : State) : Prop := answersDoing c r op body id s

/-- The command starts as a deferred one: RESPONSE OK with LEN = 0, and its COMPLETION is awaited (R337). -/
def defers (c : Instr) (r : Req) (op : Nat) (f : State → State) (s : State) : Prop :=
  ∃ t, exec c s = .next t ∧ (Out.response r.ctx r.tag op stOk []) ∈ t.out ∧ stillFor r.ctx t = stillFor r.ctx (f s)

/-- A register read, and a register write by an ENGINEER, that reach their register's own rules on a module that is awake. -/
abbrev mayRead (r : Req) (s : State) : Prop := settled s ∧ heard r 0x0D01 0 s ∧ stateOk awake s = true
abbrev mayWrite (r : Req) (s : State) : Prop := settled s ∧ heard r 0x0D02 2 s ∧ stateOk awake s = true

/-- The read answers its address and the word `w`, and does `f`. -/
def reads (c : Instr) (r : Req) (addr : Nat) (w : Word) (f : State → State) (s : State) : Prop :=
  answersDoing c r 0x0D01 (le 4 addr ++ leW w) f s

/-- The write is answered OK and does `f`. -/
def writes (c : Instr) (r : Req) (f : State → State) (s : State) : Prop := answersDoing c r 0x0D02 [] f s

/-- A command that is no request: it does `f`, sets the flags of the list, sends `o` and leaves the rest as it was. -/
def effect (c : Instr) (f : State → State) (l : List (Nat × Nat)) (o : List Out) (s : State) : Prop :=
  ∃ t, exec c s = .next t ∧ still t = still (f s) ∧ flagged l s t ∧ t.out = o

end Sys2Proof
end

