-- ==== Sys2Proof/Certificates/Slice0/Obligations.lean ====
section
/-! DEFINITION. The statements for the provers, by family of commands. -/

open Sys2Proof Sys2Proof.Machine

/-- For every state whose queue is c followed by rest, step answers what exec answers for c on the state with the queue rest; on
an empty queue the block idles and the state stays (the model's choice, log entry 3). (95_what_each_step_holds.md,
01_architecture.md) -/
def Obligations.StepRunsTheFrontCommand : Prop :=
  (∀ c rest s, s.pending = c :: rest → step s = exec c { s with pending := rest }) ∧ ∀ s, s.pending = [] → step s = .next s

/-- For every state, if the conditions last reported are those in force (TRIPPED, THROTTLED, LOW_CADENCE, DEFAULTS_LOCKED) and
step answers a next state, then they are in force as reported in the next state too. No step leaves a change of a condition
unreported, whatever the command. (R358, 12_states_startup.md) -/
def Obligations.ReportedConditionsStayCurrent : Prop :=
  ∀ s t, settled s → step s = .next t → settled t

/-- For every state, if step answers a next state, that state has the factory data of the first (variant, serial number, MAC
address, hardware revision, calibration, keys) and its queue is the rest of the first queue: resets, wipes, activations and boots
included. That commands wait in a queue is the model's form (log entry 3). (13_configuration_update.md, R387) -/
def Obligations.QueueAndFactoryDataOutlastEveryStep : Prop :=
  ∀ s t, step s = .next t → t.fac = s.fac ∧ t.pending = s.pending.tail

/-- State.reset has the conditions in force reported, every contactor channel released, the converter stage off, an empty queue
and 68 event blocks without a flag. (R271, R358, 12_states_startup.md) -/
def Obligations.ResetIsSettledAndSafe : Prop :=
  settled State.reset ∧ safe State.reset = true ∧ State.reset.pending = [] ∧ State.reset.ev.length = 68 ∧
    ∀ e, (State.reset.event e).flags = 0 ∧ (State.reset.event e).cnt = 0

/-- For every shared judgement j and body run, every request whose session is open on a running supervisor, whose turn it is and
whose TAG is neither stored nor that of an answer to come: the answer is FORMAT when the form is wrong or a zero field is not
zero, else AUTH_FAIL when the role is below the least, else UNIT_ABSENT, LOCKED, STATE_FORBIDDEN, RANGE, BUSY (also while a wipe
holds it back, R388), REFUSED_DEADLINE with its report, in that order; with none of these the command runs. The sent status is the
last message of the next output. (R340) -/
def Obligations.RequestStatusFollowsTheOrderOfJudgement : Prop :=
  ∀ (r : Req) (op least : Nat) (j : State → Judge) (run : State → State) (s u : State) (v : Judge),
    spcUp s = true → (s.sess r.ctx.toNat).opened = true →
    (s.sess r.ctx.toNat).store.find? (fun e => e.tag == r.tag) = none → nextUp r s = true → unanswered r s = none → u = touch r s → v = j u →
    let held := s.nv.wipePending && (running 0x0B02 s).isNone && !duringWipe.contains op
    let low := decide ((s.sess r.ctx.toNat).role < least)
    let answers (st : Nat) (b : Bytes) : Prop :=
      (request r op least j run s).out = s.out ++ [.response r.ctx r.tag op st b]
    ((v.format || !r.zeros) = true → answers 0x06 []) ∧
    (v.format = false → r.zeros = true → low = true → answers 0x05 []) ∧
    (v.format = false → r.zeros = true → low = false → v.absent = true → answers 0x03 []) ∧
    (v.format = false → r.zeros = true → low = false → v.absent = false → v.locked = true → answers 0x08 []) ∧
    (v.format = false → r.zeros = true → low = false → v.absent = false → v.locked = false → v.forbidden = true → answers 0x04 []) ∧
    (v.format = false → r.zeros = true → low = false → v.absent = false → v.locked = false → v.forbidden = false → v.range = true →
      answers 0x07 []) ∧
    (v.format = false → r.zeros = true → low = false → v.absent = false → v.locked = false → v.forbidden = false → v.range = false →
      (v.busy || held) = true → answers 0x01 []) ∧
    (v.format = false → r.zeros = true → low = false → v.absent = false → v.locked = false → v.forbidden = false → v.range = false →
      v.busy = false → held = false → (∀ b, v.refused = some b → answers 0x02 b) ∧ (v.refused = none → request r op least j run s = run u))

/-- For every judgement and body, a request of an open session whose turn it is and whose TAG matches a stored entry is not
executed: with the entry's opcode the module sends the stored status and payload, with another opcode it answers FORMAT. One whose
TAG is that of a CTL_START or UNIT_DIAG still to be answered is not executed either: with the same opcode nothing is sent, with
another FORMAT. Nothing else of the state moves but the session's time of receipt, its place among those that wait and its send
sequence. An answer given by respond is stored in front of at most 15 older ones, unless its status is BUSY; the store goes with
the session when its context is freed. (R339) -/
def Obligations.RepeatedRequestSendsTheStoredResponse : Prop :=
  (∀ (r : Req) (op least : Nat) (j : State → Judge) (run : State → State) (s : State) (e : Stored),
    spcUp s = true → (s.sess r.ctx.toNat).opened = true →
    (s.sess r.ctx.toNat).store.find? (fun e => e.tag == r.tag) = some e → nextUp r s = true →
    ∃ t, request r op least j run s = t ∧ stillFor r.ctx t = stillFor r.ctx s ∧ (t.sess r.ctx.toNat).store = (s.sess r.ctx.toNat).store ∧
      t.ev = s.ev ∧
      (e.op = op → t.out = s.out ++ [.response r.ctx r.tag op e.status e.body]) ∧
      (e.op ≠ op → t.out = s.out ++ [.response r.ctx r.tag op 0x06 []])) ∧
  (∀ (r : Req) (op least k : Nat) (j : State → Judge) (run : State → State) (s : State),
    spcUp s = true → (s.sess r.ctx.toNat).opened = true → nextUp r s = true →
    (s.sess r.ctx.toNat).store.find? (fun e => e.tag == r.tag) = none → unanswered r s = some k →
    ∃ t, request r op least j run s = t ∧ stillFor r.ctx t = stillFor r.ctx s ∧ t.ev = s.ev ∧
      t.out = if k = op then s.out else s.out ++ [.response r.ctx r.tag op 0x06 []]) ∧
  (∀ (r : Req) (op st : Nat) (b : Bytes) (s : State), r.ctx.toNat < s.ses.ctx.length →
    ((respond r op st b s).sess r.ctx.toNat).store =
      if st = 0x01 then (s.sess r.ctx.toNat).store
      else ({ tag := r.tag, op := op, status := st, body := b } :: (s.sess r.ctx.toNat).store).take 16) ∧
  ∀ (c : Nat) (s : State), ((freeContext c s).sess c).store = []

/-- For every settled state and heard request: each of the six answers OK. IDENT_GET carries SERIAL, the MAC address octet 1
first, the variant and the life-cycle state in its first 16 bytes; CAP_GET the blocks, the ports and the number of groups in its
first 12; TIME_GET module time, timebase state and phase error; STATE_GET power state, conditions, transition target (0xFF: none)
and LAST_STATUS; SUB_LIST eight bytes for each queue bound to the session; LCY_GET state, last status and number of credentials.
No flag is set, nothing else is sent, and of the machine only the session's receipt and store move. (R343, R345, 11_mailbox.md) -/
def Obligations.IdentityAndStateReadsAnswer : Prop :=
  ∀ (r : Req) (s : State), settled s →
    (heard r 0x0101 0 s → ∃ b, answersOnly (.identGet r) r 0x0101 b s ∧
      b.take 16 = le 8 s.fac.serial ++ (le 6 s.fac.mac).reverse ++ le 1 s.fac.variant ++ le 1 s.nv.lcy) ∧
    (heard r 0x0102 0 s → ∃ b, answersOnly (.capGet r) r 0x0102 b s ∧
      b.take 12 = le 4 (blockMask s) ++ le 6 (2 ^ nPorts s - 1) ++ le 2 (16 * nPorts s)) ∧
    (heard r 0x0103 0 s → answersOnly (.timeGet r) r 0x0103
      (le 8 s.smp.timeNs ++ le 1 s.smp.tb ++ [0, 0, 0] ++ leW (s32 s.smp.phaseErr)) s) ∧
    (heard r 0x0201 0 s → answersOnly (.stateGet r) r 0x0201
      (le 1 s.pwr.state ++ le 1 (conditions s).toNat ++ le 1 (s.pwr.target.getD 0xFF) ++ le 1 s.pwr.lastStatus) s) ∧
    (heard r 0x0403 0 s → stateOk [1, 2, 3, 4] s = true → answersOnly (.subList r) r 0x0403
      ((List.range 64).flatMap fun i =>
        if (s.queue i).bound && (s.queue i).ctx == r.ctx then
          le 1 i ++ le 1 (s.queue i).itype ++ le 2 (s.queue i).first ++ le 2 (s.queue i).count ++ le 2 (s.queue i).decim
        else []) s) ∧
    (heard r 0x0B01 0 s → stateOk [1, 2, 3, 4] s = true → answersOnly (.lcyGet r) r 0x0B01
      (le 1 s.nv.lcy ++ le 1 s.nv.lcyLast ++ le 2 s.nv.creds.length) s)

/-- For every settled state and heard request, in a power state the table admits and (UPD_INFO, CFG_INFO) a life-cycle state that
does not lock it: EST_STRING answers EST_STATUS first, PRO_STATUS the status and the 15 value registers of PRO, PAI_STATUS (where
the pair unit is fitted) the status and the 12 value registers of PAI, REC_INFO the recorder's indexes and counters, CFG_INFO the
versions of ACTIVE and PREVIOUS first, UPD_INFO the staged bytes. No flag is set and nothing else of the machine moves. (R343,
R429, R461, R397, 11_mailbox.md) -/
def Obligations.StatusReadsAnswer : Prop :=
  ∀ (r : Req) (s : State), settled s →
    (heard r 0x0502 0 s → stateOk [2, 3, 4] s = true → ∃ b, answersOnly (.estString r) r 0x0502 b s ∧ b.take 4 = leW (estStatus s)) ∧
    (heard r 0x0705 0 s → stateOk [1, 2, 3, 4] s = true → answersOnly (.proStatus r) r 0x0705
      (leW (proStatus s) ++ (List.range 15).flatMap fun i => leW (proValue s (0x20 + 4 * i))) s) ∧
    (heard r 0x0C01 0 s → hasPai s = true → stateOk [1, 2, 3, 4] s = true → answersOnly (.paiStatus r) r 0x0C01
      (leW (paiStatus s) ++ ((List.range 12).flatMap fun k => leW (paiValue s (0x20 + 4 * k)))) s) ∧
    (heard r 0x0901 0 s → stateOk [1, 2, 3, 4] s = true → answersOnly (.recInfo r) r 0x0901
      (le 8 s.recNv.oldest ++ le 8 s.recNv.next ++ le 8 s.recNv.exportMark ++ le 2 s.recd.ring.length ++ [0, 0] ++
        leW s.recd.lostCnt ++ leW s.recd.unreadOvw ++ leW s.recd.snapLost ++ le 4 s.recNv.pcyc ++ le 4 s.recd.optime) s) ∧
    (heard r 0x0306 0 s → cfgLocked s = false → stateOk [1, 2, 3, 4] s = true → ∃ b, answersOnly (.cfgInfo r) r 0x0306 b s ∧
      b.take 8 = le 4 (slotVersion s.nv.active) ++ le 4 (slotVersion s.nv.previous)) ∧
    (heard r 0x0A04 0 s → updLocked s = false → stateOk [1, 2, 3, 4] s = true → answersOnly (.updInfo r) r 0x0A04 (updBytes s) s)

/-- For every settled state and heard request whose range Table 11.3 admits (1 to 21, 80 or 256 groups of the variant that units
hold; a group that one holds; 1 to 1,392 bytes of a slot that holds an image): the answer is OK with FIRST and COUNT, the tick or
window, and the record words of the groups named (EST_GROUPS 16 words a group, zeros for one that the map in force does not place,
IMP_MODELS the model words, BAL_GROUPS one word), the bins of the group (IMP_BINS), or the offset and the slot's bytes from it
(CFG_READ). The group and bin latches do not move, nor anything else. (R343, R344, 11_mailbox.md) -/
def Obligations.RangedReadsAnswerTheNamedPart : Prop :=
  ∀ (r : Req) (first count : Half) (s : State), settled s →
    let held (g n : Nat) : Prop := ∀ i, i < n → groupHeld s (g + i) = true
    (heard r 0x0501 0 s → stateOk [2, 3, 4] s = true → 1 ≤ count.toNat → count.toNat ≤ 21 →
      first.toNat + count.toNat ≤ 16 * nPorts s → held first.toNat count.toNat → answersOnly (.estGroups r first count) r 0x0501
        (le 2 first.toNat ++ le 2 count.toNat ++ leW s.est.tick ++
          (List.range count.toNat).flatMap fun i =>
            (if (s.cfgEst.group (first.toNat + i)).slot.isSome then (s.ectx (first.toNat + i)).words
              else List.replicate 16 0).flatMap leW) s) ∧
    (heard r 0x0503 0 s → hasImp s = true → stateOk [2, 3, 4] s = true → first.toNat < 16 * nPorts s → held first.toNat 1 →
      answersOnly (.impBins r first) r 0x0503 (impWindowBytes s first.toNat) s) ∧
    (heard r 0x0504 0 s → hasImp s = true → stateOk [2, 3, 4] s = true → 1 ≤ count.toNat → count.toNat ≤ 80 →
      first.toNat + count.toNat ≤ 16 * nPorts s → held first.toNat count.toNat → answersOnly (.impModels r first count) r 0x0504
        (le 2 first.toNat ++ le 2 count.toNat ++ leW s.imp.doneWin ++
          (List.range count.toNat).flatMap fun i => ((s.imp.groups.getD (first.toNat + i) {}).model).flatMap leW) s) ∧
    (heard r 0x0603 0 s → stateOk [2, 3, 4] s = true → 1 ≤ count.toNat → count.toNat ≤ 256 →
      first.toNat + count.toNat ≤ 16 * nPorts s → held first.toNat count.toNat → answersOnly (.balGroups r first count) r 0x0603
        (le 2 first.toNat ++ le 2 count.toNat ++ (List.range count.toNat).flatMap fun i => leW (balGroupWord s (first.toNat + i))) s) ∧
    ∀ (slot : Byte) (off len : Nat) (b : Bytes), heard r 0x0305 2 s → cfgLocked s = false → stateOk [1, 2, 3, 4] s = true →
      slot.toNat ≤ 2 → 1 ≤ len → len ≤ 1392 → slotImage s slot.toNat = some b → off < b.length →
      answersOnly (.cfgRead r slot off len) r 0x0305 (le 4 off ++ (b.drop off).take len) s

/-- For every settled state and heard request that Table 11.3 admits. SUB_BIND with a free queue, a present producer, FIRST and
COUNT in range, DECIM of at least 1, QCAP to 32,768, TAIL_TMO to 1,000 ms and a rate sum within 640 Mbit/s answers the queue and
its charged rate, and writes the binding: session, source, DECIM, and 32,768, 32, 10 for QCAP, QWIN, TAIL_TMO given as 0; the
frames that wait at that moment are none of its items. SUB_UNBIND of a queue of the session empties it, moves its word index past
what it held, sets FLUSHED and unbinds. NOTICE_SUB keeps classes 0 to 5 of the mask. Nothing else moves. (R349, R332, R352, R343,
11_mailbox.md) -/
def Obligations.SubscriptionCommandsBindAndRelease : Prop :=
  ∀ (r : Req) (s : State), settled s →
    (∀ (b : BindReq) (i rate : Nat), heard r 0x0401 0 s → stateOk [1, 2, 3, 4] s = true → itemAbsent s b.itype = false →
      itemRange s b = true → 1 ≤ b.decim → b.qcap ≤ 32768 → b.tailTmo ≤ 1000 → (b.queue = 0xFF ∨ b.queue ≤ 63) →
      bindTarget s b = some i → rate = chargedRate s b.itype b.count b.decim → rateSum s + rate ≤ 640000000 →
      answersDoing (.subBind r b) r 0x0401 (le 1 i ++ [0, 0, 0] ++ le 4 rate) (modQ i fun q => { q with
        bound := true, ctx := r.ctx, itype := b.itype, first := b.first, count := b.count, decim := b.decim
        qcap := if b.qcap = 0 then 32768 else b.qcap
        qwin := if b.qwin = 0 then 32 else b.qwin
        tmo := if b.tailTmo = 0 then 10 else b.tailTmo
        old := if b.itype = 1 ∨ b.itype = 2 ∨ b.itype = 3 then s.smp.queFrames.length else 0
        rate := rate, acked := q.rseq, waited := false, stalled := false }) s) ∧
    (∀ q : Byte, heard r 0x0402 0 s → stateOk [1, 2, 3, 4] s = true → (s.queue q.toNat).bound = true → (s.queue q.toNat).ctx = r.ctx →
      ∃ t, exec (.subUnbind r q) s = .next t ∧ flagged [(0x0F, 3)] s t ∧ t.out = [.response r.ctx r.tag 0x0402 stOk []] ∧
        stillFor r.ctx t = stillFor r.ctx (modQ q.toNat (fun x => { Queue.flush x with bound := false, stalled := false }) s) ∧
        (Queue.flush (s.queue q.toNat)).words = [] ∧
        (Queue.flush (s.queue q.toNat)).windex = (s.queue q.toNat).windex + (s.queue q.toNat).words.length) ∧
    ∀ mask : Word, heard r 0x0404 0 s → stateOk [1, 2, 3, 4] s = true →
      answersDoing (.noticeSub r mask) r 0x0404 (leW (mask &&& 0x3F)) (modSess r.ctx.toNat fun x => { x with mask := mask &&& 0x3F }) s

/-- For every settled state and heard request outside RETIRED in a power state the table admits, with no CFG_ADMIT, CFG_REVERT or
UPD_ACTIVATE running: CFG_OPEN of 64 to 65,536 bytes and UPD_OPEN of up to 16 MiB set the length and drop every byte held;
CFG_WRITE and UPD_WRITE of at least one byte that ends within the length place the bytes at the offset and answer the number of
bytes held. Nothing else moves, neither ACTIVE, PREVIOUS nor the firmware slots. (R376, R390, R343, 13_configuration_update.md) -/
def Obligations.ImageSlotsTakeBytesByOffset : Prop :=
  ∀ (r : Req) (s : State), settled s → s.nv.lcy ≠ 4 →
    (∀ len : Nat, heard r 0x0301 2 s → stateOk [1, 2, 3, 4] s = true → running 0x0303 s = none → running 0x0304 s = none →
      64 ≤ len → len ≤ 65536 →
      answersDoing (.cfgOpen r len) r 0x0301 [] (fun s => { s with image := { len := len, opened := true, bytes := [] } }) s) ∧
    (∀ (off : Nat) (d : Bytes), heard r 0x0302 2 s → stateOk [1, 2, 3, 4] s = true → running 0x0303 s = none → running 0x0304 s = none →
      d ≠ [] → s.image.opened = true → off + d.length ≤ s.image.len →
      answersDoing (.cfgWrite r off d) r 0x0302 (le 4 (putBytes off d s.image.bytes).length)
        (fun s => { s with image := { s.image with bytes := putBytes off d s.image.bytes } }) s) ∧
    (∀ len : Nat, heard r 0x0A01 3 s → stateOk [1, 2, 4] s = true → running 0x0A03 s = none → len ≤ 2 ^ 24 →
      answersDoing (.updOpen r len) r 0x0A01 [] (modNv fun n => { n with stagedLen := len, staged := [] }) s) ∧
    ∀ (off : Nat) (d : Bytes), heard r 0x0A02 3 s → stateOk [1, 2, 4] s = true → running 0x0A03 s = none →
      d ≠ [] → off + d.length ≤ s.nv.stagedLen →
      answersDoing (.updWrite r off d) r 0x0A02 (le 4 (putBytes off d s.nv.staged).length)
        (modNv fun n => { n with staged := putBytes off d n.staged }) s

/-- For every settled state and heard SERVICE request. CRED_SET of a 32-byte key, an identifier other than 0, a role to 3, with
room or an entry to replace and a SERVICE credential left where R386 asks for one, puts the entry in place of any with its
identifier; nothing else moves. CRED_DEL of a stored credential that leaves such a table answers OK and leaves a table without the
identifier; every session under it is closed in the next state. (R386, R343, 13_configuration_update.md) -/
def Obligations.CredentialTableChanges : Prop :=
  ∀ (r : Req) (id : Half) (s : State), settled s → stateOk [1, 2, 4] s = true →
    (∀ (role : Byte) (key : Bytes), heard r 0x0B03 3 s → key.length = 32 → id ≠ 0 → role.toNat ≤ 3 →
      (s.nv.creds.any (fun c => c.id == id) = true ∨ s.nv.creds.length < 32) →
      credsOk s (credPut { id := id, role := role.toNat, key := key } s.nv.creds) = true →
      answersDoing (.credSet r id role key) r 0x0B03 []
        (modNv fun n => { n with creds := { id := id, role := role.toNat, key := key } :: n.creds.filter fun x => x.id != id }) s) ∧
    (heard r 0x0B04 3 s → s.nv.creds.any (fun c => c.id == id) = true →
      credsOk s (s.nv.creds.filter fun c => c.id != id) = true →
      ∃ t, exec (.credDel r id) s = .next t ∧ t.out.head? = some (.response r.ctx r.tag 0x0B04 stOk []) ∧
        t.nv = { s.nv with creds := s.nv.creds.filter fun c => c.id != id } ∧
        ∀ c, c < 256 → (s.sess c).cred = id → (s.sess c).opened = true → (t.sess c).opened = false)

/-- For every settled state and heard request. In RUN with the control engine fitted, CTL_FAULT_CLEAR in FAULT with its condition
gone goes to PARKED with no fault, and in any other state does nothing; on a module that is no standby CTL_SETPOINT with SRC 0xFF
writes CTL_SP_HOST and restarts HOST_SP_HOLD. In MAINTAIN, ATB_SET of bus 0 or 1 to a node of Table 17.13 that the variant has
connects it and answers both buses. (R281, R294, R481, R343, 09_control_engine.md, 17_electrical_mechanical.md) -/
def Obligations.EngineWritesAndTestBuses : Prop :=
  ∀ (r : Req) (s : State), settled s →
    (heard r 0x0803 1 s → hasCtl s = true → stateOk [3] s = true → (s.ctl.state = 6 → faultGone s = true) →
      answersDoing (.ctlFaultClear r) r 0x0803 []
        (fun s => if s.ctl.state = 6 then modCtl (fun c => { c with state := 1, fault := 0 }) s else s) s) ∧
    (∀ sp : Word, heard r 0x0805 1 s → hasCtl s = true → stateOk [3] s = true → standby s = false →
      answersDoing (.ctlSetpoint r sp 0xFF) r 0x0805 []
        (modCtl fun c => { c with spHost := sp.toInt, hostStale := false, spRun := true }) s) ∧
    ∀ (bus : Byte) (node : Half), heard r 0x0E03 3 s → stateOk [4] s = true → bus.toNat ≤ 1 → atbNodes.contains node.toNat = true →
      (atbNeedsCtl node.toNat = true → hasCtl s = true) →
      let s' : State := { s with cap := if bus = 0 then { s.cap with atb0 := node } else { s.cap with atb1 := node } }
      answersDoing (.atbSet r bus node) r 0x0E03 (le 2 s'.cap.atb0.toNat ++ le 2 s'.cap.atb1.toNat) (fun _ => s') s

/-- For every settled state in SURVEY with no transition running, a heard OPERATOR request for MAINTAIN or RUN that the life cycle
and the pair admit: the next state is in the target, LAST_STATUS is OK, TRANS_CNT has counted, STATE_CHG is set, the RESPONSE and
the COMPLETION with the state are sent; entering MAINTAIN starts a new stay for zero learning, entering RUN ends a request for one
that still waits and parks a configured engine; nothing else of the machine moves, the deferred commands of others included.
(R360, R361, R337, 12_states_startup.md) -/
def Obligations.StateSetCompletesBetweenSamplingStates : Prop :=
  ∀ (r : Req) (b : Byte) (nvOk : Bool) (s : State), settled s → heard r 0x0202 1 s →
    (b = 3 ∨ b = 4) → s.pwr.state = 2 → s.pwr.target = none → stateLocked s b.toNat = false → noSelect s = false →
    deferredBusy 0x0202 s = false →
    ∃ t, exec (.stateSet r b nvOk) s = .next t ∧ flagged [(0x01, 0)] s t ∧
      (Out.response r.ctx r.tag 0x0202 stOk []) ∈ t.out ∧ (Out.completion r.ctx r.tag 0x0202 stOk [b]) ∈ t.out ∧
      stillFor r.ctx t = stillFor r.ctx { s with
        pwr := { s.pwr with state := b.toNat, target := none, phase := 0, lastStatus := 0, transCnt := satAdd s.pwr.transCnt 1
                            leaving := false, waitFirst := false, saveOk := nvOk }
        smp := if b = 4 then { s.smp with zeroSeen := false } else { s.smp with zeroReq := false }
        ctl := if b = 3 && hasCtl s && s.cfg.hasCtl then { s.ctl with state := 1 } else s.ctl }

/-- For every settled state with no transition running and every heard OPERATOR request for a state that Table 12.3, the life
cycle and the pair admit: (a) for the present state the next state differs in LAST_STATUS OK and the noted result of the save
alone, RESPONSE and COMPLETION are sent; (b) from LISTEN to SURVEY, RUN or MAINTAIN the answer is OK, the target stands, the first
frame is awaited and the state stays LISTEN; (c) from SURVEY or MAINTAIN to LISTEN the target stands and one more cycle is due;
(d) from RUN with the string connected, both limits go to 0 and CONNECT_STATE is RAMP_DOWN. (R360, R361, R362, R268,
12_states_startup.md) -/
def Obligations.StateSetOtherTransitions : Prop :=
  ∀ (r : Req) (b : Byte) (nvOk : Bool) (s : State), settled s → heard r 0x0202 1 s → s.pwr.target = none →
    stateLocked s b.toNat = false → (2 ≤ b.toNat → noSelect s = false) → deferredBusy 0x0202 s = false →
    (b.toNat = s.pwr.state → b.toNat ≤ 4 →
      ∃ t, exec (.stateSet r b nvOk) s = .next t ∧ t.ev = s.ev ∧
        t.out = [.response r.ctx r.tag 0x0202 stOk [], .completion r.ctx r.tag 0x0202 stOk [b]] ∧
        stillFor r.ctx t = stillFor r.ctx { s with pwr := { s.pwr with lastStatus := 0, saveOk := nvOk } }) ∧
    (s.pwr.state = 1 → 2 ≤ b.toNat → b.toNat ≤ 4 →
      ∃ t, exec (.stateSet r b nvOk) s = .next t ∧ t.out.head? = some (.response r.ctx r.tag 0x0202 stOk []) ∧
        t.pwr.state = 1 ∧ t.pwr.target = some b.toNat ∧ t.pwr.waitFirst = true ∧ t.pwr.startAt = s.smp.timeNs ∧ t.fac = s.fac ∧
        t.cfg = s.cfg ∧ t.pro.kA = s.pro.kA ∧ t.pro.kB = s.pro.kB) ∧
    ((s.pwr.state = 2 ∨ s.pwr.state = 4) → b = 1 →
      ∃ t, exec (.stateSet r b nvOk) s = .next t ∧ t.out = [.response r.ctx r.tag 0x0202 stOk []] ∧
        t.pwr = { s.pwr with target := some 1, leaving := true, saveOk := nvOk } ∧ sameStores s t ∧ sameMeasuring s t ∧ t.pro = s.pro) ∧
    (s.pwr.state = 3 → s.pro.conn = 5 → (b.toNat = 1 ∨ b.toNat = 2 ∨ b.toNat = 4) →
      ∃ t, exec (.stateSet r b nvOk) s = .next t ∧ t.out.head? = some (.response r.ctx r.tag 0x0202 stOk []) ∧
        t.pwr.state = 3 ∧ t.pwr.target = some b.toNat ∧ t.pro.conn = 6 ∧ t.pro.hostDisc = true ∧ t.pro.iCh = 0 ∧ t.pro.iDis = 0 ∧
        t.pro.kA = s.pro.kA ∧ t.pro.kB = s.pro.kB ∧ sameStores s t ∧ sameMeasuring s t)

/-- For every state and heard ENGINEER request outside RETIRED, in any state but DORMANT, with no deferred command in the way.
CFG_ADMIT of a PENDING image that passes: the image is ACTIVE, the former one PREVIOUS, VERSION_HIGH is its VERSION, PENDING is
empty, the configuration is the image's and DEFAULTS_LOCKED is clear. CFG_REVERT with a PREVIOUS image of the firmware's major
format, not marked FORMAT_STALE, that passes: the two images change places, VERSION_HIGH stays. Both answer OK, complete OK with
the version and keep the factory data and the learned data. Cut short by a reset before the pointer flips, either has answered OK
and leaves both slots and the configuration. Bytes of PENDING never written read 0: the model's choice (log entry 24). (R377,
R379, R382, R337, 13_configuration_update.md) -/
def Obligations.AdmissionCommitsTheImage : Prop :=
  ∀ (r : Req) (s : State), s.nv.lcy ≠ 4 → stateOk [1, 2, 3, 4] s = true →
    (heard r 0x0303 2 s → deferredBusy 0x0303 s = false → admission s (pendingBytes s) false = none →
      ∃ t, exec (.cfgAdmit r false) s = .next t ∧ (Out.response r.ctx r.tag 0x0303 stOk []) ∈ t.out ∧
        (Out.completion r.ctx r.tag 0x0303 stOk (le 4 (cfgOf (pendingBytes s)).version)) ∈ t.out ∧
        t.nv.active = some (pendingBytes s) ∧ t.nv.previous = s.nv.active ∧ t.nv.versionHigh = (cfgOf (pendingBytes s)).version ∧
        t.nv.copyA = s.nv.copyA ∧ t.nv.copyB = s.nv.copyB ∧ t.image = {} ∧ t.cfg = cfgOf (pendingBytes s) ∧
        t.lcy.defaultsLocked = false ∧ t.lcy.cfgLast = 0 ∧ t.fac = s.fac) ∧
    (heard r 0x0303 2 s → deferredBusy 0x0303 s = false →
      ∃ t, exec (.cfgAdmit r true) s = .next t ∧ t.out = [.response r.ctx r.tag 0x0303 stOk []] ∧ (running 0x0303 t).isSome = true ∧
        t.image = s.image ∧ t.cfg = s.cfg ∧ sameStores s t ∧ sameMeasuring s t) ∧
    (heard r 0x0304 2 s → deferredBusy 0x0304 s = false →
      ∃ t, exec (.cfgRevert r true) s = .next t ∧ t.out = [.response r.ctx r.tag 0x0304 stOk []] ∧ (running 0x0304 t).isSome = true ∧
        t.image = s.image ∧ t.cfg = s.cfg ∧ sameStores s t ∧ sameMeasuring s t) ∧
    ∀ b, heard r 0x0304 2 s → deferredBusy 0x0304 s = false → s.nv.previous = some b → s.nv.prevStale = false →
      imgFormat b / 65536 = ownFormat s / 65536 → admission s b true = none →
      ∃ t, exec (.cfgRevert r false) s = .next t ∧ (Out.response r.ctx r.tag 0x0304 stOk []) ∈ t.out ∧
        (Out.completion r.ctx r.tag 0x0304 stOk (le 4 (cfgOf b).version)) ∈ t.out ∧
        t.nv.active = some b ∧ t.nv.previous = s.nv.active ∧ t.nv.versionHigh = s.nv.versionHigh ∧
        t.nv.copyA = s.nv.copyA ∧ t.nv.copyB = s.nv.copyB ∧ t.cfg = cfgOf b ∧ t.lcy.cfgLast = 0 ∧ t.fac = s.fac

/-- For every state and heard CFG_ADMIT outside RETIRED with no deferred command in the way: when the checks of Table 13.4 in
their order refuse the PENDING image, the next state has ACTIVE, PREVIOUS, VERSION_HIGH, PENDING and the configurations in force
as before; LAST_STATUS and the stored report are those of the refusal, which the COMPLETION carries. Bytes of PENDING never
written read 0: the model's choice (log entry 24). (R377, R379, 13_configuration_update.md) -/
def Obligations.RefusedImageLeavesTheSlots : Prop :=
  ∀ (r : Req) (s : State) (x : Bad), s.nv.lcy ≠ 4 → stateOk [1, 2, 3, 4] s = true →
    heard r 0x0303 2 s → deferredBusy 0x0303 s = false → admission s (pendingBytes s) false = some x →
    ∃ t, exec (.cfgAdmit r false) s = .next t ∧ (Out.completion r.ctx r.tag 0x0303 x.status x.report.bytes) ∈ t.out ∧
      sameStores s t ∧ sameMeasuring s t ∧ t.pro = s.pro ∧ t.ctl = s.ctl ∧ t.lcy = { s.lcy with cfgLast := x.status, report := x.report }

/-- For every settled state and heard ENGINEER request. EST_SAVE whose NV write succeeds, in SURVEY, RUN or MAINTAIN: the newest
valid copy holds the learned data of all contexts, the older copy stays, RESPONSE and COMPLETION OK are sent. BAL_LEARN in
MAINTAIN with K1 to K3 open on a module that commands: learning runs on the lowest input used, in its first phase, every slot
bleeds COMPENSATED and every port stops bleeding once. BAL_LEARN_ABORT in MAINTAIN: no learning runs, and where one ran LEARN_FAIL
is set and BAL_LEARN completes STATE_FORBIDDEN. (R169, R226, R337, 05_estimation.md, 07_balancing.md) -/
def Obligations.LearnedDataCommandsSaveAndLearn : Prop :=
  ∀ (r : Req) (s : State), settled s →
    (heard r 0x0505 2 s → stateOk [2, 3, 4] s = true → deferredBusy 0x0505 s = false →
      ∃ t c, exec (.estSave r true) s = .next t ∧
        t.out = [.response r.ctx r.tag 0x0505 stOk [], .completion r.ctx r.tag 0x0505 stOk []] ∧ newestCopy t.nv = some c ∧
        c.groups = s.est.ctx.map learnedOf ∧ c.ok = true ∧ t.est.ctx = s.est.ctx ∧ t.est.saveBusy = false ∧
        (t.nv = { s.nv with copyA := c } ∨ t.nv = { s.nv with copyB := c }) ∧ t.ev = s.ev ∧ t.pro = s.pro ∧ t.smp = s.smp) ∧
    (heard r 0x0601 2 s → stateOk [4] s = true → allOpen s = true → commands s = true → deferredBusy 0x0601 s = false →
      s.bal.learn = none →
      ∃ t l, exec (.balLearn r) s = .next t ∧ t.out = [.response r.ctx r.tag 0x0601 stOk []] ∧ t.bal.learn = some l ∧ l.phase = 0 ∧
        l.gated = false ∧ l.input = (usedInputs s).headD 0 ∧ t.bal.stopPorts = List.range (nPorts s) ∧
        (∀ b ∈ t.bal.slots, b.comp = true) ∧ sameStores s t ∧ t.units = s.units ∧ t.est = s.est ∧ t.pro = s.pro) ∧
    (heard r 0x0602 2 s → stateOk [4] s = true →
      ∃ t, exec (.balLearnAbort r) s = .next t ∧ t.bal.learn = none ∧ (Out.response r.ctx r.tag 0x0602 stOk []) ∈ t.out ∧
        (s.bal.learn = none → t.ev = s.ev ∧ stillFor r.ctx t = stillFor r.ctx s) ∧
        (s.bal.learn.isSome = true → flagged [(0x0A, 5)] s t ∧ t.bal.stopPorts = List.range (nPorts s) ∧ t.bal.modeEff = s.bal.mode) ∧
        sameStores s t ∧ t.units = s.units ∧ t.est = s.est ∧ t.pro = s.pro)

/-- For every settled state in RUN and every heard OPERATOR request. PRO_CONNECT on an open string with every condition of R264
and R414: with WELD_CHECK both channels of K3 are asserted and CONNECT_STATE is 1, else K2 (and K4 where used) and CONNECT_STATE
is 2; no other channel moves. PRO_DISCONNECT on a connected string: CONNECT_STATE is RAMP_DOWN, both derate limits are 0 with code
0xFE and no channel moves; on an open string it answers and completes OK and nothing else moves. (R264, R265, R268, R337,
08_protection.md) -/
def Obligations.ConnectAndDisconnectBegin : Prop :=
  ∀ (r : Req) (s : State), settled s → stateOk [3] s = true →
    (heard r 0x0701 1 s → connectOk s = true → s.pro.conn = 0 → deferredBusy 0x0701 s = false →
      ∃ t, exec (.proConnect r) s = .next t ∧ t.out.head? = some (.response r.ctx r.tag 0x0701 stOk []) ∧
        (s.cfgPro.weldCheck = true → t.pro.conn = 1 ∧ t.pro.kA = s.pro.kA ||| 0x4 ∧ t.pro.kB = s.pro.kB ||| 0x4) ∧
        (s.cfgPro.weldCheck = false → t.pro.conn = 2 ∧
          t.pro.kA = s.pro.kA ||| (if s.cfgPro.k4En then 0xA else 0x2) ∧ t.pro.kB = s.pro.kB ||| (if s.cfgPro.k4En then 0xA else 0x2)) ∧
        t.pro.latched = s.pro.latched ∧ sameStores s t ∧ sameMeasuring s t ∧ t.ctl = s.ctl ∧ t.pwr = s.pwr) ∧
    (heard r 0x0702 1 s → s.pro.conn = 5 → deferredBusy 0x0702 s = false →
      ∃ t, exec (.proDisconnect r) s = .next t ∧ t.out.head? = some (.response r.ctx r.tag 0x0702 stOk []) ∧ t.pro.conn = 6 ∧
        t.pro.hostDisc = true ∧ t.pro.iCh = 0 ∧ t.pro.iDis = 0 ∧ t.pro.srcCh = 0xFE ∧ t.pro.srcDis = 0xFE ∧ t.pro.kA = s.pro.kA ∧
        t.pro.kB = s.pro.kB ∧ t.pro.latched = s.pro.latched ∧ sameStores s t ∧ sameMeasuring s t ∧ t.ctl = s.ctl) ∧
    (heard r 0x0702 1 s → s.pro.conn = 0 → deferredBusy 0x0702 s = false →
      ∃ t, exec (.proDisconnect r) s = .next t ∧ t.ev = s.ev ∧ stillFor r.ctx t = stillFor r.ctx s ∧
        t.out = [.response r.ctx r.tag 0x0702 stOk [], .completion r.ctx r.tag 0x0702 stOk []])

/-- For every state and heard request in SURVEY, RUN or MAINTAIN. PRO_TRIP_RESET (OPERATOR) answers OK with the latches left:
those whose function is still active, and K_WELD while a contactor found welded reports closed; no channel, no limit and no active
function moves. PRO_CLASS_CLEAR (ENGINEER) of a slot that a unit holds clears its OPEN_WIRE and CELL_FAULT classification and
counts, and the value that PRO offers EST over crossing 0x13 is the new one; nothing else moves. (R242, R262, 08_protection.md) -/
def Obligations.TripResetKeepsWhatStillHolds : Prop :=
  ∀ (r : Req) (s : State), stateOk [2, 3, 4] s = true →
    (heard r 0x0703 1 s →
      let held : BitVec 29 := if (s.pro.welded &&& s.pro.kf) != 0 then 1#29 <<< 0x18 else 0
      ∃ t, exec (.proTripReset r) s = .next t ∧ t.pro.latched = s.pro.latched &&& (s.pro.active ||| held) ∧
        (Out.response r.ctx r.tag 0x0703 stOk (le 4 (s.pro.latched &&& (s.pro.active ||| held)).toNat)) ∈ t.out ∧
        t.pro.active = s.pro.active ∧ t.pro.kA = s.pro.kA ∧ t.pro.kB = s.pro.kB ∧ t.pro.conn = s.pro.conn ∧ t.pro.iCh = s.pro.iCh ∧
        t.pro.iDis = s.pro.iDis ∧ sameStores s t ∧ sameMeasuring s t ∧ t.ctl = s.ctl) ∧
    ∀ slot : Byte, settled s → heard r 0x0704 2 s → slot.toNat < 144 → portPresent s (slot.toNat / 3) = true →
      (s.posU slot.toNat).present = true → 0x13 < s.xng.xrec.length →
      ∃ t, exec (.proClassClear r slot) s = .next t ∧ flagged [] s t ∧ t.out = [.response r.ctx r.tag 0x0704 stOk []] ∧
        (t.xr 0x13).cur = some (.prot (proView t)) ∧ stillFor r.ctx { t with xng := s.xng } = stillFor r.ctx
          (modOw slot.toNat (fun o => { o with openMask := 0, incon := false, fault := 0, inconCnt := List.replicate 17 0 }) s)

/-- For every settled state in RUN with the control engine fitted and every heard OPERATOR request. CTL_START in PARKED with every
condition of R275: STATE is STARTING with GATE_EN enabled, the limiter at 0 counting as T_ZERO at zero; the answer waits.
CTL_STOP: in RUNNING the engine is STOPPING with no tone left; in PARKED it completes OK at once and nothing moves. CTL_TONE in
RUNNING on a module that is no standby: a set in range waits for the next whole millisecond, which the answer carries, and the
tones in force go on; the empty set ends each tone at its next phase wrap. (R275, R276, R277, R300, R343, 09_control_engine.md) -/
def Obligations.EngineCommandsStartStopAndTone : Prop :=
  ∀ (r : Req) (s : State), settled s → stateOk [3] s = true → hasCtl s = true →
    (heard r 0x0801 1 s → startOk s = true → s.ctl.state = 1 →
      ∃ t, exec (.ctlStart r) s = .next t ∧ t.out = [] ∧ t.ev = s.ev ∧ t.ctl.state = 2 ∧ t.ctl.enable = true ∧ t.ctl.out = 0 ∧
        t.ctl.tZero = s.cfgCtl.tZero ∧ t.ctl.src = s.ctl.src ∧ t.ctl.spHost = s.ctl.spHost ∧ t.ctl.pwm0 = s.ctl.pwm0 ∧
        t.ctl.pwm1 = s.ctl.pwm1 ∧ (running 0x0801 t).isSome = true ∧ sameStores s t ∧ sameMeasuring s t ∧ t.pro = s.pro) ∧
    (heard r 0x0802 1 s → deferredBusy 0x0802 s = false → s.ctl.state = 3 →
      ∃ t, exec (.ctlStop r) s = .next t ∧ t.out = [.response r.ctx r.tag 0x0802 stOk []] ∧ t.ev = s.ev ∧
        t.ctl = { s.ctl with state := 4, tones := [], tonesNext := none, quietRun := 0 } ∧ sameStores s t ∧ sameMeasuring s t ∧ t.pro = s.pro) ∧
    (heard r 0x0802 1 s → deferredBusy 0x0802 s = false → s.ctl.state = 1 →
      ∃ t, exec (.ctlStop r) s = .next t ∧ t.ev = s.ev ∧ stillFor r.ctx t = stillFor r.ctx s ∧
        t.out = [.response r.ctx r.tag 0x0802 stOk [], .completion r.ctx r.tag 0x0802 stOk []]) ∧
    (∀ tones, heard r 0x0804 1 s → s.ctl.state = 3 → standby s = false → tones ≠ [] → toneRange s tones = true →
      answersDoing (.ctlTone r tones) r 0x0804 (le 8 (gridUp (max s.smp.timeNs s.ctl.time + 1) 1000000))
        (modCtl fun c => { c with
          tonesNext := some (tones.map fun e => { freq := s.cfgCtl.toneF e.1, amp := e.2 })
          toneNextAt := gridUp (max s.smp.timeNs s.ctl.time + 1) 1000000 }) s) ∧
    (heard r 0x0804 1 s → s.ctl.state = 3 → standby s = false → toneRange s [] = true →
      ∃ t b, exec (.ctlTone r []) s = .next t ∧ t.out = [.response r.ctx r.tag 0x0804 stOk b] ∧ t.ev = s.ev ∧
        t.ctl = { s.ctl with tonesNext := none, tones := s.ctl.tones.map fun x => { x with
          stopping := x.stopping.or (some (max s.smp.timeNs s.ctl.time)) } } ∧
        sameStores s t ∧ sameMeasuring s t ∧ t.pro = s.pro)

/-- For every settled state but DORMANT and heard request. REG_READ of 1 to 256 words from an aligned address within one block
answers the address and the words of its registers read in ascending order, each with its side effect, absent blocks and unnamed
offsets as zeros. REG_WRITE by an ENGINEER: to EVENT of a present block it clears the flags of the mask, the counters stay; to
BAL_CTRL it sets EN and MODE; to a STATUS register it is answered OK and changes nothing. An access to PRO is judged with its
crossing up. (R347, R348, R12, 11_mailbox.md, 00_scope.md) -/
def Obligations.RegisterAccessReadsAndWrites : Prop :=
  ∀ (r : Req) (s : State),
    (mayRead r s → ∀ addr : Word, ∀ n : Half, addr.toNat % 4 = 0 → 1 ≤ n.toNat → n.toNat ≤ 256 → (blockAt addr.toNat).isSome = true →
      blockAt addr.toNat = blockAt (addr.toNat + 4 * (n.toNat - 1)) → proShut s addr.toNat = false →
      let u := touch r s
      ∃ t, exec (.regRead r addr n) s = .next t ∧
        t.out = [.response r.ctx r.tag 0x0D01 stOk (le 4 addr.toNat ++ (regReads addr.toNat n.toNat u).1.flatMap leW)] ∧
        (regReads addr.toNat n.toNat u).1.length = n.toNat ∧ t.ev = (regReads addr.toNat n.toNat u).2.ev ∧
        stillFor r.ctx t = stillFor r.ctx (regReads addr.toNat n.toNat u).2) ∧
    (mayWrite r s →
      (∀ (e : Nat) (w : Word), 1 ≤ e → e < 20 → e ≠ 4 → eventPresent s e = true → (e = 0x0B → (s.xr 0x4D).down = false) →
        ∃ t, exec (.regWrite r (BitVec.ofNat 32 (0x10000 * e + 0xC)) w) s = .next t ∧
          t.out = [.response r.ctx r.tag 0x0D02 stOk []] ∧ stillFor r.ctx t = stillFor r.ctx s ∧
          t.ev = s.ev.modify e fun x => { x with flags := x.flags &&& ~~~(w.truncate 16) }) ∧
      (∀ w : Word, writes (.regWrite r 0xA0004 w) r (modBal fun b => { b with en := w.getLsbD 0, mode := w.getLsbD 1 }) s) ∧
      ∀ (e : Nat) (w : Word), 1 ≤ e → e < 20 → e ≠ 4 → blockPresent s e = true → (e = 0x0B → (s.xr 0x4D).down = false) →
        writes (.regWrite r (BitVec.ofNat 32 (0x10000 * e + 8)) w) r id s)

/-- For every settled state but DORMANT and heard request. A read of EVENT of a present block answers its flags and latches its
counters. A read of word 0 of a group record answers it and latches the record; of a model record likewise where the impedance
engine is fitted; a group that the map in force does not place reads 0 throughout, one beyond the variant too. SMP_INST_LO answers
the low word of the instant index and latches the high one; REC_NEXT_LO, REC_OLDEST_LO, REC_EXPORT_LO and REC_OPTIME_LO do so with
theirs. Nothing else moves. (R438, R188, R210, R468, R141, 15_islands.md) -/
def Obligations.LatchingReadsFreezeTheirCompanions : Prop :=
  ∀ (r : Req) (s : State), mayRead r s →
    (∀ e : Fin 68, 1 ≤ e.val → e.val ≠ 4 → eventPresent s e.val = true → (e.val = 0x0B → (s.xr 0x4D).down = false) →
      ∃ t, exec (.eventReadLatch r e) s = .next t ∧ stillFor r.ctx t = stillFor r.ctx s ∧
        t.ev = s.ev.modify e.val (fun x => { x with latch := some x.cnt }) ∧
        t.out = [.response r.ctx r.tag 0x0D01 stOk (le 4 (eventAddr e.val) ++ leW ((s.event e.val).flags.zeroExtend 32))]) ∧
    (∀ g : Fin 768, if g.val < nGroups s then
        let words := if (s.cfgEst.group g.val).slot.isSome then (s.ectx g.val).words else List.replicate 16 0
        reads (.groupRecordLatch r g) r (0x81000 + 0x40 * g.val) (words.getD 0 0) (modCtx g.val fun x => { x with latch := some words }) s
      else reads (.groupRecordLatch r g) r (0x81000 + 0x40 * g.val) 0 id s) ∧
    (∀ g : Fin 768, if g.val < nGroups s ∧ hasImp s = true then
        reads (.modelRecordLatch r g) r (0x91000 + 0x10 * g.val) ((s.imp.groups.getD g.val {}).model.getD 0 0)
          (modImp fun m => { m with groups := m.groups.modify g.val fun x => { x with latch := some x.model } }) s
      else reads (.modelRecordLatch r g) r (0x91000 + 0x10 * g.val) 0 id s) ∧
    reads (.smpInstLoRead r) r 0x60024 (BitVec.ofNat 32 s.smp.instant)
      (modSmp fun m => { m with instHi := BitVec.ofNat 32 (m.instant / 2 ^ 32) }) s ∧
    ∀ k : Fin 4,
      let x := [s.recNv.next, s.recNv.oldest, s.recNv.exportMark, s.recd.optime].getD k.val 0
      reads (.recLoRead r k) r ([0x110014, 0x11001C, 0x110024, 0x110030].getD k.val 0) (BitVec.ofNat 32 x)
        (modRec fun d => { d with hi := d.hi.set k.val (BitVec.ofNat 32 (x / 2 ^ 32)) }) s

/-- For every settled state but DORMANT and heard ENGINEER request. EVENT_FLAG_CLEAR of a present block but XNG: a flag of the
mask is clear afterwards unless hardware set it in the same cycle, a flag outside the mask stays, and each flag set adds 1 to its
8-bit counter up to 255 while the other counters stay. A write of XNG_CTRL zeroes the flush, loss and refusal counts of every
crossing with CNT_CLR and every event counter, latched ones too, with EVCNT_CLR; flags stay. Nothing else moves. That the command
carries the flags set in its cycle, and that EVCNT_CLR zeroes latched counters too, is the model's choice (log entries 2 and 34).
(R13, R437, R443, 00_scope.md, 15_islands.md) -/
def Obligations.EventClearLosesToTheHardwareSet : Prop :=
  ∀ (r : Req) (s : State), mayWrite r s →
    (∀ (e : Fin 68) (mask sets : Half), 1 ≤ e.val → e.val ≠ 4 → e.val ≠ 0x13 → e.val < s.ev.length → eventPresent s e.val = true →
      (e.val = 0x0B → (s.xr 0x4D).down = false) →
      ∃ t, exec (.eventFlagClear r e mask sets) s = .next t ∧ stillFor r.ctx t = stillFor r.ctx s ∧
        t.out = [.response r.ctx r.tag 0x0D02 stOk []] ∧ (t.event e.val).latch = (s.event e.val).latch ∧
        ∀ n, n < 16 →
          let hw := decide (n < flagCount e.val) && sets.getLsbD n
          (t.event e.val).flags.getLsbD n = (((s.event e.val).flags.getLsbD n && !mask.getLsbD n) || hw) ∧
          (t.event e.val).cnt.extractLsb' (8 * n) 8 =
            if hw ∧ (s.event e.val).cnt.extractLsb' (8 * n) 8 ≠ 255#8 then (s.event e.val).cnt.extractLsb' (8 * n) 8 + 1
            else (s.event e.val).cnt.extractLsb' (8 * n) 8) ∧
    ∀ (c : Instr) (w : Word), c = .xngCntClr r w ∨ c = .evcntClr r w →
      ∃ t, exec c s = .next t ∧ t.out = [.response r.ctx r.tag 0x0D02 stOk []] ∧
        t.xng = { s.xng with xrec := if w.getLsbD 0 then s.xng.xrec.map fun x => { x with flush := 0, loss := 0, refused := 0 }
                                     else s.xng.xrec } ∧
        t.ev = (if w.getLsbD 1 then s.ev.map fun x => { x with cnt := 0, latch := x.latch.map fun _ => 0 } else s.ev) ∧
        stillFor r.ctx t = stillFor r.ctx { s with xng := t.xng }

/-- For every settled state but DORMANT and heard ENGINEER request. PRT_CTRL of a present port, its two FORCE bits as they stand
or in MAINTAIN: both bits as written, the port counters zeroed with CNT_CLR. SMP_CTRL, ZERO_REQ only in SURVEY or MAINTAIN:
LOWCAD_HOLD as written, learning requested unless it runs. INS_CTRL with modes 0 to 2: both modes as written, SUSPENDED clear, a
new injector cycle where the injector now starts, and where the injector then rests no result is valid. Nothing else moves, INS
aside. (R126, R140, R139, R229, R361, 02_brynkai_link.md, 04_sampling.md, 17_electrical_mechanical.md) -/
def Obligations.PortAndSamplingControlWrites : Prop :=
  ∀ (r : Req) (s : State), mayWrite r s →
    (∀ (p : Fin 48) (w : Word) (c : Instr), c = .prtCntClr r p w ∨ c = .forceNOff r p w ∨ c = .forceSOff r p w →
      portPresent s p.val = true →
      (((s.port p.val).forceN = w.getLsbD 1 ∧ (s.port p.val).forceS = w.getLsbD 2) ∨ stateOk [4] s = true) →
      writes c r (modPort p.val fun x => { x with
        forceN := w.getLsbD 1, forceS := w.getLsbD 2, cnt := if w.getLsbD 0 then List.replicate 12 0 else x.cnt }) s) ∧
    (∀ (w : Word) (c : Instr), c = .zeroReq r w ∨ c = .lowcadHold r w → (w.getLsbD 0 = true → stateOk [2, 4] s = true) →
      writes c r (modSmp fun m => { m with
        lowHold := w.getLsbD 1, zeroReq := m.zeroReq || (w.getLsbD 0 && m.zeroRun.isNone) }) s) ∧
    ∀ w : Word, (w.extractLsb' 0 2).toNat ≤ 2 → (w.extractLsb' 2 2).toNat ≤ 2 →
      ∃ t, exec (.insModeWrite r w) s = .next t ∧ t.out = [.response r.ctx r.tag 0x0D02 stOk []] ∧
        t.ins.mode = (w.extractLsb' 0 2).toNat ∧ t.ins.closedMode = (w.extractLsb' 2 2).toNat ∧ t.ins.suspended = false ∧
        (injecting t = true → t.ins = { s.ins with
          mode := t.ins.mode, closedMode := t.ins.closedMode, suspended := false
          cyc := if injecting s then s.ins.cyc else 0, edge := if injecting s then s.ins.edge else 0 }) ∧
        (injecting t = false → t.ins.valid = false ∧ t.ins.posValid = false ∧ t.ins.rIso = 0xFFFFFFFF ∧ t.ins.seq = s.ins.seq) ∧
        sameStores s t ∧ t.prt = s.prt ∧ t.units = s.units ∧ t.smp = s.smp ∧ t.est = s.est ∧ t.imp = s.imp ∧ t.bal = s.bal ∧
        t.pro = s.pro ∧ t.ctl = s.ctl ∧ t.pwr = s.pwr

/-- For every settled state but DORMANT and heard ENGINEER request. EST_CTRL: FREEZE as written; SAVE_REQ asks for a save of the
whole set. EST_RETAIN_LO and _HI, with ports present and at most 8 bits set in all 48: the written half changes, the other stays.
IMP_CTRL where IMP is fitted: STEP_INHIBIT as written and then no step in course, WIN_RESTART drops the step too, empties every
accumulation, resets the bins of every group and marks a closed window still to be judged as of the run before; after either, and
after the end of an inhibit, a step counts only from then on. IMP_GSEL below the number of groups: the selection and the latched
window. Nothing else moves. (R145, R169, R208, R209, R170, 05_estimation.md, 06_impedance.md) -/
def Obligations.EstimatorAndImpedanceControlWrites : Prop :=
  ∀ (r : Req) (s : State), mayWrite r s →
    (∀ (w : Word) (c : Instr), c = .saveReq r w ∨ c = .learnFreeze r w →
      writes c r (modEst fun e => { e with
        freeze := w.getLsbD 1, saveBusy := e.saveBusy || w.getLsbD 0, saveWhole := e.saveWhole || w.getLsbD 0 }) s) ∧
    (∀ (hi : Bool) (w : Word), popCount (retainAfter s hi w) ≤ 8 →
      (∀ p, nPorts s ≤ p → (retainAfter s hi w).getLsbD p = false) →
      writes (.estRetainWrite r hi w) r (modEst fun e => { e with retain := retainAfter s hi w }) s ∧
        ∀ p, p < 48 → (retainAfter s hi w).getLsbD p =
          if hi = decide (32 ≤ p) then w.getLsbD (p % 32) else s.est.retain.getLsbD p) ∧
    (hasImp s = true →
      (∀ (w : Word) (c : Instr), c = .winRestart r w ∨ c = .stepInhibit r w →
        writes c r (modImp fun m => { m with
          stepInhibit := w.getLsbD 1, bins := if w.getLsbD 0 then List.replicate 8 {} else m.bins
          step := if w.getLsbD 0 || w.getLsbD 1 then none else m.step
          stepFrom := if w.getLsbD 0 || w.getLsbD 1 || m.stepInhibit then s.smp.timeNs + 1 else m.stepFrom
          lineLost := !w.getLsbD 0 && m.lineLost
          pend := m.pend.map fun x => { x with stale := w.getLsbD 0 || x.stale }
          groups := if w.getLsbD 0 then m.groups.map (fun x => { x with bins := List.replicate 8 (0x80000000, 0x80000000, 0) })
                    else m.groups }) s) ∧
      ∀ w : Word, (w.extractLsb' 0 10).toNat < nGroups s →
        writes (.impGselWrite r w) r (modImp fun m => { m with
          gsel := w.extractLsb' 0 10, window := impWindow s (w.extractLsb' 0 10).toNat }) s)

/-- For every settled state but DORMANT and heard ENGINEER request. BAL_CTRL: EN and MODE as written. PRO_CTRL, crossing up,
BELL_TEST and OW_PAUSE as they stand or in MAINTAIN: both as written, and with OW_NOW in SURVEY, RUN or MAINTAIN a test starts for
each eligible unit with none in course. CTL_CTRL with SRC 0 to 4: source and bank request as written, the bank in force follows at
once where no update runs. CTL_SP_HOST in RUN: the set-point, no longer stale. CTL_AO up to 10 V: the host value, on the output
for AO_MODE 1. (R229, R255, R289, R293, R298, R303, R361, 07_balancing.md, 08_protection.md, 09_control_engine.md) -/
def Obligations.EngineControlWrites : Prop :=
  ∀ (r : Req) (s : State), mayWrite r s →
    (∀ (w : Word) (c : Instr), c = .balModeWrite r w ∨ c = .balEn r w →
      writes c r (modBal fun b => { b with mode := w.getLsbD 1, en := w.getLsbD 0 }) s) ∧
    (∀ (w : Word) (c : Instr), c = .owNow r w ∨ c = .owPause r w ∨ c = .bellTest r w → (s.xr 0x4D).down = false →
      ((s.pro.bellTest = w.getLsbD 0 ∧ s.pro.owPause = w.getLsbD 1) ∨ stateOk [4] s = true) →
      ∃ t, exec c s = .next t ∧ t.ev = s.ev ∧ t.out = [.response r.ctx r.tag 0x0D02 stOk []] ∧
        stillFor r.ctx t = stillFor r.ctx { s with pro := { s.pro with bellTest := w.getLsbD 0, owPause := w.getLsbD 1, units := t.pro.units } } ∧
        t.pro.units.length = s.pro.units.length ∧
        ∀ u, u < s.pro.units.length → t.owU u =
          if w.getLsbD 2 ∧ stateOk measuring s = true ∧ u < 144 ∧ owEligible s u = true ∧ owIdle (s.owU u) = true
          then { s.owU u with passes := owPasses s u } else s.owU u) ∧
    (hasCtl s = true →
      (∀ (w : Word) (c : Instr), c = .bankReq r w ∨ c = .srcWrite r w → (w.extractLsb' 0 3).toNat ≤ 4 →
        ∃ t, exec c s = .next t ∧ t.out = [.response r.ctx r.tag 0x0D02 stOk []] ∧
          t.ctl = { s.ctl with
            src := (w.extractLsb' 0 3).toNat, bankReq := (w.extractLsb' 4 2).toNat, bank := t.ctl.bank, fallback := t.ctl.fallback
            periods := t.ctl.periods, edgeSeen := t.ctl.edgeSeen, sCh := t.ctl.sCh, edgeOk := t.ctl.edgeOk, perOk := t.ctl.perOk } ∧
          t.ctl.bank = (if s.ctl.state = 0 ∨ s.ctl.state = 1 ∨ s.ctl.state = 6 then (w.extractLsb' 4 2).toNat else s.ctl.bank) ∧
          ((w.extractLsb' 0 3).toNat = 0 → t.ctl.fallback = false) ∧ sameStores s t ∧ sameMeasuring s t ∧ t.pro = s.pro) ∧
      (∀ w : Word, stateOk [3] s = true →
        writes (.ctlSpHostWrite r w) r (modCtl fun c => { c with spHost := w.toInt, hostStale := false, spRun := true }) s) ∧
      ∀ w : Word, (w.extractLsb' 0 16).toNat ≤ 10000 →
        ∃ t, exec (.aoHostWrite r w) s = .next t ∧ t.ev = s.ev ∧ t.out = [.response r.ctx r.tag 0x0D02 stOk []] ∧
          stillFor r.ctx t = stillFor r.ctx { s with ctl := { s.ctl with aoHost := (w.extractLsb' 0 16).toNat, aoOut := t.ctl.aoOut } } ∧
          (s.cfgCtl.aoMode = 1 → t.ctl.aoOut = (w.extractLsb' 0 16).toNat) ∧ (s.cfgCtl.aoMode = 0 → t.ctl.aoOut = 0))

/-- For every settled state but DORMANT and heard ENGINEER request: counters are zeroed by CNT_CLR alone; a link switched off in
MAINTAIN is off and down; SES_CTRL with CLOSE ends the named session of another host with cause 3, flushes and unbinds its queues;
QUE_QCTRL sets QWIN and TAIL_TMO and flushes with FLUSH; PAI_CTRL holds off where PAI is fitted; DEBUG_EN takes its bit in SERVICE
and MAINTAIN; FLUSH_REQ triggers a flush. What a write does not name stays. (R306, R308, R326, R332, R361, R385, R404, R452, R453,
10_uplinks.md) -/
def Obligations.InterfaceControlWrites : Prop :=
  ∀ (r : Req) (s : State), mayWrite r s →
    (∀ (w : Word) (c : Instr), c = .uplCntClr r w ∨ c = .linkAOff r w ∨ c = .linkBOff r w →
      (w.getLsbD 0 = false → w.getLsbD 1 = false → ((s.upl.a.off = false ∧ s.upl.b.off = false) ∨ stateOk [4] s = true) →
        writes c r (modUpl fun u => { u with
          a := { u.a with off := false }, b := { u.b with off := false }
          cnt := if w.getLsbD 2 then List.replicate 10 0 else u.cnt }) s) ∧
      ((w.getLsbD 0 ^^ w.getLsbD 1) = true → stateOk [4] s = true →
        ∃ t, exec c s = .next t ∧ (Out.response r.ctx r.tag 0x0D02 stOk []) ∈ t.out ∧ t.upl.a.off = w.getLsbD 0 ∧
          t.upl.b.off = w.getLsbD 1 ∧ (w.getLsbD 0 = true → t.upl.a.up = false ∧ t.upl.b.up = s.upl.b.up) ∧
          (w.getLsbD 1 = true → t.upl.b.up = false ∧ t.upl.a.up = s.upl.a.up) ∧ sameStores s t ∧ t.pro = s.pro ∧ t.ctl = s.ctl)) ∧
    (∀ (w : Word) (c : Instr), c = .sesCntClr r w ∨ c = .sesClose r w →
      (w.getLsbD 16 = false → writes c r (fun s => { s with ses := { s.ses with
        cnt := if w.getLsbD 0 then List.replicate 6 0 else s.ses.cnt } }) s) ∧
      (w.getLsbD 16 = true → (w.extractLsb' 8 8) ≠ r.ctx → (s.sess (w.extractLsb' 8 8).toNat).opened = true →
        ∃ t, exec c s = .next t ∧ t.out = [.close (w.extractLsb' 8 8) 3, .response r.ctx r.tag 0x0D02 stOk []] ∧
          (t.sess (w.extractLsb' 8 8).toNat).opened = false ∧
          (∀ i, i < 64 → (t.queue i).bound = true → (t.queue i).ctx ≠ w.extractLsb' 8 8) ∧
          (∀ i, (s.queue i).ctx ≠ w.extractLsb' 8 8 → t.queue i = s.queue i) ∧
          t.ses.cnt = (if w.getLsbD 0 then List.replicate 6 0 else s.ses.cnt) ∧ sameStores s t ∧ sameMeasuring s t ∧ t.pro = s.pro ∧
          t.ctl = s.ctl)) ∧
    (∀ w : Word, writes (.queCntClr r w) r (fun s => { s with
      que := if w.getLsbD 0 then s.que.map fun q => { q with drop := 0, ce := 0, unc := 0 } else s.que }) s) ∧
    (∀ (q : Fin 64) (w : Word), 1 ≤ (w.extractLsb' 16 10).toNat → (w.extractLsb' 16 10).toNat ≤ 1000 → 1 ≤ (w.extractLsb' 8 8).toNat →
      ∃ t, exec (.queueFlush r q w) s = .next t ∧ t.out = [.response r.ctx r.tag 0x0D02 stOk []] ∧
        flagged (if w.getLsbD 0 then [(0x0F, 3)] else []) s t ∧ stillFor r.ctx t = stillFor r.ctx (modQ q.val (fun x =>
          let y := { x with tmo := (w.extractLsb' 16 10).toNat, qwin := (w.extractLsb' 8 8).toNat }
          if w.getLsbD 0 then Queue.flush y else y) s)) ∧
    (∀ (w : Word) (c : Instr), c = .holdOff r w ∨ c = .paiCntClr r w → hasPai s = true →
      writes c r (modPai fun p =>
        let p := { p with holdOff := w.getLsbD 0 }
        if w.getLsbD 1 then { p with epochFails := 0, fwdTx := 0, fwdRx := 0, fwdLate := 0, selectCnt := 0 } else p) s) ∧
    (∀ w : Word, (s.lcy.debugEn = w.getLsbD 0 ∨ (s.nv.lcy = 3 ∧ stateOk [4] s = true)) →
      writes (.debugEn r w) r (modLcy fun l => { l with debugEn := w.getLsbD 0 }) s) ∧
    (∀ (w : Word) (c : Instr), c = .flushReq r w ∨ c = .recCntClr r w →
      writes c r (modRec fun d =>
        let d := if w.getLsbD 0 then { d with due := true, again := d.again || d.flushing } else d
        if w.getLsbD 1 then { d with lostCnt := 0, foldCnt := 0, flushCnt := 0, unreadOvw := 0, snapLost := 0 } else d) s) ∧
    ∀ w : Word, writes (.hkpCntClr r w) r (modHkp fun h => { h with
      ecc := if w.getLsbD 0 then List.replicate 8 0 else h.ecc }) s

/-- For every settled state and heard request with no deferred command in the way. LCY_SET (SERVICE, LISTEN, an admitted
transition with its condition, CONFIRM the serial number): the target is the state, a wipe is pending where the transition wipes
and the answer waits, else it completes and every session closes. UPD_ACTIVATE (SERVICE, not RETIRED, an image to run, no
learning, string open or connected, engine at rest): outside a pair the mark is stored, the supervisor goes into reset and
sessions end; a holder hands over first. PAI_HANDOVER (OPERATOR, RUN or MAINTAIN, a fit standby): handover runs. (R387, R388,
R391, R396, R428, R34, 13_configuration_update.md, 14_redundant_pair.md) -/
def Obligations.LifeCycleAndActivationBegin : Prop :=
  ∀ (r : Req) (s : State), settled s →
    (∀ (b : Byte) (w : Word), heard r 0x0B02 3 s → stateOk [1] s = true → lcyAdmits s.nv.lcy b.toNat = true → lcyCond s b.toNat = true →
      w = BitVec.ofNat 32 s.fac.serial → deferredBusy 0x0B02 s = false →
      ∃ t, exec (.lcySet r b w) s = .next t ∧ (Out.response r.ctx r.tag 0x0B02 stOk []) ∈ t.out ∧ t.nv.lcy = b.toNat ∧
        t.nv.active = s.nv.active ∧ t.nv.creds = s.nv.creds ∧ t.cfg = s.cfg ∧ sameMeasuring s t ∧ t.pro = s.pro ∧ t.ctl = s.ctl ∧
        (s.nv.lcy = 3 → t.lcy.debugEn = false) ∧
        ((b.toNat = 1 ∨ b.toNat = 4) → t.nv.wipePending = true ∧ t.nv.wipeFrom = s.nv.lcy ∧ (running 0x0B02 t).isSome = true ∧
          t.ev = s.ev) ∧
        ((b.toNat = 2 ∨ b.toNat = 3) → t.nv.wipePending = false ∧ t.nv.lcyLast = 0 ∧
          (Out.completion r.ctx r.tag 0x0B02 stOk []) ∈ t.out ∧ ∀ c, c < 256 → (t.sess c).opened = false)) ∧
    (heard r 0x0A03 3 s → s.nv.lcy ≠ 4 → stateOk awake s = true → engineRuns s = false → (stagedMajor s = true → s.pro.conn = 0) →
      ((stagedImage s).isSome = true ∨ s.nv.alternate.isSome = true) → s.bal.learn = none → (s.pro.conn = 0 ∨ s.pro.conn = 5) →
      deferredBusy 0x0A03 s = false →
      ∃ t, exec (.updActivate r) s = .next t ∧ (Out.response r.ctx r.tag 0x0A03 stOk []) ∈ t.out ∧
        t.nv = { s.nv with mark := if (stagedImage s).isSome then 1 else 2 } ∧ t.recd.due = true ∧ t.cfg = s.cfg ∧ t.units = s.units ∧
        t.pro.kA = s.pro.kA ∧ t.pro.kB = s.pro.kB ∧
        (inPair s = false → t.lcy.spcDown = true ∧ t.lcy.spcCause = 2 ∧ t.ses.deferred = [] ∧ t.image = {} ∧ t.ctl.spHost = 0 ∧
          ∀ c, c < 256 → (t.sess c).opened = false) ∧
        (inPair s = true → s.pai.select = true → t.pai = { s.pai with handover := true, activate := true } ∧
          (running 0x0A03 t).isSome = true ∧ t.lcy = s.lcy ∧ t.ctl = s.ctl ∧ t.pro = s.pro ∧ sameMeasuring s t)) ∧
    (heard r 0x0C02 1 s → stateOk [3, 4] s = true → hasStandby s = true → s.pai.handover = false → deferredBusy 0x0C02 s = false →
      ∃ t, exec (.paiHandover r) s = .next t ∧ t.out = [.response r.ctx r.tag 0x0C02 stOk []] ∧ t.ev = s.ev ∧
        t.pai = { s.pai with handover := true } ∧ (running 0x0C02 t).isSome = true ∧ sameStores s t ∧ sameMeasuring s t ∧
        t.pro = s.pro ∧ t.ctl = s.ctl ∧ t.pwr = s.pwr)

/-- For every settled state and heard request. REC_READ of 1 to 21 records from an index answers those held from there, none below
OLDEST, and moves EXPORT_MARK past them where the first is not beyond it. ENUM_PORT (ENGINEER, SURVEY or MAINTAIN, ports present):
each named port goes to service cycles with no unit present and its walk to come, its CSEQ series going on; every other port
stays; the COMPLETION comes once every named port is ready, at once where none is named. UNIT_DIAG of a present unit that commands
reach queues DIAG_READ and waits. An opcode the table does not name answers FORMAT and nothing else moves. (R459, R460, R74, R72,
R62, 16_recorder_health.md, 02_brynkai_link.md, 11_mailbox.md) -/
def Obligations.RecordsPortsAndUnitsAnswerTheHost : Prop :=
  ∀ (r : Req) (s : State), settled s →
    (∀ (first : Nat) (n : Byte), heard r 0x0902 0 s → stateOk awake s = true → 1 ≤ n.toNat → n.toNat ≤ 21 →
      let a := max first s.recNv.oldest
      let l := ((s.recNv.records ++ s.recd.ring).filter fun x => decide (a ≤ x.index)).take n.toNat
      answersDoing (.recRead r first n) r 0x0902
        (le 8 (if l.isEmpty then first else a) ++ le 1 l.length ++ [0, 0, 0] ++ l.flatMap recordBytes)
        (modRecNv fun v => match l.head?, l.getLast? with
          | some x, some y => if x.index ≤ v.exportMark then { v with exportMark := y.index + 1 } else v
          | _, _ => v) s) ∧
    (∀ (low : Word) (high : Half), let mask : BitVec 48 := high ++ low
      heard r 0x0E01 2 s → stateOk [2, 4] s = true → deferredBusy 0x0E01 s = false →
      s.prt.length = 48 → (∀ p, p < 48 → mask.getLsbD p = true → portPresent s p = true) →
      ∃ t, exec (.enumPort r low high) s = .next t ∧ (Out.response r.ctx r.tag 0x0E01 stOk []) ∈ t.out ∧
        (mask = 0 → (Out.completion r.ctx r.tag 0x0E01 stOk [0, 0, 0, 0, 0, 0]) ∈ t.out) ∧
        (mask ≠ 0 → commands s = true → (running 0x0E01 t).map Deferred.arg = some mask.toNat) ∧
        t.cfg = s.cfg ∧ t.nv = s.nv ∧ t.pro.kA = s.pro.kA ∧ t.pro.kB = s.pro.kB ∧ t.ctl = s.ctl ∧
        ∀ p, p < 48 →
          (mask.getLsbD p = false → t.port p = s.port p) ∧
          (mask.getLsbD p = true → (t.port p).link = 1 ∧ (t.port p).waiting = [] ∧ (t.port p).ringDly = none ∧
            (t.port p).svc.phase = (if commands s then .lock else .follow) ∧ (t.port p).cseqAll = (s.port p).cseqAll ∧
            (t.port p).cnt = (s.port p).cnt ∧ (t.port p).pos.length = (s.port p).pos.length ∧
            ∀ x ∈ (t.port p).pos, x.present = false ∧ x.dlyN = none ∧ x.dlyS = none)) ∧
    (∀ u page : Byte, heard r 0x0E02 0 s → stateOk measuring s = true → u.toNat < 192 → u.toNat % 4 < 3 →
      portPresent s (u.toNat / 4) = true → (s.pos (u.toNat / 4) (u.toNat % 4)).present = true → page.toNat ≤ 1 → commands s = true →
      ownReach s (3 * (u.toNat / 4) + u.toNat % 4) = true →
      ∃ t, exec (.unitDiag r u page) s = .next t ∧ t.out = [] ∧ t.ev = s.ev ∧ stillFor r.ctx t = stillFor r.ctx
        { modPort (u.toNat / 4) (fun x => { x with waiting := x.waiting ++
            [{ pri := 4, dst := u, opc := 0x50, data := [page] }] }) s with
          ses := { s.ses with deferred := s.ses.deferred ++ [{ op := 0x0E02, ctx := r.ctx, gen := (s.sess r.ctx.toNat).gen, tag := r.tag
                                                               at_ := s.smp.timeNs, arg := 3 * (u.toNat / 4) + u.toNat % 4 }] } }) ∧
    ∀ op : Half, opcodes.contains op.toNat = false → heard r op.toNat 0 s →
      ∃ t, exec (.unknownOpcode r op) s = .next t ∧ t.out = [.response r.ctx r.tag op.toNat stFormat []] ∧ t.ev = s.ev ∧
        stillFor r.ctx t = stillFor r.ctx s

/-- For every settled state with the supervisor up. HELLO below 16 in the second: of wrong form it is answered REJECT FORMAT;
else, where the life cycle admits the role, with a free context, fewer than 32 half-open ones, no half-open one of the same host
and no SERVICE session against a SERVICE request, the lowest free context is half-open with the next GEN and is challenged.
CONFIRM of a half-open context of known credential: the right MAC_I opens it, ACCEPT follows, HS_OK counts; another frees it with
REJECT AUTH, HS_FAIL counts; the sender of either record is the one that a REJECT answers. HS_TIMEOUT frees it. GEN stays; no
other context moves. The cryptographic functions are uninterpreted (log entry 5). (R322, R323, R385, 10_uplinks.md) -/
def Obligations.HandshakeOpensOneContext : Prop :=
  ∀ s : State, settled s → spcUp s = true →
    (∀ h : HelloRec, (s.ses.helloSec = s.smp.timeNs / 1000000000 → s.ses.helloN < 16) →
      (h.wellFormed = false → effect (.hello h) (fun s => { s with ses := { s.ses with
          src := h.src, helloSec := s.smp.timeNs / 1000000000
          helloN := (if s.ses.helloSec = s.smp.timeNs / 1000000000 then s.ses.helloN else 0) + 1 } }) [] [.reject 0 0 stFormat] s) ∧
      (∀ c, h.wellFormed = true → admitsRole s h.role.toNat = true → freeCtx s = some c → c < s.ses.ctx.length → halfCount s < 32 →
        (h.role = 3 → ∀ x ∈ s.ses.ctx, x.opened = true → x.role ≠ 3) →
        (∀ i, i < 256 → (s.sess i).half = true → (s.sess i).cred = h.credId → (s.sess i).ri ≠ h.ri) →
        ∃ t b, exec (.hello h) s = .next t ∧ t.out = [.challenge (BitVec.ofNat 8 c) ((s.sess c).gen + 1) b] ∧ t.ev = s.ev ∧
          (t.sess c).half = true ∧ (t.sess c).opened = false ∧ (t.sess c).gen = (s.sess c).gen + 1 ∧ (t.sess c).cred = h.credId ∧
          (t.sess c).role ≤ h.role.toNat ∧ (t.sess c).challenge = b ∧ (∀ i, i ≠ c → t.sess i = s.sess i) ∧
          sameStores s t ∧ sameMeasuring s t ∧ t.pro = s.pro ∧ t.ctl = s.ctl ∧ t.que = s.que)) ∧
    (∀ (c gen : Byte) (mac : Bytes) (a : HostAddr), (s.sess c.toNat).half = true → (s.sess c.toNat).gen = gen → c.toNat < s.ses.ctx.length →
      let x := s.sess c.toNat
      (x.known = true → x.dhZero = false → mac = Config.hmacSha256 x.kmI (x.th ++ x.macM) →
        effect (.confirm c gen ⟨mac, a⟩) (fun s => modSess c.toNat
          (fun x => { x with opened := true, half := false, lastRx := s.smp.timeNs, addr := a })
          { s with ses := { s.ses with src := a, cnt := bumpAt s.ses.cnt 0 } }) [(0x0E, 0)] [.accept c (acceptBody s x.role)] s) ∧
      ((x.known = false ∨ x.dhZero = true ∨ mac ≠ Config.hmacSha256 x.kmI (x.th ++ x.macM)) →
        effect (.confirm c gen ⟨mac, a⟩) (fun s => modSess c.toNat (fun x => { gen := x.gen })
          { s with ses := { s.ses with src := a, cnt := bumpAt s.ses.cnt 1 } }) [(0x0E, 2)] [.reject c gen stAuth] s)) ∧
    ∀ c : Byte, (s.sess c.toNat).half = true →
      effect (.hsTimeout c) (modSess c.toNat fun x => { gen := x.gen }) [(0x0E, 3)] [] s

/-- For every settled state in which the module runs. HOST_CLOSE whose record is of a known type, long enough, of an open context
with the right GEN, a fresh SEQ and the right tag completes: the context is closed without an answer. SES_IDLE_TIMEOUT and
SES_LIFETIME_EXPIRY of an open context complete: CLOSE with cause 1 and 2 is sent and the context is closed. A closed context
keeps its GEN and the host's address, for its CLOSE; no request of it waits; each queue bound to it is flushed and unbound; CLOSED
is flagged; queues and contexts of others, the stores, what measures, PRO, CTL and the power state stay. A HOST_CLOSE record too
short, of an unknown type, of a closed context or with another GEN is discarded and counted in RX_DISCARD alone; one with a SEQ
outside the window counts in REPLAY too and raises its flag, one with a wrong tag in TAG_FAIL and raises that flag. (R324, R326,
R332, 10_uplinks.md) -/
def Obligations.SessionsCloseAndFreeTheirQueues : Prop :=
  ∀ s : State, settled s → alive s = true →
    let closed (c : Byte) (a : HostAddr) (t : State) : Prop :=
      t.sess c.toNat = { gen := (s.sess c.toNat).gen, addr := a } ∧ (∀ e ∈ t.ses.waiting, e.1 ≠ c) ∧
        (∀ i, i < 64 → (s.queue i).bound = true → (s.queue i).ctx = c →
          t.queue i = { Queue.flush (s.queue i) with bound := false, stalled := false }) ∧
        (∀ i, ((s.queue i).bound = false ∨ (s.queue i).ctx ≠ c) → t.queue i = s.queue i) ∧ (∀ i, i ≠ c.toNat → t.sess i = s.sess i) ∧
        (t.event 0x0E) = (setFlag 0x0E 1 s).event 0x0E ∧
        sameStores s t ∧ sameMeasuring s t ∧ t.pro = s.pro ∧ t.ctl = s.ctl ∧ t.pwr = s.pwr
    (∀ (h : RecHdr) (b : Bytes),
      ((h.known = true ∧ 28 ≤ h.len ∧ (s.sess h.ctx.toNat).opened = true ∧ (s.sess h.ctx.toNat).gen = h.gen ∧
        seqFresh (s.sess h.ctx.toNat) h.seq = true ∧
          h.tag = Config.gcmTag (s.sess h.ctx.toNat).kIn ((s.sess h.ctx.toNat).nIn ++ le 8 h.seq) (recordAad h 0x14) b) →
        ∃ t, exec (.hostClose h b) s = .next t ∧ t.out = [] ∧ closed h.ctx h.src t) ∧
      ((h.known = false ∨ h.len < 28 ∨ (s.sess h.ctx.toNat).opened = false ∨ (s.sess h.ctx.toNat).gen ≠ h.gen) →
        effect (.hostClose h b) (fun s => { s with ses := { s.ses with cnt := bumpAt s.ses.cnt 5 } }) [] [] s) ∧
      ((h.known = true ∧ 28 ≤ h.len ∧ (s.sess h.ctx.toNat).opened = true ∧ (s.sess h.ctx.toNat).gen = h.gen ∧
          seqFresh (s.sess h.ctx.toNat) h.seq = false) →
        effect (.hostClose h b) (fun s => { s with ses := { s.ses with cnt := bumpAt (bumpAt s.ses.cnt 4) 5 } }) [(0x0E, 7)] [] s) ∧
      ((h.known = true ∧ 28 ≤ h.len ∧ (s.sess h.ctx.toNat).opened = true ∧ (s.sess h.ctx.toNat).gen = h.gen ∧
          seqFresh (s.sess h.ctx.toNat) h.seq = true ∧
          h.tag ≠ Config.gcmTag (s.sess h.ctx.toNat).kIn ((s.sess h.ctx.toNat).nIn ++ le 8 h.seq) (recordAad h 0x14) b) →
        effect (.hostClose h b) (fun s => { s with ses := { s.ses with cnt := bumpAt (bumpAt s.ses.cnt 3) 5 } }) [(0x0E, 6)] [] s)) ∧
    ∀ c : Byte, (s.sess c.toNat).opened = true →
      (∃ t, exec (.sesIdleTimeout c) s = .next t ∧ t.out = [.close c 1] ∧ closed c (s.sess c.toNat).addr t) ∧
      ∃ t, exec (.sesLifetimeExpiry c) s = .next t ∧ t.out = [.close c 2] ∧ closed c (s.sess c.toNat).addr t

/-- For every settled state in which the module runs. STREAM_RECORD_SEND of a bound queue of an open session with its window open
and 174 words, a timeout or an earlier tail move: one record with the next RSEQ carries the oldest words, at most 174, which leave
the queue in order; an empty queue stalls its reader; a single-bit error among the words read is corrected and counted in QCE, an
uncorrectable word is counted in QUNC, its item is lost and GAP with cause 3 is due. STREAM_ACK in an accepted record, of a queue
of the session and a record already sent, moves the acknowledged RSEQ. QUE_TAIL_TMO marks a queue that holds words and keeps them
in order. SOP_LIMITS goes to every session subscribed to class 2, numbered by its NSEQ. Other queues stay. (R324, R329, R330,
R331, R333, R353, 10_uplinks.md) -/
def Obligations.StreamsSendAckAndNotify : Prop :=
  ∀ s : State, settled s → alive s = true →
    (∀ (i : Fin 64) (timeout : Bool), (s.queue i.val).bound = true → (s.sess (s.queue i.val).ctx.toNat).opened = true →
      let q := s.queue i.val
      (q.held = 0 → effect (.streamRecordSend i none timeout) (modQ i.val fun x => { x with stalled := true }) [] [] s) ∧
      (0 < q.held → (q.rseq - q.acked).toNat < q.qwin → (174 ≤ q.held ∨ timeout = true ∨ q.waited = true) →
        ∃ t, exec (.streamRecordSend i none timeout) s = .next t ∧ t.ev = s.ev ∧
          t.out = [.stream q.ctx i.val (q.rseq + 1) (BitVec.ofNat 32 q.windex) (hdrOfs (q.words.take 174)) ((q.words.take 174).map Prod.fst)] ∧
          (t.queue i.val).words = q.words.drop 174 ∧ (t.queue i.val).rseq = q.rseq + 1 ∧
          (t.queue i.val).windex = q.windex + (q.words.take 174).length ∧ (t.queue i.val).acked = q.acked ∧
          (∀ j, j ≠ i.val → t.queue j = s.queue j) ∧ sameStores s t ∧ sameMeasuring s t ∧ t.pro = s.pro ∧ t.ctl = s.ctl) ∧
      (∀ k : Nat, k < min 174 q.held → (q.rseq - q.acked).toNat < q.qwin → (174 ≤ q.held ∨ timeout = true ∨ q.waited = true) →
        (∃ t, exec (.streamRecordSend i (some (k, true)) timeout) s = .next t ∧ (t.queue i.val).ce = satAdd q.ce 1 ∧
          (t.queue i.val).unc = q.unc ∧ (t.queue i.val).words = q.words.drop 174 ∧ (t.queue i.val).rseq = q.rseq + 1) ∧
        ∃ t, exec (.streamRecordSend i (some (k, false)) timeout) s = .next t ∧ (t.queue i.val).ce = q.ce ∧
          (t.queue i.val).unc = satAdd q.unc 1 ∧ (t.queue i.val).lost = satAdd q.lost 1 ∧ (t.queue i.val).cause = 3)) ∧
    (∀ (h : RecHdr) (q : Byte) (n : Word), h.known = true → 28 ≤ h.len → (s.sess h.ctx.toNat).opened = true →
      (s.sess h.ctx.toNat).gen = h.gen → seqFresh (s.sess h.ctx.toNat) h.seq = true →
      h.tag = Config.gcmTag (s.sess h.ctx.toNat).kIn ((s.sess h.ctx.toNat).nIn ++ le 8 h.seq) (recordAad h 0x12) ([q, 0, 0, 0] ++ leW n) →
      (s.queue q.toNat).bound = true → (s.queue q.toNat).ctx = h.ctx →
      (n - (s.queue q.toNat).acked).toNat ≤ ((s.queue q.toNat).rseq - (s.queue q.toNat).acked).toNat →
      effect (.streamAck h ([q, 0, 0, 0] ++ leW n)) (fun s => modQ q.toNat (fun x => { x with acked := n })
        (modSess h.ctx.toNat (fun x => { seqTake x h.seq with lastRx := s.smp.timeNs, addr := h.src }) s)) [] [] s) ∧
    (∀ i : Fin 64, 0 < (s.queue i.val).held →
      ∃ t, exec (.queTailTmo i) s = .next t ∧ t.out = [] ∧ t.ev = s.ev ∧ (t.queue i.val).waited = true ∧
        (t.queue i.val).words = (s.queue i.val).words ∧ (∀ j, j ≠ i.val → t.queue j = s.queue j) ∧
        still { t with que := [] } = still { s with que := [] }) ∧
    effect .sopLimits id []
      (((List.range 256).filter fun c => subscribed (s.sess c) 2).map fun c =>
        .notice (BitVec.ofNat 8 c) 2 0x20 ((s.sess c).nseq + 1) s.smp.timeNs
          (leW s.est.tick ++ leW s.est.iCh ++ leW s.est.iDis ++ leW s.est.pCh ++ leW s.est.pDis ++ leW s.est.limGroup)) s

/-- For every settled state in which the module runs. On a link that is up a frame with a wrong FCS counts in FCS alone; one of
another length or VLAN counts in RX alone; a first copy with a valid RCT from an unknown source enters the node table, a second
copy within 400 ms counts in PRP_DUP. The supervision timer sends one frame per link, NODE_FORGET_TIME drops the source. ICMP echo
up to 64 bytes is answered 10 times a second, else counted; ARP and neighbour solicitation are answered for the module's own
addresses; a DHCPv4 offer is requested and the reply to that request taken in that mode (log entry 70); a TC10 sleep request is
rejected. Nothing else moves. (R307, R310, R312, R313, R314, 10_uplinks.md) -/
def Obligations.FramesAreCountedDeduplicatedAndAnswered : Prop :=
  ∀ s : State, settled s → alive s = true →
    (∀ (l : Link) (f : EthFrame), (uplink s l).up = true →
      (f.fcsOk = false → effect (.ethernetFrameReceived l f) (modUpl fun u => { u with cnt := bumpAt u.cnt (2 + linkIdx l) }) [] [] s) ∧
      (f.fcsOk = true → (1506 < f.len ∨ (f.vid ≠ none ∧ f.vid ≠ some 0)) →
        effect (.ethernetFrameReceived l f) (modUpl fun u => { u with cnt := bumpAt u.cnt (linkIdx l) }) [] [] s) ∧
      (∀ seq, f.fcsOk = true → f.len ≤ 1506 → f.vid = none → f.body = .other → f.rct = some (seq, 0xA + linkIdx l) →
        (s.upl.nodes.find? (fun n => n.mac == f.src) = none → s.upl.nodes.length < 128 →
          effect (.ethernetFrameReceived l f) (modUpl fun u => { u with
            cnt := bumpAt u.cnt (linkIdx l), nodes := { mac := f.src, seen := [(seq, s.smp.timeNs)] } :: u.nodes }) [] [] s) ∧
        (∀ n, s.upl.nodes.find? (fun n => n.mac == f.src) = some n →
          (n.seen.any fun e => e.1 == seq && decide (s.smp.timeNs ≤ e.2 + 400000000)) = true →
          ∃ t, exec (.ethernetFrameReceived l f) s = .next t ∧ t.out = [] ∧ t.ev = s.ev ∧
            t.upl.cnt = bumpAt (bumpAt s.upl.cnt (linkIdx l)) 4 ∧ t.upl.nodes.map PrpNode.mac = s.upl.nodes.map PrpNode.mac ∧
            still { t with upl := s.upl } = still s))) ∧
    effect .prpSupervision id [] [.supervision .A, .supervision .B] s ∧
    (∀ mac, effect (.nodeForgetTime mac) (modUpl fun u => { u with nodes := u.nodes.filter fun n => n.mac != mac }) [] [] s) ∧
    (∀ (v6 : Bool) (n : Nat),
      let sec := s.smp.timeNs / 1000000000
      let k := if s.upl.icmpSec = sec then s.upl.icmpN else 0
      if n ≤ 64 ∧ k < 10 then
        effect (.icmpEchoRequest v6 n) (modUpl fun u => { u with icmpSec := sec, icmpN := k + 1 }) [] [.echoReply v6 n] s
      else effect (.icmpEchoRequest v6 n) (modUpl fun u => { u with cnt := bumpAt u.cnt 9 }) [] [] s) ∧
    (∀ ip, effect (.arpRequest ip) id [] (if ip = s.upl.ip4 ∧ ip ≠ 0 then [.arpReply ip] else []) s) ∧
    (∀ ip, effect (.neighbourSolicitation ip) id []
      (if ip = linkLocal s ∨ (ip = global6 s ∧ ip ≠ 0) then [.neighbourAdvert ip] else []) s) ∧
    (∀ a m g, effect (.dhcpv4Reply a m g)
      (modUpl fun u =>
        if s.net.ip4Mode ≠ 1 then u
        else if u.dhcp = 1 then { u with dhcp := 2, offered := a }
        else if u.dhcp = 2 ∧ u.offered = a then { u with dhcp := 3, ip4 := a, ip4Mask := m, ip4Gw := g }
        else u) [] (if s.net.ip4Mode = 1 ∧ s.upl.dhcp = 1 then [.dhcpRequest a] else []) s) ∧
    ∀ l, effect (.tc10SleepRequest l) id [] [.sleepReject l] s

/-- For every settled state in which the module runs. Messages of another domain and a Sync whose interval lies outside 1/16 s to
1 s are ignored. The first ANNOUNCE selects its link and publishes its grandmaster; one of the grandmaster that the other link's
master names keeps the selection, at the start link A; of two grandmasters the one of the smaller priority1 is selected (log
entries 62 and 70). The receipt timeout of the selected link moves the selection to the other link's master or to none. SYNC of
valid PTP stores the offset with the link's asymmetry (its sign: log entry 62), and on the selected link offers the phase error
over crossing 0x20; module time moves with its delivery. PTP_VALID_TIMEOUT makes PTP invalid on the selected link, and a locked
timebase that follows no peer goes to holdover. A path delay is stored. The timer asks on both links, a request on a link that is
up is answered in two steps. A link that falls or comes up changes itself and its flag; with a link up a DHCPv4 client without an
address asks for one. (R306, R317, R318, R319, R116, 10_uplinks.md, 04_sampling.md) -/
def Obligations.PtpFollowsItsLinks : Prop :=
  ∀ s : State, settled s → alive s = true →
    (∀ (l : Link) (m : Master) (b : Bool), m.domain ≠ s.net.domain → effect (.announce l m b) id [] [] s) ∧
    (∀ (l : Link) (e : Int) (d : Nat) (n : Int), (d ≠ s.net.domain ∨ n < -4 ∨ 0 < n) → effect (.sync l ⟨e, d, n⟩) id [] [] s) ∧
    (∀ (l : Link) (m o : Master) (b : Bool), (uplink s l).up = true → m.domain = s.net.domain → s.upl.sel = linkIdx (otherLink l) + 1 →
      (uplink s (otherLink l)).master = some o → o.gm = m.gm →
      ∃ t, exec (.announce l m b) s = .next t ∧ t.upl.sel = (if s.upl.ptpStarted then s.upl.sel else 1) ∧ (uplink t l).master = some m ∧
        sameStores s t ∧ t.pro = s.pro) ∧
    (∀ (l : Link) (m o : Master) (b : Bool), (uplink s l).up = true → m.domain = s.net.domain → (uplink s (otherLink l)).master = some o →
      o.gm ≠ m.gm → m.prio1 ≠ o.prio1 →
      ∃ t, exec (.announce l m b) s = .next t ∧ t.upl.sel = (if m.prio1 < o.prio1 then linkIdx l else linkIdx (otherLink l)) + 1 ∧
        (uplink t l).master = some m ∧ sameStores s t ∧ t.pro = s.pro) ∧
    (∀ (l : Link) (m : Master) (b : Bool), (uplink s l).up = true → m.domain = s.net.domain → s.upl.sel = 0 →
      (uplink s (otherLink l)).master = none →
      ∃ t, exec (.announce l m b) s = .next t ∧ (uplink t l).master = some m ∧ t.upl.sel = linkIdx l + 1 ∧ t.upl.gm = some m ∧
        (uplink t l).ptp = 9 ∧ sameStores s t ∧ t.pro = s.pro ∧ t.ctl = s.ctl) ∧
    (∀ l : Link, (uplink s l).master.isSome = true → s.upl.sel = linkIdx l + 1 →
      ∃ t, exec (.announceReceiptTimeout l) s = .next t ∧ (uplink t l).master = none ∧
        t.upl.sel = (if (uplink s (otherLink l)).master.isSome then linkIdx (otherLink l) + 1 else 0) ∧
        t.upl.gm = (uplink s (otherLink l)).master ∧ sameStores s t ∧ t.pro = s.pro ∧ t.ctl = s.ctl) ∧
    (∀ (l : Link) (e n : Int), -4 ≤ n → n ≤ 0 → (uplink s l).up = true → s.upl.ptpValid = true → ptpGood s = true →
      let e' := e + (match l with | .A => s.net.asymA | .B => s.net.asymB)
      ∃ t, exec (.sync l ⟨e, s.net.domain, n⟩) s = .next t ∧ (uplink t l).offset = -e' ∧ (uplink t l).syncOk = true ∧ t.upl.ptpValid = true ∧
        (s.upl.sel = linkIdx l + 1 → 0x20 < s.xng.xrec.length → (t.xr 0x20).cur = some (.phase e')) ∧
        (s.upl.sel ≠ linkIdx l + 1 → t.xr 0x20 = s.xr 0x20) ∧ t.smp = s.smp ∧
        sameStores s t ∧ t.pro = s.pro ∧ t.ctl = s.ctl) ∧
    (∀ (l : Link) (pdelay : Bool), (uplink s l).up = true → s.upl.sel = linkIdx l + 1 → s.upl.ptpValid = true →
      ∃ t, exec (.ptpValidTimeout ⟨l, pdelay⟩) s = .next t ∧ (uplink t l).pdelayOk = (!pdelay && (uplink s l).pdelayOk) ∧
        (uplink t l).syncOk = (pdelay && (uplink s l).syncOk) ∧ t.upl.ptpValid = false ∧ (uplink t (otherLink l)) = uplink s (otherLink l) ∧
        (s.pai.follower = false → s.smp.tb = 2 → t.smp.tb = 3 ∧ t.smp.holdTime = 0) ∧
        (s.pai.follower = true → t.smp = s.smp) ∧ sameStores s t ∧ t.pro = s.pro ∧ t.ctl = s.ctl) ∧
    effect .pdelayReqTimer id [] [.pdelayReq .A, .pdelayReq .B] s ∧
    (∀ l, (uplink s l).up = true → effect (.pdelayReq l) id [] [.pdelayResp l, .pdelayRespFollowUp l] s) ∧
    (∀ (l : Link) (d : Nat), (uplink s l).up = true → s.upl.sel ≠ linkIdx l + 1 → ptpGood s = s.upl.ptpValid →
      effect (.pdelayResp l d) (modLink l fun x => { x with pdelay := d, pdelayOk := true }) [] [] s) ∧
    (∀ l, (uplink s l).up = true → effect (.linkStateChange l false) (modLink l fun x => { x with up := false }) [(0x0D, linkIdx l)] [] s) ∧
    ∀ l, (uplink s l).up = false → (uplink s l).off = false →
      let asks : Bool := s.net.ip4Mode == 1 && s.upl.dhcp != 3
      effect (.linkStateChange l true) (fun s => modUpl (fun u => { u with dhcp := if asks then 1 else u.dhcp })
        (modLink l (fun x => { x with up := true }) s)) [(0x0D, 2 + linkIdx l)] (if asks then [.dhcpDiscover] else []) s

/-- FEED_BACK with more than 60,000 mV faults with absoluteMaximum in every state: the spec gives the module no behaviour beyond
that rating. For every settled state of a powered module: FEED_LOST below 36 V and FEED_BACK from 38 to 60 V complete: the feed
has the voltage and its state, the other feed keeps both, the feed at the higher voltage alone carries a current, within 26 W, and
the feed's flag rises where the module runs; before the load shed FEED_BACK ends the hold-up and SUPPLY_LOST is no longer active.
SUPPLY_LOST below 36 V with no hold-up in course completes: hold-up runs, a flush is due, neither feed is present nor above that
voltage, and an armed PRO has SUPPLY_LOST active and, not latched before, opens as an OPEN action does. HOLDUP_LOAD_SHED in the
hold-up completes: the next stage of the hold-up runs, a flush is due, the module no longer runs, a driving engine is parked with
its gates off. Stores, units and what measures stay as stated. The fault is the model's choice (log entry 9); link A carries the
load where the voltages are equal (log entry 69), and the current is a free value (log entry 4). (R309, R456, R457, R472,
16_recorder_health.md, 10_uplinks.md) -/
def Obligations.FeedsAndHoldup : Prop :=
  ∀ s : State,
    (∀ (l : Link) (mv : Nat), 60000 < mv → exec (.feedBack l mv) s = .fault .absoluteMaximum) ∧ (settled s → s.pwr.ready = true →
    let carried (t : State) : Prop :=
      if t.upl.b.mv ≤ t.upl.a.mv then t.upl.b.ma = 0 ∧ t.upl.a.ma * t.upl.a.mv ≤ 26000000
      else t.upl.a.ma = 0 ∧ t.upl.b.ma * t.upl.b.mv ≤ 26000000
    let other (l : Link) (t : State) : Prop :=
      (uplink t (otherLink l)).mv = (uplink s (otherLink l)).mv ∧ (uplink t (otherLink l)).feedOk = (uplink s (otherLink l)).feedOk
    (∀ (l : Link) (mv : Nat), mv < 36000 →
      ∃ t, exec (.feedLost l mv) s = .next t ∧ (uplink t l).mv = mv ∧ (uplink t l).feedOk = false ∧ other l t ∧ carried t ∧
        flagged (if alive s then [(0x0D, 4 + linkIdx l)] else []) s t ∧ t.out = [] ∧ t.upl.holdup = s.upl.holdup ∧
        sameStores s t ∧ sameMeasuring s t ∧ t.pro = s.pro ∧ t.ctl = s.ctl) ∧
    (∀ (l : Link) (mv : Nat), 38000 ≤ mv → mv ≤ 60000 →
      ∃ t, exec (.feedBack l mv) s = .next t ∧ (uplink t l).mv = mv ∧ (uplink t l).feedOk = true ∧ other l t ∧ carried t ∧
        flagged (if alive s then [(0x0D, 6 + linkIdx l)] else []) s t ∧
        t.upl.holdup = (if s.upl.holdup = 1 then 0 else s.upl.holdup) ∧
        (s.upl.holdup = 1 → t.pro.active.getLsbD 0x1B = false) ∧ t.pro.latched = s.pro.latched ∧ t.pro.kA = s.pro.kA ∧
        t.pro.kB = s.pro.kB ∧ sameStores s t ∧ sameMeasuring s t ∧ t.ctl = s.ctl) ∧
    (∀ mv : Nat, mv < 36000 → s.upl.holdup = 0 →
      ∃ t, exec (.supplyLost mv) s = .next t ∧ t.upl.holdup = 1 ∧ t.recd.due = true ∧ t.upl.a.feedOk = false ∧ t.upl.b.feedOk = false ∧
        t.upl.a.mv ≤ mv ∧ t.upl.b.mv ≤ mv ∧ carried t ∧
        (s.pro.armed = true → s.pro.inReset = false → t.pro.active.getLsbD 0x1B = true ∧
          (s.pro.latched.getLsbD 0x1B = false → tripsWith 0x1B (!s.pro.aboveBreak && !s.pro.aboveNever) s t)) ∧
        ((s.pro.armed = false ∨ s.pro.inReset = true) → t.pro = s.pro) ∧
        t.cfg = s.cfg ∧ t.nv = s.nv ∧ t.fac = s.fac ∧ (s.pwr.target = none → sameMeasuring s t)) ∧
    (s.upl.holdup = 1 →
      ∃ t, exec .holdupLoadShed s = .next t ∧ t.upl.holdup = 2 ∧ alive t = false ∧ t.recd.due = true ∧
        (engineRuns s = true → stageOff t = true ∧ t.ctl.state = 1 ∧ t.ctl.stopCause = 2) ∧ sameStores s t ∧ sameMeasuring s t ∧
        t.pro = s.pro))

/-- For every state. POWER_UP of a module without power has that link's feed at 36 V and boots the module unless a BLANK one finds
TEST_MODE_N low, TC10_WAKE boots a DORMANT one, HOLDUP_END resets a module in hold-up and boots it where a feed is back, else
leaves it without power. After the boot the module is in LISTEN and ready, PCYC is one more, every contactor channel is released,
the power stage is off, no session is open, PENDING is empty; factory data, units and the wires' NV stay. A BLANK module with
TEST_MODE_N low stops in the boot. When a HOLDUP_END without a feed boots is the model's reading (log entry 30). (R309, R310,
R357, R365, R457, R479, 12_states_startup.md, 16_recorder_health.md) -/
def Obligations.PowerCyclesBootTheModule : Prop :=
  ∀ s : State,
    let booted (low : Bool) (t : State) : Prop :=
      if low = true ∧ s.nv.lcy = 0 then t.pwr.ready = false ∧ t.cap.factoryStop = true ∧ t.fac = s.fac ∧ t.nv.active = s.nv.active
      else t.pwr.ready = true ∧ t.pwr.state = 1 ∧ t.recNv.pcyc = (s.recNv.pcyc + 1) % 2 ^ 32 ∧ safe t = true ∧ t.fac = s.fac ∧
        t.units = s.units ∧ t.image = {} ∧ (∀ c, (t.sess c).opened = false) ∧ t.nv.wires = s.nv.wires ∧ t.nv.lcy = s.nv.lcy ∧
        t.upl.holdup = 0 ∧ t.pro.latched = 0
    (∀ (l : Link) (low : Bool), s.pwr.ready = false → ∃ t, exec (.powerUp l low) s = .next t ∧ booted low t ∧
      (uplink t l).mv = 36000 ∧ (uplink t l).feedOk = true) ∧
    (∀ l : Link, s.pwr.ready = true → s.pwr.state = 0 → ∃ t, exec (.tc10Wake l) s = .next t ∧ booted s.cap.testMode t) ∧
    (s.upl.holdup ≠ 0 → (s.upl.a.feedOk = true ∨ s.upl.b.feedOk = true) →
      ∃ t, exec .holdupEnd s = .next t ∧ booted s.cap.testMode t) ∧
    (s.upl.holdup ≠ 0 → s.upl.a.feedOk = false → s.upl.b.feedOk = false →
      ∃ t, exec .holdupEnd s = .next t ∧ t.pwr.ready = false ∧ safe t = true ∧ t.fac = s.fac ∧ t.recNv.pcyc = s.recNv.pcyc ∧
        t.recNv.ending ≠ 0 ∧ t.upl.holdup = 0)

/-- For every settled state in which the module runs. Without instants LINK_CYCLE moves module time by 62,500 ns and issues none;
with no port in service nothing is sent, and a module that commands sends, on the lane in use of each port that waits in service
cycles for its units, a DOWN frame of 8 bytes and its CRC with CAD 3, the cycle's index and no command, neither HOLD nor ENUM set.
While sampling, with no port in service and away from the whole millisecond, the next instant follows one cadence period on, its
index is its module time divided by the period, the cadence stays, and every sampling port sends on each of its own lanes a DOWN
frame with the index, the cadence and at most 3 commands, none and with HOLD on a module that does not command. Configurations and
factory data stay. That module time moves by 62,500 ns in a LINK_CYCLE while no port samples is the model's reading (log entry
49). (R47, R51, R54, R55, R77, R111, R112, R114, 02_brynkai_link.md, 04_sampling.md) -/
def Obligations.LinkCycleIssuesTheNextInstant : Prop :=
  ∀ (s : State) (obs : List LinkObs), settled s → alive s = true → obs.length = 48 →
    (cycling s = false → s.smp.started = false →
      ∃ t, exec (.linkCycle obs) s = .next t ∧ t.smp.timeNs = s.smp.timeNs + 62500 ∧ t.smp.started = false ∧
        t.cfg = s.cfg ∧ t.fac = s.fac ∧ t.ctl = s.ctl ∧ t.units = s.units ∧
        ((∀ p, p < nPorts s → (s.port p).link ≠ 1) → running 0x0E01 s = none →
          t.out = [] ∧ t.smp.instant = s.smp.instant ∧ t.nv = s.nv ∧ t.pro = s.pro) ∧
        (commands s = true → ∀ p, p < nPorts s → (s.port p).link = 1 → (s.port p).svc.phase = .wait → (s.port p).svc.jobs = [] →
          (s.port p).svc.n < startCycles →
          ∃ k flags, (Out.down p (s.port p).svc.lane k (downBytes (s.port p).svc.lane 3
            (t.smp.timeNs / 62500 % 2 ^ 32) flags p [])) ∈ t.out ∧ flags.getLsbD 0 = false ∧ flags.getLsbD 2 = false)) ∧
    (cycling s = true → s.smp.started = true → (∀ p, p < nPorts s → (s.port p).link ≠ 1) → (s.smp.lowCad = true → s.smp.cad = 2) →
      (s.smp.timeNs + tCad s.smp.cad) % 1000000 ≠ 0 → s.pwr.leaving = false →
      ∃ t, exec (.linkCycle obs) s = .next t ∧ t.smp.timeNs = s.smp.timeNs + tCad s.smp.cad ∧
        t.smp.instant = (s.smp.timeNs + tCad s.smp.cad) / tCad s.smp.cad ∧ t.smp.cad = s.smp.cad ∧ t.smp.lowCad = s.smp.lowCad ∧
        t.cfg = s.cfg ∧ t.nv = s.nv ∧ t.fac = s.fac ∧ t.units = s.units ∧
        ∀ p, p < nPorts s → (s.port p).link = 2 → ∀ l, laneOn s p l = true →
          ∃ k flags cmds, (Out.down p l k (downBytes l s.smp.cad (t.smp.instant % 2 ^ 32) flags p cmds)) ∈ t.out ∧ cmds.length ≤ 3 ∧
            (commands s = false → cmds = [] ∧ flags.getLsbD 0 = true))

/-- For every settled state in which the module runs and a present port. A CLOSED ring with 4 bad cycles becomes BROKEN or
INCOMPLETE with its break segment; with 16 good ones it is CLOSED again, RING_RESTORED rises, and where its delays cannot be
corrected in band SKEW_UNVERIFIED too. A lane of the module's quiet for 16 cycles is down. A present unit without 8 blocks is
stale, a BLEED_SET that waits for it goes, its stop is due, its flag is on its way over the crossing. A command with 3 retries and
4 cycles without answer is abandoned and counted; in sampling cycles one that is not of the planner's, PRO's or the host's leaves
nothing else. In service cycles an ECHO heard whole from the unit under probe, on the lane in use, gives the lane's delay, half of
the time less TURN, and ends the probe. RING_BROKEN, LANE_DOWN and CMD_TIMEOUT raise their flag; the ring and the ECHO leave other
ports as they were. (R59, R62, R64, R65, R66, R67, R230, 02_brynkai_link.md, 07_balancing.md) -/
def Obligations.PortEventsJudgeRingLanesAndUnits : Prop :=
  ∀ (s : State) (p : Fin 48), settled s → alive s = true → portPresent s p.val = true →
    ((s.port p.val).ring = 0 → 4 ≤ (s.port p.val).badRun →
      effect (.ringBroken p) (modPort p.val fun x => { x with
        ring := if allReached s p.val then 1 else 2, breakSeg := breakSegOf s p.val, lastBreak := breakSegOf s p.val
        wasIncomplete := x.wasIncomplete || !allReached s p.val }) [(20 + p.val, 2)] [] s) ∧
    ((s.port p.val).link = 2 → ((s.port p.val).ring = 1 ∨ (s.port p.val).ring = 2) → 16 ≤ (s.port p.val).goodRun →
      ∃ t, exec (.ringRestored p) s = .next t ∧ t.out = [] ∧ (t.port p.val).ring = 0 ∧
        (∀ q, q ≠ p.val → t.port q = s.port q) ∧ sameStores s t ∧ t.units = s.units ∧ t.smp = s.smp ∧ t.pro = s.pro ∧ t.ctl = s.ctl ∧
        ((s.port p.val).wasIncomplete = true ∨ split s p.val = true ∨ (s.port p.val).ringService = none →
          flagged [(20 + p.val, 3), (20 + p.val, 6)] s t ∧ ∀ x ∈ (t.port p.val).pos, x.skewUnv = true) ∧
        ((s.port p.val).wasIncomplete = false → split s p.val = false → (s.port p.val).ringService.isSome = true → (s.port p.val).returns = [] →
          flagged [(20 + p.val, 3)] s t ∧ (t.port p.val).pos = (s.port p.val).pos)) ∧
    (∀ l : Lane, (match l with | .N => (s.port p.val).downN = false ∧ 16 ≤ (s.port p.val).quietN ∧ ¬ (split s p.val = true ∧ role s = 2)
                                | .S => (s.port p.val).downS = false ∧ 16 ≤ (s.port p.val).quietS ∧ ¬ (split s p.val = true ∧ role s = 1)) →
      effect (.laneDown p l) (modPort p.val fun x => match l with | .N => { x with downN := true } | .S => { x with downS := true })
        [(20 + p.val, match l with | .N => 0 | .S => 1)] [] s) ∧
    ∀ c : Fin 3,
      ((s.pos p.val c.val).present = true → (s.pos p.val c.val).stale = false → 8 ≤ (s.pos p.val c.val).missRun →
        (s.port p.val).pos.length = 3 → 3 * p.val + c.val < s.bal.slots.length →
        ∃ t, exec (.unitStale p c) s = .next t ∧ (t.pos p.val c.val).stale = true ∧
          (t.bal.slots.getD (3 * p.val + c.val) {}).stopDue = true ∧ sameStores s t ∧ t.units = s.units ∧ t.smp = s.smp ∧ t.pro = s.pro) ∧
      ((s.pos p.val c.val).present = true → (s.pos p.val c.val).stale = false → 8 ≤ (s.pos p.val c.val).missRun →
        (s.bal.slots.getD (3 * p.val + c.val) {}).probe = 0 →
        effect (.unitStale p c) (fun s => withdraw (3 * p.val + c.val) 0xFFFF (portPulse p.val 0
          (modSlot (3 * p.val + c.val) (fun b => { b with stopDue := true })
            (modPos p.val c.val (fun y => { y with stale := true }) s)))) [] [] s) ∧
      (∀ k, (s.port p.val).link = 2 → (s.pos p.val c.val).cmd = some k → 3 ≤ k.tries → 4 ≤ k.age →
        (∃ t, exec (.cmdTimeout p c) s = .next t ∧ (t.pos p.val c.val).cmd = none ∧ (t.port p.val).cnt = bumpAt (s.port p.val).cnt 8 ∧
          sameStores s t) ∧
        (k.req.opc ≠ 0x30 → k.req.opc ≠ 0x40 → k.req.opc ≠ 0x50 →
          effect (.cmdTimeout p c) (modPort p.val fun x => { x with
            cnt := bumpAt x.cnt 8, pos := x.pos.modify c.val fun y => { y with cmd := none } }) [(20 + p.val, 8)] [] s)) ∧
      ∀ (l : Lane) (rx : Bits) (b : Bytes) (k : InFlight) (tx tr : Nat), (s.port p.val).link = 1 → laneOn s p.val l = true →
        hearLast rx = some (.frame b) → (b.getD 0 0) >>> 4 = 4 → b.getD 1 0 = addrOf p.val c.val →
        (s.pos p.val c.val).cmd = some k → k.req.opc = 0x04 → (s.port p.val).svc.lane = l → (s.port p.val).pos.length = 3 →
        let d := some (((((tr : Int) - tx - (match l with | .N => 30000000 | .S => 45000000)) / 2).toNat) % 2 ^ 24)
        ∃ t, exec (.echoReceived p l rx tx tr) s = .next t ∧ t.out = [] ∧ (t.pos p.val c.val).cmd = none ∧
          (t.pos p.val c.val).dlyN = (match l with | .N => d | .S => (s.pos p.val c.val).dlyN) ∧
          (t.pos p.val c.val).dlyS = (match l with | .N => (s.pos p.val c.val).dlyS | .S => d) ∧
          (∀ q, q ≠ p.val → t.port q = s.port q) ∧ sameStores s t ∧ t.units = s.units ∧ t.smp = s.smp ∧ t.pro = s.pro

/-- For every scrambler state but 0 and all bytes, the receiver finds in the bits of a window exactly the frame that a transmitter
put there behind its lead-in, and judges its bytes by CRC, type and length (the code-group table is the model's, log entry 53).
For every settled state in which the module runs, a present sampling port and a lane in use: a frame with a wrong CRC counts in
the lane's CRC counter, one with an invalid code group or of a reserved type in its symbol counter, one of the wrong length
nowhere (log entry 57); beside that the lane is locked, nothing else moves. A valid block of a present unit of the port with
another instant counts and raises its flag. The first block of the instant without a response, in time and with the crossing up,
is held for the frame; a unit that sends samples is no longer stale and one that does not stays as it was (log entry 64), its
status bits and its age on the lane follow. In service cycles an answer DONE to the assignment in flight fills its position. (R43,
R44, R45, R46, R60, R61, R64, R114, 02_brynkai_link.md, 04_sampling.md) -/
def Obligations.UpBlocksAreCheckedAndTaken : Prop :=
  (∀ (k : BitVec 11) (b : Bytes), k ≠ 0 → hearLast (frameBits k b) = some (checkFrame b)) ∧
  ∀ (s : State) (p : Fin 48) (l : Lane) (rx : Bits), settled s → alive s = true → portPresent s p.val = true → s.smp.started = true →
    laneOn s p.val l = true →
    let i := match l with | .N => 0 | .S => 1
    let lock (x : Port) : Port := match l with | .N => { x with lkN := true } | .S => { x with lkS := true }
    let seen (x : Port) : Port := match l with | .N => { x with seenN := true, downN := false } | .S => { x with seenS := true, downS := false }
    ((s.port p.val).link = 2 →
      (hearLast rx = some .crc →
        effect (.upBlockReceived p l rx) (modPort p.val fun x => { lock x with cnt := bumpAt x.cnt i }) [] [] s) ∧
      ((hearLast rx = some .symbols ∨ hearLast rx = some .reserved) →
        effect (.upBlockReceived p l rx) (modPort p.val fun x => { lock x with cnt := bumpAt x.cnt (2 + i) }) [] [] s) ∧
      (hearLast rx = some .length → effect (.upBlockReceived p l rx) (modPort p.val lock) [] [] s)) ∧
    ∀ b : Bytes, hearLast rx = some (.frame b) → (b.getD 0 0) >>> 4 = 2 →
      let c := (b.getD 1 0).toNat % 4
      ((s.port p.val).link = 2 → (b.getD 1 0).toNat / 4 = p.val → c < 3 → (s.pos p.val c).present = true →
        (leNat (slice b 2 2) ≠ s.smp.instant % 65536 →
          effect (.upBlockReceived p l rx) (modPort p.val fun x => { seen (lock x) with cnt := bumpAt x.cnt 5 }) [(20 + p.val, 10)] [] s) ∧
        (leNat (slice b 2 2) = s.smp.instant % 65536 → (s.pos p.val c).got = none → (s.pos p.val c).late = none → frameClosed s = false →
          (blockOf b).status.getLsbD 7 = false → (s.xr (6 + p.val / 8)).down = false →
          ∃ t, exec (.upBlockReceived p l rx) s = .next t ∧ (t.pos p.val c).got = some (blockOf b, b, l) ∧
            (t.pos p.val c).missRun = (if (blockOf b).status.getLsbD 0 then 0 else (s.pos p.val c).missRun) ∧
            (t.pos p.val c).stale = ((s.pos p.val c).stale && !(blockOf b).status.getLsbD 0) ∧
              (t.pos p.val c).flywheel = (blockOf b).status.getLsbD 1 ∧
            (t.pos p.val c).droneS = (blockOf b).status.getLsbD 2 ∧ (t.pos p.val c).loaded = (blockOf b).status.getLsbD 6 ∧
            (t.pos p.val c).ageN = (match l with | .N => 0 | .S => (s.pos p.val c).ageN) ∧
            (t.pos p.val c).ageS = (match l with | .N => (s.pos p.val c).ageS | .S => 0) ∧
            (∀ q, q ≠ p.val → t.port q = s.port q) ∧ sameStores s t ∧ t.smp = s.smp ∧ t.units = s.units)) ∧
      ∀ a : Assign, (s.port p.val).link = 1 → (s.port p.val).svc.asg = some a → a.addr ≠ 0xFC → a.addr.toNat / 4 = p.val →
        a.addr.toNat % 4 < 3 → (s.port p.val).pos.length = 3 → leNat (slice b 2 2) = svcIdx s % 65536 →
        (blockOf b).status.getLsbD 7 = true → b.getD 48 0 = a.cseq → b.getD 49 0 = 0x01 → b.getD 50 0 = 0 →
        ∃ t, exec (.upBlockReceived p l rx) s = .next t ∧ (t.pos p.val (a.addr.toNat % 4)).present = true ∧
          (t.pos p.val (a.addr.toNat % 4)).ident.map UnitIdent.serial = some (leNat (slice b 52 (min 8 (b.getD 51 0).toNat))) ∧
          (t.port p.val).svc.asg = none ∧ (∀ q, q ≠ p.val → t.port q = s.port q) ∧ sameStores s t

/-- For every state in which the module samples and the frame of the latest instant is open, on no way out of sampling. The newest
frame carries the instant's index and time, the voltages read and the currents in force; a mapped group whose unit sent no block
reads 0 and is marked MISSING, an unmapped group reads 0 and is marked UNMAPPED. The last frame of its tick delivers the tick
where fewer than two wait and empties the tick in course, any other frame adds 1 to its count. While QUE lags with eight frames
waiting, the ninth replaces the oldest, and SMP_OVR_QUE counts the loss. The configurations of the module and factory data stay.
(R19, R20, R21, R22, R64, R131, R132, 01_architecture.md, 04_sampling.md) -/
def Obligations.FramesCloseIntoTicks : Prop :=
  ∀ (s : State) (v : VoltObs), alive s = true → cycling s = true → s.smp.started = true → frameClosed s = false →
    (s.pwr.waitFirst = true → s.pwr.target ≠ some 1) →
    ∃ t f, exec (.frameClose v) s = .next t ∧ t.smp.frames.head? = some f ∧ f.instant = s.smp.instant ∧ f.time = s.smp.timeNs ∧
      f.vStr = v.vStr ∧ f.vLnk = v.vLnk ∧ f.iShunt = s.smp.iShunt ∧ f.iHall = s.smp.iHall ∧ t.smp.vStr = v.vStr ∧
      (∀ g u n, g < 768 → s.cfg.place g = some (u, n) → u < 144 → slotBlock s u = none →
        f.v.getD g 1 = 0 ∧ (f.gf.getD g 0).getLsbD 0 = true) ∧
      (∀ g, g < 768 → s.cfg.place g = none → f.v.getD g 1 = 0 ∧ f.gf.getD g 0 = 0x80) ∧
      (tickLast s = true → t.smp.acc.n = 0 ∧
        (s.smp.ticks.length < 2 → t.smp.ticks.length = s.smp.ticks.length + 1 ∧ t.smp.ticks.take s.smp.ticks.length = s.smp.ticks)) ∧
      (tickLast s = false → t.smp.acc.n = s.smp.acc.n + 1 ∧ t.smp.ticks = s.smp.ticks) ∧
      (v.queLags = true → 8 ≤ s.smp.queFrames.length → (s.xr 0x0E).down = false →
        t.smp.queFrames = s.smp.queFrames.drop 1 ++ [f] ∧ t.smp.ovrQue = satAdd s.smp.ovrQue 1) ∧ t.cfg = s.cfg ∧ t.fac = s.fac

/-- For every state in which the module runs. CURRENT_RESULT takes the sampling configuration in force, converts both channels by
their offset, scale and temperature, the shunt's NTC by its curve, keeps the last valid shunt temperature where the NTC is open,
shorted or out of range, and counts the result. A channel with an over-range or a fault, and a disabled Hall sensor, is held
invalid for this and the 16 results that follow; a valid result adds its charge over 62.5 us to the tick. Factory data, NV and the
module's configuration stay. (R122, R125, R126, R127, R128, 04_sampling.md) -/
def Obligations.CurrentResultsGiveCurrentsAndCharges : Prop :=
  ∀ (s : State) (x : CurObs), alive s = true →
    let u := { s with cfgSmp := s.cfg }
    let code := sensorCode ((Config.freeWord s.fresh).truncate 16) s.cfg.shNtcRes s.cfg.shNtcB x.ntc
    let bad := code = 0x8000 ∨ code = 0x7FFF
    let temp : Int := if bad then s.smp.tShunt.getD 2500 else code.toInt
    let shBad := x.shFault = true ∨ 52000000 < x.vSh.natAbs
    let haBad := s.cfg.hallEn = false ∨ hallBad x = true ∨ 4000000 < (x.vSig - x.vRef).natAbs
    ∃ t, exec (.currentResult x) s = .next t ∧ t.cfgSmp = s.cfg ∧ t.smp.iShunt = shuntResult u x temp ∧ t.smp.iHall = hallResult u x ∧
      t.smp.resSince = s.smp.resSince + 1 ∧ t.smp.tShunt = (if bad then s.smp.tShunt else some code.toInt) ∧ t.smp.ntcFault = decide bad ∧
      ((x.ntc = .opened ∨ x.ntc = .shorted) → bad) ∧
      t.smp.shHold = (if shBad then 17 else s.smp.shHold - 1) ∧ t.smp.hallHold = (if haBad then 17 else s.smp.hallHold - 1) ∧
      (shBad → shuntValid t = false) ∧ (haBad → hallValid t = false) ∧
      t.smp.qShunt = s.smp.qShunt + (if shuntValid t then shuntResult u x temp * 62500 else 0) ∧
      t.smp.qHall = s.smp.qHall + (if hallValid t then hallResult u x * 62500 else 0) ∧ t.cfg = s.cfg ∧ t.fac = s.fac

/-- For every settled state in which the module runs. ZERO_DONE after 16,000 results stores the mean of each channel that no
invalid result spoilt and that lies within 20 uV for the shunt, 100 uV for an enabled Hall sensor, and raises ZERO_LEARNED; a mean
outside leaves the old offset and raises ZERO_REJECTED. LOWCAD_ENTER after 32,000 results below I_LOW, without hold or tones, asks
for the entry, not before 1 ms after that result. LOWCAD_EXIT under its conditions sets the exit to a whole millisecond.
NETWORK_FAULT raises its flag. Nothing else moves. Means are rounded half away from zero: the model's choice (log entry 10).
(R126, R133, R134, 04_sampling.md) -/
def Obligations.ZeroLearningAndLowCurrentCadence : Prop :=
  ∀ s : State, settled s → alive s = true →
    (∀ z, s.smp.zeroRun = some z → 16000 ≤ z.n →
      let sh := roundRat ((z.sh : Rat) / 16000)
      let ha := roundRat ((z.hall : Rat) / 16000)
      let shOk := !z.spoilSh && decide (sh.natAbs ≤ 20000)
      let haOk := !z.spoilHall && decide (ha.natAbs ≤ 100000)
      effect .zeroDone (modSmp fun m => { m with
        zeroRun := none, shuntOfs := if shOk then some sh else m.shuntOfs
        hallOfs := if s.cfgSmp.hallEn && haOk then some ha else m.hallOfs })
        ((if shOk then [] else [(0x06, 6)]) ++ (if s.cfgSmp.hallEn && !haOk then [(0x06, 6)] else []) ++
          (if shOk || (s.cfgSmp.hallEn && haOk) then [(0x06, 5)] else [])) [] s) ∧
    (sampling s = true → s.smp.lowCad = false → s.smp.lowEnter = none → 0 < s.cfgSmp.iLow → 32000 ≤ s.smp.lowRun →
      s.smp.lowHold = false → tonesRun s = false →
      effect .lowcadEnter (modSmp fun m => { m with lowEnter := some (resultTime s + 1000000) }) [] [] s ∧
        gridUp (resultTime s + 1000000) 100000000 % 100000000 = 0 ∧
        resultTime s + 1000000 ≤ gridUp (resultTime s + 1000000) 100000000) ∧
    (sampling s = true → s.smp.lowCad = true → s.smp.lowExit = none → lowLeaves s = true → frameClosed s = false →
      effect .lowcadExit (modSmp fun m => { m with lowExit := some (gridUp (resultTime s + 41000) 1000000) }) [] [] s) ∧
    effect .networkFault id [(0x07, 2)] [] s

/-- For every settled state in which the module runs. A cycle of the injector with the string steady and a positive resistance
counts, and gives it rounded in ohm, 50 Mohm where it lies beyond, no result where the capacitance exceeds 10 uF; one in which the
string moved by 5% or more counts and is marked unsteady, the result stays. A pole sample takes both voltages; a change of their
mean by more than 2 V within 200 ms, with V_STR steady, no own edge near and the sign turned, is a step; the third within 120 s
tells a foreign injector, which suspends an own one, its result invalid (which change a sample counts, and that the level
suspends: log entry 58). INS_FOREIGN_CLEAR ends that 120 s after the last step. No other unit moves. Rounding half away from zero
is the model's choice (log entry 10). (R135, R136, R137, R138, R139, R140, 04_sampling.md) -/
def Obligations.InsulationMonitorMeasures : Prop :=
  ∀ s : State, settled s → alive s = true →
    let rest (t : State) : Prop := sameStores s t ∧ t.prt = s.prt ∧ t.units = s.units ∧ t.smp = s.smp ∧ t.est = s.est ∧ t.imp = s.imp ∧
      t.bal = s.bal ∧ t.pro = s.pro ∧ t.ctl = s.ctl ∧ t.pwr = s.pwr ∧ t.out = []
    (∀ x : InsObs, injecting s = true →
      (100 * (x.vStrNeg - x.vStrPos).natAbs > 5 * x.vStrPos.natAbs →
        effect (.insCycleEnd x) (modIns fun m => { m with
          seq := satAdd m.seq 1, vPos := x.vPos, vNeg := x.vNeg, cyc := 0, edge := 0, unsteady := true }) [] [] s) ∧
      (100 * (x.vStrNeg - x.vStrPos).natAbs ≤ 5 * x.vStrPos.natAbs →
        let r : Rat := 100 / ((x.iPlus : Rat) / 1000000000000 - (x.iMinus : Rat) / 1000000000000) - 1000000 - 10000
        let cy : Rat := ((x.tauUs : Rat) / 1000000) / (1010000 * r / (1010000 + r))
        x.iPlus ≠ x.iMinus → 0 < r →
        ∃ t, exec (.insCycleEnd x) s = .next t ∧ rest t ∧ t.ins.seq = satAdd s.ins.seq 1 ∧ t.ins.unsteady = false ∧
          t.ins.valid = decide (cy ≤ 10 / 1000000) ∧ t.ins.overRange = decide (50000000 < r) ∧
          t.ins.rIso = (if 10 / 1000000 < cy then 0xFFFFFFFF else if 50000000 < r then 50000000 else BitVec.ofInt 32 (roundRat r)) ∧
          t.ins.foreign = s.ins.foreign ∧ t.ins.suspended = s.ins.suspended)) ∧
    (∀ x : PoleObs, sampling s = true → insEff s ≠ 0 →
      let m := { s.ins with
        cyc := s.ins.cyc + 1, edge := if injecting s = true ∧ s.ins.cyc + 1 = 500 then 0 else min (s.ins.edge + 1) 1000 }
      let counted := ((poleChange (x.vPos + x.vNeg) s.ins.poles).map (poleStep m (injecting s) s.smp.vStr)).getD false
      let steps := (if counted then [s.smp.timeNs] else []) ++ s.ins.steps.filter fun t => decide (s.smp.timeNs < t + 120000000000)
      ∃ t, exec (.insPoleSample x) s = .next t ∧ rest t ∧ t.ins.vPos = x.vPos ∧ t.ins.vNeg = x.vNeg ∧ t.ins.steps = steps ∧
        ((∀ e ∈ s.ins.poles, (x.vPos + x.vNeg - e.1).natAbs ≤ 4000) → counted = false) ∧
        t.ins.foreign = (s.ins.foreign || decide (3 ≤ steps.length)) ∧
        (t.ins.foreign = true → injecting s = true → t.ins.suspended = true ∧ t.ins.valid = false) ∧
        ((t.ins.foreign = false ∨ injecting s = false) → t.ins.suspended = s.ins.suspended ∧ t.ins.valid = s.ins.valid)) ∧
    (s.ins.foreign = true → (∀ e ∈ s.ins.steps, e + 120000000000 ≤ s.smp.timeNs) →
      ∃ t, exec .insForeignClear s = .next t ∧ rest t ∧ t.ins = { s.ins with foreign := false, steps := [] })

/-- For every settled state in which the module runs and samples. With ticks to skip, as many as the throttle in force still asks
for, or missed in a reload, ESTIMATOR_TICK adds the oldest tick frame to the one held, counts it and raises its flag. Otherwise
the frame, with what was held, becomes the last tick on the configuration in force, the tick number is its number, the ticks to
skip follow the throttle, and a round is due when the tick passes a multiple of BAL_ROUND. LEARNED_DATA_SAVE that succeeds leaves
a newer valid copy, of all groups' data for a whole save; one that fails leaves the newest valid copy as it was. (R24, R169, R176,
R185, R213, 05_estimation.md, 01_architecture.md) -/
def Obligations.EstimatorTicksRunSkipAndSave : Prop :=
  ∀ s : State, settled s → alive s = true → sampling s = true →
    (∀ (x : Tick) (rest : List Tick), s.smp.ticks = x :: rest →
      let y := match s.est.held with | some h => mergeTick h x | none => x
      let left := min s.est.skipLeft (skipsOf s)
      (0 < left ∨ 0 < s.est.missLeft → effect .estimatorTick (fun s => { s with
        smp := { s.smp with ticks := rest }
        est := { s.est with
          held := some y, missLeft := s.est.missLeft - 1, skipLeft := left - 1, skipCnt := satAdd s.est.skipCnt 1 } }) [(0x08, 6)] [] s) ∧
      (left = 0 → s.est.missLeft = 0 → ∃ t, exec .estimatorTick s = .next t ∧ t.smp = { s.smp with ticks := rest } ∧ t.est.lastTick = y ∧
        t.est.held = none ∧ t.cfgEst = s.cfg ∧ t.est.tick = BitVec.ofNat 32 y.num ∧ t.est.throttle = s.est.throttle ∧
        t.est.skipLeft = skipsOf t ∧ t.bal.roundAt = y.last ∧
        t.bal.roundDue = (s.bal.roundDue || s.bal.planNow || decide (s.bal.roundAt / max s.cfg.balRound 1 < y.last / max s.cfg.balRound 1)) ∧
        t.bal.planNow = false ∧ t.cfg = s.cfg ∧ t.fac = s.fac ∧ t.units = s.units ∧ t.pro = s.pro ∧ t.ctl = s.ctl ∧ t.ins = s.ins)) ∧
    ∀ whole : Bool,
      (∃ t c, exec (.learnedDataSave whole true) s = .next t ∧ t.ev = s.ev ∧ t.out = [] ∧ newestCopy t.nv = some c ∧ c.ok = true ∧
        (∀ b, newestCopy s.nv = some b → c.seq = b.seq + 1 ∧ (b = t.nv.copyA ∨ b = t.nv.copyB)) ∧
        ((whole = true ∨ s.est.saveWhole = true) → c.groups = s.est.ctx.map learnedOf) ∧
        (∀ b g, whole = false → s.est.saveWhole = false → newestCopy s.nv = some b → g < s.est.ctx.length →
          (c.groups.getD g {}).z = (s.ectx g).z ∧ (c.groups.getD g {}).cap = (b.groups.getD g {}).cap) ∧
        still { t with nv := s.nv } = still { s with est := { s.est with saveBusy := false, saveWhole := false } }) ∧
      ∃ t, exec (.learnedDataSave whole false) s = .next t ∧ flagged [(0x08, 9)] s t ∧ newestCopy t.nv = newestCopy s.nv ∧
        still { t with nv := s.nv } = still { s with est := { s.est with saveBusy := false, saveWhole := false } }

/-- For every settled state in which the impedance engine runs. IMP_FRAME takes the oldest frame as the last one, on the
configuration in force, active unless the throttle skips its window; published results and a closed window stay but where a fresh
run begins. STEP_HOLD_END at its time ends the step. WINDOW_CLOSE at a multiple of 10 s after the last window, or at the relabel
that passed it, counts the window, keeps for it the segments, steps and ticks up to it, and abandons a pending one with its flag,
each model one window older. WINDOW_DONE publishes the results of the groups mapped at its close and still, raises its flag and
offers the full results over crossing 0x15. (R190, R198, R201, R203, R204, R434, 06_impedance.md) -/
def Obligations.ImpedanceRunsFramesStepsAndWindows : Prop :=
  ∀ s : State, settled s → impRuns s = true →
    (∀ f rest, s.smp.impFrames = f :: rest →
      ∃ t, exec .impFrame s = .next t ∧ t.smp = { s.smp with impFrames := rest } ∧
        t.imp.last = some f.instant ∧ t.imp.active = !skippedWindow s f.time ∧ t.imp.lastCad = (f.flags &&& 3).toNat ∧
        t.cfgImp = (if s.imp.runDue = false ∨ s.imp.runFrom < f.time then s.cfg else s.cfgImp) ∧
        t.imp.win = s.imp.win ∧ t.imp.pend.map WinRun.win = s.imp.pend.map WinRun.win ∧
        (s.imp.last.isSome = true → s.imp.runDue = false → f.flags.getLsbD 3 = false →
          t.imp.groups = s.imp.groups ∧ t.imp.pend = s.imp.pend) ∧ t.cfg = s.cfg ∧ t.nv = s.nv ∧ t.est = s.est ∧
        t.pro = s.pro ∧ t.ctl = s.ctl ∧ t.bal = s.bal) ∧
    (∀ x, s.imp.step = some x → x.ts + stepHoldNs s.cfgImp ≤ s.smp.timeNs →
      ∃ t, exec .stepHoldEnd s = .next t ∧ t.imp.step = none ∧ t.imp.bins = s.imp.bins ∧ t.imp.win = s.imp.win ∧
        t.imp.groups = s.imp.groups ∧ sameStores s t ∧ t.est = s.est ∧ t.pro = s.pro ∧ t.smp = s.smp ∧ t.ctl = s.ctl) ∧
    (s.imp.winIdx < s.smp.timeNs / 10000000000 → s.imp.last.isSome = true →
      let close := if s.smp.timeNs / 10000000000 * 10000000000 < s.imp.jump ∧ s.imp.jump ≤ s.smp.timeNs then s.imp.jump
        else s.smp.timeNs / 10000000000 * 10000000000
      ∃ t w, exec .windowClose s = .next t ∧ t.imp.pend = some w ∧ w.close = close ∧ w.win = satAdd s.imp.win 1 ∧ t.imp.win = w.win ∧
        t.imp.winIdx = s.smp.timeNs / 10000000000 ∧ w.segs = s.imp.bins.map BinRun.segs ∧
        w.steps = s.imp.steps.filter (fun x => decide (x.ended ≤ close)) ∧
        t.imp.steps = s.imp.steps.filter (fun x => decide (close < x.ended)) ∧
        flagged (if s.imp.pend.isSome then [(0x09, 7)] else []) s t ∧ (s.imp.pend = none → t.imp.groups = s.imp.groups) ∧
        t.out = [] ∧ sameStores s t ∧ t.est = s.est ∧ t.pro = s.pro ∧ t.smp = s.smp ∧ t.ctl = s.ctl) ∧
    ∀ w, s.imp.pend = some w → 0x09 < s.ev.length →
      let gs := s.cfgWin.mapped.filter fun g => (s.cfgImp.group g).slot.isSome
      ∃ t, exec .windowDone s = .next t ∧ t.imp.pend = none ∧ t.imp.doneWin = w.win ∧ (t.event 0x09).flags.getLsbD 0 = true ∧
        (∀ g, g ∈ gs → g < s.imp.groups.length → t.imp.groups.getD g {} = (groupWindow s w g).out) ∧
        (hasImp s = true → 0x15 < s.xng.xrec.length →
          (t.xr 0x15).cur = some (.results (gs.filterMap fun g => (groupWindow s w g).res.map fun r => (g, r)))) ∧
        t.est = s.est ∧ sameStores s t ∧ t.pro = s.pro ∧ t.smp = s.smp ∧ t.ctl = s.ctl

/-- For every settled state in which the module runs and samples. A due round is no longer due; where the planner plans, it
counts, the mode asked for is in effect, no slot is left out of the next round and the flag rises. When shorter durations of a
present port's unit end, a BLEED_STOP of their inputs waits for the unit, in the one that waits already or before other commands;
the records stop with its frame. OW_PERIOD_START, not paused, starts a test of each eligible unit of the position that has none in
course. Contactors, configurations and learned data stay. (R211, R213, R218, R223, R228, R255, 07_balancing.md, 08_protection.md)
-/
def Obligations.BalancingRoundsEndAndTestsStart : Prop :=
  ∀ s : State, settled s → alive s = true → sampling s = true →
    (s.bal.roundDue = true →
      (planning s = false → effect .planningRound (modBal fun b => { b with roundDue := false }) [] [] s) ∧
      (planning s = true → ∃ t, exec .planningRound s = .next t ∧ t.bal.roundDue = false ∧ t.bal.roundCnt = satAdd s.bal.roundCnt 1 ∧
        t.bal.modeEff = s.bal.mode ∧ t.bal.mode = s.bal.mode ∧ (∀ b ∈ t.bal.slots, b.noPlan = false) ∧ flagged [(0x0A, 0)] s t ∧ t.out = [] ∧
        (∀ g, g < s.bal.recs.length → (t.bal.recs.getD g {}).excluded =
          ((s.cfgEst.place g).isSome && !(s.cfgEst.mapped.contains g && eligible s g))) ∧
        sameStores s t ∧ t.est = s.est ∧ t.pro = s.pro ∧ t.smp = s.smp ∧ t.ctl = s.ctl ∧ t.units = s.units)) ∧
    (∀ (p : Fin 48) (c : Fin 3), portPresent s p.val = true →
      let u := 3 * p.val + c.val
      let due := (s.cfgEst.slotGroups u).filter fun e => match (s.bal.recs.getD e.1 {}).stopAt with
        | some x => decide (x ≤ nextAt s)
        | none => false
      due ≠ [] →
      let waits (r : LinkReq) : Bool := r.opc == 0x31 && r.dst == addrOf p.val c.val
      ∃ t m, exec (.bleedDurationExpiry p c) s = .next t ∧ t.out = [] ∧ t.ev = s.ev ∧ (∀ e ∈ due, e.2 < 16 → m.getLsbD e.2 = true) ∧
        (∀ n, m.getLsbD n = true → ∃ e ∈ due, e.2 = n) ∧
        t.prt = (modPort p.val (fun x => { x with
          waiting := if x.waiting.any waits then x.waiting.map (joinStop u m)
                     else x.waiting ++ [reqTo 1 p.val c.val 0x31 (le 2 (m : Half).toNat)] }) s).prt ∧
        still { t with prt := s.prt } = still s) ∧
    (∀ c : Fin 3, proRuns s = true → s.pro.owPause = false →
      ∃ t, exec (.owPeriodStart c) s = .next t ∧ t.out = [] ∧ t.ev = s.ev ∧ t.pro = { s.pro with units := t.pro.units } ∧
        t.pro.units.length = s.pro.units.length ∧ still { t with pro := s.pro } = still s ∧
        ∀ u, u < s.pro.units.length → t.owU u =
          if u < 144 ∧ u % 3 = c.val ∧ owEligible s u = true ∧ owIdle (s.owU u) = true then { s.owU u with passes := owPasses s u } else s.owU u)

/-- For every settled state in which PRO runs and the function of the event is not latched: HW_OC above its level on an armed PRO,
without guard wait; the second REF_CHECK beyond 0.5%; expiry of the persistences of CELL_OT, of the stale grace and of a lost
current; a contactor that does not report closed at the end of KF_T_CLOSE and a readback mismatch; PRECHG_TMAX, which starts the
cool-down. Each latches its function as OPEN does: the first is the trip reported, the engine stops, an armed PRO's limits are 0,
and unless R254 holds them all channels are released. A current back below its limits ends a guard wait. A contactor that reports
closed at the end of KF_T_CLOSE, and a read-back that agrees again (log entry 60), latch nothing. (R237, R241, R242, R243, R252,
R254, R239, R240, 08_protection.md) -/
def Obligations.OpenFunctionsTripAndRelease : Prop :=
  ∀ s : State, settled s → proRuns s = true →
    let free := !s.pro.aboveBreak && !s.pro.aboveNever
    (∀ (x : CmpObs) (c : Instr), c = .hwOc x ∨ c = .comparatorBelowLevel x →
      let brk := x.aboveBreak && s.cfgPro.breakI.isSome
      let never := x.aboveNever && s.cfgPro.neverBreak.isSome
      (s.pro.armed = true → x.aboveHw = true → s.cfgPro.hwOcLevel.isSome = true → s.pro.active.getLsbD 0x11 = false →
        s.pro.latched.getLsbD 0x11 = false →
        ∃ t, exec c s = .next t ∧ tripsWith 0x11 (!never) s t ∧ t.pro.active.getLsbD 0x11 = true) ∧
      (x.aboveHw = false → s.pro.conn = 7 → brk = false → never = false →
        ∃ t, exec c s = .next t ∧ released t = true ∧ t.pro.active.getLsbD 0x11 = false ∧ t.pro.latched = s.pro.latched ∧
          t.cfg = s.cfg ∧ t.fac = s.fac)) ∧
    (∀ ppm : Nat, s.pro.armed = true → 5000 < ppm → 1 ≤ s.pro.refBad → s.pro.latched.getLsbD 0x1A = false →
      ∃ t, exec (.refCheck ppm) s = .next t ∧ tripsWith 0x1A free s t ∧ t.pro.active.getLsbD 0x1A = true ∧ t.pro.refOk = false) ∧
    (∀ (code : Fin 29) (idx : Nat), s.pro.armed = true → s.pro.latched.getLsbD code.val = false →
      ((code.val = 0x07 ∧ s.pro.otRun = true) ∨ (code.val = 0x0C ∧ s.pro.graceRun = true) ∨ (code.val = 0x13 ∧ s.pro.lossRun = true)) →
      ∃ t, exec (.persistenceExpiry code idx) s = .next t ∧ tripsWith code.val free s t) ∧
    (∀ k : Fin 4, s.pro.latched.getLsbD 0x17 = false →
      (s.pro.closing.getLsbD k.val = true → s.pro.kf.getLsbD k.val = false →
        ∃ t, exec (.kfWindowExpiry k) s = .next t ∧ tripsWith 0x17 free s t) ∧
      (s.pro.closing.getLsbD k.val = true → s.pro.kf.getLsbD k.val = true →
        ∃ t, exec (.kfWindowExpiry k) s = .next t ∧ t.pro.closing.getLsbD k.val = false ∧ t.pro.latched = s.pro.latched ∧
          t.pro.kA = s.pro.kA ∧ t.pro.kB = s.pro.kB ∧ t.ctl = s.ctl ∧ t.cfg = s.cfg ∧ t.fac = s.fac) ∧
      ∀ b : Bool, (∃ t, exec (.readbackMismatch k ⟨b, true⟩) s = .next t ∧ tripsWith 0x17 free s t) ∧
        ∃ t, exec (.readbackMismatch k ⟨b, false⟩) s = .next t ∧ t.pro.latched = s.pro.latched ∧ t.pro.kA = s.pro.kA ∧
          t.pro.kB = s.pro.kB ∧ t.ctl = s.ctl ∧ t.cfg = s.cfg ∧ t.fac = s.fac) ∧
    (s.pro.conn = 3 → s.pro.latched.getLsbD 0x19 = false →
      ∃ t, exec .prechgTmaxExpiry s = .next t ∧ tripsWith 0x19 free s t ∧ t.pro.cool = true)

/-- For every settled state in which PRO runs. BREAK_WAIT_EXPIRY and DISC_RAMP_MAX_EXPIRY release every channel where no limit of
R254 stands. A KF change is taken with its polarity; in step 4 the closed negative pole closes K3 and begins the precharge.
WELD_TEST_TIMER with a still link voltage releases K3, and with K3 reported open closes the negative pole. K3_OVERLAP_EXPIRY
releases K3, and with K3 reported open the string is CONNECTED. The cool-down ends alone. Latches, configuration and factory data
stay. (R240, R254, R264, R265, R267, R268, 08_protection.md) -/
def Obligations.SequencerStepsOnItsTimers : Prop :=
  ∀ s : State, settled s → proRuns s = true →
    let keeps (t : State) : Prop := t.pro.latched = s.pro.latched ∧ t.cfg = s.cfg ∧ t.fac = s.fac
    (s.pro.conn = 7 → s.pro.aboveNever = false → ∃ t, exec .breakWaitExpiry s = .next t ∧ released t = true ∧ keeps t ∧
      (t.pro.conn = 9 ∨ t.pro.conn = 0)) ∧
    (s.pro.conn = 6 → s.pro.aboveBreak = false → s.pro.aboveNever = false →
      ∃ t, exec .discRampMaxExpiry s = .next t ∧ released t = true ∧ keeps t ∧ (t.pro.conn = 9 ∨ t.pro.conn = 0)) ∧
    (∀ levels : BitVec 4, ∃ t, exec (.kfInputChange levels) s = .next t ∧ t.cap.kfRaw = levels ∧ keeps t ∧
      t.pro.kf = ~~~(levels ^^^ s.cfgPro.kfPol) ∧
      (s.pro.conn = 2 → t.pro.kf.getLsbD 1 = true → (s.cfgPro.k4En = true → t.pro.kf.getLsbD 3 = true) →
        t.pro.conn = 3 ∧ t.pro.kA = s.pro.kA ||| 0x4 ∧ t.pro.kB = s.pro.kB ||| 0x4 ∧ t.pro.tP = s.smp.timeNs)) ∧
    (s.pro.conn = 1 → s.pro.kA.getLsbD 2 = true → s.pro.weldOk = true → voltsOk s = true →
      ((s.smp.vLnk - s.pro.weldV).natAbs : Int) * 1000000000 ≤ s.cfgPro.weldDv * s.smp.vStr.natAbs →
      ∃ t, exec .weldTestTimer s = .next t ∧ keeps t ∧ t.pro.kA.getLsbD 2 = false ∧ t.pro.kB.getLsbD 2 = false ∧
        (s.pro.kf.getLsbD 2 = false → t.pro.conn = 2 ∧ t.pro.kA.getLsbD 1 = true ∧ t.pro.kB.getLsbD 1 = true)) ∧
    (s.pro.conn = 4 → s.pro.overlap = true →
      ∃ t, exec .k3OverlapExpiry s = .next t ∧ keeps t ∧ t.pro.kA.getLsbD 2 = false ∧ t.pro.kB.getLsbD 2 = false ∧
        (s.pro.kf.getLsbD 2 = false → t.pro.conn = 5)) ∧
    effect .prechgCoolExpiry (fun s => { s with pro := { s.pro with cool := false } }) [] [] s

/-- For every settled state of a powered module. FRAME_STARVATION on an armed PRO that samples and is not starved makes the stale
function active and runs the grace, and sets both limits to 0 unless another cause already does; with no grace it opens.
PRO_SUPPLY_FAULT of a running PRO releases every channel whatever the current, stops the engine, clears latches, active functions
and CONNECT_STATE and holds PRO in reset, disarmed. In reset a KF change only moves the input. PRO_RESTART ends that reset with
the feedback of its inputs, and function 0x1C is latched. Configuration and factory data stay. (R37, R39, R236, R249,
08_protection.md, 01_architecture.md) -/
def Obligations.StarvationAndSupplyFaultReachTheSafeState : Prop :=
  ∀ s : State, settled s → s.pwr.ready = true →
    (proRuns s = true → s.pro.armed = true → sampling s = true → s.pro.starved = false → s.pro.active.getLsbD 0x0C = false →
      ∃ t, exec .frameStarvation s = .next t ∧ t.pro.starved = true ∧ t.pro.active.getLsbD 0x0C = true ∧
        (tripped s = false → s.pro.hostDisc = false → s.cfgPro.iRatedN.isSome = true → t.pro.iCh = 0 ∧ t.pro.iDis = 0) ∧ t.cfg = s.cfg ∧
          t.fac = s.fac ∧
        (s.cfgPro.staleGrace ≠ 0 → t.pro.graceRun = true ∧ t.pro.kA = s.pro.kA ∧ t.pro.kB = s.pro.kB ∧ t.pro.latched = s.pro.latched) ∧
        (s.cfgPro.staleGrace = 0 → t.pro.latched.getLsbD 0x0C = true ∧
          (s.pro.latched.getLsbD 0x0C = false → tripsWith 0x0C (!s.pro.aboveBreak && !s.pro.aboveNever) s t))) ∧
    (s.pro.inReset = false →
      ∃ t, exec .proSupplyFault s = .next t ∧ t.pro.inReset = true ∧ released t = true ∧ engineRuns t = false ∧ t.pro.latched = 0 ∧
        t.pro.active = 0 ∧ t.pro.conn = 0 ∧ t.pro.armed = false ∧ t.pro.tripCnt = s.pro.tripCnt ∧ t.cfg = s.cfg ∧ t.fac = s.fac) ∧
    (s.pro.inReset = true →
      (∀ levels, effect (.kfInputChange levels) (fun s => { s with cap := { s.cap with kfRaw := levels } }) [] [] s) ∧
      ∃ t, exec .proRestart s = .next t ∧ t.pro.inReset = false ∧ t.pro.kf = ~~~(s.cap.kfRaw ^^^ s.cfgPro.kfPol) ∧ t.pro.supplyOk = true ∧
        t.pro.latched.getLsbD 0x1C = true ∧
        t.cfg = s.cfg ∧ t.fac = s.fac)

/-- For every state in which CTL runs with its configuration in force. LOOP_UPDATE takes the four results of the period. Parked
with no shadow to enter, the pins and the limiter stay. In RUNNING, the string not in RAMP_DOWN and the bus voltage good, the
update counts, the bank asked for is in force, the limiter moves at most one slew step, the reference lies within both limits, the
compensator within its bank's bounds and the duties within DMIN and DMAX. The third update in a row with the bus outside its
limits is fault 4: the stage is off. Contactors, NV and factory data stay. (R274, R280, R283, R286, R287, R299,
09_control_engine.md) -/
def Obligations.LoopUpdatesMeasureLimitAndFault : Prop :=
  ∀ (s : State) (x : LoopObs), ctlRuns s = true → s.ctl.cfgDue = false → loopCfg s = true →
    let i0 := fastValue s x.ci0 11 13
    let i1 := fastValue s x.ci1 12 14
    let vb := fastValue s x.cv0 15 17
    let measured (t : State) : Prop := t.ctl.time = updateTime s ∧ t.ctl.gdN = x.gdN ∧ t.ctl.i0 = i0 ∧ t.ctl.i1 = i1 ∧ t.ctl.vBus = vb ∧
      t.ctl.vStr = fastValue s x.cv1 16 18 ∧ t.ctl.meas = i0 + i1 ∧ t.nv = s.nv ∧ t.fac = s.fac ∧ t.cfg = s.cfg ∧ t.pro = s.pro ∧ t.smp = s.smp
    let k := bankOf s.cfgCtl s.ctl.bankReq
    (s.ctl.state = 1 → standby s = false →
      ∃ t, exec (.loopUpdate x) s = .next t ∧ measured t ∧ t.ctl.state = 1 ∧ t.ctl.out = s.ctl.out ∧ t.ctl.enable = s.ctl.enable ∧
        t.ctl.pwm0 = s.ctl.pwm0 ∧ t.ctl.pwm1 = s.ctl.pwm1 ∧ t.ctl.updCnt = s.ctl.updCnt) ∧
    (s.ctl.state = 3 → s.pro.conn ≠ 6 → busOkAt s vb = true →
      ∃ t, exec (.loopUpdate x) s = .next t ∧ measured t ∧ t.ctl.state = 3 ∧ t.ctl.updCnt = satAdd s.ctl.updCnt 1 ∧
        t.ctl.bank = s.ctl.bankReq ∧ -(t.ctl.limDis : Int) ≤ t.ctl.ref ∧ t.ctl.ref ≤ t.ctl.limCh ∧
        (t.ctl.out - s.ctl.out).natAbs ≤ max (stepRise s).natAbs (stepFall s).natAbs ∧
        (k.uMin ≤ k.uMax → k.uMin ≤ t.ctl.u ∧ t.ctl.u ≤ k.uMax) ∧
        (s.cfgCtl.dMin ≤ s.cfgCtl.dMax → s.cfgCtl.dMin ≤ t.ctl.d0 ∧ t.ctl.d0 ≤ s.cfgCtl.dMax ∧ s.cfgCtl.dMin ≤ t.ctl.d1 ∧
          t.ctl.d1 ≤ s.cfgCtl.dMax) ∧ t.ctl.enable = s.ctl.enable) ∧
    (s.ctl.state = 3 → busOkAt s vb = false → s.ctl.busRun = 2 →
      ∃ t, exec (.loopUpdate x) s = .next t ∧ measured t ∧ t.ctl.state = 6 ∧ t.ctl.fault = 4 ∧ t.ctl.stopCause = 5 ∧ stageOff t = true)

/-- For every settled state in which CTL runs. GD_FAULT and PH_OC (or the rail) of a driving engine are fault 1, 2 or 3, the tenth
bad millisecond of CI_MISMATCH is fault 5: STATE is FAULT, the stage off, FAULTED and the fault's flag set. On an engine at rest
GD_FAULT and PH_OC only note the input. STOP_TMAX_EXPIRY in STOPPING parks with STOP_CAUSE 1 and STOPPED. HOST_SP_STALE and
SOP_STALE mark the value and raise their flags. Contactors, configuration and NV stay. (R277, R278, R280, R281, R295,
09_control_engine.md) -/
def Obligations.EngineFaultsAndStopsEndTheDrive : Prop :=
  ∀ s : State, settled s → ctlRuns s = true → 0x0C < s.ev.length →
    let faulted (n flag : Nat) (t : State) : Prop := t.ctl.state = 6 ∧ t.ctl.fault = n ∧ t.ctl.stopCause = 5 ∧ stageOff t = true ∧
      (t.event 0x0C).flags.getLsbD 2 = true ∧ (t.event 0x0C).flags.getLsbD flag = true ∧ t.pro = s.pro ∧ sameStores s t ∧ t.smp = s.smp
    (engineRuns s = true → ∃ t, exec .gdFault s = .next t ∧ faulted 1 3 t ∧ t.ctl.gdN = false) ∧
    (engineRuns s = false → s.ctl.state ≠ 5 →
      effect .gdFault (fun s => { s with ctl := { s.ctl with gdN := false } }) [] [] s ∧
      ∀ rail, effect (.phOc rail) (fun s => { s with ctl := { s.ctl with ciBad := true } }) [] [] s) ∧
    (∀ rail : Bool, engineRuns s = true → ∃ t, exec (.phOc rail) s = .next t ∧ faulted (if rail then 3 else 2) 4 t ∧ t.ctl.ciBad = true) ∧
    (loopCfg s = true → engineRuns s = true → s.ctl.selN = 16 → 0 < s.ctl.mmN → s.ctl.mmN * s.cfgCtl.tUpd = 1000000 →
      let y : Rat := (s.ctl.mmSum : Rat) / (s.ctl.mmN : Nat)
      let i : Rat := (s.ctl.selSum : Rat) / 16
      let bad := (s.cfgCtl.ciDevAbs : Rat) / 1000000 + (s.cfgCtl.ciDevRel : Rat) / 1000000000 * (if i < 0 then -i else i) <
        (if y < i then i - y else y - i)
      (bad → s.ctl.mmRun = 9 → ∃ t, exec .ciMismatchCheck s = .next t ∧ faulted 5 6 t) ∧
      (¬ bad → effect .ciMismatchCheck (fun s => { s with ctl := { s.ctl with
        mmSum := 0, mmN := 0, selSum := 0, selN := 0, mmBad := false, mmRun := 0 } }) [] [] s)) ∧
    (s.ctl.state = 4 → ∃ t, exec .stopTmaxExpiry s = .next t ∧ t.ctl.state = 1 ∧ t.ctl.stopCause = 1 ∧ stageOff t = true ∧
      (t.event 0x0C).flags.getLsbD 1 = true ∧ t.pro = s.pro ∧ sameStores s t) ∧
    (s.ctl.spRun = true → s.cfgCtl.hostSpHold ≠ 0 →
      effect .hostSpStale (fun s => { s with ctl := { s.ctl with hostStale := true, spRun := false } }) [(0x0C, 12)] [] s) ∧
    (s.ctl.sopStale = false → effect .sopStale (fun s => { s with ctl := { s.ctl with sopStale := true } }) [(0x0C, 14)] [] s)

/-- For every settled state in which CTL runs. With no analogue source an edge is noted, a rising one gives its period: the first
only arms, one of 4.5 to 95.5 kHz joins the mean, any other is counted and flagged. CHANTER_LOST, by the edges or by the valid
periods, on a pulse source enters fallback with the held value; 16 valid periods with automatic return leave it. A waiting tone
set starts at the whole millisecond that CTL_TONE answered. PHASE_VALLEY of a driving engine latches the last duty at least 2 us
old for its phase; the second phase of a start ends it: RUNNING. Contactors, configuration and NV stay. (R284, R295, R297, R298,
R301, 09_control_engine.md) -/
def Obligations.ChanterTonesAndValleys : Prop :=
  ∀ s : State, settled s → ctlRuns s = true →
    (∀ ps : Nat, srcAnalog (srcNow s) = false →
      (s.ctl.edgeSeen = false → effect (.chanterEdge true ps) (fun s => { s with ctl := { s.ctl with
        edgeSeen := true, edgeOk := true, edgeAt := max s.smp.timeNs s.ctl.time } }) [] [] s) ∧
      (s.ctl.edgeSeen = true → 10 ^ 12 ≤ ps * 95500 → ps * 4500 ≤ 10 ^ 12 →
        ∃ t, exec (.chanterEdge true ps) s = .next t ∧ t.ev = s.ev ∧ t.out = [] ∧
          t.ctl.periods = (ps :: s.ctl.periods).take (max 1 s.cfgCtl.chAvg) ∧ t.ctl.validRun = s.ctl.validRun + 1 ∧ t.ctl.edgeOk = true ∧
            t.ctl.perOk = true ∧
          t.ctl.edgeAt = max s.smp.timeNs s.ctl.time ∧
          (0 ≤ ctlRated s → t.ctl.sCh.natAbs ≤ (ctlRated s).natAbs) ∧
          still t = still { s with ctl := { s.ctl with
            periods := t.ctl.periods, chFreq := t.ctl.chFreq, sCh := t.ctl.sCh, validRun := t.ctl.validRun
            edgeOk := true, perOk := true, edgeAt := t.ctl.edgeAt, perAt := t.ctl.perAt } }) ∧
      (s.ctl.edgeSeen = true → (ps * 95500 < 10 ^ 12 ∨ 10 ^ 12 < ps * 4500) →
        effect (.chanterEdge true ps) (fun s => { s with ctl := { s.ctl with
          chBad := satAdd s.ctl.chBad 1, validRun := 0, edgeOk := true, edgeAt := max s.smp.timeNs s.ctl.time } })
          [(0x0C, 15)] [] s) ∧
      effect (.chanterEdge false ps) (fun s => { s with ctl := { s.ctl with edgeOk := true, edgeAt := max s.smp.timeNs s.ctl.time } }) [] [] s) ∧
    (srcPulse (srcNow s) = true → s.ctl.fallback = false →
      let noEdge : Bool := decide (s.ctl.edgeAt + 200000 ≤ max s.smp.timeNs s.ctl.time + s.cfgCtl.tUpd)
      let noPeriod : Bool := !noEdge || decide (s.ctl.perAt + 500000 ≤ max s.smp.timeNs s.ctl.time + s.cfgCtl.tUpd)
      effect .chanterLost (fun s => { s with ctl := { s.ctl with
        fallback := true, heldCh := s.ctl.sCh, edgeOk := s.ctl.edgeOk && !noEdge, perOk := s.ctl.perOk && !noPeriod
        validRun := 0 } }) [(0x0C, 7)] [] s) ∧
    (s.ctl.fallback = true → s.cfgCtl.chReturn = 1 → srcPulse (srcNow s) = true → 16 ≤ s.ctl.validRun →
      effect .chanterBack (fun s => { s with ctl := { s.ctl with fallback := false } }) [(0x0C, 8)] [] s) ∧
    (∀ l, s.ctl.tonesNext = some l →
      effect .toneSetStart (fun s => { s with ctl := { s.ctl with
        tones := l, tonesNext := none, toneStart := s.ctl.toneNextAt, clipAt := none } }) [] [] s) ∧
    ∀ k : Fin 2, loopCfg s = true → engineRuns s = true → s.ctl.started = true → s.ctl.time + 2000 ≤ valleyTime s k.val →
      ∃ t, exec (.phaseValley k) s = .next t ∧ t.ctl.enable = s.ctl.enable ∧ t.ctl.out = s.ctl.out ∧ t.ctl.updCnt = s.ctl.updCnt ∧
        t.pro = s.pro ∧ sameStores s t ∧ t.smp = s.smp ∧
        (k.val = 0 → t.ctl.lat0 = s.ctl.d0 ∧ t.ctl.pwm0 = some (edgesOf s s.ctl.d0).1 ∧ t.ctl.begun0 = true ∧ t.ctl.v0 = valleyTime s 0 ∧
          t.ctl.pwm1 = s.ctl.pwm1) ∧
        (k.val = 1 → t.ctl.lat1 = s.ctl.d1 ∧ t.ctl.pwm1 = some (edgesOf s s.ctl.d1).1 ∧ t.ctl.begun1 = true ∧ t.ctl.v1 = valleyTime s 1 ∧
          t.ctl.pwm0 = s.ctl.pwm0) ∧
        t.ctl.state = (if s.ctl.state = 2 ∧ ((k.val = 0 ∧ s.ctl.begun1 = true) ∨ (k.val = 1 ∧ s.ctl.begun0 = true)) then 3 else s.ctl.state)

/-- For every state of a running module. SPC_RESET (not cause 2) of a running supervisor closes every session, clears PENDING,
deferred commands and CTL_SP_HOST, parks the engine, and keeps NV, configuration and contactors; with no transition in course PRO,
sampling, estimator, balancing and units stay. SPC_RESTART_DONE, or ACTIVATION_PAUSE_END after an activation, ends the restart
with HS_READY: a mark is carried out (the image runs if its check passes, else the slots stay), two bad starts of new firmware
swap back, otherwise the firmware stays. WIPE_DONE: a failed verification raises WIPE_FAIL; a verified one erases the set, closes
every session and ends the transition. Where the recorder counts on after a wipe is the model's choice (log entry 25). (R34, R35,
R36, R388, R387, R393, R395, 01_architecture.md, 13_configuration_update.md) -/
def Obligations.SupervisorRestartsFallsBackAndWipes : Prop :=
  ∀ s : State, alive s = true →
    (∀ cause : Fin 4, cause ≠ 2 → s.lcy.spcDown = false →
      ∃ t, exec (.spcReset cause) s = .next t ∧ t.lcy.spcDown = true ∧ t.lcy.spcInReset = true ∧ t.lcy.spcCause = cause.val ∧ t.image = {} ∧
        t.ses.deferred = [] ∧ t.ses.hsReady = false ∧ (∀ c, c < 256 → (t.sess c).opened = false) ∧ engineRuns t = false ∧
        t.ctl.spHost = 0 ∧ t.pro.kA = s.pro.kA ∧ t.pro.kB = s.pro.kB ∧ t.fac = s.fac ∧ t.cfg = s.cfg ∧ t.nv = s.nv ∧ t.recNv = s.recNv ∧
        (s.pwr.target = none → t.pro = s.pro ∧ sameMeasuring s t)) ∧
    (∀ c : Instr, s.lcy.spcDown = true →
      ((c = .spcRestartDone ∧ s.lcy.spcCause ≠ 2) ∨ (c = .activationPauseEnd ∧ s.lcy.spcCause = 2)) →
      ∃ t, exec c s = .next t ∧ t.lcy.spcDown = false ∧ t.lcy.spcInReset = false ∧ t.ses.hsReady = true ∧ t.nv.mark = 0 ∧ t.nv.newFw = false ∧
        t.nv.badStarts = 0 ∧
        t.fac = s.fac ∧ t.recNv = s.recNv ∧ t.nv.creds = s.nv.creds ∧ t.nv.lcy = s.nv.lcy ∧
        ((s.nv.newFw = false ∨ s.nv.badStarts < 2) →
          (s.nv.mark = 0 → t.nv.running = s.nv.running ∧ t.nv.alternate = s.nv.alternate ∧
            t.nv.fwMin.toNat = max s.nv.fwMin.toNat s.nv.running.minVer.toNat ∧
            ((bootConfig s).2.1 = s.nv.formatStale → t.cfg = s.cfg ∧ t.pro = s.pro ∧ t.smp = s.smp ∧ t.bal = s.bal)) ∧
          (∀ f, s.nv.mark ≠ 0 → markedImage s = some f →
            t.nv.updLast = fwCheck s f.raw ∧
            (fwCheck s f.raw = stOk → t.nv.running = f ∧ t.nv.alternate = some s.nv.running) ∧
            (fwCheck s f.raw ≠ stOk → t.nv.running = s.nv.running ∧ t.nv.alternate = s.nv.alternate))) ∧
        (∀ f, s.nv.newFw = true → 2 ≤ s.nv.badStarts → s.nv.alternate = some f → s.nv.mark = 0 →
          t.nv.running = f ∧ t.nv.alternate = some s.nv.running ∧ t.nv.updKind = 3)) ∧
    (settled s → s.lcy.spcDown = false →
      (s.nv.wipePending = false → ∀ v, effect (.wipeDone v) id [] [] s) ∧
      (s.nv.wipePending = true → effect (.wipeDone false) (fun s => { s with lcy := { s.lcy with wipeFail := true } }) [(2, 9)] [] s) ∧
      (s.nv.wipePending = true →
        ∃ t, exec (.wipeDone true) s = .next t ∧ t.nv.wipePending = false ∧ t.lcy.wipeFail = false ∧ t.nv.lcyLast = stOk ∧
          t.nv.lcy = s.nv.lcy ∧ t.fac = s.fac ∧ (∀ c, c < 256 → (t.sess c).opened = false) ∧
          (s.nv.wipeFrom = 0 → t.nv.creds = s.nv.creds.filter (fun c => c.id != 0) ∧ t.cfg = s.cfg ∧ t.nv.active = s.nv.active ∧
            t.recNv = s.recNv ∧ t.pro = s.pro ∧ t.smp = s.smp) ∧
          (s.nv.wipeFrom ≠ 0 → t.nv.active = none ∧ t.nv.previous = none ∧ t.nv.versionHigh = 0 ∧ t.nv.copyA = {} ∧ t.nv.copyB = {} ∧
            t.nv.staged = [] ∧ t.cfg = defaultCfg ∧ t.lcy.defaultsLocked = true ∧
            (s.nv.lcy = 4 → t.nv.creds = [] ∧ t.recNv.records = [] ∧ t.recNv.exportMark = 0) ∧
            (s.nv.lcy ≠ 4 → t.nv.creds = s.nv.creds ∧ t.recNv = s.recNv))))

/-- For every settled state in which PEER runs. HELLO: a refused one restarts the count, the 16th good one in a row brings PEER
up. STATUS is kept with its receipt; the standby's channels become the holder's where its own PRO lets it, else it only releases.
A FWD block in time is taken, a late one counted. COPY stores its bytes, COPY_END commits a whole epoch with the right CRC on
matching maps, else drops it. PEER_TRIP parks the engine. PEER_CYCLE sends HELLO while PEER is down, else STATUS and the epoch's
next part, each ending in its CRC and with the scrambler's state of its transmission. PEER_DOWN after 16 quiet cycles ends it. NV,
configurations and factory data stay. That a standby's CONNECT_STATE follows the holder's is the model's reading (log entry 27);
the bytes of an epoch are laid out as in log entry 8. (R404, R405, R407, R412, R413, R418, R419, 14_redundant_pair.md) -/
def Obligations.PeerFramesCarryTimeChannelsAndEpochs : Prop :=
  ∀ s : State, settled s → peerRuns s = true →
    let frame (k : Nat) (type : Byte) (body : Bytes) : Out := .peer (takeSeed { s with fresh := s.fresh + k }).1 (withCrc (type :: body))
    (∀ h : PeerHello,
      (s.pai.peerUp = true → effect (.peerHello h) id [] [] s) ∧
      (s.pai.peerUp = false → helloOk s h = false →
        effect (.peerHello h) (fun s => { s with pai := { s.pai with helloRun := 0 } }) [(0x10, 5)] [] s) ∧
      (s.pai.peerUp = false → helloOk s h = true → s.pai.helloRun + 1 < 16 → effect (.peerHello h) (fun s => { s with pai := { s.pai with
        helloRun := s.pai.helloRun + 1, peerSn := h.serial } }) [] [] s) ∧
      (s.pai.peerUp = false → helloOk s h = true → 15 ≤ s.pai.helloRun → effect (.peerHello h) (fun s => { s with pai := { s.pai with
        helloRun := s.pai.helloRun + 1, peerSn := h.serial, peerUp := true, quiet := 0, mapMatch := h.mapCrc == mapCrc s,
        peer := none } }) [(0x10, 3)] [] s)) ∧
    (∀ (f : PeerStatus) (rx : Int),
      (s.pai.peerUp = false → effect (.peerStatus f rx) id [] [] s) ∧
      (s.pai.peerUp = true → s.pai.handover = false → (s.pro.conn = 0 ∨ s.pro.conn = 5) → (f.connect = 0 ∨ f.connect = 5) →
        ∃ t, exec (.peerStatus f rx) s = .next t ∧ t.pai.peer = some f ∧ t.pai.quiet = 0 ∧ t.pai.rxStamp = rx ∧ t.pai.rxInst = f.instant ∧
          t.pai.mapMatch = (f.mapCrc == mapCrc s) ∧ sameStores s t ∧ t.units = s.units ∧ t.est = s.est ∧
          ((s.pai.select = true ∨ f.select = false ∨ s.pro.inReset = true) → t.pro = s.pro) ∧
          (s.pai.select = false → f.select = true → s.pro.inReset = false → mirrorOk s = true →
            t.pro.kA = channelBits f.channels 0 ∧ t.pro.kB = channelBits f.channels 1 ∧ t.pro.conn = f.connect) ∧
          (s.pai.select = false → f.select = true → s.pro.inReset = false → mirrorOk s = false →
            t.pro.kA = channelBits f.channels 0 &&& s.pro.kA ∧ t.pro.kB = channelBits f.channels 1 &&& s.pro.kB))) ∧
    (∀ (unit : Byte) (body : Bytes) (late : Bool),
      let p := unit.toNat / 4
      let c := unit.toNat % 4
      s.pai.peerUp = true → c ≠ 3 → split s p = true → (s.port p).link = 2 → (s.pos p c).present = true → body.length = 46 →
      leNat (slice body 0 2) = s.smp.instant % 65536 → s.smp.started = true →
      (late = true ∨ frameClosed s = true → effect (.peerFwd unit body late)
        (fun s => { s with pai := { s.pai with fwdLate := satAdd s.pai.fwdLate 1 } }) [(0x10, 8)] [] s) ∧
      (late = false → frameClosed s = false → (s.pos p c).got = none → (s.xr (6 + p / 8)).down = false →
        ∃ t, exec (.peerFwd unit body late) s = .next t ∧ (t.pos p c).got.isSome = true ∧
          (t.pos p c).stale = ((s.pos p c).stale && !(blockOf ([0x20, unit] ++ body)).status.getLsbD 0) ∧
          t.pai.fwdRx = satAdd s.pai.fwdRx 1 ∧ t.pro = s.pro ∧ sameStores s t ∧ t.smp = s.smp ∧ t.units = s.units)) ∧
    (∀ (epoch offset len : Nat) (data : Bytes), s.pai.peerUp = true → s.pai.select = false →
      (s.pai.buf.num = epoch ∨ s.pai.buf.data = [] → effect (.peerCopy epoch offset len data) (fun s => { s with pai := { s.pai with
        buf := { num := epoch, data := putBytes offset (data.take len) s.pai.buf.data } } }) [] [] s) ∧
      (s.pai.buf.num ≠ epoch → s.pai.buf.data ≠ [] → effect (.peerCopy epoch offset len data) (fun s => { s with pai := { s.pai with
        buf := { num := epoch, data := putBytes offset (data.take len) [] }, epochFails := satAdd s.pai.epochFails 1 } })
        [(0x10, 6)] [] s)) ∧
    (∀ (epoch len : Nat) (crc : Word), s.pai.peerUp = true → s.pai.select = false →
      let whole := s.pai.buf.num = epoch ∧ s.pai.mapMatch = true ∧ ∃ b, bufferBytes len s.pai.buf.data = some b ∧ crc32 b = crc
      (whole → effect (.peerCopyEnd epoch len crc) (fun s => { s with pai := { s.pai with
        good := s.pai.buf, buf := {}, epochOk := BitVec.ofNat 32 epoch, epochValid := true } }) [] [] s) ∧
      (¬ whole → effect (.peerCopyEnd epoch len crc) (fun s => { s with pai := { s.pai with
        buf := {}, epochFails := satAdd s.pai.epochFails 1 } }) [(0x10, 6)] [] s)) ∧
    (∀ (code : Byte) (instant : Word), ∃ t, exec (.peerTrip code instant) s = .next t ∧ flagged [(0x10, 9)] s t ∧ t.pro = s.pro ∧
      sameStores s t ∧ sameMeasuring s t ∧ engineRuns t = false ∧
      (engineRuns s = true → t.ctl.state = 1 ∧ t.ctl.stopCause = 2 ∧ stageOff t = true)) ∧
    ((s.pai.peerUp = false → effect .peerCycle (fun s => { s with pai := { s.pai with tx := none }, fresh := s.fresh + 1 }) []
        [frame 0 0xD0 (le 1 (role s) ++ le 8 s.fac.serial ++ [1, 0] ++ leW (mapCrc s))] s) ∧
      (s.pai.peerUp = true → (iSel s).isSome = true →
        let cycle (f : Pai → Pai) (o : List Out) : Prop := effect .peerCycle
          (fun s => { s with pai := f { s.pai with quiet := s.pai.quiet + 1 }, fresh := s.fresh + 1 + o.length }) []
          (frame 0 0x80 (statusBytes s) :: o) s
        (s.pai.select = false ∨ s.pai.tx = none → cycle (fun p => { p with tx := none }) []) ∧
        ∀ n b off, s.pai.select = true → s.pai.tx = some (n, b, off) →
          (off < b.length → cycle (fun p => { p with tx := some (n, b, off + 128) })
            [frame 1 0xA0 (le 4 n ++ le 4 off ++ le 2 (slice b off 128).length ++ fit 128 (slice b off 128))]) ∧
          (b.length ≤ off → cycle (fun p => { p with tx := none, epochTx := BitVec.ofNat 32 n })
            [frame 1 0xA1 (le 4 n ++ le 4 b.length ++ leW (crc32 b))]))) ∧
    ((s.pai.peerUp = false ∨ s.pai.quiet < 16 → effect .peerDown id [] [] s) ∧
      (s.pai.peerUp = true → 16 ≤ s.pai.quiet → ∃ t, exec .peerDown s = .next t ∧ t.pai.peerUp = false ∧ t.pai.mapMatch = false ∧
        t.pai.aligned = false ∧ t.pai.follower = false ∧ t.pai.buf.data = [] ∧ t.pro = s.pro ∧ sameStores s t ∧ t.out = [] ∧
        (s.pai.follower = true → s.smp.tb = 2 → t.smp.tb = 3) ∧ (s.pai.follower = false → t.smp = s.smp) ∧
        flagged ((0x10, 4) :: ((if s.pai.aligned then [(0x10, 11)] else []) ++ if s.pai.buf.data = [] then [] else [(0x10, 6)])) s t))

/-- ARBITER_NOT_FIT and ARBITER_FIT of a module with PAI change the arbiter's view and holder and set SELECT_VALID, nothing else:
a module takes SELECT only once FIT for 10 ms, and SELECT on its way to the other module leaves a gap. The arbiter's five outputs
to the stage are the holder's signals, and low while no module holds SELECT. In a settled state in which PEER runs: SELECT gained
makes it the holder, sets SELECT and its counter, asks for a plan and asks every port to stop bleeding. Where its CONNECT_STATE
already is the holder's, SELECT_GAINED is its one flag, the shadow engine takes over, the host's set-point, SRC and bank are the
last STATUS's and PRO stays; a holder's state that is neither OPEN nor CONNECTED opens the string, at once where no current limit
of R254 is passed. SELECT lost stops commanding: no engine drives, RUNNING and STOPPING go to SHADOW with STOP_CAUSE 6 where no
transition or hand-over is in course, contactors stay in OPEN, CONNECTED and the opening states. HANDOVER_TIMEOUT ends the hand-
over and an activation that waited with BUSY; the mark stays. PAIR_GE_SETTLE ends the settling. CONNECT_STATE at the takeover and
the peer's BREATH are the model's reading (log entries 27 and 28). (R278, R396, R402, R420, R424, R425, R426, R428,
14_redundant_pair.md) -/
def Obligations.SelectMovesThePair : Prop :=
  ∀ s : State,
    (hasPai s = true → settled s → ∀ x : FitReport,
      let n := roleNum x.m
      let given (a b : Bool) : Arb := { s.arb with
        fitA := if x.m = .A then a else s.arb.fitA
        fitB := if x.m = .B then a else s.arb.fitB
        longA := if x.m = .A then b else s.arb.longA
        longB := if x.m = .B then b else s.arb.longB
        other := x.other }
      let lost : Arb :=
        if s.arb.holder ≠ n then given false false
        else if s.arb.long (3 - n) then { given false false with holder := 0, next := 3 - n }
        else if breathLost x n s then { given false false with holder := 0 }
        else given false false
      let found : Arb :=
        if x.long = false then given true false
        else if s.arb.holder = 0 then (if s.arb.next = 0 then { given true true with holder := if x.m = .A ∨ s.arb.longA then 1 else n } else given true true)
        else if (given true true).fit s.arb.holder then given true true
        else { given true true with holder := 0, next := n }
      effect (.arbiterNotFit x) (fun s => { s with arb := lost, pai := { s.pai with selectValid := true } }) [] [] s ∧
      effect (.arbiterFit x) (fun s => { s with arb := found, pai := { s.pai with selectValid := true } }) [] [] s) ∧
    ((s.arb.holder = 0 → stageOut s = { gate := false, pwm0 := none, pwm1 := none }) ∧
      (s.arb.holder = role s → s.arb.holder ≠ 0 →
        stageOut s = stagePins s ∧ (stagePins s).gate = gateEn s ∧ (gateEn s = false → stagePins s = {})) ∧
      (s.arb.holder ≠ 0 → s.arb.holder ≠ role s → stageOut s = s.arb.other)) ∧
    (settled s → peerRuns s = true →
      (s.pai.select = true → effect .selectGained id [] [] s) ∧
      (s.pai.select = false →
        ∃ t, exec .selectGained s = .next t ∧ t.pai.select = true ∧ t.pai.selectValid = true ∧ t.pai.everSelect = true ∧
          t.arb.holder = role s ∧ t.arb.next = 0 ∧
          t.pai.takeEpoch = true ∧ t.pai.follower = false ∧ t.pai.selectCnt = satAdd s.pai.selectCnt 1 ∧ t.bal.planNow = true ∧
          t.bal.stopPorts = List.range (nPorts s) ∧ t.est = s.est ∧ sameStores s t ∧
          ((∀ f, s.pai.peer = some f → tripped s = true ∨ f.connect = s.pro.conn) → t.pro = s.pro ∧ t.smp = s.smp ∧ flagged [(0x10, 0)] s t ∧
            (s.ctl.state = 5 → engineRuns t = true ∧ t.ctl.enable = true ∧ t.pai.settle = true ∧
              (t.ctl.state = 4 ↔ ∃ f, s.pai.peer = some f ∧ f.ctlState = 4)) ∧
            (s.ctl.state ≠ 5 → t.ctl.state = s.ctl.state ∧ t.ctl.enable = s.ctl.enable ∧ t.pai.settle = s.pai.settle) ∧
            (∀ f, s.pai.peer = some f → hasCtl s = true → t.ctl.spHost = f.spHost ∧ t.ctl.spRun = true ∧ t.ctl.src = min f.src 4 ∧
              t.ctl.bankReq = f.bankReq % 4)) ∧
          (∀ f, s.pai.peer = some f → tripped s = false → (s.pro.conn = 0 ∨ s.pro.conn = 5) → f.connect ≠ 0 → f.connect ≠ 5 →
            s.pro.aboveBreak = false → s.pro.aboveNever = false →
            t.pro.kA = 0 ∧ t.pro.kB = 0 ∧ (t.pro.conn = 0 ∨ t.pro.conn = 9))) ∧
      (s.pai.select = false → effect .selectLost id [] [] s) ∧
      (s.pai.select = true →
        ∃ t, exec .selectLost s = .next t ∧ t.pai.select = false ∧ t.pai.takeEpoch = false ∧ t.pai.tx = none ∧ t.bal.learn = none ∧
          engineRuns t = false ∧ (engineRuns s = true → stageOff t = true) ∧ t.cfg = s.cfg ∧ t.fac = s.fac ∧
          (s.pwr.target = none → s.pai.handover = false → (s.ctl.state = 3 ∨ s.ctl.state = 4) → t.ctl.state = 5 ∧ t.ctl.stopCause = 6) ∧
          (s.pro.conn = 0 ∨ 5 ≤ s.pro.conn → t.pro.kA = s.pro.kA ∧ t.pro.kB = s.pro.kB ∧ t.pro.conn = s.pro.conn)) ∧
      (s.pai.handover = false → effect .handoverTimeout id [] [] s) ∧
      (s.pai.handover = true →
        ∃ t, exec .handoverTimeout s = .next t ∧ t.pai.handover = false ∧ t.pai.activate = false ∧
          t.nv = (if s.pai.activate then { s.nv with updLast := stBusy } else s.nv) ∧ t.ev = s.ev ∧ t.pro = s.pro ∧
          t.ctl = s.ctl ∧ t.cfg = s.cfg ∧ t.fac = s.fac ∧ sameMeasuring s t ∧
          (∀ d, running 0x0C02 s = some d → (s.sess d.ctx.toNat).opened = true → (s.sess d.ctx.toNat).gen = d.gen →
            (Out.completion d.ctx d.tag d.op stBusy []) ∈ t.out) ∧
          (s.pai.activate = true → ∀ d, running 0x0A03 s = some d → (s.sess d.ctx.toNat).opened = true → (s.sess d.ctx.toNat).gen = d.gen →
            (Out.completion d.ctx d.tag d.op stBusy []) ∈ t.out)) ∧
      effect .pairGeSettle (fun s => { s with pai := { s.pai with settle := false } }) [] [] s)

/-- For every settled state in which the recorder runs. REC_EVENT of an enabled class appends one record with the next index,
folds into the newest record of the same code and source, or, the ring full, opens a LOST record and counts; in the final flush it
only counts. FLUSH_START takes every record of the ring, FLUSH_RECORD_WRITTEN moves the oldest one to NV, making room by one erase
unit when the region is full; a failed verification is only flagged. SNAPSHOT appends the registers of its class, up to eight in
the one record, TIME_MARK one mark with the module's time, its INSTANT 0 while no port samples, OPTIME_TICK counts 10 ms.
Configuration, other NV data, PRO, CTL and what measures stay. (R445, R449, R450, R451, R452, R453, R454, R455, R458, R459,
16_recorder_health.md) -/
def Obligations.RecorderAcceptsFoldsLosesAndFlushes : Prop :=
  ∀ s : State, settled s → recRuns s = true →
    let keeps (t : State) : Prop := t.nv = s.nv ∧ t.cfg = s.cfg ∧ t.fac = s.fac ∧ t.pro = s.pro ∧ t.ctl = s.ctl ∧ sameMeasuring s t
    let room : Prop := s.recd.lostOpen = false ∧ s.recd.ring.length < 255
    let appended (code source : Nat) (t : State) (r : Record) : Prop := t.recd.ring = s.recd.ring ++ [r] ∧ r.code = code ∧ r.source = source ∧
      r.index = s.recNv.next ∧ r.pcyc = s.recNv.pcyc ∧ r.optime = s.recd.optime ∧ t.recNv = { s.recNv with next := s.recNv.next + 1 } ∧
      t.recd.taken = s.recd.taken ∧ keeps t
    (s.recd.inq = [] → effect .recEvent id [] [] s) ∧
    (∀ ev rest, s.recd.inq = ev :: rest →
      let folds (i : Nat) (r : Record) : Prop := newest s = some i ∧ s.recd.ring[i]? = some r ∧ r.code = ev.code ∧ r.source = ev.source ∧
        neverFolds ev.code = false
      let enabled : Prop := s.upl.holdup ≠ 3 ∧ (s.cfg.recClass (classOf ev.code)).enable = true
      (s.upl.holdup = 3 → ∃ t, exec .recEvent s = .next t ∧ t.recd.later = s.recd.later + 1 ∧ t.recNv = s.recNv ∧
        t.recd.ring = s.recd.ring ∧ keeps t) ∧
      (s.upl.holdup ≠ 3 → (s.cfg.recClass (classOf ev.code)).enable = false → effect .recEvent id [] [] s) ∧
      (enabled → room → (¬ ∃ i r, folds i r) →
        ∃ t r, exec .recEvent s = .next t ∧ appended ev.code ev.source t r ∧ r.data = ev.data ∧ r.instant = ev.instant ∧ r.rep = 0 ∧
          r.cls = classOf ev.code ∧ t.recd.lostOpen = false) ∧
      (∀ i r, enabled → s.recd.lostOpen = false → folds i r →
        ∃ t, exec .recEvent s = .next t ∧ t.recd.ring = s.recd.ring.set i { r with
          rep := min (r.rep + 1) 0xFFFFFFFF, lastDt := min (s.recd.optime - r.optime) 0xFFFFFFFF } ∧
          t.recd.foldCnt = satAdd s.recd.foldCnt 1 ∧ t.recNv = s.recNv ∧ keeps t) ∧
      (enabled → s.recd.lostOpen = false → 255 ≤ s.recd.ring.length → (¬ ∃ i r, folds i r) →
        ∃ t r, exec .recEvent s = .next t ∧ appended 0x1182 0xFFFF t r ∧ r.rep = 1 ∧
          r.data = le 2 ev.code ++ le 2 ev.source ++ le 6 s.recd.optime ∧ t.recd.lostOpen = true ∧
          t.recd.lostCnt = satAdd s.recd.lostCnt 1) ∧
      (enabled → s.recd.lostOpen = true → ∃ t, exec .recEvent s = .next t ∧ t.recd.ring.length = s.recd.ring.length ∧
        t.recd.lostCnt = satAdd s.recd.lostCnt 1 ∧ t.recNv = s.recNv ∧ keeps t)) ∧
    (s.recd.flushing = true ∨ s.recd.due = false ∨ s.upl.holdup = 3 → effect .flushStart id [] [] s) ∧
    (s.recd.flushing = false → s.recd.due = true → s.upl.holdup ≠ 3 →
      ∃ t, exec .flushStart s = .next t ∧ t.recd.due = false ∧ t.recd.lostOpen = false ∧ t.recd.ring = s.recd.ring ∧ keeps t ∧
        t.upl.holdup = (if s.upl.holdup = 2 then 3 else s.upl.holdup) ∧
        (s.recd.ring ≠ [] → t.recd.flushing = true ∧ t.recd.taken = s.recd.ring.length ∧ t.recNv = s.recNv) ∧
        (s.recd.ring = [] → t.recd.flushing = false ∧ t.recd.flushCnt = satAdd s.recd.flushCnt 1 ∧
          t.recNv.optimeSaved = s.recd.optime ∧ t.recNv.records = s.recNv.records)) ∧
    (s.recd.flushing = false → ∀ v, effect (.flushRecordWritten v) id [] [] s) ∧
    (s.recd.flushing = true → effect (.flushRecordWritten false) id [(0x11, 2)] [] s) ∧
    (∀ r rest, s.recd.flushing = true → s.recd.ring = r :: rest →
      ∃ t, exec (.flushRecordWritten true) s = .next t ∧ t.recd.ring = rest ∧ t.recd.taken = s.recd.taken - 1 ∧ keeps t ∧
        t.recNv.next = s.recNv.next ∧
        (s.recNv.records.length < 786432 → t.recNv.records = s.recNv.records ++ [r] ∧ t.recNv.oldest = s.recNv.oldest ∧
          t.recNv.exportMark = s.recNv.exportMark) ∧
        (786432 ≤ s.recNv.records.length → t.recNv.records = s.recNv.records.drop 1024 ++ [r] ∧ t.recNv.oldest = s.recNv.oldest + 1024 ∧
          t.recNv.wrapped = true) ∧
        (1 < s.recd.taken → t.recd.flushing = true) ∧
        (s.recd.taken ≤ 1 → t.recd.flushing = false ∧ t.recd.flushCnt = satAdd s.recd.flushCnt 1 ∧
          t.recNv.optimeSaved = s.recd.optime)) ∧
    (s.recd.snaps = [] → effect .snapshot id [] [] s) ∧
    (∀ idx cls rest, spcUp s = true → s.recd.snaps = (idx, cls) :: rest → room →
      let regs := (s.cfg.recClass cls).regs
      0 < regs.length → regs.length ≤ 8 →
      ∃ t r, exec .snapshot s = .next t ∧ t.recd.snaps = rest ∧ appended 0x1184 0 t r ∧
        r.snap = some (le 4 (idx % 2 ^ 32) ++ le 4 (slotVersion s.nv.active) ++ fit 32 ((regs.map (regShow s)).flatMap leW) ++ [0, 0, 0, 0])) ∧
    (s.recd.markDue = false → s.smp.tb ≠ 2 ∨ s.recd.optime < s.recd.markAt + 360000 → effect .timeMark id [] [] s) ∧
    (s.recd.markDue = true ∨ (s.smp.tb = 2 ∧ s.recd.markAt + 360000 ≤ s.recd.optime) → s.upl.holdup ≠ 3 →
      (s.cfg.recClass 7).enable = true → room →
      ∃ t r, exec .timeMark s = .next t ∧ appended 0x1181 0xFFFF t r ∧ t.recd.markDue = false ∧ t.recd.markAt = s.recd.optime ∧
        r.instant = recInstant s ∧ r.data = le 8 s.smp.timeNs ++ leI 4 s.smp.phaseErr) ∧
    (∃ t, exec .optimeTick s = .next t ∧ t.recd.optime = (s.recd.optime + 1) % 2 ^ 48 ∧ t.recd.ring = s.recd.ring ∧ t.recNv = s.recNv ∧
      t.hkp.thrTime = (if s.hkp.throttled then satAdd s.hkp.thrTime 10 else s.hkp.thrTime) ∧ keeps t ∧
      (∀ r, s.recd.ring[s.recd.taken]? = some r → r.optime + 100 * s.cfg.period ≤ (s.recd.optime + 1) % 2 ^ 48 → t.recd.due = true))

/-- HOUSEKEEPING_ROUND of six sensors keeps each reading in range, gives its level by its mode (1 for a bad sensor), and the
module level is the largest; level 3 stops IMP. DRAM_SCRUB and ECC_ERROR count and flag each error while the recorder runs, an
uncorrectable one of the SPC resets it, of EST re-inserts the group, of the recorder marks the record. A VALUE crossing delivers
its transfer and sends the pending value; its destination takes the value, IMP's throttle at the tick boundary while instants run.
A PULSE crossing raises one flag per occurrence. The first reset indication of a reset takes the shared crossings DOWN and counts
the flush, the ready exchange brings them up with the current value, but for those whose other side is in reset. That
REHANDSHAKE_DONE says that the SPC island has left reset is the model's reading (log entry 67). Wake and clock stop are noted.
Contactors, NV and configurations stay. (R431, R432, R436, R439, R441, R442, R463, R464, R465, R467, 15_islands.md,
16_recorder_health.md) -/
def Obligations.HealthRoundsErrorsAndCrossings : Prop :=
  ∀ s : State,
    (∀ temps : List (Option Int), recRuns s = true → s.hkp.temp.length = 6 → s.hkp.slevel.length = 6 →
      ∃ t, exec (.housekeepingRound temps) s = .next t ∧ t.hkp.rounds = satAdd s.hkp.rounds 1 ∧ t.pro = s.pro ∧ sameStores s t ∧
        t.smp = s.smp ∧ t.units = s.units ∧ t.hkp.level = t.hkp.slevel.foldl max 0 ∧ t.hkp.impStopped = (t.hkp.level == 3) ∧
        t.hkp.throttled = (t.hkp.level == 3 || (t.hkp.level == 2 && decide (0 < s.cfg.tickSkipMax))) ∧
        ∀ n, n < 6 → t.hkp.temp[n]? = some (hkpReading (temps.getD n none)) ∧
          (hkpReading (temps.getD n none) = none → t.hkp.slevel[n]? = some 1) ∧
          ∀ v, hkpReading (temps.getD n none) = some v → s.cfg.sensRate n = false →
            t.hkp.slevel[n]? = some (levelMode s.cfg n (s.hkp.slevel.getD n 0) v)) ∧
    (recRuns s = true → ∀ bad : List ScrubError,
      let counted (l : List Word) : List Word := bad.foldl (fun l e => bumpAt l (if e.ue then 1 else 0)) l
      (settled s → alive s = false ∨ (∀ e ∈ bad, e.ue = false ∨ e.spc = false) →
        effect (.dramScrub bad) (fun s => { s with hkp := { s.hkp with ecc := counted s.hkp.ecc } }) (bad.map fun e => (0x12, if e.ue then 4 else 3)) [] s) ∧
      (alive s = true → (∃ e ∈ bad, e.ue = true ∧ e.spc = true) → ∃ t, exec (.dramScrub bad) s = .next t ∧ t.hkp.ecc = counted s.hkp.ecc ∧
        t.lcy.spcDown = true ∧ t.lcy.spcCause = 3 ∧ engineRuns t = false ∧ t.pro.kA = s.pro.kA ∧ t.pro.kB = s.pro.kB ∧ t.cfg = s.cfg ∧
          t.fac = s.fac)) ∧
    (settled s → recRuns s = true → ∀ (mem : Fin 4) (idx : Nat),
      let bumped (ue : Nat) (s : State) : State := { s with hkp := { s.hkp with ecc := bumpAt s.hkp.ecc (2 * mem.val + ue) } }
      effect (.eccError mem false idx) (bumped 0) [(0x12, 3)] [] s ∧
      (mem.val = 0 → idx ≠ 1 → effect (.eccError mem true idx) (bumped 1) [(0x12, 4)] [] s) ∧
      (alive s = true → mem.val = 2 → effect (.eccError mem true idx)
        (fun s => modCtx idx (fun x => { x with mustInsert := true }) (bumped 1 s)) [(0x12, 4)] [] s) ∧
      (mem.val = 3 → effect (.eccError mem true idx)
        (fun s => bumped 1 { s with recNv := { s.recNv with
          records := s.recNv.records.map fun r => if r.index = idx then { r with unread := true } else r } }) [(0x12, 4)] [] s) ∧
      (alive s = false → mem.val ≠ 3 → effect (.eccError mem true idx) (bumped 1) [(0x12, 4)] [] s) ∧
      (alive s = true → mem.val = 1 ∨ (mem.val = 0 ∧ idx = 1) → ∃ t, exec (.eccError mem true idx) s = .next t ∧ t.lcy.spcDown = true ∧
        t.lcy.spcCause = 3 ∧
        t.image = {} ∧ engineRuns t = false ∧ t.pro.kA = s.pro.kA ∧ t.pro.kB = s.pro.kB ∧ t.cfg = s.cfg ∧ t.fac = s.fac)) ∧
    (alive s = true → ∀ x : Byte,
      let r := s.xr x.toNat
      let n := x.toNat
      (settled s → r.down = true ∨ xngPresent s n = false → effect (.crossingValueDelivered x) id [] [] s ∧
        effect (.crossingPulseDelivered x) id [] [] s) ∧
      (settled s → r.fly = none → effect (.crossingValueDelivered x) id [] [] s) ∧
      (∀ v, r.down = false → xngPresent s n = true → r.fly = some v →
        ∃ t, exec (.crossingValueDelivered x) s = .next t ∧ (t.xr n).held = some v ∧ (t.xr n).fly = r.pend ∧ (t.xr n).pend = none ∧
          sameStores s t ∧ t.units = s.units ∧ (n ≠ 0x1D → t.pro = s.pro) ∧ (n ≠ 0x20 → t.smp = s.smp) ∧
          (∀ l : List (Nat × F32 × F32 × F32), n = 0x15 → v = .results l → (l.map Prod.fst).Nodup →
            ∀ e ∈ l, e.1 < s.est.ctx.length → (t.est.ctx.getD e.1 {}).imp = some e.2) ∧
          (∀ k, n = 0x16 → v = .tickState k → t.imp.ticks.head? = some k) ∧
          (∀ e, n = 0x20 → v = .phase e → t.smp.phaseErr = (if s.pai.follower then s.smp.phaseErr else e)) ∧
          (∀ q u i, n = 0x13 → v = .prot q → q.probes = [(u, i)] → u < 144 → u < s.bal.slots.length → (s.bal.slots.getD u {}).probe = 0 →
            (t.bal.slots.getD u {}).probe = 1 ∧ (t.bal.slots.getD u {}).probeInput = i) ∧
          (∀ k c d, n = 0x11 → v = .sop k c d → t.ses.sopCh = c ∧ t.ses.sopDis = d) ∧
          (∀ k c d, n = 0x10 → v = .sop k c d → t.ctl.sopCh = c ∧ t.ctl.sopDis = d ∧ t.ctl.sopTick = k ∧ t.ctl.sopStale = false) ∧
          (∀ c d, n = 0x12 → v = .derate c d → t.ctl.derCh = c ∧ t.ctl.derDis = d) ∧
          (∀ l k d, v = .throttle l k d → (n = 0x1E → t.est.throttle = (l, k, d)) ∧
            (n = 0x1F → if sampling s = true ∧ s.smp.started = true then t.imp.thrNext = some (l, k, d) ∧ t.imp.throttle = s.imp.throttle
              else t.imp.throttle = (l, k, d) ∧ t.imp.thrNext = none))) ∧
      (settled s → r.down = false → xngPresent s n = true → 0x23 ≤ n → n ≤ 0x29 → r.accs.length ≤ 24 →
        ∃ t, exec (.crossingPulseDelivered x) s = .next t ∧ (t.xr n).accs = (r.accs.map fun a => { fly := a.acc, acc := 0 }) ∧
          t.out = [] ∧ t.pro = s.pro ∧ t.ctl = s.ctl ∧ sameStores s t ∧ sameMeasuring s t ∧
          flagged ((List.range r.accs.length).flatMap fun k =>
            List.replicate (r.accs.getD k ({} : Sys2Proof.Machine.Acc)).fly (pulseFlag n k)) s t)) ∧
    (alive s = true → ∀ i : Fin 17,
      (settled s → islandInReset s i.val = false ∨ s.xng.told.contains i.val = true → effect (.crossingResetIndication i) id [] [] s) ∧
      (islandInReset s i.val = true → s.xng.told.contains i.val = false → ∃ t, exec (.crossingResetIndication i) s = .next t ∧ t.pro = s.pro ∧
        t.ctl = s.ctl ∧ sameStores s t ∧
        sameMeasuring s t ∧ ∀ x ∈ sharedBy s i.val, x < s.xng.xrec.length → (t.xr x).down = true ∧ (t.xr x).fly = none ∧
          (t.xr x).pend = none ∧ (t.xr x).accs = [] ∧ (t.xr x).ready = false ∧ (t.xr x).flush = satAdd (s.xr x).flush 1) ∧
      (let other := if i.val = 2 then 13 else 2
        let shut (x : Nat) : Prop := islandInReset s other = true ∧ x ∈ sharedBy s other
        i.val = 2 ∨ (i.val = 13 ∧ s.pro.inReset = false) →
        ∃ t, exec (.rehandshakeDone i) s = .next t ∧ t.pro = s.pro ∧ t.ctl = s.ctl ∧ sameStores s t ∧ sameMeasuring s t ∧
          islandInReset t i.val = false ∧ t.xng.told = s.xng.told.erase i.val ∧
          ∀ x ∈ sharedBy s i.val, (s.xr x).down = true → (shut x → (t.xr x).down = true) ∧
            (¬ shut x → (t.xr x).down = false ∧ (t.xr x).ready = true ∧ (t.xr x).fly = (s.xr x).cur)) ∧
      (settled s → clockStopped s i.val = true → islandPresent s i.val = true → s.xng.woken.contains i.val = false → ∀ ns : Nat,
        effect (.islandWake i ns) (fun s => { s with xng := { s.xng with
          wakeMax := if s.xng.wakeMax.toNat < ns then u32 ns else s.xng.wakeMax, woken := i.val :: s.xng.woken } }) [] [] s) ∧
      (settled s → effect (.islandClockStop i) (fun s => { s with xng := { s.xng with
        woken := s.xng.woken.filter fun k => k != i.val } }) [] [] s))

/-- For every settled state, unit and slot of the unit's frame. A slot that does not hold the command leaves the unit; a unit
without an address, not obeying its frame, or not addressed, stays. A repeated CSEQ sends the stored answer, unless it waits
already. A new command with a wrong length is answered BAD_LENGTH, one that breaks a rule the first RSTAT of R88, otherwise it has
its effect and is answered DONE (OW_TEST: PENDING), behind the answers that wait. Chain length, corrections, masks, curves and
mode apply from the next instant (log entry 56). ADDR_ASSIGN addresses an unaddressed unit of the port, UNIT_RESET is kept for the
end of the cycle, DELAY_PROBE asks for an ECHO. BLEED_SET in a frame with BLEED_STOP is REJECTED. OW_STOP ends a test, which is
answered DONE. A new broadcast that the command accepts is executed without an answer. Nothing of the module or of other units
changes. The data that the spec leaves open in LOAD_CHECK and DIAG_READ are free values (log entry 4). (R57, R71, R86, R87, R88,
R89, R95, R96, R98, R101, R106, 03_monitor_units.md) -/
def Obligations.UnitsObeyTheLinkCommands : Prop :=
  ∀ (s : State) (p : Fin 48) (q i : Fin 3) (k : LinkCmd), settled s →
    let u := slotOf p q
    let m := s.unit u
    let becomes (c : Instr) (x : MUnit) : Prop := effect c (modUnit u (fun _ => x)) [] [] s
    let becomesFree (c : Instr) (x : MUnit) : Prop := effect c (fun s => modUnit u (fun _ => x) { s with fresh := s.fresh + 1 }) [] [] s
    let told (x : MUnit) (opc stat : Byte) (d : Bytes) : MUnit :=
      { x with resp := x.resp ++ [{ cseq := k.cseq, opc := opc, stat := stat, data := d }],
               lastOwn := some { cseq := k.cseq, opc := opc, stat := stat, data := d } }
    let ended (x : MUnit) : MUnit := match x.ow with
      | some t =>
        let r : Resp := { cseq := t.cseq, opc := 0x40, stat := 0x00, data := le 3 t.wires.toNat }
        { x with ow := none, resp := x.resp ++ [r], lastOwn := x.lastOwn.map fun l => if l.cseq = t.cseq then r else l }
      | none => x
    let plain : List (Instr × Byte × Nat × Bool) :=
      [(.identRead p q i, 0x02, 1, false), (.corrSet p q i, 0x03, 8, false), (.chainSet p q i, 0x05, 1, false),
       (.packIdSet p q i, 0x07, 8, false), (.loadBegin p q i, 0x10, 8, true), (.loadStart p q i, 0x12, 4, true),
       (.inputCfg p q i, 0x20, 3, false), (.tsensCfg p q i, 0x21, 5, false), (.bleedMode p q i, 0x22, 1, true),
       (.bleedStop p q i, 0x31, 2, true), (.owTest p q i, 0x40, 5, false), (.owStop p q i, 0x41, 0, true)]
    let d0 := k.data.getD 0 0
    let w16 : Half := BitVec.ofNat 16 (leNat (slice k.data 0 2))
    let curve : SensorCurve := { r26 := 10 * leNat (slice k.data 1 2), b := leNat (slice k.data 3 2) }
    let running : Prop := m.st = .running
    let slot : Option Byte := (m.slots[i.val]?).map LinkCmd.opc
    -- no such command in the slot
    (∀ e ∈ plain, slot ≠ some e.2.1 → becomes e.1 m) ∧ (slot ≠ some 0x01 → becomes (.addrAssign p q i) m) ∧
    (slot ≠ some 0x04 → becomes (.delayProbe p q i) m) ∧ (slot ≠ some 0x06 → becomes (.unitReset p q i) m) ∧
    (slot ≠ some 0x30 → becomes (.bleedSet p q i) m) ∧ (slot ≠ some 0x11 → becomesFree (.loadCheck p q i) m) ∧
    (slot ≠ some 0x50 → becomesFree (.diagRead p q i) m) ∧
    (m.slots[i.val]? = some k →
    -- passed over, repeated, wrong length
    (addressed m = false ∨ m.obey = false ∨ (k.dst ≠ m.addr ∧ k.dst ≠ 0xFF) → (∀ e ∈ plain, becomes e.1 m) ∧ becomes (.delayProbe p q i) m ∧
      becomes (.bleedSet p q i) m ∧ becomesFree (.loadCheck p q i) m ∧ becomesFree (.diagRead p q i) m ∧ becomes (.unitReset p q i) m) ∧
    (m.st ≠ .bootUnaddressed ∨ m.obey = false ∨ k.dst ≠ 0xFE → becomes (.addrAssign p q i) m) ∧
    (k.opc = 0x01 → m.st = .bootUnaddressed → m.obey = true → k.dst = 0xFE → k.len = 1 →
      (d0.toNat / 4 ≠ m.framePort → becomes (.addrAssign p q i) { m with resp := [{ cseq := k.cseq, opc := 0x01, stat := 0x07 }] }) ∧
      (d0.toNat / 4 = m.framePort → becomes (.addrAssign p q i) { m with
        st := .bootAddressed, addr := d0, lastOwn := none, lastAll := none,
        resp := [{ cseq := k.cseq, opc := 0x01, stat := 0x00, data := le 8 m.ident.serial }] })) ∧
    (addressed m = true → m.obey = true →
      (k.dst = m.addr → (∀ r, m.lastOwn = some r → r.cseq = k.cseq →
        let waits := m.resp.any fun e => e.cseq == r.cseq && e.opc == r.opc
        let again : MUnit := if r.opc = 0x04 ∧ r.stat = 0x00 then { m with echo := some m.frameLane }
          else if waits = true then m else { m with resp := m.resp ++ [r] }
        (∀ e ∈ plain, k.opc = e.2.1 → becomes e.1 again) ∧ (k.opc = 0x30 → becomes (.bleedSet p q i) again) ∧
        (k.opc = 0x06 → becomes (.unitReset p q i) again) ∧ (k.opc = 0x04 → becomes (.delayProbe p q i) again))) ∧
      (k.opc = 0x06 → k.len = 0 → k.dst = 0xFF → m.addr ≠ 0xFF → m.lastAll ≠ some k.cseq →
        becomes (.unitReset p q i) { m with resetDue := true }) ∧
      (k.dst = m.addr → m.lastOwn.map Resp.cseq ≠ some k.cseq →
        (k.opc = 0x06 → k.len = 0 → becomes (.unitReset p q i) { m with resetDue := true }) ∧
        (k.opc = 0x04 → k.len = 0 → becomes (.delayProbe p q i) { m with
          echo := some m.frameLane, lastOwn := some { cseq := k.cseq, opc := 0x04, stat := 0x00 } }) ∧
        (∀ e ∈ plain, k.opc = e.2.1 → k.len ≠ e.2.2.1 → becomes e.1 (told m e.2.1 0x04 [])) ∧
        (k.opc = 0x02 → k.len = 1 → becomes (.identRead p q i)
          (if 4 < d0.toNat then told m 0x02 0x07 [] else told m 0x02 0x00 (identPage m d0.toNat))) ∧
        (k.opc = 0x03 → k.len = 8 → becomes (.corrSet p q i) (told { m with
          cfgCorrN := (corrOf (slice k.data 0 4)).or m.cfgCorrN, cfgCorrS := (corrOf (slice k.data 4 4)).or m.cfgCorrS } 0x03 0x00 [])) ∧
        (k.opc = 0x05 → k.len = 1 → becomes (.chainSet p q i)
          (if d0.toNat ≤ m.addr.toNat % 4 ∨ 3 < d0.toNat then told m 0x05 0x07 [] else told { m with cfgChain := d0.toNat } 0x05 0x00 [])) ∧
        (k.opc = 0x07 → k.len = 8 → becomes (.packIdSet p q i) (told { m with ident := { m.ident with packId := leNat k.data } } 0x07 0x00 [])) ∧
        (k.opc = 0x10 → k.len = 8 → let n := leNat (slice k.data 0 4)
          becomes (.loadBegin p q i) (if m.st = .running then told m 0x10 0x09 [] else if n = 0 ∨ 131072 < n then told m 0x10 0x07 []
            else told { m with st := .loading, loadLen := n, loadCrc := BitVec.ofNat 32 (leNat (slice k.data 4 4)), segs := [],
                               starting := false, begun := true } 0x10 0x00 [])) ∧
        (k.opc = 0x11 → k.len = 0 → (m.st ≠ .loading → becomesFree (.loadCheck p q i) (told m 0x11 0x09 [])) ∧
          (m.st = .loading → ∃ x : Bytes, becomesFree (.loadCheck p q i) (told m 0x11 0x00 (le 2 (missing m).length ++ x)) ∧
            (missing m = [] → x.drop 2 = leW (crc32 (heldImage m))) ∧ ∀ j l, missing m = j :: l → x.take 2 = le 2 j)) ∧
        (k.opc = 0x12 → k.len = 4 → let w : Word := BitVec.ofNat 32 (leNat (slice k.data 0 4))
          becomes (.loadStart p q i) (if m.st ≠ .loading ∨ missing m ≠ [] then told m 0x12 0x09 []
            else if w ≠ m.loadCrc ∨ w ≠ crc32 (heldImage m) then told m 0x12 0x0A [] else told { m with starting := true } 0x12 0x00 [])) ∧
        (k.opc = 0x50 → k.len = 1 → (1 < d0.toNat → becomesFree (.diagRead p q i) (told m 0x50 0x07 [])) ∧
          (d0 = 1 → becomesFree (.diagRead p q i) (told m 0x50 0x00 (le 2 m.crcRx ++ le 2 m.flyCnt ++ le 2 m.portMis ++ le 2 m.wdog))) ∧
          (d0 = 0 → ∃ x : Bytes, x.length = 4 ∧ becomesFree (.diagRead p q i) (told m 0x50 0x00 (x ++ leI 2 m.refDev ++ [0, 0])))) ∧
        (¬ running → (∀ e ∈ plain, e.2.1 = 0x20 ∨ e.2.1 = 0x21 ∨ e.2.1 = 0x22 ∨ e.2.1 = 0x31 ∨ e.2.1 = 0x40 ∨ e.2.1 = 0x41 →
          k.opc = e.2.1 → k.len = e.2.2.1 → becomes e.1 (told m e.2.1 0x06 []))) ∧
        (running →
          (k.opc = 0x20 → k.len = 3 → becomes (.inputCfg p q i) (told { m with cfgIn := w16, cfgT := (k.data.getD 2 0).truncate 4 } 0x20 0x00 [])) ∧
          (k.opc = 0x21 → k.len = 5 → becomes (.tsensCfg p q i)
            (told { m with cfgSensor := m.cfgSensor.mapIdx (fun j x => if d0.getLsbD j then curve else x) } 0x21 0x00 [])) ∧
          (k.opc = 0x22 → k.len = 1 → becomes (.bleedMode p q i)
            (if 1 < d0.toNat then told m 0x22 0x07 [] else told { m with cfgComp := d0 == 1 } 0x22 0x00 [])) ∧
          (k.opc = 0x31 → k.len = 2 →
            becomes (.bleedStop p q i) (told (stopTimers w16 m) 0x31 0x00 (le 2 (runMask (stopTimers w16 m)).toNat))) ∧
          (k.opc = 0x41 → k.len = 0 → becomes (.owStop p q i) (told (ended m) 0x41 0x00 [])) ∧
          (k.opc = 0x40 → k.len = 5 → let src := (k.data.getD 3 0).toNat % 4
            (m.ident.owCaps.getLsbD src = false ∨ src = 3 ∨ k.data.getD 4 0 = 0 → becomes (.owTest p q i) (told m 0x40 0x07 [])) ∧
            (m.ident.owCaps.getLsbD src = true → src ≠ 3 → k.data.getD 4 0 ≠ 0 → m.ow = none → becomes (.owTest p q i) (told { m with
              ow := some { wires := BitVec.ofNat 24 (leNat (slice k.data 0 3)) &&& 0x1FFFF#24, code := src,
                           pol := (k.data.getD 3 0).getLsbD 7, left := (k.data.getD 4 0).toNat, cseq := k.cseq, old := 0 } } 0x40 0x01 [])))) ∧
        (k.opc = 0x30 →
          (m.stopFrame = true → becomes (.bleedSet p q i) (told m 0x30 0x02 [])) ∧
          (m.stopFrame = false → k.len ≠ 5 → becomes (.bleedSet p q i) (told m 0x30 0x04 [])) ∧
          (m.stopFrame = false → k.len = 5 → let dur := leNat (slice k.data 2 2)
            let on := startTimers w16 dur m
            becomes (.bleedSet p q i) (if m.st ≠ .running then told m 0x30 0x06 [] else if dur = 0 then told m 0x30 0x07 []
              else if m.hot = true then told m 0x30 0x08 []
              else if (k.data.getD 4 0).getLsbD 0 = false ∧ adjacentIn (runMask m ||| w16) = true then told m 0x30 0x05 []
              else told on 0x30 0x00 (le 2 (runMask on).toNat ++ le 2 (longest on)))))) ∧
      (k.dst = 0xFF → m.addr ≠ 0xFF →
        (∀ e ∈ plain, e.2.2.2 = false → becomes e.1 m) ∧ becomes (.bleedSet p q i) m ∧
        (∀ e ∈ plain, e.2.2.2 = true → m.lastAll = some k.cseq → becomes e.1 m) ∧
        (m.lastAll ≠ some k.cseq → running →
          (k.opc = 0x31 → k.len = 2 → becomes (.bleedStop p q i) { stopTimers w16 m with lastAll := some k.cseq }) ∧
          (k.opc = 0x22 → k.len = 1 → d0.toNat ≤ 1 → becomes (.bleedMode p q i) { m with cfgComp := d0 == 1, lastAll := some k.cseq }) ∧
          (k.opc = 0x41 → k.len = 0 → becomes (.owStop p q i) { ended m with lastAll := some k.cseq })))))

/-- For every settled state and unit. A unit with an address repeats every frame toward the other lane. A DOWN frame with a wrong
CRC or a reserved CAD is counted, a valid one of its port gives instant, cadence, edge and slots, BLEED_STOP clears the timers; an
unknown opcode to it is answered UNKNOWN_OPCODE; other frames leave it. BULK stores a segment that fits while loading, from the
cycle after LOAD_BEGIN on. At an instant a RUNNING unit without a test or probe sends its UP block toward each lane, in its slot
or behind the frame it repeats then; its clock advances by the cadence, settings take effect, the frame's notes clear. A probe is
answered by an ECHO. UNIT_RESET acts at the end of the cycle. A bleed timer and the open-wire source end when due. Without an edge
for 8 ms the bleed timeout clears both, for 100 ms the DRONE timeout unaddresses, for 10 s the unit sleeps; an edge within that
time cancels them. The watchdog keeps the address, wake and power-up unaddress, heat clears the timers, an accepted image starts.
The module and other units stay. FW_ID is an uninterpreted function of the image (log entry 7). (R48, R49, R63, R66, R81, R82,
R84, R87, R89, R101, R103, R106) -/
def Obligations.UnitFramesSamplesAndTimeouts : Prop :=
  ∀ (s : State) (p : Fin 48) (q : Fin 3), settled s →
    let u := slotOf p q
    let m := s.unit u
    let becomes (c : Instr) (x : MUnit) : Prop := effect c (modUnit u (fun _ => x)) [] [] s
    let clear (x : MUnit) : MUnit := { x with timers := List.replicate 16 none }
    let done (x : MUnit) (t : OwTest) : MUnit :=
      let r : Resp := { cseq := t.cseq, opc := 0x40, stat := 0x00, data := le 3 t.wires.toNat }
      { x with ow := none, resp := x.resp ++ [r], lastOwn := x.lastOwn.map fun l => if l.cseq = t.cseq then r else l }
    let lost (ns : Nat) : Bool := decide (m.edgeAt + ns ≤ m.clock + tCad m.cad)
    (∀ (l : Lane) (hd mid tl : Bits),
      let rx := hd ++ mid ++ tl
      let relayed (c : Instr) (x : MUnit) : Prop :=
        (addressed m = true → windowFrames rx ≠ [] →
          ∃ k : BitVec 11, effect c (fun s => modUnit u (fun _ => x) { s with fresh := s.fresh + 1 }) []
            [.repeats p.val q.val (otherLane l) k ((windowFrames rx).map fun e => (e.1 + 40, e.2))] s) ∧
        ((addressed m = false ∨ windowFrames rx = []) → becomes c x)
      (m.st = .sleep → becomes (.downFrame p q ⟨l, rx⟩) m ∧ becomes (.bulkFrame p q l hd mid tl) m) ∧
      (m.st ≠ .sleep → hearLast rx = some .crc →
        relayed (.downFrame p q ⟨l, rx⟩) { m with crcRx := min (m.crcRx + 1) 0xFFFF, obey := false, stopFrame := false, slots := [] } ∧
        relayed (.bulkFrame p q l hd mid tl) { m with crcRx := min (m.crcRx + 1) 0xFFFF }) ∧
      ((hearLast rx = none ∨ hearLast rx = some .symbols ∨ hearLast rx = some .reserved ∨ hearLast rx = some .length) →
        relayed (.downFrame p q ⟨l, rx⟩) m ∧ relayed (.bulkFrame p q l hd mid tl) m) ∧
      (∀ (b : Bytes) (f : DownIn), m.st ≠ .sleep → hearLast rx = some (.frame b) → downIn b = some f →
        (4 ≤ f.cad → relayed (.downFrame p q ⟨l, rx⟩)
          { m with crcRx := min (m.crcRx + 1) 0xFFFF, obey := false, stopFrame := false, slots := [] }) ∧
        (f.cad < 4 →
          let mine : Bool := !addressed m || f.port == m.addr.toNat / 4
          let passive := f.flags.getLsbD 0
          let x : MUnit := { m with
            instant := f.instant, cad := f.cad, edgeAt := m.clock, obey := mine && !passive, stopFrame := mine && f.flags.getLsbD 1
            framePort := f.port, frameLane := l, slots := if mine && !passive then f.slots else []
            portMis := if mine then m.portMis else min (m.portMis + 1) 0xFFFF
            edgeN := m.edgeN || (l == .N && !passive), edgeS := m.edgeS || (l == .S && !passive)
            passN := m.passN || (l == .N && passive), passS := m.passS || (l == .S && passive) }
          let y := if mine && f.flags.getLsbD 1 then clear x else x
          ((∀ k ∈ x.slots, k.opc.toNat ∈ linkOpcodes) → relayed (.downFrame p q ⟨l, rx⟩) y) ∧
          (∀ k, x.slots = [k] → k.opc.toNat ∉ linkOpcodes → addressed m = true → k.dst = m.addr → m.lastOwn.map Resp.cseq ≠ some k.cseq →
            let r : Resp := { cseq := k.cseq, opc := k.opc, stat := 0x03 }
            relayed (.downFrame p q ⟨l, rx⟩) { y with resp := m.resp ++ [r], lastOwn := some r }))) ∧
      ∀ b : Bytes, hearLast rx = some (.frame b) →
        let dst := b.getD 1 0
        let seg := leNat (slice b 2 2)
        let data := slice b 8 (leNat (slice b 4 2))
        (m.st = .loading → m.starting = false → m.begun = false → (b.getD 0 0) >>> 4 = 3 → (dst = m.addr ∨ dst = 0xFF) → data ≠ [] →
          data.length ≤ 176 → 176 * seg + data.length ≤ m.loadLen →
          relayed (.bulkFrame p q l hd mid tl) { m with segs := (seg, data) :: m.segs.filter fun e => e.1 != seg }) ∧
        ((m.st ≠ .loading ∨ m.starting = true ∨ m.begun = true ∨ (b.getD 0 0) >>> 4 ≠ 3 ∨ (dst ≠ m.addr ∧ dst ≠ 0xFF) ∨
          m.loadLen < 176 * seg + data.length) → relayed (.bulkFrame p q l hd mid tl) m)) ∧
    (∀ x : UnitObs, (m.st = .sleep → becomes (.unitSample p q x) m) ∧
      (m.st ≠ .sleep → m.resetDue = true → ∃ t, exec (.unitSample p q x) s = .next t ∧ (t.unit u).st = .bootUnaddressed ∧
        (t.unit u).cause = 1 ∧ (t.unit u).ident = m.ident) ∧
      (∀ l, m.st = .running → m.echo = some l → (m.edgeN = true ∨ m.edgeS = true) →
        ∃ t k, exec (.unitSample p q x) s = .next t ∧ t.out.head? = some (.echo p.val q.val l k (echoBytes l m.addr (m.instant % 65536)))) ∧
      (m.st = .running → m.cad ≠ 3 → m.ow = none → m.echo = none → m.resetDue = false → m.resp.head?.map Resp.opc ≠ some 0x01 →
        let fly : Bool := !(m.edgeN || m.edgeS || m.passN || m.passS)
        let viaS : Bool := !m.edgeN && (m.edgeS || (!m.passN && m.passS))
        let now : MUnit := { m with instant := if fly then (m.instant + 1) % 2 ^ 32 else m.instant }
        let window (l : Lane) (j : Nat) (rx : Bits) : List (Nat × List Group) :=
          (holdBack (repeated rx) (125 + 675 * j), frameGroups (upBlock (Config.freeWord s.fresh) now x true fly viaS l)) :: repeated rx
        ∃ t k1 k2 l1 l2, exec (.unitSample p q x) s = .next t ∧ t.out = [.up p.val q.val .N k1 l1, .up p.val q.val .S k2 l2] ∧ t.ev = s.ev ∧
          l1.Perm (window .N (m.addr.toNat % 4) x.upN) ∧ l2.Perm (window .S (m.chain - 1 - m.addr.toNat % 4) x.upS) ∧
          still t = still (modUnit u (fun _ => t.unit u) { s with fresh := s.fresh + 3 }) ∧
          t.unit u = { now with
            flyCnt := if fly then min (m.flyCnt + 1) 0xFFFF else m.flyCnt, refDev := (t.unit u).refDev, clock := m.clock + tCad m.cad
            edgeN := false, edgeS := false, passN := false, passS := false, resp := m.resp.drop 1, obey := false, stopFrame := false
            slots := [], begun := false, chain := m.cfgChain, corrN := m.cfgCorrN, corrS := m.cfgCorrS, sensor := m.cfgSensor
            inMask := m.cfgIn, tMask := m.cfgT, comp := m.cfgComp })) ∧
    (∀ n : Fin 16, (∀ e, m.timers.getD n none = some e → e ≤ m.clock + tCad m.cad →
        becomes (.bleedTimerExpiry p q n) { m with timers := m.timers.set n none }) ∧
      ((∀ e, m.timers.getD n none = some e → m.clock + tCad m.cad < e) → becomes (.bleedTimerExpiry p q n) m)) ∧
    (∀ t, m.ow = some t → becomes (.owSourceOff p q) (if t.left = 0 then done m t else m)) ∧
    (m.ow = none → becomes (.owSourceOff p q) m) ∧
    (m.st = .sleep ∨ lost 8000000 = false → becomes (.unitBleedTimeout p q) m) ∧
    (m.st ≠ .sleep → lost 8000000 = true → (m.ow = none → becomes (.unitBleedTimeout p q) (clear m)) ∧
      ∀ t, m.ow = some t → becomes (.unitBleedTimeout p q) (done (clear m) t)) ∧
    becomes (.unitDroneTimeout p q) (if addressed m && lost 100000000 then
      { st := .bootUnaddressed, ident := m.ident, cause := 2, clock := m.clock, edgeAt := m.edgeAt } else m) ∧
    becomes (.unitSleepTimeout p q) (if m.st ≠ .sleep ∧ lost 10000000000 = true then
      { st := .sleep, ident := m.ident, cause := m.cause, clock := m.clock, edgeAt := m.edgeAt } else m) ∧
    becomes (.unitWake p q) (if m.st = .sleep then { st := .bootUnaddressed, ident := m.ident, cause := 4 } else m) ∧
    becomes (.unitPowerUp p q) { st := .bootUnaddressed, ident := m.ident, cause := 0 } ∧
    (m.st ≠ .running → becomes (.unitWatchdog p q) m) ∧
    (m.st = .running → ∃ t, exec (.unitWatchdog p q) s = .next t ∧ still t = still (modUnit u (fun _ => t.unit u) s) ∧ t.out = [] ∧
      let x := t.unit u
      x.st = .bootAddressed ∧ x.cause = 3 ∧ x.wdog = min (m.wdog + 1) 0xFFFF ∧ x.addr = m.addr ∧ x.chain = m.chain ∧ x.corrN = m.corrN ∧
        x.corrS = m.corrS ∧ x.timers = List.replicate 16 none ∧ x.ow = none ∧ x.fwId = 0 ∧ x.segs = []) ∧
    (∀ v : Int, becomes (.unitHot p q v) (if m.st = .sleep then m else if 11000 ≤ v then { clear m with hot := true }
      else if v < 10000 then { m with hot := false } else m)) ∧
    (¬ (m.st = .loading ∧ m.starting = true) → becomes (.unitImageStart p q) m) ∧
    (m.st = .loading → m.starting = true → becomes (.unitImageStart p q) { m with
      st := .running, starting := false, fwCrc := m.loadCrc, fwId := BitVec.ofNat 32 ((Config.fwIdent (heldImage m)).val + 1) })
end

