-- ==== Sys2Proof/Laws/State.lean ====
section
/-! SUPPORT. One lemma per field per update of the state: what each update leaves, and what it writes. -/

namespace Sys2Proof.Machine

open Sys2Proof

variable (s : State)

section send
variable (o : Out)

@[simp] theorem send_pending : (send o s).pending = s.pending := rfl
@[simp] theorem send_out : (send o s).out = s.out ++ [o] := rfl
@[simp] theorem send_tx : (send o s).tx = s.tx := rfl
@[simp] theorem send_fresh : (send o s).fresh = s.fresh := rfl
@[simp] theorem send_fac : (send o s).fac = s.fac := rfl
@[simp] theorem send_nv : (send o s).nv = s.nv := rfl
@[simp] theorem send_recNv : (send o s).recNv = s.recNv := rfl
@[simp] theorem send_cfg : (send o s).cfg = s.cfg := rfl
@[simp] theorem send_net : (send o s).net = s.net := rfl
@[simp] theorem send_cfgPro : (send o s).cfgPro = s.cfgPro := rfl
@[simp] theorem send_cfgEst : (send o s).cfgEst = s.cfgEst := rfl
@[simp] theorem send_cfgImp : (send o s).cfgImp = s.cfgImp := rfl
@[simp] theorem send_cfgCtl : (send o s).cfgCtl = s.cfgCtl := rfl
@[simp] theorem send_cfgSmp : (send o s).cfgSmp = s.cfgSmp := rfl
@[simp] theorem send_cfgWin : (send o s).cfgWin = s.cfgWin := rfl
@[simp] theorem send_image : (send o s).image = s.image := rfl
@[simp] theorem send_ev : (send o s).ev = s.ev := rfl
@[simp] theorem send_cap : (send o s).cap = s.cap := rfl
@[simp] theorem send_pwr : (send o s).pwr = s.pwr := rfl
@[simp] theorem send_lcy : (send o s).lcy = s.lcy := rfl
@[simp] theorem send_prt : (send o s).prt = s.prt := rfl
@[simp] theorem send_units : (send o s).units = s.units := rfl
@[simp] theorem send_smp : (send o s).smp = s.smp := rfl
@[simp] theorem send_ins : (send o s).ins = s.ins := rfl
@[simp] theorem send_est : (send o s).est = s.est := rfl
@[simp] theorem send_imp : (send o s).imp = s.imp := rfl
@[simp] theorem send_bal : (send o s).bal = s.bal := rfl
@[simp] theorem send_pro : (send o s).pro = s.pro := rfl
@[simp] theorem send_ctl : (send o s).ctl = s.ctl := rfl
@[simp] theorem send_upl : (send o s).upl = s.upl := rfl
@[simp] theorem send_ses : (send o s).ses = s.ses := rfl
@[simp] theorem send_que : (send o s).que = s.que := rfl
@[simp] theorem send_pai : (send o s).pai = s.pai := rfl
@[simp] theorem send_arb : (send o s).arb = s.arb := rfl
@[simp] theorem send_recd : (send o s).recd = s.recd := rfl
@[simp] theorem send_hkp : (send o s).hkp = s.hkp := rfl
@[simp] theorem send_xng : (send o s).xng = s.xng := rfl

end send

section modPort
variable (p : Nat) (f : Port → Port)

@[simp] theorem modPort_pending : (modPort p f s).pending = s.pending := rfl
@[simp] theorem modPort_out : (modPort p f s).out = s.out := rfl
@[simp] theorem modPort_tx : (modPort p f s).tx = s.tx := rfl
@[simp] theorem modPort_fresh : (modPort p f s).fresh = s.fresh := rfl
@[simp] theorem modPort_fac : (modPort p f s).fac = s.fac := rfl
@[simp] theorem modPort_nv : (modPort p f s).nv = s.nv := rfl
@[simp] theorem modPort_recNv : (modPort p f s).recNv = s.recNv := rfl
@[simp] theorem modPort_cfg : (modPort p f s).cfg = s.cfg := rfl
@[simp] theorem modPort_net : (modPort p f s).net = s.net := rfl
@[simp] theorem modPort_cfgPro : (modPort p f s).cfgPro = s.cfgPro := rfl
@[simp] theorem modPort_cfgEst : (modPort p f s).cfgEst = s.cfgEst := rfl
@[simp] theorem modPort_cfgImp : (modPort p f s).cfgImp = s.cfgImp := rfl
@[simp] theorem modPort_cfgCtl : (modPort p f s).cfgCtl = s.cfgCtl := rfl
@[simp] theorem modPort_cfgSmp : (modPort p f s).cfgSmp = s.cfgSmp := rfl
@[simp] theorem modPort_cfgWin : (modPort p f s).cfgWin = s.cfgWin := rfl
@[simp] theorem modPort_image : (modPort p f s).image = s.image := rfl
@[simp] theorem modPort_ev : (modPort p f s).ev = s.ev := rfl
@[simp] theorem modPort_cap : (modPort p f s).cap = s.cap := rfl
@[simp] theorem modPort_pwr : (modPort p f s).pwr = s.pwr := rfl
@[simp] theorem modPort_lcy : (modPort p f s).lcy = s.lcy := rfl
@[simp] theorem modPort_prt : (modPort p f s).prt = s.prt.modify p f := rfl
@[simp] theorem modPort_units : (modPort p f s).units = s.units := rfl
@[simp] theorem modPort_smp : (modPort p f s).smp = s.smp := rfl
@[simp] theorem modPort_ins : (modPort p f s).ins = s.ins := rfl
@[simp] theorem modPort_est : (modPort p f s).est = s.est := rfl
@[simp] theorem modPort_imp : (modPort p f s).imp = s.imp := rfl
@[simp] theorem modPort_bal : (modPort p f s).bal = s.bal := rfl
@[simp] theorem modPort_pro : (modPort p f s).pro = s.pro := rfl
@[simp] theorem modPort_ctl : (modPort p f s).ctl = s.ctl := rfl
@[simp] theorem modPort_upl : (modPort p f s).upl = s.upl := rfl
@[simp] theorem modPort_ses : (modPort p f s).ses = s.ses := rfl
@[simp] theorem modPort_que : (modPort p f s).que = s.que := rfl
@[simp] theorem modPort_pai : (modPort p f s).pai = s.pai := rfl
@[simp] theorem modPort_arb : (modPort p f s).arb = s.arb := rfl
@[simp] theorem modPort_recd : (modPort p f s).recd = s.recd := rfl
@[simp] theorem modPort_hkp : (modPort p f s).hkp = s.hkp := rfl
@[simp] theorem modPort_xng : (modPort p f s).xng = s.xng := rfl

end modPort

section modPos
variable (p c : Nat) (f : Pos → Pos)

@[simp] theorem modPos_pending : (modPos p c f s).pending = s.pending := rfl
@[simp] theorem modPos_out : (modPos p c f s).out = s.out := rfl
@[simp] theorem modPos_tx : (modPos p c f s).tx = s.tx := rfl
@[simp] theorem modPos_fresh : (modPos p c f s).fresh = s.fresh := rfl
@[simp] theorem modPos_fac : (modPos p c f s).fac = s.fac := rfl
@[simp] theorem modPos_nv : (modPos p c f s).nv = s.nv := rfl
@[simp] theorem modPos_recNv : (modPos p c f s).recNv = s.recNv := rfl
@[simp] theorem modPos_cfg : (modPos p c f s).cfg = s.cfg := rfl
@[simp] theorem modPos_net : (modPos p c f s).net = s.net := rfl
@[simp] theorem modPos_cfgPro : (modPos p c f s).cfgPro = s.cfgPro := rfl
@[simp] theorem modPos_cfgEst : (modPos p c f s).cfgEst = s.cfgEst := rfl
@[simp] theorem modPos_cfgImp : (modPos p c f s).cfgImp = s.cfgImp := rfl
@[simp] theorem modPos_cfgCtl : (modPos p c f s).cfgCtl = s.cfgCtl := rfl
@[simp] theorem modPos_cfgSmp : (modPos p c f s).cfgSmp = s.cfgSmp := rfl
@[simp] theorem modPos_cfgWin : (modPos p c f s).cfgWin = s.cfgWin := rfl
@[simp] theorem modPos_image : (modPos p c f s).image = s.image := rfl
@[simp] theorem modPos_ev : (modPos p c f s).ev = s.ev := rfl
@[simp] theorem modPos_cap : (modPos p c f s).cap = s.cap := rfl
@[simp] theorem modPos_pwr : (modPos p c f s).pwr = s.pwr := rfl
@[simp] theorem modPos_lcy : (modPos p c f s).lcy = s.lcy := rfl
@[simp] theorem modPos_prt : (modPos p c f s).prt = s.prt.modify p fun x => { x with pos := x.pos.modify c f } := rfl
@[simp] theorem modPos_units : (modPos p c f s).units = s.units := rfl
@[simp] theorem modPos_smp : (modPos p c f s).smp = s.smp := rfl
@[simp] theorem modPos_ins : (modPos p c f s).ins = s.ins := rfl
@[simp] theorem modPos_est : (modPos p c f s).est = s.est := rfl
@[simp] theorem modPos_imp : (modPos p c f s).imp = s.imp := rfl
@[simp] theorem modPos_bal : (modPos p c f s).bal = s.bal := rfl
@[simp] theorem modPos_pro : (modPos p c f s).pro = s.pro := rfl
@[simp] theorem modPos_ctl : (modPos p c f s).ctl = s.ctl := rfl
@[simp] theorem modPos_upl : (modPos p c f s).upl = s.upl := rfl
@[simp] theorem modPos_ses : (modPos p c f s).ses = s.ses := rfl
@[simp] theorem modPos_que : (modPos p c f s).que = s.que := rfl
@[simp] theorem modPos_pai : (modPos p c f s).pai = s.pai := rfl
@[simp] theorem modPos_arb : (modPos p c f s).arb = s.arb := rfl
@[simp] theorem modPos_recd : (modPos p c f s).recd = s.recd := rfl
@[simp] theorem modPos_hkp : (modPos p c f s).hkp = s.hkp := rfl
@[simp] theorem modPos_xng : (modPos p c f s).xng = s.xng := rfl

end modPos

section modUnit
variable (u : Nat) (f : MUnit → MUnit)

@[simp] theorem modUnit_pending : (modUnit u f s).pending = s.pending := rfl
@[simp] theorem modUnit_out : (modUnit u f s).out = s.out := rfl
@[simp] theorem modUnit_tx : (modUnit u f s).tx = s.tx := rfl
@[simp] theorem modUnit_fresh : (modUnit u f s).fresh = s.fresh := rfl
@[simp] theorem modUnit_fac : (modUnit u f s).fac = s.fac := rfl
@[simp] theorem modUnit_nv : (modUnit u f s).nv = s.nv := rfl
@[simp] theorem modUnit_recNv : (modUnit u f s).recNv = s.recNv := rfl
@[simp] theorem modUnit_cfg : (modUnit u f s).cfg = s.cfg := rfl
@[simp] theorem modUnit_net : (modUnit u f s).net = s.net := rfl
@[simp] theorem modUnit_cfgPro : (modUnit u f s).cfgPro = s.cfgPro := rfl
@[simp] theorem modUnit_cfgEst : (modUnit u f s).cfgEst = s.cfgEst := rfl
@[simp] theorem modUnit_cfgImp : (modUnit u f s).cfgImp = s.cfgImp := rfl
@[simp] theorem modUnit_cfgCtl : (modUnit u f s).cfgCtl = s.cfgCtl := rfl
@[simp] theorem modUnit_cfgSmp : (modUnit u f s).cfgSmp = s.cfgSmp := rfl
@[simp] theorem modUnit_cfgWin : (modUnit u f s).cfgWin = s.cfgWin := rfl
@[simp] theorem modUnit_image : (modUnit u f s).image = s.image := rfl
@[simp] theorem modUnit_ev : (modUnit u f s).ev = s.ev := rfl
@[simp] theorem modUnit_cap : (modUnit u f s).cap = s.cap := rfl
@[simp] theorem modUnit_pwr : (modUnit u f s).pwr = s.pwr := rfl
@[simp] theorem modUnit_lcy : (modUnit u f s).lcy = s.lcy := rfl
@[simp] theorem modUnit_prt : (modUnit u f s).prt = s.prt := rfl
@[simp] theorem modUnit_units : (modUnit u f s).units = s.units.modify u f := rfl
@[simp] theorem modUnit_smp : (modUnit u f s).smp = s.smp := rfl
@[simp] theorem modUnit_ins : (modUnit u f s).ins = s.ins := rfl
@[simp] theorem modUnit_est : (modUnit u f s).est = s.est := rfl
@[simp] theorem modUnit_imp : (modUnit u f s).imp = s.imp := rfl
@[simp] theorem modUnit_bal : (modUnit u f s).bal = s.bal := rfl
@[simp] theorem modUnit_pro : (modUnit u f s).pro = s.pro := rfl
@[simp] theorem modUnit_ctl : (modUnit u f s).ctl = s.ctl := rfl
@[simp] theorem modUnit_upl : (modUnit u f s).upl = s.upl := rfl
@[simp] theorem modUnit_ses : (modUnit u f s).ses = s.ses := rfl
@[simp] theorem modUnit_que : (modUnit u f s).que = s.que := rfl
@[simp] theorem modUnit_pai : (modUnit u f s).pai = s.pai := rfl
@[simp] theorem modUnit_arb : (modUnit u f s).arb = s.arb := rfl
@[simp] theorem modUnit_recd : (modUnit u f s).recd = s.recd := rfl
@[simp] theorem modUnit_hkp : (modUnit u f s).hkp = s.hkp := rfl
@[simp] theorem modUnit_xng : (modUnit u f s).xng = s.xng := rfl

end modUnit

section modCtx
variable (g : Nat) (f : Ctx → Ctx)

@[simp] theorem modCtx_pending : (modCtx g f s).pending = s.pending := rfl
@[simp] theorem modCtx_out : (modCtx g f s).out = s.out := rfl
@[simp] theorem modCtx_tx : (modCtx g f s).tx = s.tx := rfl
@[simp] theorem modCtx_fresh : (modCtx g f s).fresh = s.fresh := rfl
@[simp] theorem modCtx_fac : (modCtx g f s).fac = s.fac := rfl
@[simp] theorem modCtx_nv : (modCtx g f s).nv = s.nv := rfl
@[simp] theorem modCtx_recNv : (modCtx g f s).recNv = s.recNv := rfl
@[simp] theorem modCtx_cfg : (modCtx g f s).cfg = s.cfg := rfl
@[simp] theorem modCtx_net : (modCtx g f s).net = s.net := rfl
@[simp] theorem modCtx_cfgPro : (modCtx g f s).cfgPro = s.cfgPro := rfl
@[simp] theorem modCtx_cfgEst : (modCtx g f s).cfgEst = s.cfgEst := rfl
@[simp] theorem modCtx_cfgImp : (modCtx g f s).cfgImp = s.cfgImp := rfl
@[simp] theorem modCtx_cfgCtl : (modCtx g f s).cfgCtl = s.cfgCtl := rfl
@[simp] theorem modCtx_cfgSmp : (modCtx g f s).cfgSmp = s.cfgSmp := rfl
@[simp] theorem modCtx_cfgWin : (modCtx g f s).cfgWin = s.cfgWin := rfl
@[simp] theorem modCtx_image : (modCtx g f s).image = s.image := rfl
@[simp] theorem modCtx_ev : (modCtx g f s).ev = s.ev := rfl
@[simp] theorem modCtx_cap : (modCtx g f s).cap = s.cap := rfl
@[simp] theorem modCtx_pwr : (modCtx g f s).pwr = s.pwr := rfl
@[simp] theorem modCtx_lcy : (modCtx g f s).lcy = s.lcy := rfl
@[simp] theorem modCtx_prt : (modCtx g f s).prt = s.prt := rfl
@[simp] theorem modCtx_units : (modCtx g f s).units = s.units := rfl
@[simp] theorem modCtx_smp : (modCtx g f s).smp = s.smp := rfl
@[simp] theorem modCtx_ins : (modCtx g f s).ins = s.ins := rfl
@[simp] theorem modCtx_est : (modCtx g f s).est = { s.est with ctx := s.est.ctx.modify g f } := rfl
@[simp] theorem modCtx_imp : (modCtx g f s).imp = s.imp := rfl
@[simp] theorem modCtx_bal : (modCtx g f s).bal = s.bal := rfl
@[simp] theorem modCtx_pro : (modCtx g f s).pro = s.pro := rfl
@[simp] theorem modCtx_ctl : (modCtx g f s).ctl = s.ctl := rfl
@[simp] theorem modCtx_upl : (modCtx g f s).upl = s.upl := rfl
@[simp] theorem modCtx_ses : (modCtx g f s).ses = s.ses := rfl
@[simp] theorem modCtx_que : (modCtx g f s).que = s.que := rfl
@[simp] theorem modCtx_pai : (modCtx g f s).pai = s.pai := rfl
@[simp] theorem modCtx_arb : (modCtx g f s).arb = s.arb := rfl
@[simp] theorem modCtx_recd : (modCtx g f s).recd = s.recd := rfl
@[simp] theorem modCtx_hkp : (modCtx g f s).hkp = s.hkp := rfl
@[simp] theorem modCtx_xng : (modCtx g f s).xng = s.xng := rfl

end modCtx

section modSess
variable (c : Nat) (f : Sess → Sess)

@[simp] theorem modSess_pending : (modSess c f s).pending = s.pending := rfl
@[simp] theorem modSess_out : (modSess c f s).out = s.out := rfl
@[simp] theorem modSess_tx : (modSess c f s).tx = s.tx := rfl
@[simp] theorem modSess_fresh : (modSess c f s).fresh = s.fresh := rfl
@[simp] theorem modSess_fac : (modSess c f s).fac = s.fac := rfl
@[simp] theorem modSess_nv : (modSess c f s).nv = s.nv := rfl
@[simp] theorem modSess_recNv : (modSess c f s).recNv = s.recNv := rfl
@[simp] theorem modSess_cfg : (modSess c f s).cfg = s.cfg := rfl
@[simp] theorem modSess_net : (modSess c f s).net = s.net := rfl
@[simp] theorem modSess_cfgPro : (modSess c f s).cfgPro = s.cfgPro := rfl
@[simp] theorem modSess_cfgEst : (modSess c f s).cfgEst = s.cfgEst := rfl
@[simp] theorem modSess_cfgImp : (modSess c f s).cfgImp = s.cfgImp := rfl
@[simp] theorem modSess_cfgCtl : (modSess c f s).cfgCtl = s.cfgCtl := rfl
@[simp] theorem modSess_cfgSmp : (modSess c f s).cfgSmp = s.cfgSmp := rfl
@[simp] theorem modSess_cfgWin : (modSess c f s).cfgWin = s.cfgWin := rfl
@[simp] theorem modSess_image : (modSess c f s).image = s.image := rfl
@[simp] theorem modSess_ev : (modSess c f s).ev = s.ev := rfl
@[simp] theorem modSess_cap : (modSess c f s).cap = s.cap := rfl
@[simp] theorem modSess_pwr : (modSess c f s).pwr = s.pwr := rfl
@[simp] theorem modSess_lcy : (modSess c f s).lcy = s.lcy := rfl
@[simp] theorem modSess_prt : (modSess c f s).prt = s.prt := rfl
@[simp] theorem modSess_units : (modSess c f s).units = s.units := rfl
@[simp] theorem modSess_smp : (modSess c f s).smp = s.smp := rfl
@[simp] theorem modSess_ins : (modSess c f s).ins = s.ins := rfl
@[simp] theorem modSess_est : (modSess c f s).est = s.est := rfl
@[simp] theorem modSess_imp : (modSess c f s).imp = s.imp := rfl
@[simp] theorem modSess_bal : (modSess c f s).bal = s.bal := rfl
@[simp] theorem modSess_pro : (modSess c f s).pro = s.pro := rfl
@[simp] theorem modSess_ctl : (modSess c f s).ctl = s.ctl := rfl
@[simp] theorem modSess_upl : (modSess c f s).upl = s.upl := rfl
@[simp] theorem modSess_ses : (modSess c f s).ses = { s.ses with ctx := s.ses.ctx.modify c f } := rfl
@[simp] theorem modSess_que : (modSess c f s).que = s.que := rfl
@[simp] theorem modSess_pai : (modSess c f s).pai = s.pai := rfl
@[simp] theorem modSess_arb : (modSess c f s).arb = s.arb := rfl
@[simp] theorem modSess_recd : (modSess c f s).recd = s.recd := rfl
@[simp] theorem modSess_hkp : (modSess c f s).hkp = s.hkp := rfl
@[simp] theorem modSess_xng : (modSess c f s).xng = s.xng := rfl

end modSess

section modQ
variable (q : Nat) (f : Queue → Queue)

@[simp] theorem modQ_pending : (modQ q f s).pending = s.pending := rfl
@[simp] theorem modQ_out : (modQ q f s).out = s.out := rfl
@[simp] theorem modQ_tx : (modQ q f s).tx = s.tx := rfl
@[simp] theorem modQ_fresh : (modQ q f s).fresh = s.fresh := rfl
@[simp] theorem modQ_fac : (modQ q f s).fac = s.fac := rfl
@[simp] theorem modQ_nv : (modQ q f s).nv = s.nv := rfl
@[simp] theorem modQ_recNv : (modQ q f s).recNv = s.recNv := rfl
@[simp] theorem modQ_cfg : (modQ q f s).cfg = s.cfg := rfl
@[simp] theorem modQ_net : (modQ q f s).net = s.net := rfl
@[simp] theorem modQ_cfgPro : (modQ q f s).cfgPro = s.cfgPro := rfl
@[simp] theorem modQ_cfgEst : (modQ q f s).cfgEst = s.cfgEst := rfl
@[simp] theorem modQ_cfgImp : (modQ q f s).cfgImp = s.cfgImp := rfl
@[simp] theorem modQ_cfgCtl : (modQ q f s).cfgCtl = s.cfgCtl := rfl
@[simp] theorem modQ_cfgSmp : (modQ q f s).cfgSmp = s.cfgSmp := rfl
@[simp] theorem modQ_cfgWin : (modQ q f s).cfgWin = s.cfgWin := rfl
@[simp] theorem modQ_image : (modQ q f s).image = s.image := rfl
@[simp] theorem modQ_ev : (modQ q f s).ev = s.ev := rfl
@[simp] theorem modQ_cap : (modQ q f s).cap = s.cap := rfl
@[simp] theorem modQ_pwr : (modQ q f s).pwr = s.pwr := rfl
@[simp] theorem modQ_lcy : (modQ q f s).lcy = s.lcy := rfl
@[simp] theorem modQ_prt : (modQ q f s).prt = s.prt := rfl
@[simp] theorem modQ_units : (modQ q f s).units = s.units := rfl
@[simp] theorem modQ_smp : (modQ q f s).smp = s.smp := rfl
@[simp] theorem modQ_ins : (modQ q f s).ins = s.ins := rfl
@[simp] theorem modQ_est : (modQ q f s).est = s.est := rfl
@[simp] theorem modQ_imp : (modQ q f s).imp = s.imp := rfl
@[simp] theorem modQ_bal : (modQ q f s).bal = s.bal := rfl
@[simp] theorem modQ_pro : (modQ q f s).pro = s.pro := rfl
@[simp] theorem modQ_ctl : (modQ q f s).ctl = s.ctl := rfl
@[simp] theorem modQ_upl : (modQ q f s).upl = s.upl := rfl
@[simp] theorem modQ_ses : (modQ q f s).ses = s.ses := rfl
@[simp] theorem modQ_que : (modQ q f s).que = s.que.modify q f := rfl
@[simp] theorem modQ_pai : (modQ q f s).pai = s.pai := rfl
@[simp] theorem modQ_arb : (modQ q f s).arb = s.arb := rfl
@[simp] theorem modQ_recd : (modQ q f s).recd = s.recd := rfl
@[simp] theorem modQ_hkp : (modQ q f s).hkp = s.hkp := rfl
@[simp] theorem modQ_xng : (modQ q f s).xng = s.xng := rfl

end modQ

section modX
variable (x : Nat) (f : Xrec → Xrec)

@[simp] theorem modX_pending : (modX x f s).pending = s.pending := rfl
@[simp] theorem modX_out : (modX x f s).out = s.out := rfl
@[simp] theorem modX_tx : (modX x f s).tx = s.tx := rfl
@[simp] theorem modX_fresh : (modX x f s).fresh = s.fresh := rfl
@[simp] theorem modX_fac : (modX x f s).fac = s.fac := rfl
@[simp] theorem modX_nv : (modX x f s).nv = s.nv := rfl
@[simp] theorem modX_recNv : (modX x f s).recNv = s.recNv := rfl
@[simp] theorem modX_cfg : (modX x f s).cfg = s.cfg := rfl
@[simp] theorem modX_net : (modX x f s).net = s.net := rfl
@[simp] theorem modX_cfgPro : (modX x f s).cfgPro = s.cfgPro := rfl
@[simp] theorem modX_cfgEst : (modX x f s).cfgEst = s.cfgEst := rfl
@[simp] theorem modX_cfgImp : (modX x f s).cfgImp = s.cfgImp := rfl
@[simp] theorem modX_cfgCtl : (modX x f s).cfgCtl = s.cfgCtl := rfl
@[simp] theorem modX_cfgSmp : (modX x f s).cfgSmp = s.cfgSmp := rfl
@[simp] theorem modX_cfgWin : (modX x f s).cfgWin = s.cfgWin := rfl
@[simp] theorem modX_image : (modX x f s).image = s.image := rfl
@[simp] theorem modX_ev : (modX x f s).ev = s.ev := rfl
@[simp] theorem modX_cap : (modX x f s).cap = s.cap := rfl
@[simp] theorem modX_pwr : (modX x f s).pwr = s.pwr := rfl
@[simp] theorem modX_lcy : (modX x f s).lcy = s.lcy := rfl
@[simp] theorem modX_prt : (modX x f s).prt = s.prt := rfl
@[simp] theorem modX_units : (modX x f s).units = s.units := rfl
@[simp] theorem modX_smp : (modX x f s).smp = s.smp := rfl
@[simp] theorem modX_ins : (modX x f s).ins = s.ins := rfl
@[simp] theorem modX_est : (modX x f s).est = s.est := rfl
@[simp] theorem modX_imp : (modX x f s).imp = s.imp := rfl
@[simp] theorem modX_bal : (modX x f s).bal = s.bal := rfl
@[simp] theorem modX_pro : (modX x f s).pro = s.pro := rfl
@[simp] theorem modX_ctl : (modX x f s).ctl = s.ctl := rfl
@[simp] theorem modX_upl : (modX x f s).upl = s.upl := rfl
@[simp] theorem modX_ses : (modX x f s).ses = s.ses := rfl
@[simp] theorem modX_que : (modX x f s).que = s.que := rfl
@[simp] theorem modX_pai : (modX x f s).pai = s.pai := rfl
@[simp] theorem modX_arb : (modX x f s).arb = s.arb := rfl
@[simp] theorem modX_recd : (modX x f s).recd = s.recd := rfl
@[simp] theorem modX_hkp : (modX x f s).hkp = s.hkp := rfl
@[simp] theorem modX_xng : (modX x f s).xng = { s.xng with xrec := s.xng.xrec.modify x f } := rfl

end modX

section modEv
variable (e : Nat) (f : Ev → Ev)

@[simp] theorem modEv_pending : (modEv e f s).pending = s.pending := rfl
@[simp] theorem modEv_out : (modEv e f s).out = s.out := rfl
@[simp] theorem modEv_tx : (modEv e f s).tx = s.tx := rfl
@[simp] theorem modEv_fresh : (modEv e f s).fresh = s.fresh := rfl
@[simp] theorem modEv_fac : (modEv e f s).fac = s.fac := rfl
@[simp] theorem modEv_nv : (modEv e f s).nv = s.nv := rfl
@[simp] theorem modEv_recNv : (modEv e f s).recNv = s.recNv := rfl
@[simp] theorem modEv_cfg : (modEv e f s).cfg = s.cfg := rfl
@[simp] theorem modEv_net : (modEv e f s).net = s.net := rfl
@[simp] theorem modEv_cfgPro : (modEv e f s).cfgPro = s.cfgPro := rfl
@[simp] theorem modEv_cfgEst : (modEv e f s).cfgEst = s.cfgEst := rfl
@[simp] theorem modEv_cfgImp : (modEv e f s).cfgImp = s.cfgImp := rfl
@[simp] theorem modEv_cfgCtl : (modEv e f s).cfgCtl = s.cfgCtl := rfl
@[simp] theorem modEv_cfgSmp : (modEv e f s).cfgSmp = s.cfgSmp := rfl
@[simp] theorem modEv_cfgWin : (modEv e f s).cfgWin = s.cfgWin := rfl
@[simp] theorem modEv_image : (modEv e f s).image = s.image := rfl
@[simp] theorem modEv_ev : (modEv e f s).ev = s.ev.modify e f := rfl
@[simp] theorem modEv_cap : (modEv e f s).cap = s.cap := rfl
@[simp] theorem modEv_pwr : (modEv e f s).pwr = s.pwr := rfl
@[simp] theorem modEv_lcy : (modEv e f s).lcy = s.lcy := rfl
@[simp] theorem modEv_prt : (modEv e f s).prt = s.prt := rfl
@[simp] theorem modEv_units : (modEv e f s).units = s.units := rfl
@[simp] theorem modEv_smp : (modEv e f s).smp = s.smp := rfl
@[simp] theorem modEv_ins : (modEv e f s).ins = s.ins := rfl
@[simp] theorem modEv_est : (modEv e f s).est = s.est := rfl
@[simp] theorem modEv_imp : (modEv e f s).imp = s.imp := rfl
@[simp] theorem modEv_bal : (modEv e f s).bal = s.bal := rfl
@[simp] theorem modEv_pro : (modEv e f s).pro = s.pro := rfl
@[simp] theorem modEv_ctl : (modEv e f s).ctl = s.ctl := rfl
@[simp] theorem modEv_upl : (modEv e f s).upl = s.upl := rfl
@[simp] theorem modEv_ses : (modEv e f s).ses = s.ses := rfl
@[simp] theorem modEv_que : (modEv e f s).que = s.que := rfl
@[simp] theorem modEv_pai : (modEv e f s).pai = s.pai := rfl
@[simp] theorem modEv_arb : (modEv e f s).arb = s.arb := rfl
@[simp] theorem modEv_recd : (modEv e f s).recd = s.recd := rfl
@[simp] theorem modEv_hkp : (modEv e f s).hkp = s.hkp := rfl
@[simp] theorem modEv_xng : (modEv e f s).xng = s.xng := rfl

end modEv

section modOw
variable (u : Nat) (f : OwUnit → OwUnit)

@[simp] theorem modOw_pending : (modOw u f s).pending = s.pending := rfl
@[simp] theorem modOw_out : (modOw u f s).out = s.out := rfl
@[simp] theorem modOw_tx : (modOw u f s).tx = s.tx := rfl
@[simp] theorem modOw_fresh : (modOw u f s).fresh = s.fresh := rfl
@[simp] theorem modOw_fac : (modOw u f s).fac = s.fac := rfl
@[simp] theorem modOw_nv : (modOw u f s).nv = s.nv := rfl
@[simp] theorem modOw_recNv : (modOw u f s).recNv = s.recNv := rfl
@[simp] theorem modOw_cfg : (modOw u f s).cfg = s.cfg := rfl
@[simp] theorem modOw_net : (modOw u f s).net = s.net := rfl
@[simp] theorem modOw_cfgPro : (modOw u f s).cfgPro = s.cfgPro := rfl
@[simp] theorem modOw_cfgEst : (modOw u f s).cfgEst = s.cfgEst := rfl
@[simp] theorem modOw_cfgImp : (modOw u f s).cfgImp = s.cfgImp := rfl
@[simp] theorem modOw_cfgCtl : (modOw u f s).cfgCtl = s.cfgCtl := rfl
@[simp] theorem modOw_cfgSmp : (modOw u f s).cfgSmp = s.cfgSmp := rfl
@[simp] theorem modOw_cfgWin : (modOw u f s).cfgWin = s.cfgWin := rfl
@[simp] theorem modOw_image : (modOw u f s).image = s.image := rfl
@[simp] theorem modOw_ev : (modOw u f s).ev = s.ev := rfl
@[simp] theorem modOw_cap : (modOw u f s).cap = s.cap := rfl
@[simp] theorem modOw_pwr : (modOw u f s).pwr = s.pwr := rfl
@[simp] theorem modOw_lcy : (modOw u f s).lcy = s.lcy := rfl
@[simp] theorem modOw_prt : (modOw u f s).prt = s.prt := rfl
@[simp] theorem modOw_units : (modOw u f s).units = s.units := rfl
@[simp] theorem modOw_smp : (modOw u f s).smp = s.smp := rfl
@[simp] theorem modOw_ins : (modOw u f s).ins = s.ins := rfl
@[simp] theorem modOw_est : (modOw u f s).est = s.est := rfl
@[simp] theorem modOw_imp : (modOw u f s).imp = s.imp := rfl
@[simp] theorem modOw_bal : (modOw u f s).bal = s.bal := rfl
@[simp] theorem modOw_pro : (modOw u f s).pro = { s.pro with units := s.pro.units.modify u f } := rfl
@[simp] theorem modOw_ctl : (modOw u f s).ctl = s.ctl := rfl
@[simp] theorem modOw_upl : (modOw u f s).upl = s.upl := rfl
@[simp] theorem modOw_ses : (modOw u f s).ses = s.ses := rfl
@[simp] theorem modOw_que : (modOw u f s).que = s.que := rfl
@[simp] theorem modOw_pai : (modOw u f s).pai = s.pai := rfl
@[simp] theorem modOw_arb : (modOw u f s).arb = s.arb := rfl
@[simp] theorem modOw_recd : (modOw u f s).recd = s.recd := rfl
@[simp] theorem modOw_hkp : (modOw u f s).hkp = s.hkp := rfl
@[simp] theorem modOw_xng : (modOw u f s).xng = s.xng := rfl

end modOw

section modSlot
variable (u : Nat) (f : BalSlot → BalSlot)

@[simp] theorem modSlot_pending : (modSlot u f s).pending = s.pending := rfl
@[simp] theorem modSlot_out : (modSlot u f s).out = s.out := rfl
@[simp] theorem modSlot_tx : (modSlot u f s).tx = s.tx := rfl
@[simp] theorem modSlot_fresh : (modSlot u f s).fresh = s.fresh := rfl
@[simp] theorem modSlot_fac : (modSlot u f s).fac = s.fac := rfl
@[simp] theorem modSlot_nv : (modSlot u f s).nv = s.nv := rfl
@[simp] theorem modSlot_recNv : (modSlot u f s).recNv = s.recNv := rfl
@[simp] theorem modSlot_cfg : (modSlot u f s).cfg = s.cfg := rfl
@[simp] theorem modSlot_net : (modSlot u f s).net = s.net := rfl
@[simp] theorem modSlot_cfgPro : (modSlot u f s).cfgPro = s.cfgPro := rfl
@[simp] theorem modSlot_cfgEst : (modSlot u f s).cfgEst = s.cfgEst := rfl
@[simp] theorem modSlot_cfgImp : (modSlot u f s).cfgImp = s.cfgImp := rfl
@[simp] theorem modSlot_cfgCtl : (modSlot u f s).cfgCtl = s.cfgCtl := rfl
@[simp] theorem modSlot_cfgSmp : (modSlot u f s).cfgSmp = s.cfgSmp := rfl
@[simp] theorem modSlot_cfgWin : (modSlot u f s).cfgWin = s.cfgWin := rfl
@[simp] theorem modSlot_image : (modSlot u f s).image = s.image := rfl
@[simp] theorem modSlot_ev : (modSlot u f s).ev = s.ev := rfl
@[simp] theorem modSlot_cap : (modSlot u f s).cap = s.cap := rfl
@[simp] theorem modSlot_pwr : (modSlot u f s).pwr = s.pwr := rfl
@[simp] theorem modSlot_lcy : (modSlot u f s).lcy = s.lcy := rfl
@[simp] theorem modSlot_prt : (modSlot u f s).prt = s.prt := rfl
@[simp] theorem modSlot_units : (modSlot u f s).units = s.units := rfl
@[simp] theorem modSlot_smp : (modSlot u f s).smp = s.smp := rfl
@[simp] theorem modSlot_ins : (modSlot u f s).ins = s.ins := rfl
@[simp] theorem modSlot_est : (modSlot u f s).est = s.est := rfl
@[simp] theorem modSlot_imp : (modSlot u f s).imp = s.imp := rfl
@[simp] theorem modSlot_bal : (modSlot u f s).bal = { s.bal with slots := s.bal.slots.modify u f } := rfl
@[simp] theorem modSlot_pro : (modSlot u f s).pro = s.pro := rfl
@[simp] theorem modSlot_ctl : (modSlot u f s).ctl = s.ctl := rfl
@[simp] theorem modSlot_upl : (modSlot u f s).upl = s.upl := rfl
@[simp] theorem modSlot_ses : (modSlot u f s).ses = s.ses := rfl
@[simp] theorem modSlot_que : (modSlot u f s).que = s.que := rfl
@[simp] theorem modSlot_pai : (modSlot u f s).pai = s.pai := rfl
@[simp] theorem modSlot_arb : (modSlot u f s).arb = s.arb := rfl
@[simp] theorem modSlot_recd : (modSlot u f s).recd = s.recd := rfl
@[simp] theorem modSlot_hkp : (modSlot u f s).hkp = s.hkp := rfl
@[simp] theorem modSlot_xng : (modSlot u f s).xng = s.xng := rfl

end modSlot

section modBleed
variable (g : Nat) (f : BleedRec → BleedRec)

@[simp] theorem modBleed_pending : (modBleed g f s).pending = s.pending := rfl
@[simp] theorem modBleed_out : (modBleed g f s).out = s.out := rfl
@[simp] theorem modBleed_tx : (modBleed g f s).tx = s.tx := rfl
@[simp] theorem modBleed_fresh : (modBleed g f s).fresh = s.fresh := rfl
@[simp] theorem modBleed_fac : (modBleed g f s).fac = s.fac := rfl
@[simp] theorem modBleed_nv : (modBleed g f s).nv = s.nv := rfl
@[simp] theorem modBleed_recNv : (modBleed g f s).recNv = s.recNv := rfl
@[simp] theorem modBleed_cfg : (modBleed g f s).cfg = s.cfg := rfl
@[simp] theorem modBleed_net : (modBleed g f s).net = s.net := rfl
@[simp] theorem modBleed_cfgPro : (modBleed g f s).cfgPro = s.cfgPro := rfl
@[simp] theorem modBleed_cfgEst : (modBleed g f s).cfgEst = s.cfgEst := rfl
@[simp] theorem modBleed_cfgImp : (modBleed g f s).cfgImp = s.cfgImp := rfl
@[simp] theorem modBleed_cfgCtl : (modBleed g f s).cfgCtl = s.cfgCtl := rfl
@[simp] theorem modBleed_cfgSmp : (modBleed g f s).cfgSmp = s.cfgSmp := rfl
@[simp] theorem modBleed_cfgWin : (modBleed g f s).cfgWin = s.cfgWin := rfl
@[simp] theorem modBleed_image : (modBleed g f s).image = s.image := rfl
@[simp] theorem modBleed_ev : (modBleed g f s).ev = s.ev := rfl
@[simp] theorem modBleed_cap : (modBleed g f s).cap = s.cap := rfl
@[simp] theorem modBleed_pwr : (modBleed g f s).pwr = s.pwr := rfl
@[simp] theorem modBleed_lcy : (modBleed g f s).lcy = s.lcy := rfl
@[simp] theorem modBleed_prt : (modBleed g f s).prt = s.prt := rfl
@[simp] theorem modBleed_units : (modBleed g f s).units = s.units := rfl
@[simp] theorem modBleed_smp : (modBleed g f s).smp = s.smp := rfl
@[simp] theorem modBleed_ins : (modBleed g f s).ins = s.ins := rfl
@[simp] theorem modBleed_est : (modBleed g f s).est = s.est := rfl
@[simp] theorem modBleed_imp : (modBleed g f s).imp = s.imp := rfl
@[simp] theorem modBleed_bal : (modBleed g f s).bal = { s.bal with recs := s.bal.recs.modify g f } := rfl
@[simp] theorem modBleed_pro : (modBleed g f s).pro = s.pro := rfl
@[simp] theorem modBleed_ctl : (modBleed g f s).ctl = s.ctl := rfl
@[simp] theorem modBleed_upl : (modBleed g f s).upl = s.upl := rfl
@[simp] theorem modBleed_ses : (modBleed g f s).ses = s.ses := rfl
@[simp] theorem modBleed_que : (modBleed g f s).que = s.que := rfl
@[simp] theorem modBleed_pai : (modBleed g f s).pai = s.pai := rfl
@[simp] theorem modBleed_arb : (modBleed g f s).arb = s.arb := rfl
@[simp] theorem modBleed_recd : (modBleed g f s).recd = s.recd := rfl
@[simp] theorem modBleed_hkp : (modBleed g f s).hkp = s.hkp := rfl
@[simp] theorem modBleed_xng : (modBleed g f s).xng = s.xng := rfl

end modBleed

section setFlag
variable (e n : Nat)

@[simp] theorem setFlag_pending : (setFlag e n s).pending = s.pending := rfl
@[simp] theorem setFlag_out : (setFlag e n s).out = s.out := rfl
@[simp] theorem setFlag_tx : (setFlag e n s).tx = s.tx := rfl
@[simp] theorem setFlag_fresh : (setFlag e n s).fresh = s.fresh := rfl
@[simp] theorem setFlag_fac : (setFlag e n s).fac = s.fac := rfl
@[simp] theorem setFlag_nv : (setFlag e n s).nv = s.nv := rfl
@[simp] theorem setFlag_recNv : (setFlag e n s).recNv = s.recNv := rfl
@[simp] theorem setFlag_cfg : (setFlag e n s).cfg = s.cfg := rfl
@[simp] theorem setFlag_net : (setFlag e n s).net = s.net := rfl
@[simp] theorem setFlag_cfgPro : (setFlag e n s).cfgPro = s.cfgPro := rfl
@[simp] theorem setFlag_cfgEst : (setFlag e n s).cfgEst = s.cfgEst := rfl
@[simp] theorem setFlag_cfgImp : (setFlag e n s).cfgImp = s.cfgImp := rfl
@[simp] theorem setFlag_cfgCtl : (setFlag e n s).cfgCtl = s.cfgCtl := rfl
@[simp] theorem setFlag_cfgSmp : (setFlag e n s).cfgSmp = s.cfgSmp := rfl
@[simp] theorem setFlag_cfgWin : (setFlag e n s).cfgWin = s.cfgWin := rfl
@[simp] theorem setFlag_image : (setFlag e n s).image = s.image := rfl
@[simp] theorem setFlag_ev : (setFlag e n s).ev = s.ev.modify e fun x => { x with flags := x.flags ||| (1#16 <<< n), cnt := bumpEvcnt x.cnt n } := rfl
@[simp] theorem setFlag_cap : (setFlag e n s).cap = s.cap := rfl
@[simp] theorem setFlag_pwr : (setFlag e n s).pwr = s.pwr := rfl
@[simp] theorem setFlag_lcy : (setFlag e n s).lcy = s.lcy := rfl
@[simp] theorem setFlag_prt : (setFlag e n s).prt = s.prt := rfl
@[simp] theorem setFlag_units : (setFlag e n s).units = s.units := rfl
@[simp] theorem setFlag_smp : (setFlag e n s).smp = s.smp := rfl
@[simp] theorem setFlag_ins : (setFlag e n s).ins = s.ins := rfl
@[simp] theorem setFlag_est : (setFlag e n s).est = s.est := rfl
@[simp] theorem setFlag_imp : (setFlag e n s).imp = s.imp := rfl
@[simp] theorem setFlag_bal : (setFlag e n s).bal = s.bal := rfl
@[simp] theorem setFlag_pro : (setFlag e n s).pro = s.pro := rfl
@[simp] theorem setFlag_ctl : (setFlag e n s).ctl = s.ctl := rfl
@[simp] theorem setFlag_upl : (setFlag e n s).upl = s.upl := rfl
@[simp] theorem setFlag_ses : (setFlag e n s).ses = s.ses := rfl
@[simp] theorem setFlag_que : (setFlag e n s).que = s.que := rfl
@[simp] theorem setFlag_pai : (setFlag e n s).pai = s.pai := rfl
@[simp] theorem setFlag_arb : (setFlag e n s).arb = s.arb := rfl
@[simp] theorem setFlag_recd : (setFlag e n s).recd = s.recd := rfl
@[simp] theorem setFlag_hkp : (setFlag e n s).hkp = s.hkp := rfl
@[simp] theorem setFlag_xng : (setFlag e n s).xng = s.xng := rfl

end setFlag

section modCtl
variable (f : Ctl → Ctl)

@[simp] theorem modCtl_pending : (modCtl f s).pending = s.pending := rfl
@[simp] theorem modCtl_out : (modCtl f s).out = s.out := rfl
@[simp] theorem modCtl_tx : (modCtl f s).tx = s.tx := rfl
@[simp] theorem modCtl_fresh : (modCtl f s).fresh = s.fresh := rfl
@[simp] theorem modCtl_fac : (modCtl f s).fac = s.fac := rfl
@[simp] theorem modCtl_nv : (modCtl f s).nv = s.nv := rfl
@[simp] theorem modCtl_recNv : (modCtl f s).recNv = s.recNv := rfl
@[simp] theorem modCtl_cfg : (modCtl f s).cfg = s.cfg := rfl
@[simp] theorem modCtl_net : (modCtl f s).net = s.net := rfl
@[simp] theorem modCtl_cfgPro : (modCtl f s).cfgPro = s.cfgPro := rfl
@[simp] theorem modCtl_cfgEst : (modCtl f s).cfgEst = s.cfgEst := rfl
@[simp] theorem modCtl_cfgImp : (modCtl f s).cfgImp = s.cfgImp := rfl
@[simp] theorem modCtl_cfgCtl : (modCtl f s).cfgCtl = s.cfgCtl := rfl
@[simp] theorem modCtl_cfgSmp : (modCtl f s).cfgSmp = s.cfgSmp := rfl
@[simp] theorem modCtl_cfgWin : (modCtl f s).cfgWin = s.cfgWin := rfl
@[simp] theorem modCtl_image : (modCtl f s).image = s.image := rfl
@[simp] theorem modCtl_ev : (modCtl f s).ev = s.ev := rfl
@[simp] theorem modCtl_cap : (modCtl f s).cap = s.cap := rfl
@[simp] theorem modCtl_pwr : (modCtl f s).pwr = s.pwr := rfl
@[simp] theorem modCtl_lcy : (modCtl f s).lcy = s.lcy := rfl
@[simp] theorem modCtl_prt : (modCtl f s).prt = s.prt := rfl
@[simp] theorem modCtl_units : (modCtl f s).units = s.units := rfl
@[simp] theorem modCtl_smp : (modCtl f s).smp = s.smp := rfl
@[simp] theorem modCtl_ins : (modCtl f s).ins = s.ins := rfl
@[simp] theorem modCtl_est : (modCtl f s).est = s.est := rfl
@[simp] theorem modCtl_imp : (modCtl f s).imp = s.imp := rfl
@[simp] theorem modCtl_bal : (modCtl f s).bal = s.bal := rfl
@[simp] theorem modCtl_pro : (modCtl f s).pro = s.pro := rfl
@[simp] theorem modCtl_ctl : (modCtl f s).ctl = f s.ctl := rfl
@[simp] theorem modCtl_upl : (modCtl f s).upl = s.upl := rfl
@[simp] theorem modCtl_ses : (modCtl f s).ses = s.ses := rfl
@[simp] theorem modCtl_que : (modCtl f s).que = s.que := rfl
@[simp] theorem modCtl_pai : (modCtl f s).pai = s.pai := rfl
@[simp] theorem modCtl_arb : (modCtl f s).arb = s.arb := rfl
@[simp] theorem modCtl_recd : (modCtl f s).recd = s.recd := rfl
@[simp] theorem modCtl_hkp : (modCtl f s).hkp = s.hkp := rfl
@[simp] theorem modCtl_xng : (modCtl f s).xng = s.xng := rfl

end modCtl

section modHkp
variable (f : Hkp → Hkp)

@[simp] theorem modHkp_pending : (modHkp f s).pending = s.pending := rfl
@[simp] theorem modHkp_out : (modHkp f s).out = s.out := rfl
@[simp] theorem modHkp_tx : (modHkp f s).tx = s.tx := rfl
@[simp] theorem modHkp_fresh : (modHkp f s).fresh = s.fresh := rfl
@[simp] theorem modHkp_fac : (modHkp f s).fac = s.fac := rfl
@[simp] theorem modHkp_nv : (modHkp f s).nv = s.nv := rfl
@[simp] theorem modHkp_recNv : (modHkp f s).recNv = s.recNv := rfl
@[simp] theorem modHkp_cfg : (modHkp f s).cfg = s.cfg := rfl
@[simp] theorem modHkp_net : (modHkp f s).net = s.net := rfl
@[simp] theorem modHkp_cfgPro : (modHkp f s).cfgPro = s.cfgPro := rfl
@[simp] theorem modHkp_cfgEst : (modHkp f s).cfgEst = s.cfgEst := rfl
@[simp] theorem modHkp_cfgImp : (modHkp f s).cfgImp = s.cfgImp := rfl
@[simp] theorem modHkp_cfgCtl : (modHkp f s).cfgCtl = s.cfgCtl := rfl
@[simp] theorem modHkp_cfgSmp : (modHkp f s).cfgSmp = s.cfgSmp := rfl
@[simp] theorem modHkp_cfgWin : (modHkp f s).cfgWin = s.cfgWin := rfl
@[simp] theorem modHkp_image : (modHkp f s).image = s.image := rfl
@[simp] theorem modHkp_ev : (modHkp f s).ev = s.ev := rfl
@[simp] theorem modHkp_cap : (modHkp f s).cap = s.cap := rfl
@[simp] theorem modHkp_pwr : (modHkp f s).pwr = s.pwr := rfl
@[simp] theorem modHkp_lcy : (modHkp f s).lcy = s.lcy := rfl
@[simp] theorem modHkp_prt : (modHkp f s).prt = s.prt := rfl
@[simp] theorem modHkp_units : (modHkp f s).units = s.units := rfl
@[simp] theorem modHkp_smp : (modHkp f s).smp = s.smp := rfl
@[simp] theorem modHkp_ins : (modHkp f s).ins = s.ins := rfl
@[simp] theorem modHkp_est : (modHkp f s).est = s.est := rfl
@[simp] theorem modHkp_imp : (modHkp f s).imp = s.imp := rfl
@[simp] theorem modHkp_bal : (modHkp f s).bal = s.bal := rfl
@[simp] theorem modHkp_pro : (modHkp f s).pro = s.pro := rfl
@[simp] theorem modHkp_ctl : (modHkp f s).ctl = s.ctl := rfl
@[simp] theorem modHkp_upl : (modHkp f s).upl = s.upl := rfl
@[simp] theorem modHkp_ses : (modHkp f s).ses = s.ses := rfl
@[simp] theorem modHkp_que : (modHkp f s).que = s.que := rfl
@[simp] theorem modHkp_pai : (modHkp f s).pai = s.pai := rfl
@[simp] theorem modHkp_arb : (modHkp f s).arb = s.arb := rfl
@[simp] theorem modHkp_recd : (modHkp f s).recd = s.recd := rfl
@[simp] theorem modHkp_hkp : (modHkp f s).hkp = f s.hkp := rfl
@[simp] theorem modHkp_xng : (modHkp f s).xng = s.xng := rfl

end modHkp

section modImp
variable (f : Imp → Imp)

@[simp] theorem modImp_pending : (modImp f s).pending = s.pending := rfl
@[simp] theorem modImp_out : (modImp f s).out = s.out := rfl
@[simp] theorem modImp_tx : (modImp f s).tx = s.tx := rfl
@[simp] theorem modImp_fresh : (modImp f s).fresh = s.fresh := rfl
@[simp] theorem modImp_fac : (modImp f s).fac = s.fac := rfl
@[simp] theorem modImp_nv : (modImp f s).nv = s.nv := rfl
@[simp] theorem modImp_recNv : (modImp f s).recNv = s.recNv := rfl
@[simp] theorem modImp_cfg : (modImp f s).cfg = s.cfg := rfl
@[simp] theorem modImp_net : (modImp f s).net = s.net := rfl
@[simp] theorem modImp_cfgPro : (modImp f s).cfgPro = s.cfgPro := rfl
@[simp] theorem modImp_cfgEst : (modImp f s).cfgEst = s.cfgEst := rfl
@[simp] theorem modImp_cfgImp : (modImp f s).cfgImp = s.cfgImp := rfl
@[simp] theorem modImp_cfgCtl : (modImp f s).cfgCtl = s.cfgCtl := rfl
@[simp] theorem modImp_cfgSmp : (modImp f s).cfgSmp = s.cfgSmp := rfl
@[simp] theorem modImp_cfgWin : (modImp f s).cfgWin = s.cfgWin := rfl
@[simp] theorem modImp_image : (modImp f s).image = s.image := rfl
@[simp] theorem modImp_ev : (modImp f s).ev = s.ev := rfl
@[simp] theorem modImp_cap : (modImp f s).cap = s.cap := rfl
@[simp] theorem modImp_pwr : (modImp f s).pwr = s.pwr := rfl
@[simp] theorem modImp_lcy : (modImp f s).lcy = s.lcy := rfl
@[simp] theorem modImp_prt : (modImp f s).prt = s.prt := rfl
@[simp] theorem modImp_units : (modImp f s).units = s.units := rfl
@[simp] theorem modImp_smp : (modImp f s).smp = s.smp := rfl
@[simp] theorem modImp_ins : (modImp f s).ins = s.ins := rfl
@[simp] theorem modImp_est : (modImp f s).est = s.est := rfl
@[simp] theorem modImp_imp : (modImp f s).imp = f s.imp := rfl
@[simp] theorem modImp_bal : (modImp f s).bal = s.bal := rfl
@[simp] theorem modImp_pro : (modImp f s).pro = s.pro := rfl
@[simp] theorem modImp_ctl : (modImp f s).ctl = s.ctl := rfl
@[simp] theorem modImp_upl : (modImp f s).upl = s.upl := rfl
@[simp] theorem modImp_ses : (modImp f s).ses = s.ses := rfl
@[simp] theorem modImp_que : (modImp f s).que = s.que := rfl
@[simp] theorem modImp_pai : (modImp f s).pai = s.pai := rfl
@[simp] theorem modImp_arb : (modImp f s).arb = s.arb := rfl
@[simp] theorem modImp_recd : (modImp f s).recd = s.recd := rfl
@[simp] theorem modImp_hkp : (modImp f s).hkp = s.hkp := rfl
@[simp] theorem modImp_xng : (modImp f s).xng = s.xng := rfl

end modImp

section modEst
variable (f : Est → Est)

@[simp] theorem modEst_pending : (modEst f s).pending = s.pending := rfl
@[simp] theorem modEst_out : (modEst f s).out = s.out := rfl
@[simp] theorem modEst_tx : (modEst f s).tx = s.tx := rfl
@[simp] theorem modEst_fresh : (modEst f s).fresh = s.fresh := rfl
@[simp] theorem modEst_fac : (modEst f s).fac = s.fac := rfl
@[simp] theorem modEst_nv : (modEst f s).nv = s.nv := rfl
@[simp] theorem modEst_recNv : (modEst f s).recNv = s.recNv := rfl
@[simp] theorem modEst_cfg : (modEst f s).cfg = s.cfg := rfl
@[simp] theorem modEst_net : (modEst f s).net = s.net := rfl
@[simp] theorem modEst_cfgPro : (modEst f s).cfgPro = s.cfgPro := rfl
@[simp] theorem modEst_cfgEst : (modEst f s).cfgEst = s.cfgEst := rfl
@[simp] theorem modEst_cfgImp : (modEst f s).cfgImp = s.cfgImp := rfl
@[simp] theorem modEst_cfgCtl : (modEst f s).cfgCtl = s.cfgCtl := rfl
@[simp] theorem modEst_cfgSmp : (modEst f s).cfgSmp = s.cfgSmp := rfl
@[simp] theorem modEst_cfgWin : (modEst f s).cfgWin = s.cfgWin := rfl
@[simp] theorem modEst_image : (modEst f s).image = s.image := rfl
@[simp] theorem modEst_ev : (modEst f s).ev = s.ev := rfl
@[simp] theorem modEst_cap : (modEst f s).cap = s.cap := rfl
@[simp] theorem modEst_pwr : (modEst f s).pwr = s.pwr := rfl
@[simp] theorem modEst_lcy : (modEst f s).lcy = s.lcy := rfl
@[simp] theorem modEst_prt : (modEst f s).prt = s.prt := rfl
@[simp] theorem modEst_units : (modEst f s).units = s.units := rfl
@[simp] theorem modEst_smp : (modEst f s).smp = s.smp := rfl
@[simp] theorem modEst_ins : (modEst f s).ins = s.ins := rfl
@[simp] theorem modEst_est : (modEst f s).est = f s.est := rfl
@[simp] theorem modEst_imp : (modEst f s).imp = s.imp := rfl
@[simp] theorem modEst_bal : (modEst f s).bal = s.bal := rfl
@[simp] theorem modEst_pro : (modEst f s).pro = s.pro := rfl
@[simp] theorem modEst_ctl : (modEst f s).ctl = s.ctl := rfl
@[simp] theorem modEst_upl : (modEst f s).upl = s.upl := rfl
@[simp] theorem modEst_ses : (modEst f s).ses = s.ses := rfl
@[simp] theorem modEst_que : (modEst f s).que = s.que := rfl
@[simp] theorem modEst_pai : (modEst f s).pai = s.pai := rfl
@[simp] theorem modEst_arb : (modEst f s).arb = s.arb := rfl
@[simp] theorem modEst_recd : (modEst f s).recd = s.recd := rfl
@[simp] theorem modEst_hkp : (modEst f s).hkp = s.hkp := rfl
@[simp] theorem modEst_xng : (modEst f s).xng = s.xng := rfl

end modEst

section modArb
variable (f : Arb → Arb)

@[simp] theorem modArb_pending : (modArb f s).pending = s.pending := rfl
@[simp] theorem modArb_out : (modArb f s).out = s.out := rfl
@[simp] theorem modArb_tx : (modArb f s).tx = s.tx := rfl
@[simp] theorem modArb_fresh : (modArb f s).fresh = s.fresh := rfl
@[simp] theorem modArb_fac : (modArb f s).fac = s.fac := rfl
@[simp] theorem modArb_nv : (modArb f s).nv = s.nv := rfl
@[simp] theorem modArb_recNv : (modArb f s).recNv = s.recNv := rfl
@[simp] theorem modArb_cfg : (modArb f s).cfg = s.cfg := rfl
@[simp] theorem modArb_net : (modArb f s).net = s.net := rfl
@[simp] theorem modArb_cfgPro : (modArb f s).cfgPro = s.cfgPro := rfl
@[simp] theorem modArb_cfgEst : (modArb f s).cfgEst = s.cfgEst := rfl
@[simp] theorem modArb_cfgImp : (modArb f s).cfgImp = s.cfgImp := rfl
@[simp] theorem modArb_cfgCtl : (modArb f s).cfgCtl = s.cfgCtl := rfl
@[simp] theorem modArb_cfgSmp : (modArb f s).cfgSmp = s.cfgSmp := rfl
@[simp] theorem modArb_cfgWin : (modArb f s).cfgWin = s.cfgWin := rfl
@[simp] theorem modArb_image : (modArb f s).image = s.image := rfl
@[simp] theorem modArb_ev : (modArb f s).ev = s.ev := rfl
@[simp] theorem modArb_cap : (modArb f s).cap = s.cap := rfl
@[simp] theorem modArb_pwr : (modArb f s).pwr = s.pwr := rfl
@[simp] theorem modArb_lcy : (modArb f s).lcy = s.lcy := rfl
@[simp] theorem modArb_prt : (modArb f s).prt = s.prt := rfl
@[simp] theorem modArb_units : (modArb f s).units = s.units := rfl
@[simp] theorem modArb_smp : (modArb f s).smp = s.smp := rfl
@[simp] theorem modArb_ins : (modArb f s).ins = s.ins := rfl
@[simp] theorem modArb_est : (modArb f s).est = s.est := rfl
@[simp] theorem modArb_imp : (modArb f s).imp = s.imp := rfl
@[simp] theorem modArb_bal : (modArb f s).bal = s.bal := rfl
@[simp] theorem modArb_pro : (modArb f s).pro = s.pro := rfl
@[simp] theorem modArb_ctl : (modArb f s).ctl = s.ctl := rfl
@[simp] theorem modArb_upl : (modArb f s).upl = s.upl := rfl
@[simp] theorem modArb_ses : (modArb f s).ses = s.ses := rfl
@[simp] theorem modArb_que : (modArb f s).que = s.que := rfl
@[simp] theorem modArb_pai : (modArb f s).pai = s.pai := rfl
@[simp] theorem modArb_arb : (modArb f s).arb = f s.arb := rfl
@[simp] theorem modArb_recd : (modArb f s).recd = s.recd := rfl
@[simp] theorem modArb_hkp : (modArb f s).hkp = s.hkp := rfl
@[simp] theorem modArb_xng : (modArb f s).xng = s.xng := rfl

end modArb

section modBal
variable (f : Bal → Bal)

@[simp] theorem modBal_pending : (modBal f s).pending = s.pending := rfl
@[simp] theorem modBal_out : (modBal f s).out = s.out := rfl
@[simp] theorem modBal_tx : (modBal f s).tx = s.tx := rfl
@[simp] theorem modBal_fresh : (modBal f s).fresh = s.fresh := rfl
@[simp] theorem modBal_fac : (modBal f s).fac = s.fac := rfl
@[simp] theorem modBal_nv : (modBal f s).nv = s.nv := rfl
@[simp] theorem modBal_recNv : (modBal f s).recNv = s.recNv := rfl
@[simp] theorem modBal_cfg : (modBal f s).cfg = s.cfg := rfl
@[simp] theorem modBal_net : (modBal f s).net = s.net := rfl
@[simp] theorem modBal_cfgPro : (modBal f s).cfgPro = s.cfgPro := rfl
@[simp] theorem modBal_cfgEst : (modBal f s).cfgEst = s.cfgEst := rfl
@[simp] theorem modBal_cfgImp : (modBal f s).cfgImp = s.cfgImp := rfl
@[simp] theorem modBal_cfgCtl : (modBal f s).cfgCtl = s.cfgCtl := rfl
@[simp] theorem modBal_cfgSmp : (modBal f s).cfgSmp = s.cfgSmp := rfl
@[simp] theorem modBal_cfgWin : (modBal f s).cfgWin = s.cfgWin := rfl
@[simp] theorem modBal_image : (modBal f s).image = s.image := rfl
@[simp] theorem modBal_ev : (modBal f s).ev = s.ev := rfl
@[simp] theorem modBal_cap : (modBal f s).cap = s.cap := rfl
@[simp] theorem modBal_pwr : (modBal f s).pwr = s.pwr := rfl
@[simp] theorem modBal_lcy : (modBal f s).lcy = s.lcy := rfl
@[simp] theorem modBal_prt : (modBal f s).prt = s.prt := rfl
@[simp] theorem modBal_units : (modBal f s).units = s.units := rfl
@[simp] theorem modBal_smp : (modBal f s).smp = s.smp := rfl
@[simp] theorem modBal_ins : (modBal f s).ins = s.ins := rfl
@[simp] theorem modBal_est : (modBal f s).est = s.est := rfl
@[simp] theorem modBal_imp : (modBal f s).imp = s.imp := rfl
@[simp] theorem modBal_bal : (modBal f s).bal = f s.bal := rfl
@[simp] theorem modBal_pro : (modBal f s).pro = s.pro := rfl
@[simp] theorem modBal_ctl : (modBal f s).ctl = s.ctl := rfl
@[simp] theorem modBal_upl : (modBal f s).upl = s.upl := rfl
@[simp] theorem modBal_ses : (modBal f s).ses = s.ses := rfl
@[simp] theorem modBal_que : (modBal f s).que = s.que := rfl
@[simp] theorem modBal_pai : (modBal f s).pai = s.pai := rfl
@[simp] theorem modBal_arb : (modBal f s).arb = s.arb := rfl
@[simp] theorem modBal_recd : (modBal f s).recd = s.recd := rfl
@[simp] theorem modBal_hkp : (modBal f s).hkp = s.hkp := rfl
@[simp] theorem modBal_xng : (modBal f s).xng = s.xng := rfl

end modBal

section modRec
variable (f : Rec → Rec)

@[simp] theorem modRec_pending : (modRec f s).pending = s.pending := rfl
@[simp] theorem modRec_out : (modRec f s).out = s.out := rfl
@[simp] theorem modRec_tx : (modRec f s).tx = s.tx := rfl
@[simp] theorem modRec_fresh : (modRec f s).fresh = s.fresh := rfl
@[simp] theorem modRec_fac : (modRec f s).fac = s.fac := rfl
@[simp] theorem modRec_nv : (modRec f s).nv = s.nv := rfl
@[simp] theorem modRec_recNv : (modRec f s).recNv = s.recNv := rfl
@[simp] theorem modRec_cfg : (modRec f s).cfg = s.cfg := rfl
@[simp] theorem modRec_net : (modRec f s).net = s.net := rfl
@[simp] theorem modRec_cfgPro : (modRec f s).cfgPro = s.cfgPro := rfl
@[simp] theorem modRec_cfgEst : (modRec f s).cfgEst = s.cfgEst := rfl
@[simp] theorem modRec_cfgImp : (modRec f s).cfgImp = s.cfgImp := rfl
@[simp] theorem modRec_cfgCtl : (modRec f s).cfgCtl = s.cfgCtl := rfl
@[simp] theorem modRec_cfgSmp : (modRec f s).cfgSmp = s.cfgSmp := rfl
@[simp] theorem modRec_cfgWin : (modRec f s).cfgWin = s.cfgWin := rfl
@[simp] theorem modRec_image : (modRec f s).image = s.image := rfl
@[simp] theorem modRec_ev : (modRec f s).ev = s.ev := rfl
@[simp] theorem modRec_cap : (modRec f s).cap = s.cap := rfl
@[simp] theorem modRec_pwr : (modRec f s).pwr = s.pwr := rfl
@[simp] theorem modRec_lcy : (modRec f s).lcy = s.lcy := rfl
@[simp] theorem modRec_prt : (modRec f s).prt = s.prt := rfl
@[simp] theorem modRec_units : (modRec f s).units = s.units := rfl
@[simp] theorem modRec_smp : (modRec f s).smp = s.smp := rfl
@[simp] theorem modRec_ins : (modRec f s).ins = s.ins := rfl
@[simp] theorem modRec_est : (modRec f s).est = s.est := rfl
@[simp] theorem modRec_imp : (modRec f s).imp = s.imp := rfl
@[simp] theorem modRec_bal : (modRec f s).bal = s.bal := rfl
@[simp] theorem modRec_pro : (modRec f s).pro = s.pro := rfl
@[simp] theorem modRec_ctl : (modRec f s).ctl = s.ctl := rfl
@[simp] theorem modRec_upl : (modRec f s).upl = s.upl := rfl
@[simp] theorem modRec_ses : (modRec f s).ses = s.ses := rfl
@[simp] theorem modRec_que : (modRec f s).que = s.que := rfl
@[simp] theorem modRec_pai : (modRec f s).pai = s.pai := rfl
@[simp] theorem modRec_arb : (modRec f s).arb = s.arb := rfl
@[simp] theorem modRec_recd : (modRec f s).recd = f s.recd := rfl
@[simp] theorem modRec_hkp : (modRec f s).hkp = s.hkp := rfl
@[simp] theorem modRec_xng : (modRec f s).xng = s.xng := rfl

end modRec

section modRecNv
variable (f : RecNv → RecNv)

@[simp] theorem modRecNv_pending : (modRecNv f s).pending = s.pending := rfl
@[simp] theorem modRecNv_out : (modRecNv f s).out = s.out := rfl
@[simp] theorem modRecNv_tx : (modRecNv f s).tx = s.tx := rfl
@[simp] theorem modRecNv_fresh : (modRecNv f s).fresh = s.fresh := rfl
@[simp] theorem modRecNv_fac : (modRecNv f s).fac = s.fac := rfl
@[simp] theorem modRecNv_nv : (modRecNv f s).nv = s.nv := rfl
@[simp] theorem modRecNv_recNv : (modRecNv f s).recNv = f s.recNv := rfl
@[simp] theorem modRecNv_cfg : (modRecNv f s).cfg = s.cfg := rfl
@[simp] theorem modRecNv_net : (modRecNv f s).net = s.net := rfl
@[simp] theorem modRecNv_cfgPro : (modRecNv f s).cfgPro = s.cfgPro := rfl
@[simp] theorem modRecNv_cfgEst : (modRecNv f s).cfgEst = s.cfgEst := rfl
@[simp] theorem modRecNv_cfgImp : (modRecNv f s).cfgImp = s.cfgImp := rfl
@[simp] theorem modRecNv_cfgCtl : (modRecNv f s).cfgCtl = s.cfgCtl := rfl
@[simp] theorem modRecNv_cfgSmp : (modRecNv f s).cfgSmp = s.cfgSmp := rfl
@[simp] theorem modRecNv_cfgWin : (modRecNv f s).cfgWin = s.cfgWin := rfl
@[simp] theorem modRecNv_image : (modRecNv f s).image = s.image := rfl
@[simp] theorem modRecNv_ev : (modRecNv f s).ev = s.ev := rfl
@[simp] theorem modRecNv_cap : (modRecNv f s).cap = s.cap := rfl
@[simp] theorem modRecNv_pwr : (modRecNv f s).pwr = s.pwr := rfl
@[simp] theorem modRecNv_lcy : (modRecNv f s).lcy = s.lcy := rfl
@[simp] theorem modRecNv_prt : (modRecNv f s).prt = s.prt := rfl
@[simp] theorem modRecNv_units : (modRecNv f s).units = s.units := rfl
@[simp] theorem modRecNv_smp : (modRecNv f s).smp = s.smp := rfl
@[simp] theorem modRecNv_ins : (modRecNv f s).ins = s.ins := rfl
@[simp] theorem modRecNv_est : (modRecNv f s).est = s.est := rfl
@[simp] theorem modRecNv_imp : (modRecNv f s).imp = s.imp := rfl
@[simp] theorem modRecNv_bal : (modRecNv f s).bal = s.bal := rfl
@[simp] theorem modRecNv_pro : (modRecNv f s).pro = s.pro := rfl
@[simp] theorem modRecNv_ctl : (modRecNv f s).ctl = s.ctl := rfl
@[simp] theorem modRecNv_upl : (modRecNv f s).upl = s.upl := rfl
@[simp] theorem modRecNv_ses : (modRecNv f s).ses = s.ses := rfl
@[simp] theorem modRecNv_que : (modRecNv f s).que = s.que := rfl
@[simp] theorem modRecNv_pai : (modRecNv f s).pai = s.pai := rfl
@[simp] theorem modRecNv_arb : (modRecNv f s).arb = s.arb := rfl
@[simp] theorem modRecNv_recd : (modRecNv f s).recd = s.recd := rfl
@[simp] theorem modRecNv_hkp : (modRecNv f s).hkp = s.hkp := rfl
@[simp] theorem modRecNv_xng : (modRecNv f s).xng = s.xng := rfl

end modRecNv

section modSmp
variable (f : Smp → Smp)

@[simp] theorem modSmp_pending : (modSmp f s).pending = s.pending := rfl
@[simp] theorem modSmp_out : (modSmp f s).out = s.out := rfl
@[simp] theorem modSmp_tx : (modSmp f s).tx = s.tx := rfl
@[simp] theorem modSmp_fresh : (modSmp f s).fresh = s.fresh := rfl
@[simp] theorem modSmp_fac : (modSmp f s).fac = s.fac := rfl
@[simp] theorem modSmp_nv : (modSmp f s).nv = s.nv := rfl
@[simp] theorem modSmp_recNv : (modSmp f s).recNv = s.recNv := rfl
@[simp] theorem modSmp_cfg : (modSmp f s).cfg = s.cfg := rfl
@[simp] theorem modSmp_net : (modSmp f s).net = s.net := rfl
@[simp] theorem modSmp_cfgPro : (modSmp f s).cfgPro = s.cfgPro := rfl
@[simp] theorem modSmp_cfgEst : (modSmp f s).cfgEst = s.cfgEst := rfl
@[simp] theorem modSmp_cfgImp : (modSmp f s).cfgImp = s.cfgImp := rfl
@[simp] theorem modSmp_cfgCtl : (modSmp f s).cfgCtl = s.cfgCtl := rfl
@[simp] theorem modSmp_cfgSmp : (modSmp f s).cfgSmp = s.cfgSmp := rfl
@[simp] theorem modSmp_cfgWin : (modSmp f s).cfgWin = s.cfgWin := rfl
@[simp] theorem modSmp_image : (modSmp f s).image = s.image := rfl
@[simp] theorem modSmp_ev : (modSmp f s).ev = s.ev := rfl
@[simp] theorem modSmp_cap : (modSmp f s).cap = s.cap := rfl
@[simp] theorem modSmp_pwr : (modSmp f s).pwr = s.pwr := rfl
@[simp] theorem modSmp_lcy : (modSmp f s).lcy = s.lcy := rfl
@[simp] theorem modSmp_prt : (modSmp f s).prt = s.prt := rfl
@[simp] theorem modSmp_units : (modSmp f s).units = s.units := rfl
@[simp] theorem modSmp_smp : (modSmp f s).smp = f s.smp := rfl
@[simp] theorem modSmp_ins : (modSmp f s).ins = s.ins := rfl
@[simp] theorem modSmp_est : (modSmp f s).est = s.est := rfl
@[simp] theorem modSmp_imp : (modSmp f s).imp = s.imp := rfl
@[simp] theorem modSmp_bal : (modSmp f s).bal = s.bal := rfl
@[simp] theorem modSmp_pro : (modSmp f s).pro = s.pro := rfl
@[simp] theorem modSmp_ctl : (modSmp f s).ctl = s.ctl := rfl
@[simp] theorem modSmp_upl : (modSmp f s).upl = s.upl := rfl
@[simp] theorem modSmp_ses : (modSmp f s).ses = s.ses := rfl
@[simp] theorem modSmp_que : (modSmp f s).que = s.que := rfl
@[simp] theorem modSmp_pai : (modSmp f s).pai = s.pai := rfl
@[simp] theorem modSmp_arb : (modSmp f s).arb = s.arb := rfl
@[simp] theorem modSmp_recd : (modSmp f s).recd = s.recd := rfl
@[simp] theorem modSmp_hkp : (modSmp f s).hkp = s.hkp := rfl
@[simp] theorem modSmp_xng : (modSmp f s).xng = s.xng := rfl

end modSmp

section modIns
variable (f : Ins → Ins)

@[simp] theorem modIns_pending : (modIns f s).pending = s.pending := rfl
@[simp] theorem modIns_out : (modIns f s).out = s.out := rfl
@[simp] theorem modIns_tx : (modIns f s).tx = s.tx := rfl
@[simp] theorem modIns_fresh : (modIns f s).fresh = s.fresh := rfl
@[simp] theorem modIns_fac : (modIns f s).fac = s.fac := rfl
@[simp] theorem modIns_nv : (modIns f s).nv = s.nv := rfl
@[simp] theorem modIns_recNv : (modIns f s).recNv = s.recNv := rfl
@[simp] theorem modIns_cfg : (modIns f s).cfg = s.cfg := rfl
@[simp] theorem modIns_net : (modIns f s).net = s.net := rfl
@[simp] theorem modIns_cfgPro : (modIns f s).cfgPro = s.cfgPro := rfl
@[simp] theorem modIns_cfgEst : (modIns f s).cfgEst = s.cfgEst := rfl
@[simp] theorem modIns_cfgImp : (modIns f s).cfgImp = s.cfgImp := rfl
@[simp] theorem modIns_cfgCtl : (modIns f s).cfgCtl = s.cfgCtl := rfl
@[simp] theorem modIns_cfgSmp : (modIns f s).cfgSmp = s.cfgSmp := rfl
@[simp] theorem modIns_cfgWin : (modIns f s).cfgWin = s.cfgWin := rfl
@[simp] theorem modIns_image : (modIns f s).image = s.image := rfl
@[simp] theorem modIns_ev : (modIns f s).ev = s.ev := rfl
@[simp] theorem modIns_cap : (modIns f s).cap = s.cap := rfl
@[simp] theorem modIns_pwr : (modIns f s).pwr = s.pwr := rfl
@[simp] theorem modIns_lcy : (modIns f s).lcy = s.lcy := rfl
@[simp] theorem modIns_prt : (modIns f s).prt = s.prt := rfl
@[simp] theorem modIns_units : (modIns f s).units = s.units := rfl
@[simp] theorem modIns_smp : (modIns f s).smp = s.smp := rfl
@[simp] theorem modIns_ins : (modIns f s).ins = f s.ins := rfl
@[simp] theorem modIns_est : (modIns f s).est = s.est := rfl
@[simp] theorem modIns_imp : (modIns f s).imp = s.imp := rfl
@[simp] theorem modIns_bal : (modIns f s).bal = s.bal := rfl
@[simp] theorem modIns_pro : (modIns f s).pro = s.pro := rfl
@[simp] theorem modIns_ctl : (modIns f s).ctl = s.ctl := rfl
@[simp] theorem modIns_upl : (modIns f s).upl = s.upl := rfl
@[simp] theorem modIns_ses : (modIns f s).ses = s.ses := rfl
@[simp] theorem modIns_que : (modIns f s).que = s.que := rfl
@[simp] theorem modIns_pai : (modIns f s).pai = s.pai := rfl
@[simp] theorem modIns_arb : (modIns f s).arb = s.arb := rfl
@[simp] theorem modIns_recd : (modIns f s).recd = s.recd := rfl
@[simp] theorem modIns_hkp : (modIns f s).hkp = s.hkp := rfl
@[simp] theorem modIns_xng : (modIns f s).xng = s.xng := rfl

end modIns

section modNv
variable (f : Nv → Nv)

@[simp] theorem modNv_pending : (modNv f s).pending = s.pending := rfl
@[simp] theorem modNv_out : (modNv f s).out = s.out := rfl
@[simp] theorem modNv_tx : (modNv f s).tx = s.tx := rfl
@[simp] theorem modNv_fresh : (modNv f s).fresh = s.fresh := rfl
@[simp] theorem modNv_fac : (modNv f s).fac = s.fac := rfl
@[simp] theorem modNv_nv : (modNv f s).nv = f s.nv := rfl
@[simp] theorem modNv_recNv : (modNv f s).recNv = s.recNv := rfl
@[simp] theorem modNv_cfg : (modNv f s).cfg = s.cfg := rfl
@[simp] theorem modNv_net : (modNv f s).net = s.net := rfl
@[simp] theorem modNv_cfgPro : (modNv f s).cfgPro = s.cfgPro := rfl
@[simp] theorem modNv_cfgEst : (modNv f s).cfgEst = s.cfgEst := rfl
@[simp] theorem modNv_cfgImp : (modNv f s).cfgImp = s.cfgImp := rfl
@[simp] theorem modNv_cfgCtl : (modNv f s).cfgCtl = s.cfgCtl := rfl
@[simp] theorem modNv_cfgSmp : (modNv f s).cfgSmp = s.cfgSmp := rfl
@[simp] theorem modNv_cfgWin : (modNv f s).cfgWin = s.cfgWin := rfl
@[simp] theorem modNv_image : (modNv f s).image = s.image := rfl
@[simp] theorem modNv_ev : (modNv f s).ev = s.ev := rfl
@[simp] theorem modNv_cap : (modNv f s).cap = s.cap := rfl
@[simp] theorem modNv_pwr : (modNv f s).pwr = s.pwr := rfl
@[simp] theorem modNv_lcy : (modNv f s).lcy = s.lcy := rfl
@[simp] theorem modNv_prt : (modNv f s).prt = s.prt := rfl
@[simp] theorem modNv_units : (modNv f s).units = s.units := rfl
@[simp] theorem modNv_smp : (modNv f s).smp = s.smp := rfl
@[simp] theorem modNv_ins : (modNv f s).ins = s.ins := rfl
@[simp] theorem modNv_est : (modNv f s).est = s.est := rfl
@[simp] theorem modNv_imp : (modNv f s).imp = s.imp := rfl
@[simp] theorem modNv_bal : (modNv f s).bal = s.bal := rfl
@[simp] theorem modNv_pro : (modNv f s).pro = s.pro := rfl
@[simp] theorem modNv_ctl : (modNv f s).ctl = s.ctl := rfl
@[simp] theorem modNv_upl : (modNv f s).upl = s.upl := rfl
@[simp] theorem modNv_ses : (modNv f s).ses = s.ses := rfl
@[simp] theorem modNv_que : (modNv f s).que = s.que := rfl
@[simp] theorem modNv_pai : (modNv f s).pai = s.pai := rfl
@[simp] theorem modNv_arb : (modNv f s).arb = s.arb := rfl
@[simp] theorem modNv_recd : (modNv f s).recd = s.recd := rfl
@[simp] theorem modNv_hkp : (modNv f s).hkp = s.hkp := rfl
@[simp] theorem modNv_xng : (modNv f s).xng = s.xng := rfl

end modNv

section modLcy
variable (f : Lcy → Lcy)

@[simp] theorem modLcy_pending : (modLcy f s).pending = s.pending := rfl
@[simp] theorem modLcy_out : (modLcy f s).out = s.out := rfl
@[simp] theorem modLcy_tx : (modLcy f s).tx = s.tx := rfl
@[simp] theorem modLcy_fresh : (modLcy f s).fresh = s.fresh := rfl
@[simp] theorem modLcy_fac : (modLcy f s).fac = s.fac := rfl
@[simp] theorem modLcy_nv : (modLcy f s).nv = s.nv := rfl
@[simp] theorem modLcy_recNv : (modLcy f s).recNv = s.recNv := rfl
@[simp] theorem modLcy_cfg : (modLcy f s).cfg = s.cfg := rfl
@[simp] theorem modLcy_net : (modLcy f s).net = s.net := rfl
@[simp] theorem modLcy_cfgPro : (modLcy f s).cfgPro = s.cfgPro := rfl
@[simp] theorem modLcy_cfgEst : (modLcy f s).cfgEst = s.cfgEst := rfl
@[simp] theorem modLcy_cfgImp : (modLcy f s).cfgImp = s.cfgImp := rfl
@[simp] theorem modLcy_cfgCtl : (modLcy f s).cfgCtl = s.cfgCtl := rfl
@[simp] theorem modLcy_cfgSmp : (modLcy f s).cfgSmp = s.cfgSmp := rfl
@[simp] theorem modLcy_cfgWin : (modLcy f s).cfgWin = s.cfgWin := rfl
@[simp] theorem modLcy_image : (modLcy f s).image = s.image := rfl
@[simp] theorem modLcy_ev : (modLcy f s).ev = s.ev := rfl
@[simp] theorem modLcy_cap : (modLcy f s).cap = s.cap := rfl
@[simp] theorem modLcy_pwr : (modLcy f s).pwr = s.pwr := rfl
@[simp] theorem modLcy_lcy : (modLcy f s).lcy = f s.lcy := rfl
@[simp] theorem modLcy_prt : (modLcy f s).prt = s.prt := rfl
@[simp] theorem modLcy_units : (modLcy f s).units = s.units := rfl
@[simp] theorem modLcy_smp : (modLcy f s).smp = s.smp := rfl
@[simp] theorem modLcy_ins : (modLcy f s).ins = s.ins := rfl
@[simp] theorem modLcy_est : (modLcy f s).est = s.est := rfl
@[simp] theorem modLcy_imp : (modLcy f s).imp = s.imp := rfl
@[simp] theorem modLcy_bal : (modLcy f s).bal = s.bal := rfl
@[simp] theorem modLcy_pro : (modLcy f s).pro = s.pro := rfl
@[simp] theorem modLcy_ctl : (modLcy f s).ctl = s.ctl := rfl
@[simp] theorem modLcy_upl : (modLcy f s).upl = s.upl := rfl
@[simp] theorem modLcy_ses : (modLcy f s).ses = s.ses := rfl
@[simp] theorem modLcy_que : (modLcy f s).que = s.que := rfl
@[simp] theorem modLcy_pai : (modLcy f s).pai = s.pai := rfl
@[simp] theorem modLcy_arb : (modLcy f s).arb = s.arb := rfl
@[simp] theorem modLcy_recd : (modLcy f s).recd = s.recd := rfl
@[simp] theorem modLcy_hkp : (modLcy f s).hkp = s.hkp := rfl
@[simp] theorem modLcy_xng : (modLcy f s).xng = s.xng := rfl

end modLcy

section modPai
variable (f : Pai → Pai)

@[simp] theorem modPai_pending : (modPai f s).pending = s.pending := rfl
@[simp] theorem modPai_out : (modPai f s).out = s.out := rfl
@[simp] theorem modPai_tx : (modPai f s).tx = s.tx := rfl
@[simp] theorem modPai_fresh : (modPai f s).fresh = s.fresh := rfl
@[simp] theorem modPai_fac : (modPai f s).fac = s.fac := rfl
@[simp] theorem modPai_nv : (modPai f s).nv = s.nv := rfl
@[simp] theorem modPai_recNv : (modPai f s).recNv = s.recNv := rfl
@[simp] theorem modPai_cfg : (modPai f s).cfg = s.cfg := rfl
@[simp] theorem modPai_net : (modPai f s).net = s.net := rfl
@[simp] theorem modPai_cfgPro : (modPai f s).cfgPro = s.cfgPro := rfl
@[simp] theorem modPai_cfgEst : (modPai f s).cfgEst = s.cfgEst := rfl
@[simp] theorem modPai_cfgImp : (modPai f s).cfgImp = s.cfgImp := rfl
@[simp] theorem modPai_cfgCtl : (modPai f s).cfgCtl = s.cfgCtl := rfl
@[simp] theorem modPai_cfgSmp : (modPai f s).cfgSmp = s.cfgSmp := rfl
@[simp] theorem modPai_cfgWin : (modPai f s).cfgWin = s.cfgWin := rfl
@[simp] theorem modPai_image : (modPai f s).image = s.image := rfl
@[simp] theorem modPai_ev : (modPai f s).ev = s.ev := rfl
@[simp] theorem modPai_cap : (modPai f s).cap = s.cap := rfl
@[simp] theorem modPai_pwr : (modPai f s).pwr = s.pwr := rfl
@[simp] theorem modPai_lcy : (modPai f s).lcy = s.lcy := rfl
@[simp] theorem modPai_prt : (modPai f s).prt = s.prt := rfl
@[simp] theorem modPai_units : (modPai f s).units = s.units := rfl
@[simp] theorem modPai_smp : (modPai f s).smp = s.smp := rfl
@[simp] theorem modPai_ins : (modPai f s).ins = s.ins := rfl
@[simp] theorem modPai_est : (modPai f s).est = s.est := rfl
@[simp] theorem modPai_imp : (modPai f s).imp = s.imp := rfl
@[simp] theorem modPai_bal : (modPai f s).bal = s.bal := rfl
@[simp] theorem modPai_pro : (modPai f s).pro = s.pro := rfl
@[simp] theorem modPai_ctl : (modPai f s).ctl = s.ctl := rfl
@[simp] theorem modPai_upl : (modPai f s).upl = s.upl := rfl
@[simp] theorem modPai_ses : (modPai f s).ses = s.ses := rfl
@[simp] theorem modPai_que : (modPai f s).que = s.que := rfl
@[simp] theorem modPai_pai : (modPai f s).pai = f s.pai := rfl
@[simp] theorem modPai_arb : (modPai f s).arb = s.arb := rfl
@[simp] theorem modPai_recd : (modPai f s).recd = s.recd := rfl
@[simp] theorem modPai_hkp : (modPai f s).hkp = s.hkp := rfl
@[simp] theorem modPai_xng : (modPai f s).xng = s.xng := rfl

end modPai

section modPwr
variable (f : Pwr → Pwr)

@[simp] theorem modPwr_pending : (modPwr f s).pending = s.pending := rfl
@[simp] theorem modPwr_out : (modPwr f s).out = s.out := rfl
@[simp] theorem modPwr_tx : (modPwr f s).tx = s.tx := rfl
@[simp] theorem modPwr_fresh : (modPwr f s).fresh = s.fresh := rfl
@[simp] theorem modPwr_fac : (modPwr f s).fac = s.fac := rfl
@[simp] theorem modPwr_nv : (modPwr f s).nv = s.nv := rfl
@[simp] theorem modPwr_recNv : (modPwr f s).recNv = s.recNv := rfl
@[simp] theorem modPwr_cfg : (modPwr f s).cfg = s.cfg := rfl
@[simp] theorem modPwr_net : (modPwr f s).net = s.net := rfl
@[simp] theorem modPwr_cfgPro : (modPwr f s).cfgPro = s.cfgPro := rfl
@[simp] theorem modPwr_cfgEst : (modPwr f s).cfgEst = s.cfgEst := rfl
@[simp] theorem modPwr_cfgImp : (modPwr f s).cfgImp = s.cfgImp := rfl
@[simp] theorem modPwr_cfgCtl : (modPwr f s).cfgCtl = s.cfgCtl := rfl
@[simp] theorem modPwr_cfgSmp : (modPwr f s).cfgSmp = s.cfgSmp := rfl
@[simp] theorem modPwr_cfgWin : (modPwr f s).cfgWin = s.cfgWin := rfl
@[simp] theorem modPwr_image : (modPwr f s).image = s.image := rfl
@[simp] theorem modPwr_ev : (modPwr f s).ev = s.ev := rfl
@[simp] theorem modPwr_cap : (modPwr f s).cap = s.cap := rfl
@[simp] theorem modPwr_pwr : (modPwr f s).pwr = f s.pwr := rfl
@[simp] theorem modPwr_lcy : (modPwr f s).lcy = s.lcy := rfl
@[simp] theorem modPwr_prt : (modPwr f s).prt = s.prt := rfl
@[simp] theorem modPwr_units : (modPwr f s).units = s.units := rfl
@[simp] theorem modPwr_smp : (modPwr f s).smp = s.smp := rfl
@[simp] theorem modPwr_ins : (modPwr f s).ins = s.ins := rfl
@[simp] theorem modPwr_est : (modPwr f s).est = s.est := rfl
@[simp] theorem modPwr_imp : (modPwr f s).imp = s.imp := rfl
@[simp] theorem modPwr_bal : (modPwr f s).bal = s.bal := rfl
@[simp] theorem modPwr_pro : (modPwr f s).pro = s.pro := rfl
@[simp] theorem modPwr_ctl : (modPwr f s).ctl = s.ctl := rfl
@[simp] theorem modPwr_upl : (modPwr f s).upl = s.upl := rfl
@[simp] theorem modPwr_ses : (modPwr f s).ses = s.ses := rfl
@[simp] theorem modPwr_que : (modPwr f s).que = s.que := rfl
@[simp] theorem modPwr_pai : (modPwr f s).pai = s.pai := rfl
@[simp] theorem modPwr_arb : (modPwr f s).arb = s.arb := rfl
@[simp] theorem modPwr_recd : (modPwr f s).recd = s.recd := rfl
@[simp] theorem modPwr_hkp : (modPwr f s).hkp = s.hkp := rfl
@[simp] theorem modPwr_xng : (modPwr f s).xng = s.xng := rfl

end modPwr

section modPro
variable (f : Pro → Pro)

@[simp] theorem modPro_pending : (modPro f s).pending = s.pending := rfl
@[simp] theorem modPro_out : (modPro f s).out = s.out := rfl
@[simp] theorem modPro_tx : (modPro f s).tx = s.tx := rfl
@[simp] theorem modPro_fresh : (modPro f s).fresh = s.fresh := rfl
@[simp] theorem modPro_fac : (modPro f s).fac = s.fac := rfl
@[simp] theorem modPro_nv : (modPro f s).nv = s.nv := rfl
@[simp] theorem modPro_recNv : (modPro f s).recNv = s.recNv := rfl
@[simp] theorem modPro_cfg : (modPro f s).cfg = s.cfg := rfl
@[simp] theorem modPro_net : (modPro f s).net = s.net := rfl
@[simp] theorem modPro_cfgPro : (modPro f s).cfgPro = s.cfgPro := rfl
@[simp] theorem modPro_cfgEst : (modPro f s).cfgEst = s.cfgEst := rfl
@[simp] theorem modPro_cfgImp : (modPro f s).cfgImp = s.cfgImp := rfl
@[simp] theorem modPro_cfgCtl : (modPro f s).cfgCtl = s.cfgCtl := rfl
@[simp] theorem modPro_cfgSmp : (modPro f s).cfgSmp = s.cfgSmp := rfl
@[simp] theorem modPro_cfgWin : (modPro f s).cfgWin = s.cfgWin := rfl
@[simp] theorem modPro_image : (modPro f s).image = s.image := rfl
@[simp] theorem modPro_ev : (modPro f s).ev = s.ev := rfl
@[simp] theorem modPro_cap : (modPro f s).cap = s.cap := rfl
@[simp] theorem modPro_pwr : (modPro f s).pwr = s.pwr := rfl
@[simp] theorem modPro_lcy : (modPro f s).lcy = s.lcy := rfl
@[simp] theorem modPro_prt : (modPro f s).prt = s.prt := rfl
@[simp] theorem modPro_units : (modPro f s).units = s.units := rfl
@[simp] theorem modPro_smp : (modPro f s).smp = s.smp := rfl
@[simp] theorem modPro_ins : (modPro f s).ins = s.ins := rfl
@[simp] theorem modPro_est : (modPro f s).est = s.est := rfl
@[simp] theorem modPro_imp : (modPro f s).imp = s.imp := rfl
@[simp] theorem modPro_bal : (modPro f s).bal = s.bal := rfl
@[simp] theorem modPro_pro : (modPro f s).pro = f s.pro := rfl
@[simp] theorem modPro_ctl : (modPro f s).ctl = s.ctl := rfl
@[simp] theorem modPro_upl : (modPro f s).upl = s.upl := rfl
@[simp] theorem modPro_ses : (modPro f s).ses = s.ses := rfl
@[simp] theorem modPro_que : (modPro f s).que = s.que := rfl
@[simp] theorem modPro_pai : (modPro f s).pai = s.pai := rfl
@[simp] theorem modPro_arb : (modPro f s).arb = s.arb := rfl
@[simp] theorem modPro_recd : (modPro f s).recd = s.recd := rfl
@[simp] theorem modPro_hkp : (modPro f s).hkp = s.hkp := rfl
@[simp] theorem modPro_xng : (modPro f s).xng = s.xng := rfl

end modPro

section modUpl
variable (f : Upl → Upl)

@[simp] theorem modUpl_pending : (modUpl f s).pending = s.pending := rfl
@[simp] theorem modUpl_out : (modUpl f s).out = s.out := rfl
@[simp] theorem modUpl_tx : (modUpl f s).tx = s.tx := rfl
@[simp] theorem modUpl_fresh : (modUpl f s).fresh = s.fresh := rfl
@[simp] theorem modUpl_fac : (modUpl f s).fac = s.fac := rfl
@[simp] theorem modUpl_nv : (modUpl f s).nv = s.nv := rfl
@[simp] theorem modUpl_recNv : (modUpl f s).recNv = s.recNv := rfl
@[simp] theorem modUpl_cfg : (modUpl f s).cfg = s.cfg := rfl
@[simp] theorem modUpl_net : (modUpl f s).net = s.net := rfl
@[simp] theorem modUpl_cfgPro : (modUpl f s).cfgPro = s.cfgPro := rfl
@[simp] theorem modUpl_cfgEst : (modUpl f s).cfgEst = s.cfgEst := rfl
@[simp] theorem modUpl_cfgImp : (modUpl f s).cfgImp = s.cfgImp := rfl
@[simp] theorem modUpl_cfgCtl : (modUpl f s).cfgCtl = s.cfgCtl := rfl
@[simp] theorem modUpl_cfgSmp : (modUpl f s).cfgSmp = s.cfgSmp := rfl
@[simp] theorem modUpl_cfgWin : (modUpl f s).cfgWin = s.cfgWin := rfl
@[simp] theorem modUpl_image : (modUpl f s).image = s.image := rfl
@[simp] theorem modUpl_ev : (modUpl f s).ev = s.ev := rfl
@[simp] theorem modUpl_cap : (modUpl f s).cap = s.cap := rfl
@[simp] theorem modUpl_pwr : (modUpl f s).pwr = s.pwr := rfl
@[simp] theorem modUpl_lcy : (modUpl f s).lcy = s.lcy := rfl
@[simp] theorem modUpl_prt : (modUpl f s).prt = s.prt := rfl
@[simp] theorem modUpl_units : (modUpl f s).units = s.units := rfl
@[simp] theorem modUpl_smp : (modUpl f s).smp = s.smp := rfl
@[simp] theorem modUpl_ins : (modUpl f s).ins = s.ins := rfl
@[simp] theorem modUpl_est : (modUpl f s).est = s.est := rfl
@[simp] theorem modUpl_imp : (modUpl f s).imp = s.imp := rfl
@[simp] theorem modUpl_bal : (modUpl f s).bal = s.bal := rfl
@[simp] theorem modUpl_pro : (modUpl f s).pro = s.pro := rfl
@[simp] theorem modUpl_ctl : (modUpl f s).ctl = s.ctl := rfl
@[simp] theorem modUpl_upl : (modUpl f s).upl = f s.upl := rfl
@[simp] theorem modUpl_ses : (modUpl f s).ses = s.ses := rfl
@[simp] theorem modUpl_que : (modUpl f s).que = s.que := rfl
@[simp] theorem modUpl_pai : (modUpl f s).pai = s.pai := rfl
@[simp] theorem modUpl_arb : (modUpl f s).arb = s.arb := rfl
@[simp] theorem modUpl_recd : (modUpl f s).recd = s.recd := rfl
@[simp] theorem modUpl_hkp : (modUpl f s).hkp = s.hkp := rfl
@[simp] theorem modUpl_xng : (modUpl f s).xng = s.xng := rfl

end modUpl

end Sys2Proof.Machine
end

