-- ==== Sys2Proof/Laws/Reporting.lean ====
section
/-! SUPPORT. What the shared reporting operations can do (events, records, notices, the check of the conditions): they move the
reporting part of the state alone, and `still` does not see that part. -/

namespace Sys2Proof.Machine

open Sys2Proof

variable (s : State)

/-! ### Lists -/

theorem map_modify {α β : Type} (l : List α) (i : Nat) (f : α → α) (g : α → β) (h : ∀ x, g (f x) = g x) :
    (l.modify i f).map g = l.map g := by
  induction l generalizing i with
  | nil => cases i <;> rfl
  | cons a l ih => cases i with
    | zero => simp [h]
    | succ i => simp [ih]

theorem map_modify_comm {α : Type} (l : List α) (i : Nat) (f g : α → α) (h : ∀ x, g (f x) = f (g x)) :
    (l.modify i f).map g = (l.map g).modify i f := by
  induction l generalizing i with
  | nil => cases i <;> rfl
  | cons a l ih => cases i with
    | zero => simp [h]
    | succ i => simp [ih]

/-! ### `still` -/

@[simp] theorem still_send (o : Out) : still (send o s) = still s := rfl
@[simp] theorem still_modEv (e : Nat) (f : Ev → Ev) : still (modEv e f s) = still s := rfl
@[simp] theorem still_setFlag (e n : Nat) : still (setFlag e n s) = still s := rfl
@[simp] theorem still_clearOut : still { s with out := [] } = still s := rfl
@[simp] theorem still_conds (b : BitVec 4) : still { s with pwr := { s.pwr with conds := b } } = still s := rfl
theorem still_inq (l : List RecEv) : still { s with recd := { s.recd with inq := l } } = still s := rfl

/-- A loss count moves. -/
theorem still_modX (x : Nat) (f : Xrec → Xrec)
    (h : ∀ r : Xrec, ({ f r with loss := 0, refused := 0, refusedOnce := false } : Xrec) =
      { r with loss := 0, refused := 0, refusedOnce := false }) : still (modX x f s) = still s := by
  simp only [still, modX]
  rw [map_modify _ _ _ _ h]

/-- A sequence number of a session moves. -/
theorem still_modSess (c : Nat) (f : Sess → Sess)
    (h : ∀ x : Sess, ({ f x with nseq := 0, txSeq := 0 } : Sess) = { x with nseq := 0, txSeq := 0 }) :
    still (modSess c f s) = still s := by
  simp only [still, modSess]
  rw [map_modify _ _ _ _ h]

@[simp] theorem still_pushRec (ev : RecEv) : still (pushRec ev s).1 = still s := by
  unfold pushRec
  dsimp only
  split
  · exact still_modX _ _ _ fun _ => rfl
  · split
    · rfl
    · exact still_modX _ _ _ fun _ => rfl

@[simp] theorem still_raiseXng (n : Nat) : still (raiseXng n s) = still s := by
  unfold raiseXng
  dsimp only
  split <;> rename_i e <;>
    (have e := congrArg Prod.fst e; simp only at e; simp [← e])

@[simp] theorem still_record (ev : RecEv) : still (record ev s) = still s := by
  unfold record
  split <;> rename_i t h <;>
    (have e := congrArg Prod.fst h; simp only at e; simp [← e])

@[simp] theorem still_raise (e n : Nat) : still (raise e n s) = still s := by
  unfold raise
  dsimp only
  split
  · rfl
  · split <;> simp

@[simp] theorem still_raiseIf (b : Bool) (e n : Nat) : still (raiseIf b e n s) = still s := by
  cases b <;> simp [raiseIf]

@[simp] theorem still_recordCode (i c src : Nat) (d : Bytes) : still (recordCode i c src d s) = still s := by
  simp [recordCode]

@[simp] theorem still_noticeTo (cls typ : Nat) (b : Bytes) (c : Nat) : still (noticeTo cls typ b c s) = still s := by
  unfold noticeTo
  dsimp only
  split
  · rw [still_send]
    exact still_modSess _ _ _ fun _ => rfl
  · rfl

/-- What every element keeps, `forAll` keeps. -/
theorem forAll_keeps {α β : Type} (g : State → β) (l : List α) (f : α → State → State) (h : ∀ a t, g (f a t) = g t) :
    g (forAll l f s) = g s := by
  unfold forAll
  induction l generalizing s with
  | nil => rfl
  | cons a l ih => rw [List.foldl_cons, ih, h]

@[simp] theorem still_notice (cls typ : Nat) (b : Bytes) : still (notice cls typ b s) = still s :=
  forAll_keeps s still _ _ fun _ t => still_noticeTo t _ _ _ _

@[simp] theorem still_noticeState (p : Nat) : still (noticeState p s) = still s := by simp [noticeState]

@[simp] theorem still_condCheck : still (condCheck s) = still s := by
  unfold condCheck
  dsimp only
  split
  · rfl
  · rw [still_noticeState, still_raise]; rfl

/-! ### `still` commutes with the updates of everything else -/

section commute
variable (p c : Nat)

theorem still_modPort (f : Port → Port) : still (modPort p f s) = modPort p f (still s) := rfl
theorem still_modPos (f : Pos → Pos) : still (modPos p c f s) = modPos p c f (still s) := rfl
theorem still_modUnit (f : MUnit → MUnit) : still (modUnit p f s) = modUnit p f (still s) := rfl
theorem still_modCtx (f : Ctx → Ctx) : still (modCtx p f s) = modCtx p f (still s) := rfl
theorem still_modQ (f : Queue → Queue) : still (modQ p f s) = modQ p f (still s) := rfl
theorem still_modOw (f : OwUnit → OwUnit) : still (modOw p f s) = modOw p f (still s) := rfl
theorem still_modSlot (f : BalSlot → BalSlot) : still (modSlot p f s) = modSlot p f (still s) := rfl
theorem still_modBleed (f : BleedRec → BleedRec) : still (modBleed p f s) = modBleed p f (still s) := rfl
theorem still_modCtl (f : Ctl → Ctl) : still (modCtl f s) = modCtl f (still s) := rfl
theorem still_modHkp (f : Hkp → Hkp) : still (modHkp f s) = modHkp f (still s) := rfl
theorem still_modImp (f : Imp → Imp) : still (modImp f s) = modImp f (still s) := rfl
theorem still_modEst (f : Est → Est) : still (modEst f s) = modEst f (still s) := rfl
theorem still_modArb (f : Arb → Arb) : still (modArb f s) = modArb f (still s) := rfl
theorem still_modBal (f : Bal → Bal) : still (modBal f s) = modBal f (still s) := rfl
theorem still_modRecNv (f : RecNv → RecNv) : still (modRecNv f s) = modRecNv f (still s) := rfl
theorem still_modSmp (f : Smp → Smp) : still (modSmp f s) = modSmp f (still s) := rfl
theorem still_modIns (f : Ins → Ins) : still (modIns f s) = modIns f (still s) := rfl
theorem still_modNv (f : Nv → Nv) : still (modNv f s) = modNv f (still s) := rfl
theorem still_modLcy (f : Lcy → Lcy) : still (modLcy f s) = modLcy f (still s) := rfl
theorem still_modPai (f : Pai → Pai) : still (modPai f s) = modPai f (still s) := rfl
theorem still_modPro (f : Pro → Pro) : still (modPro f s) = modPro f (still s) := rfl
theorem still_modUpl (f : Upl → Upl) (h : ∀ u : Upl, ({ f u with rctSeq := 0 } : Upl) = f { u with rctSeq := 0 }) :
    still (modUpl f s) = modUpl f (still s) := by
  simp only [still, modUpl]
  rw [h]

end commute

/-! ### Event blocks -/

@[simp] theorem event_modEv_ne (e k : Nat) (f : Ev → Ev) (h : k ≠ e) : (modEv e f s).event k = s.event k := by
  simp [State.event, List.getD_eq_getElem?_getD, Ne.symm h]

theorem event_setFlag_ne (e n k : Nat) (h : k ≠ e) : (setFlag e n s).event k = s.event k := event_modEv_ne _ _ _ _ h

/-- Flags are set on event blocks alone: what two states agree on there they go on agreeing on. -/
theorem event_setFlag_congr {s t : State} (e n k : Nat) (h : t.event k = s.event k) (hl : t.ev.length = s.ev.length) :
    (setFlag e n t).event k = (setFlag e n s).event k := by
  by_cases hk : k = e
  · subst hk
    simp only [State.event, List.getD_eq_getElem?_getD] at *
    simp only [setFlag_ev, List.getElem?_modify, if_pos]
    rcases Nat.lt_or_ge k s.ev.length with h1 | h1
    · have h2 : k < t.ev.length := hl ▸ h1
      simp only [List.getElem?_eq_getElem h1, List.getElem?_eq_getElem h2, Option.getD_some] at *
      rw [h]
    · have h2 : t.ev.length ≤ k := hl ▸ h1
      simp [List.getElem?_eq_none h1, List.getElem?_eq_none h2]
  · rw [event_setFlag_ne _ _ _ _ hk, event_setFlag_ne _ _ _ _ hk, h]

theorem pushRec_ev (ev : RecEv) : (pushRec ev s).1.ev = s.ev := by
  unfold pushRec
  dsimp only
  split
  · rfl
  · split <;> rfl

@[simp] theorem event_pushRec (ev : RecEv) (k : Nat) : (pushRec ev s).1.event k = s.event k := by
  simp [State.event, pushRec_ev]

@[simp] theorem event_raiseXng (n k : Nat) (h : k ≠ 0x13) : (raiseXng n s).event k = s.event k := by
  unfold raiseXng
  dsimp only
  split <;> rename_i e <;>
    (have e := congrArg Prod.fst e; simp only at e; simp [← e, h, event_setFlag_ne])

@[simp] theorem event_record (ev : RecEv) (k : Nat) (h : k ≠ 0x13) : (record ev s).event k = s.event k := by
  unfold record
  split <;> rename_i t e <;>
    (have e := congrArg Prod.fst e; simp only at e; simp [← e, h])

/-- A set event of a present block sets its flag, and outside XNG nothing else (R446). -/
theorem event_raise (e n k : Nat) (h : k ≠ 0x13) (hp : eventPresent s e = true) : (raise e n s).event k = (setFlag e n s).event k := by
  unfold raise
  simp only [hp, Bool.not_true, Bool.false_eq_true, if_false]
  split
  · rfl
  · exact event_record _ _ _ h

theorem raiseXng_ev_length (n : Nat) : (raiseXng n s).ev.length = s.ev.length := by
  unfold raiseXng
  dsimp only
  split <;> rename_i e <;>
    (have e := congrArg Prod.fst e; simp only at e; simp [← e, pushRec_ev, setFlag_ev])

theorem record_ev_length (ev : RecEv) : (record ev s).ev.length = s.ev.length := by
  unfold record
  split <;> rename_i t e <;>
    (have e := congrArg Prod.fst e; simp only at e; simp [← e, raiseXng_ev_length, pushRec_ev])

@[simp] theorem raise_ev_length (e n : Nat) : (raise e n s).ev.length = s.ev.length := by
  unfold raise
  dsimp only
  split
  · rfl
  · split <;> simp [record_ev_length]

/-- One flag, then more: `flagged` composes. -/
theorem flagged_raise (e n : Nat) (l : List (Nat × Nat)) (t : State) (hp : eventPresent s e = true) (h : flagged l (raise e n s) t) :
    flagged ((e, n) :: l) s t := by
  intro k hk
  rw [h k hk]
  have key : ∀ (l : List (Nat × Nat)) (a b : State), a.event k = b.event k → a.ev.length = b.ev.length →
      (l.foldl (fun u f => setFlag f.1 f.2 u) a).event k = (l.foldl (fun u f => setFlag f.1 f.2 u) b).event k := by
    intro l
    induction l with
    | nil => intro a b h _; exact h
    | cons f l ih =>
      intro a b h1 h2
      rw [List.foldl_cons, List.foldl_cons]
      exact ih _ _ (event_setFlag_congr _ _ _ h1 h2) (by simp [h2])
  rw [List.foldl_cons]
  exact key l _ _ (event_raise s e n k hk hp) (by simp)

theorem flagged_nil (t : State) (h : t.ev = s.ev) : flagged [] s t := fun k _ => by simp [State.event, h]

/-! ### The check of the conditions -/

theorem condCheck_of_settled (h : settled s) : condCheck s = s := by
  unfold condCheck
  exact if_pos h

@[simp] theorem still_transmit (a : State) : still (transmit a s) = still s := rfl
@[simp] theorem transmit_ev (a : State) : (transmit a s).ev = s.ev := rfl
@[simp] theorem transmit_out (a : State) : (transmit a s).out = s.out := rfl

/-- A command that changes no condition ends as its effect left it, its messages on the uplinks. -/
theorem act_settled (f : State → State) (h : settled (f { s with out := [] })) :
    act f s = .next (transmit s (f { s with out := [] })) := by
  unfold act
  rw [condCheck_of_settled _ h]

end Sys2Proof.Machine
end

