-- ==== Sys2Proof/Laws/Frames.lean ====
section
/-! SUPPORT. What the reporting operations leave, field by field, read off `still`. -/

namespace Sys2Proof.Machine

open Sys2Proof

variable (s : State)

/-- What `still` shows of two states is the same where `still` is. -/
theorem of_still {α : Type} (g : State → α) (hg : ∀ s, g (still s) = g s) {a b : State} (h : still a = still b) : g a = g b := by
  rw [← hg a, ← hg b, h]

theorem pushRec_frame (v : RecEv) : (pushRec v s).1.pwr = s.pwr ∧ (pushRec v s).1.out = s.out ∧ (pushRec v s).1.ses = s.ses ∧ (pushRec v s).1.upl = s.upl := by
  unfold pushRec
  dsimp only
  split
  · exact ⟨rfl, rfl, rfl, rfl⟩
  · split <;> exact ⟨rfl, rfl, rfl, rfl⟩

theorem raiseXng_frame (n : Nat) : (raiseXng n s).pwr = s.pwr ∧ (raiseXng n s).out = s.out ∧ (raiseXng n s).ses = s.ses ∧
    (raiseXng n s).upl = s.upl := by
  unfold raiseXng
  dsimp only
  split <;> rename_i e <;>
    (have e := congrArg Prod.fst e; simp only at e; simp [pushRec_frame, ← e])

theorem record_frame (v : RecEv) : (record v s).pwr = s.pwr ∧ (record v s).out = s.out ∧ (record v s).ses = s.ses ∧
    (record v s).upl = s.upl := by
  unfold record
  split <;> rename_i t e <;>
    (have e := congrArg Prod.fst e; simp only at e; simp [← e, raiseXng_frame, pushRec_frame])

theorem raise_frame (e n : Nat) : (raise e n s).pwr = s.pwr ∧ (raise e n s).out = s.out ∧ (raise e n s).ses = s.ses ∧
    (raise e n s).upl = s.upl := by
  unfold raise
  dsimp only
  split
  · exact ⟨rfl, rfl, rfl, rfl⟩
  · split
    · exact ⟨rfl, rfl, rfl, rfl⟩
    · simp [record_frame]

@[simp] theorem raiseXng_pwr (n : Nat) : (raiseXng n s).pwr = s.pwr := (raiseXng_frame s n).1
@[simp] theorem raiseXng_out (n : Nat) : (raiseXng n s).out = s.out := (raiseXng_frame s n).2.1
@[simp] theorem raiseXng_ses (n : Nat) : (raiseXng n s).ses = s.ses := (raiseXng_frame s n).2.2.1
@[simp] theorem raiseXng_upl (n : Nat) : (raiseXng n s).upl = s.upl := (raiseXng_frame s n).2.2.2
@[simp] theorem record_pwr (v : RecEv) : (record v s).pwr = s.pwr := (record_frame s v).1
@[simp] theorem record_out (v : RecEv) : (record v s).out = s.out := (record_frame s v).2.1
@[simp] theorem record_ses (v : RecEv) : (record v s).ses = s.ses := (record_frame s v).2.2.1
@[simp] theorem record_upl (v : RecEv) : (record v s).upl = s.upl := (record_frame s v).2.2.2
@[simp] theorem raise_pwr (e n : Nat) : (raise e n s).pwr = s.pwr := (raise_frame s e n).1
@[simp] theorem raise_out (e n : Nat) : (raise e n s).out = s.out := (raise_frame s e n).2.1
@[simp] theorem raise_ses (e n : Nat) : (raise e n s).ses = s.ses := (raise_frame s e n).2.2.1
@[simp] theorem raise_upl (e n : Nat) : (raise e n s).upl = s.upl := (raise_frame s e n).2.2.2
@[simp] theorem recordCode_pwr (i c src : Nat) (d : Bytes) : (recordCode i c src d s).pwr = s.pwr := record_pwr _ _
@[simp] theorem raiseIf_pwr (b : Bool) (e n : Nat) : (raiseIf b e n s).pwr = s.pwr := by cases b <;> simp [raiseIf]
@[simp] theorem recordCode_out (i c src : Nat) (d : Bytes) : (recordCode i c src d s).out = s.out := record_out _ _
@[simp] theorem raiseIf_out (b : Bool) (e n : Nat) : (raiseIf b e n s).out = s.out := by cases b <;> simp [raiseIf]
@[simp] theorem recordCode_ses (i c src : Nat) (d : Bytes) : (recordCode i c src d s).ses = s.ses := record_ses _ _
@[simp] theorem raiseIf_ses (b : Bool) (e n : Nat) : (raiseIf b e n s).ses = s.ses := by cases b <;> simp [raiseIf]
@[simp] theorem recordCode_upl (i c src : Nat) (d : Bytes) : (recordCode i c src d s).upl = s.upl := record_upl _ _
@[simp] theorem raiseIf_upl (b : Bool) (e n : Nat) : (raiseIf b e n s).upl = s.upl := by cases b <;> simp [raiseIf]

@[simp] theorem notice_pwr (cls typ : Nat) (d : Bytes) : (notice cls typ d s).pwr = s.pwr :=
  forAll_keeps s State.pwr _ _ fun _ t => by unfold noticeTo; dsimp only; split <;> rfl
@[simp] theorem noticeState_pwr (p : Nat) : (noticeState p s).pwr = s.pwr := by simp [noticeState]

@[simp] theorem notice_upl (cls typ : Nat) (d : Bytes) : (notice cls typ d s).upl = s.upl :=
  forAll_keeps s State.upl _ _ fun _ t => by unfold noticeTo; dsimp only; split <;> rfl
@[simp] theorem noticeState_upl (p : Nat) : (noticeState p s).upl = s.upl := by simp [noticeState]

@[simp] theorem recordCode_ev_length (i c src : Nat) (d : Bytes) : (recordCode i c src d s).ev.length = s.ev.length :=
  record_ev_length _ _


section raiseXng
variable (n : Nat)

@[simp] theorem raiseXng_pending : (raiseXng n s).pending = s.pending := of_still State.pending (fun _ => rfl) (still_raiseXng s n)
@[simp] theorem raiseXng_fresh : (raiseXng n s).fresh = s.fresh := of_still State.fresh (fun _ => rfl) (still_raiseXng s n)
@[simp] theorem raiseXng_fac : (raiseXng n s).fac = s.fac := of_still State.fac (fun _ => rfl) (still_raiseXng s n)
@[simp] theorem raiseXng_nv : (raiseXng n s).nv = s.nv := of_still State.nv (fun _ => rfl) (still_raiseXng s n)
@[simp] theorem raiseXng_recNv : (raiseXng n s).recNv = s.recNv := of_still State.recNv (fun _ => rfl) (still_raiseXng s n)
@[simp] theorem raiseXng_cfg : (raiseXng n s).cfg = s.cfg := of_still State.cfg (fun _ => rfl) (still_raiseXng s n)
@[simp] theorem raiseXng_net : (raiseXng n s).net = s.net := of_still State.net (fun _ => rfl) (still_raiseXng s n)
@[simp] theorem raiseXng_cfgPro : (raiseXng n s).cfgPro = s.cfgPro := of_still State.cfgPro (fun _ => rfl) (still_raiseXng s n)
@[simp] theorem raiseXng_cfgEst : (raiseXng n s).cfgEst = s.cfgEst := of_still State.cfgEst (fun _ => rfl) (still_raiseXng s n)
@[simp] theorem raiseXng_cfgImp : (raiseXng n s).cfgImp = s.cfgImp := of_still State.cfgImp (fun _ => rfl) (still_raiseXng s n)
@[simp] theorem raiseXng_cfgCtl : (raiseXng n s).cfgCtl = s.cfgCtl := of_still State.cfgCtl (fun _ => rfl) (still_raiseXng s n)
@[simp] theorem raiseXng_cfgSmp : (raiseXng n s).cfgSmp = s.cfgSmp := of_still State.cfgSmp (fun _ => rfl) (still_raiseXng s n)
@[simp] theorem raiseXng_cfgWin : (raiseXng n s).cfgWin = s.cfgWin := of_still State.cfgWin (fun _ => rfl) (still_raiseXng s n)
@[simp] theorem raiseXng_image : (raiseXng n s).image = s.image := of_still State.image (fun _ => rfl) (still_raiseXng s n)
@[simp] theorem raiseXng_cap : (raiseXng n s).cap = s.cap := of_still State.cap (fun _ => rfl) (still_raiseXng s n)
@[simp] theorem raiseXng_lcy : (raiseXng n s).lcy = s.lcy := of_still State.lcy (fun _ => rfl) (still_raiseXng s n)
@[simp] theorem raiseXng_prt : (raiseXng n s).prt = s.prt := of_still State.prt (fun _ => rfl) (still_raiseXng s n)
@[simp] theorem raiseXng_units : (raiseXng n s).units = s.units := of_still State.units (fun _ => rfl) (still_raiseXng s n)
@[simp] theorem raiseXng_smp : (raiseXng n s).smp = s.smp := of_still State.smp (fun _ => rfl) (still_raiseXng s n)
@[simp] theorem raiseXng_ins : (raiseXng n s).ins = s.ins := of_still State.ins (fun _ => rfl) (still_raiseXng s n)
@[simp] theorem raiseXng_est : (raiseXng n s).est = s.est := of_still State.est (fun _ => rfl) (still_raiseXng s n)
@[simp] theorem raiseXng_imp : (raiseXng n s).imp = s.imp := of_still State.imp (fun _ => rfl) (still_raiseXng s n)
@[simp] theorem raiseXng_bal : (raiseXng n s).bal = s.bal := of_still State.bal (fun _ => rfl) (still_raiseXng s n)
@[simp] theorem raiseXng_pro : (raiseXng n s).pro = s.pro := of_still State.pro (fun _ => rfl) (still_raiseXng s n)
@[simp] theorem raiseXng_ctl : (raiseXng n s).ctl = s.ctl := of_still State.ctl (fun _ => rfl) (still_raiseXng s n)
@[simp] theorem raiseXng_que : (raiseXng n s).que = s.que := of_still State.que (fun _ => rfl) (still_raiseXng s n)
@[simp] theorem raiseXng_pai : (raiseXng n s).pai = s.pai := of_still State.pai (fun _ => rfl) (still_raiseXng s n)
@[simp] theorem raiseXng_arb : (raiseXng n s).arb = s.arb := of_still State.arb (fun _ => rfl) (still_raiseXng s n)
@[simp] theorem raiseXng_hkp : (raiseXng n s).hkp = s.hkp := of_still State.hkp (fun _ => rfl) (still_raiseXng s n)

end raiseXng

section record
variable (v : RecEv)

@[simp] theorem record_pending : (record v s).pending = s.pending := of_still State.pending (fun _ => rfl) (still_record s v)
@[simp] theorem record_fresh : (record v s).fresh = s.fresh := of_still State.fresh (fun _ => rfl) (still_record s v)
@[simp] theorem record_fac : (record v s).fac = s.fac := of_still State.fac (fun _ => rfl) (still_record s v)
@[simp] theorem record_nv : (record v s).nv = s.nv := of_still State.nv (fun _ => rfl) (still_record s v)
@[simp] theorem record_recNv : (record v s).recNv = s.recNv := of_still State.recNv (fun _ => rfl) (still_record s v)
@[simp] theorem record_cfg : (record v s).cfg = s.cfg := of_still State.cfg (fun _ => rfl) (still_record s v)
@[simp] theorem record_net : (record v s).net = s.net := of_still State.net (fun _ => rfl) (still_record s v)
@[simp] theorem record_cfgPro : (record v s).cfgPro = s.cfgPro := of_still State.cfgPro (fun _ => rfl) (still_record s v)
@[simp] theorem record_cfgEst : (record v s).cfgEst = s.cfgEst := of_still State.cfgEst (fun _ => rfl) (still_record s v)
@[simp] theorem record_cfgImp : (record v s).cfgImp = s.cfgImp := of_still State.cfgImp (fun _ => rfl) (still_record s v)
@[simp] theorem record_cfgCtl : (record v s).cfgCtl = s.cfgCtl := of_still State.cfgCtl (fun _ => rfl) (still_record s v)
@[simp] theorem record_cfgSmp : (record v s).cfgSmp = s.cfgSmp := of_still State.cfgSmp (fun _ => rfl) (still_record s v)
@[simp] theorem record_cfgWin : (record v s).cfgWin = s.cfgWin := of_still State.cfgWin (fun _ => rfl) (still_record s v)
@[simp] theorem record_image : (record v s).image = s.image := of_still State.image (fun _ => rfl) (still_record s v)
@[simp] theorem record_cap : (record v s).cap = s.cap := of_still State.cap (fun _ => rfl) (still_record s v)
@[simp] theorem record_lcy : (record v s).lcy = s.lcy := of_still State.lcy (fun _ => rfl) (still_record s v)
@[simp] theorem record_prt : (record v s).prt = s.prt := of_still State.prt (fun _ => rfl) (still_record s v)
@[simp] theorem record_units : (record v s).units = s.units := of_still State.units (fun _ => rfl) (still_record s v)
@[simp] theorem record_smp : (record v s).smp = s.smp := of_still State.smp (fun _ => rfl) (still_record s v)
@[simp] theorem record_ins : (record v s).ins = s.ins := of_still State.ins (fun _ => rfl) (still_record s v)
@[simp] theorem record_est : (record v s).est = s.est := of_still State.est (fun _ => rfl) (still_record s v)
@[simp] theorem record_imp : (record v s).imp = s.imp := of_still State.imp (fun _ => rfl) (still_record s v)
@[simp] theorem record_bal : (record v s).bal = s.bal := of_still State.bal (fun _ => rfl) (still_record s v)
@[simp] theorem record_pro : (record v s).pro = s.pro := of_still State.pro (fun _ => rfl) (still_record s v)
@[simp] theorem record_ctl : (record v s).ctl = s.ctl := of_still State.ctl (fun _ => rfl) (still_record s v)
@[simp] theorem record_que : (record v s).que = s.que := of_still State.que (fun _ => rfl) (still_record s v)
@[simp] theorem record_pai : (record v s).pai = s.pai := of_still State.pai (fun _ => rfl) (still_record s v)
@[simp] theorem record_arb : (record v s).arb = s.arb := of_still State.arb (fun _ => rfl) (still_record s v)
@[simp] theorem record_hkp : (record v s).hkp = s.hkp := of_still State.hkp (fun _ => rfl) (still_record s v)

end record

section recordCode
variable (i c src : Nat) (d : Bytes)

@[simp] theorem recordCode_pending : (recordCode i c src d s).pending = s.pending := of_still State.pending (fun _ => rfl) (still_recordCode s i c src d)
@[simp] theorem recordCode_fresh : (recordCode i c src d s).fresh = s.fresh := of_still State.fresh (fun _ => rfl) (still_recordCode s i c src d)
@[simp] theorem recordCode_fac : (recordCode i c src d s).fac = s.fac := of_still State.fac (fun _ => rfl) (still_recordCode s i c src d)
@[simp] theorem recordCode_nv : (recordCode i c src d s).nv = s.nv := of_still State.nv (fun _ => rfl) (still_recordCode s i c src d)
@[simp] theorem recordCode_recNv : (recordCode i c src d s).recNv = s.recNv := of_still State.recNv (fun _ => rfl) (still_recordCode s i c src d)
@[simp] theorem recordCode_cfg : (recordCode i c src d s).cfg = s.cfg := of_still State.cfg (fun _ => rfl) (still_recordCode s i c src d)
@[simp] theorem recordCode_net : (recordCode i c src d s).net = s.net := of_still State.net (fun _ => rfl) (still_recordCode s i c src d)
@[simp] theorem recordCode_cfgPro : (recordCode i c src d s).cfgPro = s.cfgPro := of_still State.cfgPro (fun _ => rfl) (still_recordCode s i c src d)
@[simp] theorem recordCode_cfgEst : (recordCode i c src d s).cfgEst = s.cfgEst := of_still State.cfgEst (fun _ => rfl) (still_recordCode s i c src d)
@[simp] theorem recordCode_cfgImp : (recordCode i c src d s).cfgImp = s.cfgImp := of_still State.cfgImp (fun _ => rfl) (still_recordCode s i c src d)
@[simp] theorem recordCode_cfgCtl : (recordCode i c src d s).cfgCtl = s.cfgCtl := of_still State.cfgCtl (fun _ => rfl) (still_recordCode s i c src d)
@[simp] theorem recordCode_cfgSmp : (recordCode i c src d s).cfgSmp = s.cfgSmp := of_still State.cfgSmp (fun _ => rfl) (still_recordCode s i c src d)
@[simp] theorem recordCode_cfgWin : (recordCode i c src d s).cfgWin = s.cfgWin := of_still State.cfgWin (fun _ => rfl) (still_recordCode s i c src d)
@[simp] theorem recordCode_image : (recordCode i c src d s).image = s.image := of_still State.image (fun _ => rfl) (still_recordCode s i c src d)
@[simp] theorem recordCode_cap : (recordCode i c src d s).cap = s.cap := of_still State.cap (fun _ => rfl) (still_recordCode s i c src d)
@[simp] theorem recordCode_lcy : (recordCode i c src d s).lcy = s.lcy := of_still State.lcy (fun _ => rfl) (still_recordCode s i c src d)
@[simp] theorem recordCode_prt : (recordCode i c src d s).prt = s.prt := of_still State.prt (fun _ => rfl) (still_recordCode s i c src d)
@[simp] theorem recordCode_units : (recordCode i c src d s).units = s.units := of_still State.units (fun _ => rfl) (still_recordCode s i c src d)
@[simp] theorem recordCode_smp : (recordCode i c src d s).smp = s.smp := of_still State.smp (fun _ => rfl) (still_recordCode s i c src d)
@[simp] theorem recordCode_ins : (recordCode i c src d s).ins = s.ins := of_still State.ins (fun _ => rfl) (still_recordCode s i c src d)
@[simp] theorem recordCode_est : (recordCode i c src d s).est = s.est := of_still State.est (fun _ => rfl) (still_recordCode s i c src d)
@[simp] theorem recordCode_imp : (recordCode i c src d s).imp = s.imp := of_still State.imp (fun _ => rfl) (still_recordCode s i c src d)
@[simp] theorem recordCode_bal : (recordCode i c src d s).bal = s.bal := of_still State.bal (fun _ => rfl) (still_recordCode s i c src d)
@[simp] theorem recordCode_pro : (recordCode i c src d s).pro = s.pro := of_still State.pro (fun _ => rfl) (still_recordCode s i c src d)
@[simp] theorem recordCode_ctl : (recordCode i c src d s).ctl = s.ctl := of_still State.ctl (fun _ => rfl) (still_recordCode s i c src d)
@[simp] theorem recordCode_que : (recordCode i c src d s).que = s.que := of_still State.que (fun _ => rfl) (still_recordCode s i c src d)
@[simp] theorem recordCode_pai : (recordCode i c src d s).pai = s.pai := of_still State.pai (fun _ => rfl) (still_recordCode s i c src d)
@[simp] theorem recordCode_arb : (recordCode i c src d s).arb = s.arb := of_still State.arb (fun _ => rfl) (still_recordCode s i c src d)
@[simp] theorem recordCode_hkp : (recordCode i c src d s).hkp = s.hkp := of_still State.hkp (fun _ => rfl) (still_recordCode s i c src d)

end recordCode

section raise
variable (e n : Nat)

@[simp] theorem raise_pending : (raise e n s).pending = s.pending := of_still State.pending (fun _ => rfl) (still_raise s e n)
@[simp] theorem raise_fresh : (raise e n s).fresh = s.fresh := of_still State.fresh (fun _ => rfl) (still_raise s e n)
@[simp] theorem raise_fac : (raise e n s).fac = s.fac := of_still State.fac (fun _ => rfl) (still_raise s e n)
@[simp] theorem raise_nv : (raise e n s).nv = s.nv := of_still State.nv (fun _ => rfl) (still_raise s e n)
@[simp] theorem raise_recNv : (raise e n s).recNv = s.recNv := of_still State.recNv (fun _ => rfl) (still_raise s e n)
@[simp] theorem raise_cfg : (raise e n s).cfg = s.cfg := of_still State.cfg (fun _ => rfl) (still_raise s e n)
@[simp] theorem raise_net : (raise e n s).net = s.net := of_still State.net (fun _ => rfl) (still_raise s e n)
@[simp] theorem raise_cfgPro : (raise e n s).cfgPro = s.cfgPro := of_still State.cfgPro (fun _ => rfl) (still_raise s e n)
@[simp] theorem raise_cfgEst : (raise e n s).cfgEst = s.cfgEst := of_still State.cfgEst (fun _ => rfl) (still_raise s e n)
@[simp] theorem raise_cfgImp : (raise e n s).cfgImp = s.cfgImp := of_still State.cfgImp (fun _ => rfl) (still_raise s e n)
@[simp] theorem raise_cfgCtl : (raise e n s).cfgCtl = s.cfgCtl := of_still State.cfgCtl (fun _ => rfl) (still_raise s e n)
@[simp] theorem raise_cfgSmp : (raise e n s).cfgSmp = s.cfgSmp := of_still State.cfgSmp (fun _ => rfl) (still_raise s e n)
@[simp] theorem raise_cfgWin : (raise e n s).cfgWin = s.cfgWin := of_still State.cfgWin (fun _ => rfl) (still_raise s e n)
@[simp] theorem raise_image : (raise e n s).image = s.image := of_still State.image (fun _ => rfl) (still_raise s e n)
@[simp] theorem raise_cap : (raise e n s).cap = s.cap := of_still State.cap (fun _ => rfl) (still_raise s e n)
@[simp] theorem raise_lcy : (raise e n s).lcy = s.lcy := of_still State.lcy (fun _ => rfl) (still_raise s e n)
@[simp] theorem raise_prt : (raise e n s).prt = s.prt := of_still State.prt (fun _ => rfl) (still_raise s e n)
@[simp] theorem raise_units : (raise e n s).units = s.units := of_still State.units (fun _ => rfl) (still_raise s e n)
@[simp] theorem raise_smp : (raise e n s).smp = s.smp := of_still State.smp (fun _ => rfl) (still_raise s e n)
@[simp] theorem raise_ins : (raise e n s).ins = s.ins := of_still State.ins (fun _ => rfl) (still_raise s e n)
@[simp] theorem raise_est : (raise e n s).est = s.est := of_still State.est (fun _ => rfl) (still_raise s e n)
@[simp] theorem raise_imp : (raise e n s).imp = s.imp := of_still State.imp (fun _ => rfl) (still_raise s e n)
@[simp] theorem raise_bal : (raise e n s).bal = s.bal := of_still State.bal (fun _ => rfl) (still_raise s e n)
@[simp] theorem raise_pro : (raise e n s).pro = s.pro := of_still State.pro (fun _ => rfl) (still_raise s e n)
@[simp] theorem raise_ctl : (raise e n s).ctl = s.ctl := of_still State.ctl (fun _ => rfl) (still_raise s e n)
@[simp] theorem raise_que : (raise e n s).que = s.que := of_still State.que (fun _ => rfl) (still_raise s e n)
@[simp] theorem raise_pai : (raise e n s).pai = s.pai := of_still State.pai (fun _ => rfl) (still_raise s e n)
@[simp] theorem raise_arb : (raise e n s).arb = s.arb := of_still State.arb (fun _ => rfl) (still_raise s e n)
@[simp] theorem raise_hkp : (raise e n s).hkp = s.hkp := of_still State.hkp (fun _ => rfl) (still_raise s e n)

end raise

section raiseIf
variable (b : Bool) (e n : Nat)

@[simp] theorem raiseIf_pending : (raiseIf b e n s).pending = s.pending := of_still State.pending (fun _ => rfl) (still_raiseIf s b e n)
@[simp] theorem raiseIf_fresh : (raiseIf b e n s).fresh = s.fresh := of_still State.fresh (fun _ => rfl) (still_raiseIf s b e n)
@[simp] theorem raiseIf_fac : (raiseIf b e n s).fac = s.fac := of_still State.fac (fun _ => rfl) (still_raiseIf s b e n)
@[simp] theorem raiseIf_nv : (raiseIf b e n s).nv = s.nv := of_still State.nv (fun _ => rfl) (still_raiseIf s b e n)
@[simp] theorem raiseIf_recNv : (raiseIf b e n s).recNv = s.recNv := of_still State.recNv (fun _ => rfl) (still_raiseIf s b e n)
@[simp] theorem raiseIf_cfg : (raiseIf b e n s).cfg = s.cfg := of_still State.cfg (fun _ => rfl) (still_raiseIf s b e n)
@[simp] theorem raiseIf_net : (raiseIf b e n s).net = s.net := of_still State.net (fun _ => rfl) (still_raiseIf s b e n)
@[simp] theorem raiseIf_cfgPro : (raiseIf b e n s).cfgPro = s.cfgPro := of_still State.cfgPro (fun _ => rfl) (still_raiseIf s b e n)
@[simp] theorem raiseIf_cfgEst : (raiseIf b e n s).cfgEst = s.cfgEst := of_still State.cfgEst (fun _ => rfl) (still_raiseIf s b e n)
@[simp] theorem raiseIf_cfgImp : (raiseIf b e n s).cfgImp = s.cfgImp := of_still State.cfgImp (fun _ => rfl) (still_raiseIf s b e n)
@[simp] theorem raiseIf_cfgCtl : (raiseIf b e n s).cfgCtl = s.cfgCtl := of_still State.cfgCtl (fun _ => rfl) (still_raiseIf s b e n)
@[simp] theorem raiseIf_cfgSmp : (raiseIf b e n s).cfgSmp = s.cfgSmp := of_still State.cfgSmp (fun _ => rfl) (still_raiseIf s b e n)
@[simp] theorem raiseIf_cfgWin : (raiseIf b e n s).cfgWin = s.cfgWin := of_still State.cfgWin (fun _ => rfl) (still_raiseIf s b e n)
@[simp] theorem raiseIf_image : (raiseIf b e n s).image = s.image := of_still State.image (fun _ => rfl) (still_raiseIf s b e n)
@[simp] theorem raiseIf_cap : (raiseIf b e n s).cap = s.cap := of_still State.cap (fun _ => rfl) (still_raiseIf s b e n)
@[simp] theorem raiseIf_lcy : (raiseIf b e n s).lcy = s.lcy := of_still State.lcy (fun _ => rfl) (still_raiseIf s b e n)
@[simp] theorem raiseIf_prt : (raiseIf b e n s).prt = s.prt := of_still State.prt (fun _ => rfl) (still_raiseIf s b e n)
@[simp] theorem raiseIf_units : (raiseIf b e n s).units = s.units := of_still State.units (fun _ => rfl) (still_raiseIf s b e n)
@[simp] theorem raiseIf_smp : (raiseIf b e n s).smp = s.smp := of_still State.smp (fun _ => rfl) (still_raiseIf s b e n)
@[simp] theorem raiseIf_ins : (raiseIf b e n s).ins = s.ins := of_still State.ins (fun _ => rfl) (still_raiseIf s b e n)
@[simp] theorem raiseIf_est : (raiseIf b e n s).est = s.est := of_still State.est (fun _ => rfl) (still_raiseIf s b e n)
@[simp] theorem raiseIf_imp : (raiseIf b e n s).imp = s.imp := of_still State.imp (fun _ => rfl) (still_raiseIf s b e n)
@[simp] theorem raiseIf_bal : (raiseIf b e n s).bal = s.bal := of_still State.bal (fun _ => rfl) (still_raiseIf s b e n)
@[simp] theorem raiseIf_pro : (raiseIf b e n s).pro = s.pro := of_still State.pro (fun _ => rfl) (still_raiseIf s b e n)
@[simp] theorem raiseIf_ctl : (raiseIf b e n s).ctl = s.ctl := of_still State.ctl (fun _ => rfl) (still_raiseIf s b e n)
@[simp] theorem raiseIf_que : (raiseIf b e n s).que = s.que := of_still State.que (fun _ => rfl) (still_raiseIf s b e n)
@[simp] theorem raiseIf_pai : (raiseIf b e n s).pai = s.pai := of_still State.pai (fun _ => rfl) (still_raiseIf s b e n)
@[simp] theorem raiseIf_arb : (raiseIf b e n s).arb = s.arb := of_still State.arb (fun _ => rfl) (still_raiseIf s b e n)
@[simp] theorem raiseIf_hkp : (raiseIf b e n s).hkp = s.hkp := of_still State.hkp (fun _ => rfl) (still_raiseIf s b e n)

end raiseIf

section notice
variable (cls typ : Nat) (d : Bytes)

@[simp] theorem notice_pending : (notice cls typ d s).pending = s.pending := of_still State.pending (fun _ => rfl) (still_notice s cls typ d)
@[simp] theorem notice_fresh : (notice cls typ d s).fresh = s.fresh := of_still State.fresh (fun _ => rfl) (still_notice s cls typ d)
@[simp] theorem notice_fac : (notice cls typ d s).fac = s.fac := of_still State.fac (fun _ => rfl) (still_notice s cls typ d)
@[simp] theorem notice_nv : (notice cls typ d s).nv = s.nv := of_still State.nv (fun _ => rfl) (still_notice s cls typ d)
@[simp] theorem notice_recNv : (notice cls typ d s).recNv = s.recNv := of_still State.recNv (fun _ => rfl) (still_notice s cls typ d)
@[simp] theorem notice_cfg : (notice cls typ d s).cfg = s.cfg := of_still State.cfg (fun _ => rfl) (still_notice s cls typ d)
@[simp] theorem notice_net : (notice cls typ d s).net = s.net := of_still State.net (fun _ => rfl) (still_notice s cls typ d)
@[simp] theorem notice_cfgPro : (notice cls typ d s).cfgPro = s.cfgPro := of_still State.cfgPro (fun _ => rfl) (still_notice s cls typ d)
@[simp] theorem notice_cfgEst : (notice cls typ d s).cfgEst = s.cfgEst := of_still State.cfgEst (fun _ => rfl) (still_notice s cls typ d)
@[simp] theorem notice_cfgImp : (notice cls typ d s).cfgImp = s.cfgImp := of_still State.cfgImp (fun _ => rfl) (still_notice s cls typ d)
@[simp] theorem notice_cfgCtl : (notice cls typ d s).cfgCtl = s.cfgCtl := of_still State.cfgCtl (fun _ => rfl) (still_notice s cls typ d)
@[simp] theorem notice_cfgSmp : (notice cls typ d s).cfgSmp = s.cfgSmp := of_still State.cfgSmp (fun _ => rfl) (still_notice s cls typ d)
@[simp] theorem notice_cfgWin : (notice cls typ d s).cfgWin = s.cfgWin := of_still State.cfgWin (fun _ => rfl) (still_notice s cls typ d)
@[simp] theorem notice_image : (notice cls typ d s).image = s.image := of_still State.image (fun _ => rfl) (still_notice s cls typ d)
@[simp] theorem notice_cap : (notice cls typ d s).cap = s.cap := of_still State.cap (fun _ => rfl) (still_notice s cls typ d)
@[simp] theorem notice_lcy : (notice cls typ d s).lcy = s.lcy := of_still State.lcy (fun _ => rfl) (still_notice s cls typ d)
@[simp] theorem notice_prt : (notice cls typ d s).prt = s.prt := of_still State.prt (fun _ => rfl) (still_notice s cls typ d)
@[simp] theorem notice_units : (notice cls typ d s).units = s.units := of_still State.units (fun _ => rfl) (still_notice s cls typ d)
@[simp] theorem notice_smp : (notice cls typ d s).smp = s.smp := of_still State.smp (fun _ => rfl) (still_notice s cls typ d)
@[simp] theorem notice_ins : (notice cls typ d s).ins = s.ins := of_still State.ins (fun _ => rfl) (still_notice s cls typ d)
@[simp] theorem notice_est : (notice cls typ d s).est = s.est := of_still State.est (fun _ => rfl) (still_notice s cls typ d)
@[simp] theorem notice_imp : (notice cls typ d s).imp = s.imp := of_still State.imp (fun _ => rfl) (still_notice s cls typ d)
@[simp] theorem notice_bal : (notice cls typ d s).bal = s.bal := of_still State.bal (fun _ => rfl) (still_notice s cls typ d)
@[simp] theorem notice_pro : (notice cls typ d s).pro = s.pro := of_still State.pro (fun _ => rfl) (still_notice s cls typ d)
@[simp] theorem notice_ctl : (notice cls typ d s).ctl = s.ctl := of_still State.ctl (fun _ => rfl) (still_notice s cls typ d)
@[simp] theorem notice_que : (notice cls typ d s).que = s.que := of_still State.que (fun _ => rfl) (still_notice s cls typ d)
@[simp] theorem notice_pai : (notice cls typ d s).pai = s.pai := of_still State.pai (fun _ => rfl) (still_notice s cls typ d)
@[simp] theorem notice_arb : (notice cls typ d s).arb = s.arb := of_still State.arb (fun _ => rfl) (still_notice s cls typ d)
@[simp] theorem notice_hkp : (notice cls typ d s).hkp = s.hkp := of_still State.hkp (fun _ => rfl) (still_notice s cls typ d)

end notice

section noticeState
variable (p : Nat)

@[simp] theorem noticeState_pending : (noticeState p s).pending = s.pending := of_still State.pending (fun _ => rfl) (still_noticeState s p)
@[simp] theorem noticeState_fresh : (noticeState p s).fresh = s.fresh := of_still State.fresh (fun _ => rfl) (still_noticeState s p)
@[simp] theorem noticeState_fac : (noticeState p s).fac = s.fac := of_still State.fac (fun _ => rfl) (still_noticeState s p)
@[simp] theorem noticeState_nv : (noticeState p s).nv = s.nv := of_still State.nv (fun _ => rfl) (still_noticeState s p)
@[simp] theorem noticeState_recNv : (noticeState p s).recNv = s.recNv := of_still State.recNv (fun _ => rfl) (still_noticeState s p)
@[simp] theorem noticeState_cfg : (noticeState p s).cfg = s.cfg := of_still State.cfg (fun _ => rfl) (still_noticeState s p)
@[simp] theorem noticeState_net : (noticeState p s).net = s.net := of_still State.net (fun _ => rfl) (still_noticeState s p)
@[simp] theorem noticeState_cfgPro : (noticeState p s).cfgPro = s.cfgPro := of_still State.cfgPro (fun _ => rfl) (still_noticeState s p)
@[simp] theorem noticeState_cfgEst : (noticeState p s).cfgEst = s.cfgEst := of_still State.cfgEst (fun _ => rfl) (still_noticeState s p)
@[simp] theorem noticeState_cfgImp : (noticeState p s).cfgImp = s.cfgImp := of_still State.cfgImp (fun _ => rfl) (still_noticeState s p)
@[simp] theorem noticeState_cfgCtl : (noticeState p s).cfgCtl = s.cfgCtl := of_still State.cfgCtl (fun _ => rfl) (still_noticeState s p)
@[simp] theorem noticeState_cfgSmp : (noticeState p s).cfgSmp = s.cfgSmp := of_still State.cfgSmp (fun _ => rfl) (still_noticeState s p)
@[simp] theorem noticeState_cfgWin : (noticeState p s).cfgWin = s.cfgWin := of_still State.cfgWin (fun _ => rfl) (still_noticeState s p)
@[simp] theorem noticeState_image : (noticeState p s).image = s.image := of_still State.image (fun _ => rfl) (still_noticeState s p)
@[simp] theorem noticeState_cap : (noticeState p s).cap = s.cap := of_still State.cap (fun _ => rfl) (still_noticeState s p)
@[simp] theorem noticeState_lcy : (noticeState p s).lcy = s.lcy := of_still State.lcy (fun _ => rfl) (still_noticeState s p)
@[simp] theorem noticeState_prt : (noticeState p s).prt = s.prt := of_still State.prt (fun _ => rfl) (still_noticeState s p)
@[simp] theorem noticeState_units : (noticeState p s).units = s.units := of_still State.units (fun _ => rfl) (still_noticeState s p)
@[simp] theorem noticeState_smp : (noticeState p s).smp = s.smp := of_still State.smp (fun _ => rfl) (still_noticeState s p)
@[simp] theorem noticeState_ins : (noticeState p s).ins = s.ins := of_still State.ins (fun _ => rfl) (still_noticeState s p)
@[simp] theorem noticeState_est : (noticeState p s).est = s.est := of_still State.est (fun _ => rfl) (still_noticeState s p)
@[simp] theorem noticeState_imp : (noticeState p s).imp = s.imp := of_still State.imp (fun _ => rfl) (still_noticeState s p)
@[simp] theorem noticeState_bal : (noticeState p s).bal = s.bal := of_still State.bal (fun _ => rfl) (still_noticeState s p)
@[simp] theorem noticeState_pro : (noticeState p s).pro = s.pro := of_still State.pro (fun _ => rfl) (still_noticeState s p)
@[simp] theorem noticeState_ctl : (noticeState p s).ctl = s.ctl := of_still State.ctl (fun _ => rfl) (still_noticeState s p)
@[simp] theorem noticeState_que : (noticeState p s).que = s.que := of_still State.que (fun _ => rfl) (still_noticeState s p)
@[simp] theorem noticeState_pai : (noticeState p s).pai = s.pai := of_still State.pai (fun _ => rfl) (still_noticeState s p)
@[simp] theorem noticeState_arb : (noticeState p s).arb = s.arb := of_still State.arb (fun _ => rfl) (still_noticeState s p)
@[simp] theorem noticeState_hkp : (noticeState p s).hkp = s.hkp := of_still State.hkp (fun _ => rfl) (still_noticeState s p)

end noticeState

section condCheck

@[simp] theorem condCheck_pending : (condCheck s).pending = s.pending := of_still State.pending (fun _ => rfl) (still_condCheck s)
@[simp] theorem condCheck_fresh : (condCheck s).fresh = s.fresh := of_still State.fresh (fun _ => rfl) (still_condCheck s)
@[simp] theorem condCheck_fac : (condCheck s).fac = s.fac := of_still State.fac (fun _ => rfl) (still_condCheck s)
@[simp] theorem condCheck_nv : (condCheck s).nv = s.nv := of_still State.nv (fun _ => rfl) (still_condCheck s)
@[simp] theorem condCheck_recNv : (condCheck s).recNv = s.recNv := of_still State.recNv (fun _ => rfl) (still_condCheck s)
@[simp] theorem condCheck_cfg : (condCheck s).cfg = s.cfg := of_still State.cfg (fun _ => rfl) (still_condCheck s)
@[simp] theorem condCheck_net : (condCheck s).net = s.net := of_still State.net (fun _ => rfl) (still_condCheck s)
@[simp] theorem condCheck_cfgPro : (condCheck s).cfgPro = s.cfgPro := of_still State.cfgPro (fun _ => rfl) (still_condCheck s)
@[simp] theorem condCheck_cfgEst : (condCheck s).cfgEst = s.cfgEst := of_still State.cfgEst (fun _ => rfl) (still_condCheck s)
@[simp] theorem condCheck_cfgImp : (condCheck s).cfgImp = s.cfgImp := of_still State.cfgImp (fun _ => rfl) (still_condCheck s)
@[simp] theorem condCheck_cfgCtl : (condCheck s).cfgCtl = s.cfgCtl := of_still State.cfgCtl (fun _ => rfl) (still_condCheck s)
@[simp] theorem condCheck_cfgSmp : (condCheck s).cfgSmp = s.cfgSmp := of_still State.cfgSmp (fun _ => rfl) (still_condCheck s)
@[simp] theorem condCheck_cfgWin : (condCheck s).cfgWin = s.cfgWin := of_still State.cfgWin (fun _ => rfl) (still_condCheck s)
@[simp] theorem condCheck_image : (condCheck s).image = s.image := of_still State.image (fun _ => rfl) (still_condCheck s)
@[simp] theorem condCheck_cap : (condCheck s).cap = s.cap := of_still State.cap (fun _ => rfl) (still_condCheck s)
@[simp] theorem condCheck_lcy : (condCheck s).lcy = s.lcy := of_still State.lcy (fun _ => rfl) (still_condCheck s)
@[simp] theorem condCheck_prt : (condCheck s).prt = s.prt := of_still State.prt (fun _ => rfl) (still_condCheck s)
@[simp] theorem condCheck_units : (condCheck s).units = s.units := of_still State.units (fun _ => rfl) (still_condCheck s)
@[simp] theorem condCheck_smp : (condCheck s).smp = s.smp := of_still State.smp (fun _ => rfl) (still_condCheck s)
@[simp] theorem condCheck_ins : (condCheck s).ins = s.ins := of_still State.ins (fun _ => rfl) (still_condCheck s)
@[simp] theorem condCheck_est : (condCheck s).est = s.est := of_still State.est (fun _ => rfl) (still_condCheck s)
@[simp] theorem condCheck_imp : (condCheck s).imp = s.imp := of_still State.imp (fun _ => rfl) (still_condCheck s)
@[simp] theorem condCheck_bal : (condCheck s).bal = s.bal := of_still State.bal (fun _ => rfl) (still_condCheck s)
@[simp] theorem condCheck_pro : (condCheck s).pro = s.pro := of_still State.pro (fun _ => rfl) (still_condCheck s)
@[simp] theorem condCheck_ctl : (condCheck s).ctl = s.ctl := of_still State.ctl (fun _ => rfl) (still_condCheck s)
@[simp] theorem condCheck_que : (condCheck s).que = s.que := of_still State.que (fun _ => rfl) (still_condCheck s)
@[simp] theorem condCheck_pai : (condCheck s).pai = s.pai := of_still State.pai (fun _ => rfl) (still_condCheck s)
@[simp] theorem condCheck_arb : (condCheck s).arb = s.arb := of_still State.arb (fun _ => rfl) (still_condCheck s)
@[simp] theorem condCheck_hkp : (condCheck s).hkp = s.hkp := of_still State.hkp (fun _ => rfl) (still_condCheck s)

end condCheck

/-! ### Conditions -/

/-- The conditions are read from four fields. -/
theorem conditions_congr {s t : State} (h1 : t.pro.latched = s.pro.latched) (h2 : t.hkp.throttled = s.hkp.throttled)
    (h3 : t.smp.lowCad = s.smp.lowCad) (h4 : t.lcy.defaultsLocked = s.lcy.defaultsLocked) : conditions t = conditions s := by
  simp [conditions, tripped, h1, h2, h3, h4]

theorem settled_congr {s t : State} (h : settled s) (h1 : t.pro.latched = s.pro.latched) (h2 : t.hkp.throttled = s.hkp.throttled)
    (h3 : t.smp.lowCad = s.smp.lowCad) (h4 : t.lcy.defaultsLocked = s.lcy.defaultsLocked) (h5 : t.pwr.conds = s.pwr.conds) :
    settled t := by
  unfold settled at *
  rw [conditions_congr h1 h2 h3 h4, h5, h]

theorem noticeTo_conditions (cls typ : Nat) (d : Bytes) (c : Nat) : conditions (noticeTo cls typ d c s) = conditions s := by
  unfold noticeTo
  dsimp only
  split <;> rfl

/-- The check leaves the conditions reported. -/
theorem condCheck_settles : settled (condCheck s) := by
  by_cases h : conditions s = s.pwr.conds
  · rw [condCheck_of_settled _ h]; exact h
  · unfold settled condCheck
    rw [if_neg h]
    dsimp only
    rw [noticeState_pwr, raise_pwr]
    exact conditions_congr (by simp) (by simp) (by simp) (by simp)

end Sys2Proof.Machine
end

