-- ==== Sys2Proof/Laws/Requests.lean ====
section
/-! SUPPORT. What a request that reaches its judgement does: the time of receipt, the answer, the stored answer; nothing else moves. -/

namespace Sys2Proof.Machine

open Sys2Proof

variable (s : State)

/-- The receipt keeps the session's generation, so what is still to be answered. -/
theorem unanswered_touch (r : Req) : unanswered r (touch r s) = unanswered r s := by
  unfold touch
  split
  · have key : ((modSess r.ctx.toNat (fun x => { x with lastRx := s.smp.timeNs }) s).sess r.ctx.toNat).gen = (s.sess r.ctx.toNat).gen := by
      simp only [State.sess, modSess, List.getD_eq_getElem?_getD, List.getElem?_modify]
      cases s.ses.ctx[r.ctx.toNat]? <;> simp
    simp only [unanswered, key]
    rfl
  · rfl

@[simp] theorem touch_out (r : Req) : (touch r s).out = s.out := by unfold touch; split <;> rfl
@[simp] theorem touch_ev (r : Req) : (touch r s).ev = s.ev := by unfold touch; split <;> rfl

/-- A request that reaches its judgement and in which the command finds nothing wrong runs. -/
theorem request_heard {s : State} {r : Req} {op least : Nat} (h : heard r op least s) (j : State → Judge) (run : State → State)
    (hj : (j (touch r s)).first false = none) : request r op least j run s = run (touch r s) := by
  obtain ⟨h1, h2, h3, h4, h5, h6, h7, h8⟩ := h
  have e1 : (s.nv.wipePending && (running 0x0B02 (touch r s)).isNone && !duringWipe.contains op) = false := by
    cases hw : s.nv.wipePending
    · rfl
    · simp only [h6 hw, Bool.not_true, Bool.and_false]
  have e2 : decide ((s.sess r.ctx.toNat).role < least) = false := by simp; omega
  have e3 : (touch r s).nv.wipePending = s.nv.wipePending := by unfold touch; split <;> rfl
  have e4 : unanswered r (touch r s) = none := by rw [unanswered_touch]; exact h8
  unfold request requestNoting
  simp only [h1, h2, h7, Bool.not_true, Bool.or_false, Bool.false_eq_true, if_false, h3, h4, e1, e2, e3, e4]
  change (match (j (touch r s)).first false with
    | some (st, body) => respond r op st body (touch r s)
    | none => run (touch r s)) = _
  rw [hj]

@[simp] theorem still_sendResponse (r : Req) (op st : Nat) (b : Bytes) : still (sendResponse r op st b s) = still s := by
  unfold sendResponse
  rw [still_send]
  exact still_modSess _ _ _ fun _ => rfl

/-- The receipt and the stored answer of the session are what `stillFor` does not see. -/
theorem stillFor_modSess (c : Byte) (f : Sess → Sess)
    (h : ∀ x : Sess, ({ f x with lastRx := 0, store := [], nseq := 0, txSeq := 0 } : Sess) =
      { x with lastRx := 0, store := [], nseq := 0, txSeq := 0 }) : stillFor c (modSess c.toNat f s) = stillFor c s := by
  simp only [stillFor, still, modSess]
  have key : ∀ (l : List Sess) (i : Nat),
      ((l.modify i f).map fun x => { x with nseq := 0, txSeq := 0 }).modify i (fun x => { x with lastRx := 0, store := [] }) =
        (l.map fun x => { x with nseq := 0, txSeq := 0 }).modify i (fun x => { x with lastRx := 0, store := [] }) := by
    intro l
    induction l with
    | nil => intro i; cases i <;> rfl
    | cons a l ih => intro i; cases i with
      | zero => simpa using h a
      | succ i => simpa using ih i
  rw [key]

theorem stillFor_of_still (c : Byte) {a b : State} (h : still a = still b) : stillFor c a = stillFor c b := by
  simp only [stillFor, h]

theorem stillFor_waiting (c : Byte) (l : List (Byte × Half)) :
    stillFor c { s with ses := { s.ses with waiting := l } } = stillFor c s := rfl

@[simp] theorem stillFor_touch (r : Req) : stillFor r.ctx (touch r s) = stillFor r.ctx s := by
  unfold touch
  split
  · exact stillFor_modSess _ _ _ fun _ => rfl
  · exact stillFor_waiting _ _ _

@[simp] theorem stillFor_respond (r : Req) (op st : Nat) (b : Bytes) : stillFor r.ctx (respond r op st b s) = stillFor r.ctx s := by
  unfold respond
  dsimp only
  split
  · exact stillFor_of_still _ (still_sendResponse _ _ _ _ _)
  · refine Eq.trans (stillFor_modSess _ _ _ ?_) (stillFor_of_still _ (still_sendResponse _ _ _ _ _))
    exact fun _ => rfl

theorem respond_out (r : Req) (op st : Nat) (b : Bytes) :
    (respond r op st b s).out = s.out ++ [.response r.ctx r.tag op st b] := by
  unfold respond
  dsimp only
  split <;> rfl

/-- A session that answers keeps everything else of the state as it is, reporting included. -/
theorem respond_frame (r : Req) (op st : Nat) (b : Bytes) :
    (respond r op st b s).ev = s.ev ∧ (respond r op st b s).pwr = s.pwr ∧ (respond r op st b s).recd = s.recd ∧
      (respond r op st b s).xng = s.xng := by
  unfold respond
  dsimp only
  split <;> exact ⟨rfl, rfl, rfl, rfl⟩

theorem settled_touch (r : Req) (h : settled s) : settled (touch r { s with out := [] }) := by
  unfold touch
  split <;> exact settled_congr h rfl rfl rfl rfl rfl

theorem settled_respond (r : Req) (op st : Nat) (b : Bytes) (h : settled s) : settled (respond r op st b s) := by
  unfold respond
  dsimp only
  split <;> exact settled_congr h rfl rfl rfl rfl rfl

/-- A request that answers OK and does `f`. -/
theorem act_answersDoing {s : State} {r : Req} {op least : Nat} (h : heard r op least s) (j : State → Judge) (run f : State → State)
    (body : Bytes) (hj : (j (touch r { s with out := [] })).first false = none)
    (hrun : run (touch r { s with out := [] }) = respond r op stOk body (f (touch r { s with out := [] })))
    (hs : settled (f (touch r { s with out := [] })))
    (hf : stillFor r.ctx (f (touch r { s with out := [] })) = stillFor r.ctx (f s))
    (hev : (f (touch r { s with out := [] })).ev = s.ev) (hout : (f (touch r { s with out := [] })).out = []) :
    ∃ t, act (request r op least j run) s = .next t ∧ stillFor r.ctx t = stillFor r.ctx (f s) ∧ t.ev = s.ev ∧
      t.out = [.response r.ctx r.tag op stOk body] := by
  have h' : heard r op least { s with out := [] } := h
  have e := request_heard h' j run hj
  refine ⟨transmit s (request r op least j run { s with out := [] }), act_settled _ _ ?_, ?_, ?_, ?_⟩
  · rw [e, hrun]
    exact settled_respond _ _ _ _ _ hs
  · rw [stillFor_of_still _ (still_transmit _ _), e, hrun, stillFor_respond, hf]
  · rw [transmit_ev, e, hrun, (respond_frame _ _ _ _ _).1, hev]
  · rw [transmit_out, e, hrun, respond_out, hout]; rfl

/-- A request that only answers. -/
theorem act_answers {s : State} {r : Req} {op least : Nat} (hs : settled s) (h : heard r op least s) (j : State → Judge)
    (run : State → State) (body : Bytes) (hj : (j (touch r { s with out := [] })).first false = none)
    (hrun : run (touch r { s with out := [] }) = respond r op stOk body (touch r { s with out := [] })) :
    ∃ t, act (request r op least j run) s = .next t ∧ stillFor r.ctx t = stillFor r.ctx s ∧ t.ev = s.ev ∧
      t.out = [.response r.ctx r.tag op stOk body] :=
  act_answersDoing h j run id body hj hrun (settled_touch _ _ hs)
    ((stillFor_touch _ _).trans (stillFor_of_still _ rfl)) (touch_ev _ _) (touch_out _ _)

end Sys2Proof.Machine
end

