-- ==== Sys2Proof/Laws/Wire.lean ====
section
/-! SUPPORT. What the symbols of the link undo: the scrambler itself, the code groups of bytes, the order of the pieces of a window. -/

namespace Sys2Proof.Machine

open Sys2Proof

@[simp] theorem length_scramble (k : BitVec 11) (b : Bits) : (scramble k b).length = b.length := by
  induction b generalizing k with
  | nil => rfl
  | cons x r ih => simp [scramble, ih]

/-- Descrambling from the transmitter's state gives the stream back. -/
theorem scramble_scramble (k : BitVec 11) (b : Bits) : scramble k (scramble k b) = b := by
  induction b generalizing k with
  | nil => rfl
  | cons x r ih => cases x <;> cases h : scrOut k <;> simp [scramble, ih, h]

theorem drop_scramble (k : BitVec 11) (n : Nat) (b : Bits) : (scramble k b).drop n = scramble (scrNext^[n] k) (b.drop n) := by
  induction b generalizing k n with
  | nil => simp [scramble]
  | cons x r ih => cases n with
    | zero => rfl
    | succ n => simp [scramble, ih, Function.iterate_succ]

/-- Every nibble has a data code group of its own. -/
theorem dataGroups_index (n : Fin 16) : dataGroups.findIdx? (· == dataGroups.getD n 0) = some n.val := by
  revert n; decide

theorem groupsBytes_byteGroups (b : Byte) (l : List Group) :
    groupsBytes (byteGroups b ++ l) = (groupsBytes l).map fun r => b :: r := by
  have lo := dataGroups_index ⟨b.toNat % 16, Nat.mod_lt _ (by omega)⟩
  have hi := dataGroups_index ⟨b.toNat / 16, by have := b.isLt; omega⟩
  have whole : BitVec.ofNat 8 (b.toNat % 16 + 16 * (b.toNat / 16)) = b := by
    rw [Nat.mod_add_div]; simp
  simp only [byteGroups, List.cons_append, List.nil_append, groupsBytes, lo, hi]
  cases groupsBytes l <;> simp [whole]

/-- The code groups of bytes stand for these bytes. -/
@[simp] theorem groupsBytes_flatMap (b : Bytes) : groupsBytes (b.flatMap byteGroups) = some b := by
  induction b with
  | nil => rfl
  | cons x r ih => rw [List.flatMap_cons, groupsBytes_byteGroups, ih, Option.map_some]

/-- A frame taken apart gives its bytes (R45). -/
@[simp] theorem frameBytesOf_frameGroups (b : Bytes) : frameBytesOf (frameGroups b) = some b := by
  have e : frameGroups b = [groupJ, groupK] ++ (b.flatMap byteGroups ++ [groupT, groupR]) := by simp [frameGroups]
  have n : (frameGroups b).length = (b.flatMap byteGroups).length + 4 := by simp [frameGroups]
  have d : (frameGroups b).drop ((frameGroups b).length - 2) = [groupT, groupR] := by
    rw [n, frameGroups, List.drop_append_of_le_length (by simp)]
    rw [List.drop_of_length_le (by simp)]; rfl
  have m : ((frameGroups b).take ((frameGroups b).length - 2)).drop 2 = b.flatMap byteGroups := by
    rw [n, frameGroups, List.take_append_of_le_length (by simp), List.take_of_length_le (by simp)]; rfl
  unfold frameBytesOf
  rw [d, m, n]
  simp [e]

theorem insertBy_perm {α : Type} (le : α → α → Bool) (a : α) (l : List α) : (insertBy le a l).Perm (a :: l) := by
  induction l with
  | nil => exact .refl _
  | cons b r ih =>
    simp only [insertBy]
    split
    · exact .refl _
    · exact (ih.cons b).trans (.swap a b r)

/-- Sorting moves elements and nothing else. -/
theorem sortBy_perm {α : Type} (le : α → α → Bool) (l : List α) : (sortBy le l).Perm l := by
  induction l with
  | nil => exact .refl _
  | cons a r ih => exact (insertBy_perm le a (sortBy le r)).trans (ih.cons a)

end Sys2Proof.Machine
end

