-- ==== Sys2Proof/WellFormed.lean ====
section
/-! DEFINITION. Which commands are well formed: operands that fit the fields of the spec's messages and frames. The meanings judge
everything else (a value out of a command's range is an answer of the module, not an ill-formed command). -/

namespace Sys2Proof

/-- Fits an unsigned field of `n` bits. -/
def fits (n v : Nat) : Bool := decide (v < 2 ^ n)

/-- A HELLO that has the right form carries 32 bytes of R_I and X_I (Table 10.4). -/
def HelloRec.wf (h : HelloRec) : Bool := !h.wellFormed || (h.ri.length == 32 && h.xi.length == 32)

/-- The header of a protected record (Table 10.3). -/
def RecHdr.wf (h : RecHdr) : Bool := fits 64 h.seq && decide (h.len ≤ 1440)

/-- A lane carries 125 Mbit/s: no window of a cycle holds more bits than 18 µs of them (R41, Table 2.5). -/
def windowFits (b : Bits) : Bool := decide (b.length ≤ 2250)

/-- What a port receives fits its windows; the peer names positions 0 to 2 (R72). -/
def LinkObs.wf (o : LinkObs) : Bool :=
  windowFits o.rxN && windowFits o.rxS && (match o.peer with | some l => l.all fun e => decide (e.1 < 3) | none => true)

/-- What a unit's converters read: 16 voltages, 4 temperatures (Table 3.5). -/
def UnitObs.wf (x : UnitObs) : Bool := x.v.length == 16 && x.t.length == 4 && windowFits x.upN && windowFits x.upS

/-- A SUB_BIND request fits its fields (Table 11.7). -/
def BindReq.wf (b : BindReq) : Bool :=
  fits 8 b.queue && fits 8 b.itype && fits 16 b.first && fits 16 b.count && fits 16 b.decim && fits 16 b.qcap && fits 8 b.qwin &&
    fits 16 b.tailTmo

/-- A STATUS frame fits its fields (Table 14.3). -/
def PeerStatus.wf (f : PeerStatus) : Bool :=
  fits 32 f.instant && fits 2 f.role && fits 3 f.power && fits 4 f.connect && fits 3 f.ctlState && fits 3 f.src && fits 2 f.bankReq &&
    fits 32 f.upd && fits 16 f.tZero && fits 32 f.firstInstant && fits 32 f.epochOk

/-- A block with one EVENT register: CAP has none, codes 3 and 5 are free, each port has its own (Table 0.7). -/
def hasEvent (e : Nat) : Bool := e != 0 && e != 3 && e != 4 && e != 5

/-- Well-formed commands. -/
def Instr.wf : Instr → Bool
  | .cfgOpen _ len => fits 32 len
  | .cfgWrite _ off data => fits 32 off && decide (data.length ≤ 1400)
  | .cfgRead _ _ off len => fits 32 off && fits 16 len
  | .subBind _ b => b.wf
  | .ctlTone _ tones => decide (tones.length ≤ 4)
  | .recRead _ first _ => fits 64 first
  | .updOpen _ len => fits 32 len
  | .updWrite _ off data => fits 32 off && decide (data.length ≤ 1400)
  | .credSet _ _ _ key => key.length == 32
  | .hello h => h.wf
  | .confirm _ _ x => x.macI.length == 32
  | .hostClose h _ => h.wf
  | .streamAck h _ => h.wf
  | .ethernetFrameReceived _ f => fits 48 f.src
  | .nodeForgetTime mac => fits 48 mac
  | .linkCycle obs => obs.length == 48 && obs.all LinkObs.wf
  | .upBlockReceived _ _ rx => windowFits rx
  | .echoReceived _ _ rx _ _ => windowFits rx
  | .peerFwd _ body _ => body.length == 46
  | .spcReset cause => cause != 2
  | .peerStatus f _ => f.wf
  | .peerHello h => fits 64 h.serial && fits 8 h.role && fits 8 h.proto
  | .peerCopy epoch off len data => fits 32 epoch && fits 32 off && decide (len ≤ 128) && data.length == 128
  | .peerCopyEnd epoch len _ => fits 32 epoch && fits 32 len
  | .eventFlagClear _ e _ _ => hasEvent e.val
  | .eventReadLatch _ e => hasEvent e.val
  | .housekeepingRound temps => temps.length == 6
  | .downFrame _ _ x => windowFits x.rx
  | .unitSample _ _ x => x.wf
  | .bulkFrame _ _ _ lead frame tail => windowFits (lead ++ frame ++ tail)
  | _ => true

end Sys2Proof
end

