-- ==== Sys2Proof/Tests/Slice0.lean ====
section
/-! SUPPORT. The tests: the well-formedness check refuses an ill-formed term for each of its conditions; small steps with results taken
from the spec; and, for every statement of Obligations, a state and operands that meet each clause's hypotheses (witness_<Name>), at
the ends of the ranges. -/

set_option Elab.async false

namespace Sys2Proof.Tests

open Sys2Proof Sys2Proof.Machine

/-! ### Helpers -/

/-- A module whose boot is over, in a power state. -/
def up (n : Nat) : State := { State.reset with pwr := { state := n, ready := true } }

/-- Context 0 open with a role. -/
def host (role : Nat) (s : State) : State := { s with ses := { s.ses with ctx := s.ses.ctx.set 0 { opened := true, role := role } } }

/-- A request of context 0. -/
def req : Req := ⟨0, 1, true⟩

/-- Another factory variant. -/
def variant (v : Nat) (s : State) : State := { s with fac := { s.fac with variant := v } }

/-- A module of a pair. -/
def paired (role : Nat) (s : State) : State := { s with cfg := { s.cfg with pair := some ⟨role, 0, 0, 0⟩ } }

def goes (o : Host.Outcome State Fault Refusal) : Bool := match o with | .next _ => true | _ => false

/-- The next state, or the state itself. -/
def next (i : Instr) (s : State) : State := match exec i s with | .next t => t | _ => s

def status (o : Out) : Nat := match o with | .response _ _ _ st _ => st | _ => 255

/-- The status that a request is answered with. -/
def answer (i : Instr) (s : State) : Nat := match (next i s).out with | o :: _ => status o | [] => 255

/-- A configured unit: one group in slot 0, input 0, two ports. -/
def place0 : Cfg := { groups := [{ slot := some 0, input := 0 }], ports := [{ ke := 1 }] }

def ident (n : Nat) : UnitIdent := ⟨n, 0, 0, 0, n, 0, 2⟩

/-- A port that hears nothing in a cycle. -/
def link0 : LinkObs := ⟨[], [], none, false, none⟩

/-- A window that holds one frame. -/
def heardBits (b : Bytes) : Bits := frameBits 5 b

/-- A DOWN frame of a sampling cycle at 16 kS/s. -/
def downOf (l : Lane) (instant : Nat) (flags : Byte) (port : Nat) (cmds : List DownCmd) : Bits :=
  heardBits (downBytes l 0 instant flags port cmds)

def key32 : Bytes := List.replicate 32 7

/-! ### Well-formedness: one ill-formed term for each check -/

def hdr (seq len : Nat) : RecHdr := ⟨len, true, 0, 0, seq, 0, {}⟩
def obs0 : UnitObs := { v := List.replicate 16 33000, t := List.replicate 4 (.tenths 100000), vstk := 528000 }
def bind0 : BindReq := ⟨0, 1, 0, 0, 1, 0, 0, 0⟩
def peer0 : PeerStatus :=
  ⟨0, 1, true, true, 3, false, 0, false, true, 0, 1, 0, 0, 0, 0, 0, 0, 0, 0, 0, 0, 0, 0, 0, 0, 0, 0, 0, 0, 0, 0⟩

theorem wf_accepts : ([.stateSet req 2 true, .cfgOpen req 64, .cfgWrite req 0 [1], .cfgRead req 0 0 1, .subBind req bind0,
    .ctlTone req [], .recRead req 0 1, .credSet req 1 3 key32, .hello ⟨true, 0, 3, key32, key32, {}⟩, .confirm 0 0 ⟨key32, {}⟩,
    .hostClose (hdr 0 28) [], .linkCycle (List.replicate 48 link0), .upBlockReceived 0 .N (heardBits [1]),
    .peerFwd 0 (List.replicate 46 0) false, .spcReset 1, .peerStatus peer0 0, .peerCopy 0 0 128 (List.replicate 128 0),
    .eventFlagClear req 1 0 0, .housekeepingRound (List.replicate 6 none), .downFrame 0 0 ⟨.N, downOf .N 5 0 0 []⟩,
    .unitSample 0 0 obs0, .bulkFrame 0 0 .S [] [] [], .identRead 0 0 2] : List Instr).all Instr.wf = true := by decide +kernel

theorem wf_refuses_requests : ([.cfgOpen req (2 ^ 32), .cfgWrite req (2 ^ 32) [], .cfgWrite req 0 (List.replicate 1401 0),
    .cfgRead req 0 (2 ^ 32) 0, .cfgRead req 0 0 (2 ^ 16), .ctlTone req (List.replicate 5 (0, 0)), .recRead req (2 ^ 64) 1,
    .updOpen req (2 ^ 32), .updWrite req (2 ^ 32) [], .updWrite req 0 (List.replicate 1401 0), .credSet req 1 3 []] : List Instr).any
    Instr.wf = false := by decide +kernel

theorem wf_refuses_bindings : ([{ bind0 with queue := 256 }, { bind0 with itype := 256 }, { bind0 with first := 2 ^ 16 },
    { bind0 with count := 2 ^ 16 }, { bind0 with decim := 2 ^ 16 }, { bind0 with qcap := 2 ^ 16 }, { bind0 with qwin := 256 },
    { bind0 with tailTmo := 2 ^ 16 }] : List BindReq).any (fun b => (Instr.subBind req b).wf) = false := by decide +kernel

theorem wf_refuses_records : ([.hello ⟨true, 0, 3, [], key32, {}⟩, .hello ⟨true, 0, 3, key32, [], {}⟩, .confirm 0 0 ⟨[], {}⟩, .hostClose (hdr (2 ^ 64) 28) [],
    .hostClose (hdr 0 1441) [], .streamAck (hdr (2 ^ 64) 28) [], .streamAck (hdr 0 1441) [],
    .ethernetFrameReceived .A ⟨2 ^ 48, 64, none, none, true, .other⟩, .nodeForgetTime (2 ^ 48), .linkCycle [],
    .housekeepingRound [], .spcReset 2, .eventFlagClear req 0 0 0, .eventFlagClear req 3 0 0,
    .eventFlagClear req 4 0 0, .eventFlagClear req 5 0 0, .eventReadLatch req 0, .eventReadLatch req 4] : List Instr).any Instr.wf = false := by
  decide +kernel

theorem wf_refuses_peer_frames : ([.peerHello ⟨256, 0, 1, 0⟩, .peerHello ⟨1, 2 ^ 64, 1, 0⟩, .peerHello ⟨1, 0, 256, 0⟩, .peerFwd 0 [] false,
    .peerCopy (2 ^ 32) 0 0 (List.replicate 128 0), .peerCopy 0 (2 ^ 32) 0 (List.replicate 128 0), .peerCopy 0 0 129 (List.replicate 128 0),
    .peerCopy 0 0 0 [], .peerCopyEnd (2 ^ 32) 0 0, .peerCopyEnd 0 (2 ^ 32) 0] : List Instr).any Instr.wf = false := by decide +kernel

theorem wf_refuses_status_frames : ([{ peer0 with instant := 2 ^ 32 }, { peer0 with role := 4 }, { peer0 with power := 8 },
    { peer0 with connect := 16 }, { peer0 with ctlState := 8 }, { peer0 with src := 8 }, { peer0 with bankReq := 4 },
    { peer0 with upd := 2 ^ 32 }, { peer0 with tZero := 2 ^ 16 }, { peer0 with firstInstant := 2 ^ 32 },
    { peer0 with epochOk := 2 ^ 32 }] : List PeerStatus).any (fun f => (Instr.peerStatus f 0).wf) = false := by decide +kernel

/-- More bits than a window holds. -/
def tooLong : Bits := List.replicate 2251 false

theorem wf_refuses_link_frames : ([.downFrame 0 0 ⟨.N, tooLong⟩, .bulkFrame 0 0 .N [] tooLong [], .upBlockReceived 0 .N tooLong,
    .echoReceived 0 .N tooLong 0 0, .unitSample 0 0 { obs0 with v := [] }, .unitSample 0 0 { obs0 with t := [] },
    .unitSample 0 0 { obs0 with upN := tooLong }, .unitSample 0 0 { obs0 with upS := tooLong },
    .linkCycle (List.replicate 48 { link0 with rxN := tooLong }), .linkCycle (List.replicate 48 { link0 with rxS := tooLong }),
    .linkCycle (List.replicate 48 { link0 with peer := some [(3, ident 1)] })] : List Instr).any Instr.wf = false := by decide +kernel

/-! ### Witnesses: whole machine and requests -/

theorem witness_StepRunsTheFrontCommand :
    ({ up 1 with pending := [.timeGet req, .prpSupervision] } : State).pending = .timeGet req :: [.prpSupervision] ∧ (up 1).pending = [] := by
  decide +kernel

theorem witness_ReportedConditionsStayCurrent :
    settled { up 1 with pending := [.prpSupervision] } ∧ goes (step { up 1 with pending := [.prpSupervision] }) = true := by decide +kernel

theorem witness_QueueAndFactoryDataOutlastEveryStep : goes (step { up 1 with pending := [.prpSupervision] }) = true := by decide +kernel

theorem witness_RequestStatusFollowsTheOrderOfJudgement :
    let s := host 3 (up 1)
    let w := modNv (fun n => { n with wipePending := true }) s
    spcUp s = true ∧ (s.sess 0).opened = true ∧ (s.sess 0).store.find? (fun e => e.tag == req.tag) = none ∧ (s.sess 0).role < 4 ∧
      w.nv.wipePending = true ∧ duringWipe.contains 0x0301 = false ∧ duringWipe.contains 0x0101 = true ∧
      -- each status of the order, as commands give it
      answer (.stateSet ⟨0, 1, false⟩ 2 true) s = 6 ∧ answer (.stateSet req 2 true) (host 0 (up 1)) = 5 ∧
      answer (.ctlStop req) (variant 1 (host 3 (up 3))) = 3 ∧ answer (.updInfo req) (modNv (fun n => { n with lcy := 4 }) s) = 8 ∧
      answer (.balLearn req) s = 4 ∧ answer (.estGroups req 0 22) (host 3 (up 2)) = 7 ∧ answer (.cfgOpen req 64) w = 1 ∧
      answer (.identGet req) w = 0 := by decide +kernel

theorem witness_RepeatedRequestSendsTheStoredResponse :
    let s := modSess 0 (fun x => { x with store := [⟨1, 0x0103, 0, [9]⟩] }) (host 3 (up 1))
    spcUp s = true ∧ (s.sess 0).opened = true ∧ (s.sess 0).store.find? (fun e => e.tag == req.tag) = some ⟨1, 0x0103, 0, [9]⟩ ∧
      req.ctx.toNat < s.ses.ctx.length ∧ (255 : Byte).toNat < s.ses.ctx.length ∧
      (next (.timeGet req) s).out = [.response 0 1 0x0103 0 [9]] ∧ answer (.identGet req) s = 6 := by decide +kernel

theorem witness_IdentityAndStateReadsAnswer :
    let s := host 0 (up 1)
    settled s ∧ heard req 0x0101 0 s ∧ heard req 0x0102 0 s ∧ heard req 0x0103 0 s ∧ heard req 0x0201 0 s ∧ heard req 0x0403 0 s ∧
      heard req 0x0B01 0 s ∧ stateOk [1, 2, 3, 4] s = true ∧ stateOk [1, 2, 3, 4] (up 4) = true := by decide +kernel

theorem witness_StatusReadsAnswer :
    let s := host 0 (up 2)
    settled s ∧ heard req 0x0502 0 s ∧ stateOk [2, 3, 4] s = true ∧ heard req 0x0705 0 s ∧ heard req 0x0C01 0 s ∧ hasPai s = true ∧
      hasPai (variant 1 s) = true ∧ heard req 0x0901 0 s ∧ heard req 0x0306 0 s ∧ cfgLocked s = false ∧ heard req 0x0A04 0 s ∧
      updLocked s = false ∧ stateOk [1, 2, 3, 4] s = true := by decide +kernel

theorem witness_RangedReadsAnswerTheNamedPart :
    let s := host 2 (modNv (fun n => { n with active := some [1, 2] }) (up 2))
    settled s ∧ heard req 0x0501 0 s ∧ stateOk [2, 3, 4] s = true ∧ (747 : Half).toNat + (21 : Half).toNat ≤ 16 * nPorts s ∧
      heard req 0x0503 0 s ∧ hasImp s = true ∧ (767 : Half).toNat < 16 * nPorts s ∧ heard req 0x0504 0 s ∧
      (688 : Half).toNat + (80 : Half).toNat ≤ 16 * nPorts s ∧ heard req 0x0603 0 s ∧ (512 : Half).toNat + (256 : Half).toNat ≤ 16 * nPorts s ∧
      heard req 0x0305 2 s ∧ cfgLocked s = false ∧ slotImage s 0 = some [1, 2] ∧ 1 < ([1, 2] : Bytes).length := by decide +kernel

theorem witness_SubscriptionCommandsBindAndRelease :
    let s := host 0 (up 1)
    let b : BindReq := ⟨63, 0x01, 0, 768, 1, 32768, 0, 1000⟩
    let v := modQ 63 (fun q => { q with bound := true }) s
    settled s ∧ heard req 0x0401 0 s ∧ stateOk [1, 2, 3, 4] s = true ∧ itemAbsent s b.itype = false ∧ itemRange s b = true ∧
      bindTarget s b = some 63 ∧ bindTarget s { b with queue := 0xFF } = some 0 ∧
      rateSum s + chargedRate s b.itype b.count b.decim ≤ 640000000 ∧ heard req 0x0402 0 v ∧ (v.queue 63).bound = true ∧
      (v.queue 63).ctx = req.ctx ∧ heard req 0x0404 0 s := by decide +kernel

theorem witness_ImageSlotsTakeBytesByOffset :
    let s := host 3 (modNv (fun n => { n with stagedLen := 4 }) { up 1 with image := { len := 64, opened := true, bytes := [] } })
    settled s ∧ s.nv.lcy ≠ 4 ∧ heard req 0x0301 2 s ∧ stateOk [1, 2, 3, 4] s = true ∧ running 0x0303 s = none ∧ running 0x0304 s = none ∧
      heard req 0x0302 2 s ∧ s.image.opened = true ∧ 63 + ([7] : Bytes).length ≤ s.image.len ∧ heard req 0x0A01 3 s ∧
      stateOk [1, 2, 4] s = true ∧ running 0x0A03 s = none ∧ heard req 0x0A02 3 s ∧ 3 + ([7] : Bytes).length ≤ s.nv.stagedLen := by
  decide +kernel

theorem witness_CredentialTableChanges :
    let c := { id := 5, role := 1, key := key32 : Cred }
    let s := host 3 (modNv (fun n => { n with creds := c :: n.creds }) (up 1))
    settled s ∧ stateOk [1, 2, 4] s = true ∧ heard req 0x0B03 3 s ∧ key32.length = 32 ∧ s.nv.creds.any (fun c => c.id == 5) = true ∧
      s.nv.creds.length < 32 ∧ credsOk s (credPut { id := 5, role := 3, key := key32 } s.nv.creds) = true ∧ heard req 0x0B04 3 s ∧
      credsOk s (s.nv.creds.filter fun c => c.id != 5) = true ∧
      (let t := modSess 0 (fun x => { x with cred := 5 }) s; (t.sess 0).cred = 5 ∧ (t.sess 0).opened = true) := by decide +kernel

theorem witness_EngineWritesAndTestBuses :
    let s := host 3 (up 3)
    let f := modCtl (fun c => { c with state := 6, fault := 1, gdN := true }) s
    let m := host 3 (up 4)
    settled s ∧ heard req 0x0803 1 s ∧ hasCtl s = true ∧ stateOk [3] s = true ∧ s.ctl.state ≠ 6 ∧ f.ctl.state = 6 ∧ faultGone f = true ∧
      heard req 0x0805 1 s ∧ standby s = false ∧ heard req 0x0E03 3 m ∧ stateOk [4] m = true ∧ atbNodes.contains 0 = true ∧
      (∃ n ∈ atbNodes, atbNeedsCtl n = true) ∧ hasCtl m = true := by decide +kernel

theorem witness_StateSetCompletesBetweenSamplingStates :
    let s := host 1 (modNv (fun n => { n with lcy := 2 }) (up 2))
    settled s ∧ heard req 0x0202 1 s ∧ s.pwr.state = 2 ∧ s.pwr.target = none ∧ stateLocked s 3 = false ∧ stateLocked s 4 = false ∧
      noSelect s = false ∧ deferredBusy 0x0202 s = false := by decide +kernel

theorem witness_StateSetOtherTransitions :
    let s (n : Nat) := host 1 (modNv (fun n => { n with lcy := 2 }) (up n))
    let c := modPro (fun p => { p with conn := 5 }) (s 3)
    (∀ n ∈ [1, 2, 3, 4], settled (s n) ∧ heard req 0x0202 1 (s n) ∧ (s n).pwr.target = none ∧ stateLocked (s n) n = false ∧
      noSelect (s n) = false ∧ deferredBusy 0x0202 (s n) = false) ∧ stateLocked (s 1) 2 = false ∧ stateLocked (s 1) 4 = false ∧
      stateLocked (s 2) 1 = false ∧ stateLocked (s 4) 1 = false ∧ settled c ∧ c.pwr.state = 3 ∧ c.pro.conn = 5 ∧
      stateLocked c 1 = false ∧ stateLocked c 4 = false := by decide +kernel

theorem witness_LearnedDataCommandsSaveAndLearn :
    let s := host 2 (up 2)
    let m := host 2 (up 4)
    let l := modBal (fun b => { b with learn := some {} }) m
    settled s ∧ heard req 0x0505 2 s ∧ stateOk [2, 3, 4] s = true ∧ deferredBusy 0x0505 s = false ∧ settled m ∧ heard req 0x0601 2 m ∧
      stateOk [4] m = true ∧ allOpen m = true ∧ commands m = true ∧ deferredBusy 0x0601 m = false ∧ m.bal.learn = none ∧
      heard req 0x0602 2 m ∧ heard req 0x0602 2 l ∧ settled l ∧ l.bal.learn.isSome = true := by decide +kernel

/-! ### Witnesses: commands that begin something -/

/-- Items that admission requires, and the control section. -/
def items (weld k4 : Int) : List (Option Int) :=
  [some 100000000000] ++ List.replicate 16 none ++
    [some 150000000000, some 150000000000, some 200000000000, some 300000000000, some 500000000000] ++ List.replicate 14 none ++
    [some weld] ++ List.replicate 6 none ++ [some k4]

def loop0 : List (Option Int) :=
  [some 50000000000000] ++ List.replicate 10 none ++
    [some 0, some 0, some 1000, some 1000, some 0, some 0, some 1000, some 1000, some 100000000000, some 2600000000000, some 1000000000000,
     none, none, some 100000000000, some 100000000000] ++ List.replicate 7 none ++ [some 1000000000] ++ List.replicate 5 none ++ [some 1, some 100000000000]

def conf0 : Cfg := { place0 with smp := [none, none, some 1000000], pro := items 1 0, ctl := loop0, hasCtl := true }

/-- A configuration in force in every engine. -/
def inForce (c : Cfg) (s : State) : State := { s with cfg := c, cfgPro := c, cfgEst := c, cfgImp := c, cfgCtl := c, cfgSmp := c }

/-- A module that samples, PRO armed. -/
def live (n : Nat) : State :=
  { inForce conf0 (up n) with
    smp := { State.reset.smp with started := true, timeNs := 1000062500, instant := 16001, vStr := 800000, vStrOk := true, vLnkOk := true }
    pro := { State.reset.pro with armed := true }, ctl := { State.reset.ctl with state := 1 } }

def withPro (f : Pro → Pro) (s : State) : State := { s with pro := f s.pro }

def told (s : State) : State := { s with pwr := { s.pwr with conds := conditions s } }

theorem witness_ConnectAndDisconnectBegin :
    let s := told (host 1 (live 3))
    let w := inForce { conf0 with pro := items 0 1 } s
    let c := withPro (fun p => { p with conn := 5, kA := 0x3, kB := 0x3 }) s
    (∀ x ∈ [s, w, c], settled x ∧ stateOk [3] x = true ∧ heard req 0x0701 1 x ∧ heard req 0x0702 1 x ∧ deferredBusy 0x0701 x = false ∧
      deferredBusy 0x0702 x = false) ∧ connectOk s = true ∧ s.pro.conn = 0 ∧ s.cfgPro.weldCheck = true ∧ connectOk w = true ∧ w.pro.conn = 0 ∧
      w.cfgPro.weldCheck = false ∧ w.cfgPro.k4En = true ∧ c.pro.conn = 5 := by decide +kernel

theorem witness_TripResetKeepsWhatStillHolds :
    let s := host 2 (withPro (fun p => { p with latched := 0x1000005, active := 1, welded := 2, kf := 2 }) (live 3))
    stateOk [2, 3, 4] s = true ∧ heard req 0x0703 1 s ∧ (s.pro.welded &&& s.pro.kf) != 0 ∧ settled (told s) ∧ heard req 0x0704 2 (told s) ∧
      stateOk [2, 3, 4] (told s) = true ∧ (143 : Byte).toNat < 144 ∧ portPresent (told s) ((143 : Byte).toNat / 3) = true := by decide +kernel

def driving (n : Nat) : State :=
  let s := host 1 (withPro (fun p => { p with conn := 5, kA := 0x3, kB := 0x3 }) (live 3))
  told { s with ctl := { s.ctl with state := n, gdN := true, vBus := 800000, enable := decide (2 ≤ n ∧ n ≤ 4) } }

theorem witness_EngineCommandsStartStopAndTone :
    (∀ x ∈ [driving 1, driving 3], settled x ∧ stateOk [3] x = true ∧ hasCtl x = true ∧ heard req 0x0801 1 x ∧ heard req 0x0802 1 x ∧
      heard req 0x0804 1 x ∧ deferredBusy 0x0802 x = false ∧ standby x = false) ∧ startOk (driving 1) = true ∧ (driving 1).ctl.state = 1 ∧
      (driving 3).ctl.state = 3 ∧ toneRange (driving 3) [(0, 5)] = true ∧ toneRange (driving 3) [] = true := by decide +kernel

/-! ### Witnesses: register access -/

theorem witness_RegisterAccessReadsAndWrites :
    let s := host 2 (up 1)
    mayRead req s ∧ (0x9FFFC : Word).toNat % 4 = 0 ∧ (blockAt 0x90000).isSome = true ∧ blockAt 0x90000 = blockAt (0x90000 + 4 * 255) ∧
      proShut s 0x90000 = false ∧ mayWrite req s ∧ eventPresent s 1 = true ∧ eventPresent s 19 = true ∧ eventPresent s 0x0B = true ∧
      blockPresent s 1 = true ∧ blockPresent s 19 = true ∧ (s.xr 0x4D).down = false := by decide +kernel

theorem witness_LatchingReadsFreezeTheirCompanions :
    let s := host 0 (up 1)
    mayRead req s ∧ eventPresent s 1 = true ∧ eventPresent s 67 = true ∧ eventPresent s 0x0B = true ∧ (s.xr 0x4D).down = false ∧
      767 < nGroups s ∧ hasImp s = true ∧ (let v := variant 2 s; mayRead req v ∧ ¬ 767 < nGroups v) := by decide +kernel

theorem witness_EventClearLosesToTheHardwareSet :
    let s := host 2 (up 1)
    mayWrite req s ∧ eventPresent s 1 = true ∧ eventPresent s 67 = true ∧ eventPresent s 0x0B = true ∧ 67 < s.ev.length ∧
      (s.xr 0x4D).down = false := by decide +kernel

theorem witness_PortAndSamplingControlWrites :
    let s := host 2 (up 1)
    let m := host 2 (up 4)
    mayWrite req s ∧ portPresent s 0 = true ∧ portPresent s 47 = true ∧ ((s.port 47).forceN = false ∧ (s.port 47).forceS = false) ∧ mayWrite req m ∧
      stateOk [4] m = true ∧ stateOk [2, 4] m = true ∧ ((0xA : Word).extractLsb' 0 2).toNat = 2 ∧ ((0xA : Word).extractLsb' 2 2).toNat = 2 ∧
      (∃ t ∈ [next (.insModeWrite req 0x5) m, next (.insModeWrite req 0) m], injecting t = false) := by decide +kernel

theorem witness_EstimatorAndImpedanceControlWrites :
    let s := host 2 (up 1)
    let v := host 2 (variant 2 (up 1))
    mayWrite req s ∧ hasImp s = true ∧ popCount (retainAfter s true 0xFF00) ≤ 8 ∧
      (∀ p ∈ List.range 48, nPorts s ≤ p → (retainAfter s true 0xFF00).getLsbD p = false) ∧
      ((767 : Word).extractLsb' 0 10).toNat < nGroups s ∧ mayWrite req v := by decide +kernel

theorem witness_EngineControlWrites :
    let s := host 2 (up 3)
    let m := host 2 (live 4)
    mayWrite req s ∧ (s.xr 0x4D).down = false ∧ s.pro.bellTest = false ∧ s.pro.owPause = false ∧ hasCtl s = true ∧ stateOk [3] s = true ∧
      ((0x34 : Word).extractLsb' 0 3).toNat = 4 ∧ ((10000 : Word).extractLsb' 0 16).toNat = 10000 ∧ mayWrite req m ∧ stateOk [4] m = true ∧
      stateOk measuring m = true ∧ s.cfgCtl.aoMode = 0 ∧ ({ conf0 with ctl := List.replicate 45 none ++ [some 1] } : Cfg).aoMode = 1 := by
  decide +kernel

theorem witness_InterfaceControlWrites :
    let s := host 2 (up 1)
    let m := host 2 (up 4)
    let c := { s with ses := { s.ses with ctx := s.ses.ctx.set 255 { opened := true } } }
    let v := modNv (fun n => { n with lcy := 3 }) m
    mayWrite req s ∧ s.upl.a.off = false ∧ s.upl.b.off = false ∧ mayWrite req m ∧ stateOk [4] m = true ∧ mayWrite req c ∧
      (0x1FF00 : Word).extractLsb' 8 8 ≠ req.ctx ∧ (c.sess ((0x1FF00 : Word).extractLsb' 8 8).toNat).opened = true ∧
      ((0x3E80100 : Word).extractLsb' 16 10).toNat = 1000 ∧ 1 ≤ ((0x3E80100 : Word).extractLsb' 8 8).toNat ∧ hasPai s = true ∧
      s.lcy.debugEn = false ∧ mayWrite req v ∧ v.nv.lcy = 3 ∧ stateOk [4] v = true := by decide +kernel

/-! ### Witnesses: life cycle, records, ports -/

theorem witness_LifeCycleAndActivationBegin :
    let l := told (host 3 (modNv (fun n => { n with lcy := 3, alternate := some {} }) (up 1)))
    let h := told (host 3 { paired 1 (live 3) with pai := { State.reset.pai with select := true, peerUp := true, peer := some peer0, mapMatch := true } })
    settled l ∧ heard req 0x0B02 3 l ∧ stateOk [1] l = true ∧ lcyAdmits l.nv.lcy 2 = true ∧ lcyAdmits l.nv.lcy 4 = true ∧
      lcyAdmits 2 3 = true ∧ lcyCond l 1 = true ∧ lcyCond l 2 = true ∧ lcyCond l 4 = true ∧ deferredBusy 0x0B02 l = false ∧ heard req 0x0A03 3 l ∧ l.nv.lcy ≠ 4 ∧
      stateOk awake l = true ∧ engineRuns l = false ∧ stagedMajor l = false ∧ l.nv.alternate.isSome = true ∧ l.bal.learn = none ∧
      l.pro.conn = 0 ∧ deferredBusy 0x0A03 l = false ∧ inPair l = false ∧ settled h ∧ heard req 0x0C02 1 h ∧ stateOk [3, 4] h = true ∧
      hasStandby h = true ∧ h.pai.handover = false ∧ deferredBusy 0x0C02 h = false ∧ inPair h = true ∧ h.pai.select = true ∧
      heard req 0x0A03 3 h := by decide +kernel

theorem witness_RecordsPortsAndUnitsAnswerTheHost :
    let s := host 2 (up 2)
    let m := modPos 47 2 (fun x => { x with present := true }) (host 2 (live 4))
    settled s ∧ heard req 0x0902 0 s ∧ stateOk awake s = true ∧ heard req 0x0E01 2 s ∧ stateOk [2, 4] s = true ∧ deferredBusy 0x0E01 s = false ∧
      s.prt.length = 48 ∧ portPresent s 47 = true ∧ settled m ∧ heard req 0x0E02 0 m ∧ stateOk measuring m = true ∧
      (190 : Byte).toNat < 192 ∧ (1 : Byte).toNat ≤ 1 ∧ (0 : BitVec 48) = 0 ∧ (190 : Byte).toNat % 4 = 2 ∧ portPresent m ((190 : Byte).toNat / 4) = true ∧ (m.pos 47 2).present = true ∧ commands m = true ∧
      ownReach m 143 = true ∧ opcodes.contains (0xFFFF : Half).toNat = false ∧ heard req 0xFFFF 0 s := by decide +kernel
/-! ### Witnesses: sessions, uplinks, power -/

def sessIn (c : Nat) (x : Sess) (s : State) : State := { s with ses := { s.ses with ctx := s.ses.ctx.set c x } }

theorem witness_HandshakeOpensOneContext :
    let s := up 1
    let h : HelloRec := ⟨true, 0, 3, key32, key32, {}⟩
    let b := sessIn 0 { opened := true, role := 3 } s
    let t := sessIn 255 { half := true, gen := 9 } s
    settled s ∧ spcUp s = true ∧ (s.ses.helloSec = s.smp.timeNs / 1000000000 → s.ses.helloN < 16) ∧ h.wellFormed = true ∧
      admitsRole s h.role.toNat = true ∧ freeCtx s = some 0 ∧ freeCtx b = some 1 ∧ 0 < s.ses.ctx.length ∧ halfCount s < 32 ∧
      (∀ x ∈ s.ses.ctx, x.opened = true → x.role ≠ 3) ∧ (∀ i ∈ List.range 256, (s.sess i).half = false) ∧
      ({ h with wellFormed := false } : HelloRec).wellFormed = false ∧ settled t ∧ (t.sess 255).half = true ∧ (t.sess 255).gen = 9 ∧
      255 < t.ses.ctx.length ∧ (t.sess 255).known = false := by decide +kernel

/-- The right MAC_I of a handshake is whatever the HMAC gives. -/
theorem witness_HandshakeOpensOneContext_known :
    let x : Sess := { half := true, gen := 9, known := true }
    let t := sessIn 255 x (up 1)
    ((t.sess 255).half = true ∧ (t.sess 255).gen = 9 ∧ (t.sess 255).known = true ∧ (t.sess 255).dhZero = false) ∧
      ∃ mac, mac = Config.hmacSha256 (t.sess 255).kmI ((t.sess 255).th ++ (t.sess 255).macM) := ⟨by decide +kernel, _, rfl⟩

theorem witness_SessionsCloseAndFreeTheirQueues :
    let s := modQ 63 (fun q => { q with bound := true }) (host 1 (up 1))
    let r := sessIn 0 { opened := true, rxHigh := 70, rxSeen := 0xFFFFFFFFFFFFFFFF } (up 1)
    settled s ∧ alive s = true ∧ (hdr 1 28).known = true ∧ 28 ≤ (hdr 1 28).len ∧ (s.sess 0).opened = true ∧ (s.sess 0).gen = 0 ∧
      seqFresh (s.sess 0) 1 = true ∧ (s.queue 63).bound = true ∧ (hdr 1 27).len < 28 ∧ (s.sess 255).opened = false ∧ settled r ∧
      (r.sess 0).opened = true ∧ seqFresh (r.sess 0) 6 = false ∧ seqFresh (r.sess 0) 7 = false := by decide +kernel

/-- A tag that the record's key and nonce give. -/
theorem witness_SessionsCloseAndFreeTheirQueues_tag :
    ∃ h : RecHdr, h.known = true ∧ h.len = 28 ∧ h.ctx = 0 ∧ h.gen = 0 ∧ h.seq = 1 ∧
      h.tag = Config.gcmTag [] ([] ++ le 8 h.seq) (recordAad h 0x14) [] := by
  refine ⟨⟨28, true, 0, 0, 1, Config.gcmTag [] ([] ++ le 8 1) (recordAad ⟨28, true, 0, 0, 1, 0, {}⟩ 0x14) [], {}⟩, rfl, rfl, rfl, rfl, rfl, ?_⟩
  rfl

theorem witness_StreamsSendAckAndNotify :
    let f (n : Nat) := modQ 63 (fun q => { q with bound := true, head := List.replicate n (1, true), rseq := 5, acked := 3 }) (host 1 (up 1))
    (∀ n ∈ [0, 1, 174], settled (f n) ∧ alive (f n) = true ∧ ((f n).queue 63).bound = true ∧
      ((f n).sess ((f n).queue 63).ctx.toNat).opened = true ∧ ((f n).queue 63).held = n) ∧
      (((f 1).queue 63).rseq - ((f 1).queue 63).acked).toNat < ((f 1).queue 63).qwin ∧ (hdr 1 28).known = true ∧
      ((5 : Word) - ((f 1).queue 63).acked).toNat ≤ (((f 1).queue 63).rseq - ((f 1).queue 63).acked).toNat ∧
      seqFresh ((f 1).sess 0) 1 = true := by decide +kernel

theorem witness_StreamsSendAckAndNotify_tag :
    ∃ h : RecHdr, h.known = true ∧ h.len = 36 ∧ h.ctx = 0 ∧ h.gen = 0 ∧ h.seq = 1 ∧
      h.tag = Config.gcmTag [] ([] ++ le 8 h.seq) (recordAad h 0x12) ([63, 0, 0, 0] ++ leW 5) := by
  refine ⟨⟨36, true, 0, 0, 1, Config.gcmTag [] ([] ++ le 8 1) (recordAad ⟨36, true, 0, 0, 1, 0, {}⟩ 0x12) ([63, 0, 0, 0] ++ leW 5), {}⟩, rfl, rfl, rfl,
    rfl, rfl, ?_⟩
  rfl

def linked (s : State) : State := modUpl (fun u => { u with a := { u.a with up := true }, b := { u.b with up := true } }) s

theorem witness_FramesAreCountedDeduplicatedAndAnswered :
    let s := linked (up 1)
    let n := modUpl (fun u => { u with nodes := [{ mac := 5, seen := [(1, s.smp.timeNs)] }] }) s
    settled s ∧ alive s = true ∧ (uplink s .A).up = true ∧ (uplink s .B).up = true ∧ s.upl.nodes.find? (fun n => n.mac == 5) = none ∧
      s.upl.nodes.length < 128 ∧ settled n ∧ (n.upl.nodes.find? fun n => n.mac == 5).isSome = true ∧
      (n.upl.nodes.any fun x => x.seen.any fun e => e.1 == 1 && decide (n.smp.timeNs ≤ e.2 + 400000000)) = true ∧
      s.upl.icmpN < 10 ∧ s.net.ip4Mode = 1 := by decide +kernel

theorem witness_PtpFollowsItsLinks :
    let m : Master := { gm := 7, cls := 6, acc := 0x21, steps := 1 }
    let s := linked (up 2)
    let p := modUpl (fun u => { u with
      sel := 1, ptpValid := true, a := { u.a with ptp := 9, master := some m, syncOk := true, pdelayOk := true } }) s
    let q := modSmp (fun x => { x with tb := 2 }) p
    settled s ∧ alive s = true ∧ (uplink s .B).up = true ∧ s.upl.sel = 0 ∧ m.domain = s.net.domain ∧ ({ m with domain := 5 } : Master).domain ≠ s.net.domain ∧
      (uplink p (otherLink .B)).master = some m ∧ p.upl.sel = linkIdx (otherLink .B) + 1 ∧ (uplink p .B).up = true ∧ settled p ∧ (uplink p .A).master.isSome = true ∧
      p.upl.sel = linkIdx .A + 1 ∧ (uplink p .A).up = true ∧ p.upl.ptpValid = true ∧ ptpGood p = true ∧ settled q ∧
      q.pai.follower = false ∧ q.smp.tb = 2 ∧ p.upl.sel ≠ linkIdx .B + 1 ∧ (uplink (up 2) .A).up = false ∧
      (uplink (up 2) .A).off = false := by decide +kernel

theorem witness_FeedsAndHoldup :
    let s := live 3
    let h (n : Nat) := modUpl (fun u => { u with holdup := n }) s
    let e := { h 1 with ctl := { s.ctl with state := 3, enable := true } }
    60000 < 60001 ∧ settled s ∧ s.pwr.ready = true ∧ s.upl.holdup = 0 ∧ s.pro.armed = true ∧ s.pro.inReset = false ∧ settled (h 1) ∧
      (h 1).upl.holdup = 1 ∧ settled e ∧ engineRuns e = true ∧ (live 2).pwr.target = none := by decide +kernel

theorem witness_PowerCyclesBootTheModule :
    let off := { State.reset with pwr := { state := 1, ready := false } }
    let h := modUpl (fun u => { u with holdup := 3 }) (up 3)
    let f := modUpl (fun u => { u with a := { u.a with feedOk := true } }) h
    off.pwr.ready = false ∧ off.nv.lcy = 0 ∧ (modNv (fun n => { n with lcy := 1 }) off).nv.lcy ≠ 0 ∧ (up 0).pwr.ready = true ∧ (up 0).pwr.state = 0 ∧
      h.upl.holdup ≠ 0 ∧ h.upl.a.feedOk = false ∧ h.upl.b.feedOk = false ∧ f.upl.a.feedOk = true := by decide +kernel

/-! ### Witnesses: port link and sampling -/

def sampled (s : State) : State := modPort 47 (fun x => { x with link := 2 }) s

theorem witness_LinkCycleIssuesTheNextInstant :
    let s := sampled (live 3)
    let w (l : Lane) (n : Nat) := modPort 47 (fun x => { x with link := 1, svc := { phase := .wait, lane := l, n := n } }) (up 1)
    settled (up 1) ∧ alive (up 1) = true ∧ cycling (up 1) = false ∧ (up 1).smp.started = false ∧ running 0x0E01 (up 1) = none ∧
      (∀ p ∈ List.range 48, ((up 1).port p).link ≠ 1 ∧ (s.port p).link ≠ 1) ∧
      (∀ x ∈ [w .N 0, w .S (startCycles - 1)], settled x ∧ alive x = true ∧ cycling x = false ∧ x.smp.started = false ∧ commands x = true ∧
        (x.port 47).link = 1 ∧ (x.port 47).svc.phase = .wait ∧ (x.port 47).svc.jobs = [] ∧ (x.port 47).svc.n < startCycles) ∧
      settled s ∧ alive s = true ∧ (List.replicate 48 link0).length = 48 ∧
      cycling s = true ∧ s.smp.started = true ∧ s.smp.lowCad = false ∧ (s.smp.timeNs + tCad s.smp.cad) % 1000000 ≠ 0 ∧ s.pwr.leaving = false ∧
      47 < nPorts s ∧ (s.port 47).link = 2 ∧ laneOn s 47 .N = true ∧ laneOn s 47 .S = true ∧ commands s = true ∧
      commands (paired 2 s) = false ∧ settled (paired 2 s) := by decide +kernel

def cmdOf (opc : Byte) : InFlight := { req := { pri := 1, dst := 0xBF, opc := opc, data := [] }, cseq := 1, tries := 3, age := 4 }

theorem witness_PortEventsJudgeRingLanesAndUnits :
    let s := modPos 47 2 (fun x => { x with present := true, missRun := 8, cmd := some (cmdOf 0x21) })
      (modPort 47 (fun x => { x with link := 2, ring := 0, badRun := 4, quietN := 16, quietS := 16 }) (live 3))
    let b := modPort 47 (fun x => { x with ring := 2, goodRun := 16, wasIncomplete := true }) s
    settled s ∧ alive s = true ∧ portPresent s 47 = true ∧ (s.port 47).ring = 0 ∧ 4 ≤ (s.port 47).badRun ∧ settled b ∧ (b.port 47).link = 2 ∧
      (b.port 47).ring = 2 ∧ 16 ≤ (b.port 47).goodRun ∧ (b.port 47).wasIncomplete = true ∧ (s.port 47).downN = false ∧ 16 ≤ (s.port 47).quietN ∧
      (s.port 47).downS = false ∧ 16 ≤ (s.port 47).quietS ∧ role s = 0 ∧ (s.pos 47 2).present = true ∧ (s.pos 47 2).stale = false ∧
      8 ≤ (s.pos 47 2).missRun ∧ (s.bal.slots.getD 143 {}).probe = 0 ∧ (s.pos 47 2).cmd = some (cmdOf 0x21) ∧ 3 ≤ (cmdOf 0x21).tries ∧
      4 ≤ (cmdOf 0x21).age ∧ (s.port 47).link = 2 := by decide +kernel

theorem witness_PortEventsJudgeRingLanesAndUnits_echo :
    let e (l : Lane) := modPos 47 2 (fun x => { x with cmd := some (cmdOf 0x04) })
      (modPort 47 (fun x => { x with link := 1, svc := { phase := .measure, lane := l } }) (live 3))
    let b : Bytes := (echoBytes .N 0xBE 7).take 4
    (∀ l ∈ [Lane.N, Lane.S], settled (e l) ∧ ((e l).port 47).link = 1 ∧ laneOn (e l) 47 l = true ∧ ((e l).pos 47 2).cmd = some (cmdOf 0x04) ∧
      ((e l).port 47).svc.lane = l ∧ ((e l).port 47).pos.length = 3) ∧ hearLast (heardBits (echoBytes .N 0xBE 7)) = some (.frame b) ∧
      (b.getD 0 0) >>> 4 = 4 ∧ b.getD 1 0 = addrOf 47 2 := by decide +kernel

/-- An UP block of the unit in position 2 of port 47: its STATUS, and its response. -/
def upOf (n : Nat) (st : Byte) (r : Bytes) : Bytes := withCrc ([0x20, 0xBE] ++ le 2 n ++ [st, 0] ++ List.replicate 42 0 ++ fit 12 r)

/-- One frame of each kind that a receiver tells apart (R45, R46). -/
theorem witness_UpBlocksAreCheckedAndTaken_frames :
    (5 : BitVec 11) ≠ 0 ∧ hearLast (heardBits (List.replicate 64 1)) = some .crc ∧
      hearLast ((heardBits (upOf 16001 0 [])).take 300) = some .symbols ∧ hearLast (heardBits (withCrc [0x70, 0xBE, 0, 0])) = some .reserved ∧
      hearLast (heardBits (withCrc [0x20, 0xBE, 0, 0])) = some .length := by decide +kernel

theorem witness_UpBlocksAreCheckedAndTaken_blocks :
    (∀ b ∈ [upOf 16001 0 [], upOf 16002 0 [], upOf 16001 0x80 [9, 1, 0]], hearLast (heardBits b) = some (.frame (b.take 60)) ∧
      ((b.take 60).getD 0 0) >>> 4 = 2 ∧ ((b.take 60).getD 1 0).toNat / 4 = 47 ∧ ((b.take 60).getD 1 0).toNat % 4 = 2) ∧
      (blockOf ((upOf 16001 0 []).take 60)).status.getLsbD 7 = false := by decide +kernel

theorem witness_UpBlocksAreCheckedAndTaken :
    let s := modPos 47 2 (fun x => { x with present := true }) (sampled (live 3))
    let a : Assign := { addr := 0xBE, cseq := 9 }
    let e := modPort 47 (fun x => { x with link := 1, svc := { phase := .walk, asg := some a } }) (live 3)
    let b := (upOf 16001 0x80 [9, 1, 0]).take 60
    settled s ∧ alive s = true ∧ portPresent s 47 = true ∧ s.smp.started = true ∧ (s.port 47).link = 2 ∧ laneOn s 47 .N = true ∧
      laneOn s 47 .S = true ∧ (s.pos 47 2).present = true ∧ leNat (slice ((upOf 16002 0 []).take 60) 2 2) ≠ s.smp.instant % 65536 ∧
      leNat (slice ((upOf 16001 0 []).take 60) 2 2) = s.smp.instant % 65536 ∧ (s.pos 47 2).got = none ∧ (s.pos 47 2).late = none ∧
      frameClosed s = false ∧ (s.xr 11).down = false ∧ settled e ∧ (e.port 47).link = 1 ∧ (e.port 47).svc.asg = some a ∧ a.addr ≠ 0xFC ∧
      a.addr.toNat / 4 = 47 ∧ a.addr.toNat % 4 < 3 ∧ (e.port 47).pos.length = 3 ∧ leNat (slice b 2 2) = svcIdx e % 65536 ∧
      (blockOf b).status.getLsbD 7 = true ∧ b.getD 48 0 = a.cseq ∧ b.getD 49 0 = 0x01 ∧ b.getD 50 0 = 0 := by decide +kernel

theorem witness_FramesCloseIntoTicks :
    let s := modSmp (fun m => { m with closed := false }) (live 3)
    let l := modSmp (fun m => { m with instant := 17599, timeNs := 1099937500, closed := false }) (live 3)
    alive s = true ∧ cycling s = true ∧ s.smp.started = true ∧ frameClosed s = false ∧ s.pwr.waitFirst = false ∧
      s.cfg.place 0 = some (0, 0) ∧ slotBlock s 0 = none ∧ s.cfg.place 767 = none ∧ tickLast s = false ∧ frameClosed l = false ∧
      tickLast l = true ∧ l.smp.ticks.length < 2 ∧
      (let q := modSmp (fun m => { m with closed := false, queFrames := List.replicate 8 {} }) (live 3)
       alive q = true ∧ cycling q = true ∧ q.smp.started = true ∧ frameClosed q = false ∧ q.pwr.waitFirst = false ∧
         8 ≤ q.smp.queFrames.length ∧ (q.xr 0x0E).down = false) := by decide +kernel

/-- The ninth frame that waits for QUE costs the oldest; while QUE does not lag none waits (R20). -/
theorem test_que_overrun :
    let s := { live 3 with que := [] }
    let q := modSmp (fun m => { m with queFrames := { instant := 1 } :: List.replicate 7 { instant := 2 } }) s
    let t := toQueues true { instant := 9 } q
    let d := toQueues false { instant := 9 } s
    t.smp.ovrQue = 1 ∧ t.smp.queFrames.length = 8 ∧ t.smp.queFrames.head?.map Frame.instant = some 2 ∧
      ((t.ev.getD 0x06 {}).flags.getLsbD 10) = true ∧ d.smp.queFrames = [] ∧ d.smp.ovrQue = 0 := by decide +kernel

theorem witness_CurrentResultsGiveCurrentsAndCharges :
    let x : CurObs := ⟨52000001, true, 0, 0, true, .opened, ⟨false, false, false⟩⟩
    alive (live 3) = true ∧ x.ntc = .opened ∧ ({ x with ntc := .shorted } : CurObs).ntc = .shorted ∧ 52000000 < x.vSh.natAbs ∧
      (inForce { conf0 with smp := [none, none, some 1000000, none, some 1, some 1000000] } (live 3)).cfg.hallEn = true := by decide +kernel

theorem witness_ZeroLearningAndLowCurrentCadence :
    let z : ZeroRun := { n := 16000, sh := 16000 * 20000, hall := 16000 * 100000 }
    let s := modSmp (fun m => { m with zeroRun := some z, lowRun := 32000 }) (inForce { conf0 with smp := [none, some 1000000000, some 1000000] } (live 2))
    let l := told (modSmp (fun m => { m with lowCad := true, cad := 2, lowHold := true, instant := 1001 }) s)
    settled s ∧ alive s = true ∧ s.smp.zeroRun = some z ∧ 16000 ≤ z.n ∧ sampling s = true ∧ s.smp.lowCad = false ∧ s.smp.lowEnter = none ∧
      0 < s.cfgSmp.iLow ∧ 32000 ≤ s.smp.lowRun ∧ s.smp.lowHold = false ∧ tonesRun s = false ∧ settled l ∧ sampling l = true ∧
      l.smp.lowCad = true ∧ l.smp.lowExit = none ∧ lowLeaves l = true ∧ frameClosed l = false := by decide +kernel

theorem witness_InsulationMonitorMeasures :
    let s := modIns (fun m => { m with mode := 2, closedMode := 2, steps := [5, 12000], lastUp := some false }) (live 3)
    let f := modIns (fun m => { m with foreign := true, steps := [] }) s
    let x : InsObs := ⟨20000000, -20000000, 5, 800000, 760000, 1, 1⟩
    let r : Rat := 100 / ((x.iPlus : Rat) / 1000000000000 - (x.iMinus : Rat) / 1000000000000) - 1000000 - 10000
    settled s ∧ alive s = true ∧ injecting s = true ∧ 100 * (x.vStrNeg - x.vStrPos).natAbs ≤ 5 * x.vStrPos.natAbs ∧
      100 * (({ x with vStrNeg := 759999 } : InsObs).vStrNeg - x.vStrPos).natAbs > 5 * x.vStrPos.natAbs ∧ x.iPlus ≠ x.iMinus ∧ 0 < r ∧
      sampling s = true ∧ insEff s ≠ 0 ∧ settled f ∧ f.ins.foreign = true ∧ f.ins.steps = [] := by decide +kernel

/-- R138: a change of the pole voltages by more than 2 V, far from the injector's edges, with a steady string, is a step; one of 2 V is not. -/
theorem witness_InsulationMonitorMeasures_step :
    let s := modIns (fun m => { m with mode := 2, closedMode := 2, edge := 900, lastUp := some false, poles := [(0, 800000)] }) (live 3)
    let m := { s.ins with cyc := s.ins.cyc + 1, edge := min (s.ins.edge + 1) 1000 }
    let counted (sum : Int) : Bool := ((poleChange sum s.ins.poles).map (poleStep m (injecting s) s.smp.vStr)).getD false
    settled s ∧ sampling s = true ∧ insEff s ≠ 0 ∧ injecting s = true ∧ counted 4001 = true ∧ counted 4000 = false ∧
      (∀ e ∈ s.ins.poles, (4000 - e.1).natAbs ≤ 4000) := by decide +kernel

/-! ### Witnesses: estimator, impedance, balancing -/

theorem witness_EstimatorTicksRunSkipAndSave :
    let s := modSmp (fun m => { m with ticks := [{ num := 5, span := 1 }] }) (live 3)
    let k := { s with est := { s.est with skipLeft := 1, throttle := (2, 1, false), held := some { num := 4, span := 1 } } }
    let n := modNv (fun v => { v with copyA := { seq := 5, ok := true }, copyB := { seq := 4, ok := true } }) s
    settled s ∧ alive s = true ∧ sampling s = true ∧ s.smp.ticks ≠ [] ∧ min s.est.skipLeft (skipsOf s) = 0 ∧ s.est.missLeft = 0 ∧ settled k ∧
      0 < min k.est.skipLeft (skipsOf k) ∧ 0 < ({ s.est with missLeft := 1 } : Est).missLeft ∧ (newestCopy n.nv).isSome = true ∧ settled n ∧
      n.est.saveWhole = false ∧ 767 < n.est.ctx.length := by decide +kernel

theorem witness_ImpedanceRunsFramesStepsAndWindows :
    let w : WinRun := { close := 50000000000, win := 5, segs := [], steps := [], cadence := 0 }
    let x : StepRun := { ts := 1, iPre := 0 }
    let s := modSmp (fun m => { m with impFrames := [{ instant := 16000 }] })
      (modImp (fun m => { m with last := some 15999, step := some x, pend := some w })
        (modSmp (fun m => { m with timeNs := 70000062500 }) (live 3)))
    settled s ∧ impRuns s = true ∧ s.smp.impFrames ≠ [] ∧ skippedWindow s 0 = false ∧ s.imp.last.isSome = true ∧ s.imp.runDue = false ∧ (0 : Half).getLsbD 3 = false ∧ State.reset.imp.last = none ∧
      skippedWindow { s with imp := { s.imp with throttle := (2, 1, false) } } 10000000000 = true ∧ s.imp.step = some x ∧
      x.ts + stepHoldNs s.cfgImp ≤ s.smp.timeNs ∧ s.imp.winIdx < s.smp.timeNs / 10000000000 ∧ s.imp.last.isSome = true ∧ s.imp.pend = some w ∧
      0x09 < s.ev.length ∧ 0 ∈ s.cfgImp.mapped ∧ 0 < s.imp.groups.length ∧ 0 < s.est.ctx.length ∧ (s.xr 0x15).down = false := by decide +kernel

theorem witness_BalancingRoundsEndAndTestsStart :
    let s := modBal (fun b => { b with roundDue := true, en := true, recs := b.recs.set 0 { stopAt := some 5 } }) (live 3)
    let h := { s with cfg := { s.cfg with pair := some ⟨2, 0, 0, 0⟩ } }
    settled s ∧ alive s = true ∧ sampling s = true ∧ s.bal.roundDue = true ∧ planning s = true ∧ settled h ∧ planning h = false ∧
      portPresent s 0 = true ∧ ((s.cfgEst.slotGroups 0).any fun e => match (s.bal.recs.getD e.1 {}).stopAt with
        | some x => decide (x ≤ nextAt s) | none => false) = true ∧
      0 < s.bal.recs.length ∧ proRuns s = true ∧ s.pro.owPause = false ∧ 143 < s.pro.units.length := by decide +kernel

/-! ### Witnesses: protection -/

theorem witness_OpenFunctionsTripAndRelease :
    let s := withPro (fun p => { p with refBad := 1, otRun := true, graceRun := true, lossRun := true, closing := 0xF, kA := 3, kB := 3, conn := 3 }) (live 3)
    let w := withPro (fun p => { p with conn := 7, kA := 3, kB := 3 }) (live 3)
    settled s ∧ proRuns s = true ∧ s.pro.armed = true ∧ s.cfgPro.hwOcLevel.isSome = true ∧ s.pro.active = 0 ∧ s.pro.latched = 0 ∧
      1 ≤ s.pro.refBad ∧ s.pro.otRun = true ∧ s.pro.graceRun = true ∧ s.pro.lossRun = true ∧ s.pro.closing.getLsbD 3 = true ∧ s.pro.conn = 3 ∧
      settled w ∧ proRuns w = true ∧ w.pro.conn = 7 := by decide +kernel

theorem witness_SequencerStepsOnItsTimers :
    let f (n : Nat) (a k : BitVec 4) := withPro (fun p => { p with conn := n, kA := a, kB := a, kf := k, overlap := true, weldOk := true }) (live 3)
    (∀ n ∈ [1, 2, 4, 6, 7], settled (f n 4 0) ∧ proRuns (f n 4 0) = true ∧ (f n 4 0).pro.conn = n ∧ (f n 4 0).pro.aboveBreak = false ∧
      (f n 4 0).pro.aboveNever = false) ∧ (f 1 4 0).pro.kA.getLsbD 2 = true ∧ (f 1 4 0).pro.weldOk = true ∧ voltsOk (f 1 4 0) = true ∧
      (((f 1 4 0).smp.vLnk - (f 1 4 0).pro.weldV).natAbs : Int) * 1000000000 ≤ (f 1 4 0).cfgPro.weldDv * (f 1 4 0).smp.vStr.natAbs ∧
      (f 1 4 0).pro.kf.getLsbD 2 = false ∧ (~~~((0xD : BitVec 4) ^^^ (f 2 2 0).cfgPro.kfPol)).getLsbD 1 = true ∧
      (f 2 2 0).cfgPro.k4En = false ∧ (f 4 4 0).pro.overlap = true := by decide +kernel

theorem witness_StarvationAndSupplyFaultReachTheSafeState :
    let s := live 3
    let g := inForce { conf0 with pro := (items 1 0).set 16 (some 50000000) } s
    let r := withPro (fun p => { p with inReset := true }) s
    settled s ∧ s.pwr.ready = true ∧ proRuns s = true ∧ s.pro.armed = true ∧ sampling s = true ∧ s.pro.starved = false ∧
      s.pro.active.getLsbD 0x0C = false ∧ s.cfgPro.staleGrace = 0 ∧ s.pro.latched.getLsbD 0x0C = false ∧ settled g ∧ g.cfgPro.staleGrace ≠ 0 ∧
      tripped g = false ∧ g.pro.hostDisc = false ∧ g.cfgPro.iRatedN.isSome = true ∧ s.pro.inReset = false ∧ settled r ∧
      r.pro.inReset = true := by decide +kernel

/-! ### Witnesses: control engine -/

def bus (v : Int) : LoopObs := ⟨0, 0, v, 0, 0, false, true, true, false⟩
def ctlAt (f : Ctl → Ctl) (s : State) : State := { s with ctl := f s.ctl }

theorem witness_LoopUpdatesMeasureLimitAndFault :
    let g := ctlAt (fun c => { c with busRun := 2 }) (driving 3)
    (∀ x ∈ [driving 1, g], ctlRuns x = true ∧ x.ctl.cfgDue = false ∧ loopCfg x = true) ∧ (driving 1).ctl.state = 1 ∧
      standby (driving 1) = false ∧ g.ctl.state = 3 ∧ g.pro.conn ≠ 6 ∧ busOkAt g (fastValue g (bus 5242880000).cv0 15 17) = true ∧
      busOkAt g (fastValue g (bus 0).cv0 15 17) = false ∧ g.ctl.busRun = 2 ∧ (bankOf g.cfgCtl g.ctl.bankReq).uMin ≤ (bankOf g.cfgCtl g.ctl.bankReq).uMax ∧
      g.cfgCtl.dMin ≤ g.cfgCtl.dMax := by decide +kernel

theorem witness_EngineFaultsAndStopsEndTheDrive :
    let m (sum : Int) := ctlAt (fun c => { c with selN := 16, selSum := sum, mmN := 100, mmRun := 9, spRun := true, sopStale := false }) (driving 3)
    let bad (s : State) : Bool :=
      let y : Rat := (s.ctl.mmSum : Rat) / (s.ctl.mmN : Nat)
      let i : Rat := (s.ctl.selSum : Rat) / 16
      decide ((s.cfgCtl.ciDevAbs : Rat) / 1000000 + (s.cfgCtl.ciDevRel : Rat) / 1000000000 * (if i < 0 then -i else i) <
        (if y < i then i - y else y - i))
    (∀ x ∈ [m 0, m 1600000, driving 1, driving 4], settled x ∧ ctlRuns x = true ∧ 0x0C < x.ev.length) ∧ engineRuns (m 0) = true ∧
      engineRuns (driving 1) = false ∧ (driving 1).ctl.state ≠ 5 ∧ loopCfg (m 0) = true ∧ (m 0).ctl.selN = 16 ∧ 0 < (m 0).ctl.mmN ∧
      (m 0).ctl.mmN * (m 0).cfgCtl.tUpd = 1000000 ∧ bad (m 1600000) = true ∧ (m 1600000).ctl.mmRun = 9 ∧ bad (m 0) = false ∧
      (driving 4).ctl.state = 4 ∧ (m 0).ctl.spRun = true ∧ (m 0).cfgCtl.hostSpHold ≠ 0 ∧ (m 0).ctl.sopStale = false := by decide +kernel

theorem witness_ChanterTonesAndValleys :
    let s := ctlAt (fun c => { c with
      edgeSeen := true, src := 1, tonesNext := some [{ freq := 100, amp := 5 }], started := true, fallback := true, validRun := 16, begun0 := true }) (driving 2)
    let l := ctlAt (fun c => { c with fallback := false, edgeSeen := false }) s
    let r := inForce { conf0 with ctl := loop0.set 39 (some 1) } s
    settled s ∧ ctlRuns s = true ∧ srcAnalog (srcNow s) = false ∧ s.ctl.edgeSeen = true ∧ 10 ^ 12 ≤ 222222222 * 95500 ∧ 222222222 * 4500 ≤ 10 ^ 12 ∧
      10 ^ 12 ≤ 10471205 * 95500 ∧ 10471204 * 95500 < 10 ^ 12 ∧ 10 ^ 12 < 222222223 * 4500 ∧ settled l ∧ l.ctl.edgeSeen = false ∧
      srcPulse (srcNow l) = true ∧ l.ctl.fallback = false ∧ srcPulse (srcNow r) = true ∧ settled r ∧ r.ctl.fallback = true ∧ r.cfgCtl.chReturn = 1 ∧ 16 ≤ r.ctl.validRun ∧
      s.ctl.tonesNext.isSome = true ∧ loopCfg s = true ∧ engineRuns s = true ∧ s.ctl.started = true ∧
      s.ctl.time + 2000 ≤ valleyTime s 1 ∧ s.ctl.time + 2000 ≤ valleyTime s 0 := by decide +kernel

/-! ### Witnesses: supervisor and pair -/

theorem witness_SupervisorRestartsFallsBackAndWipes :
    let d (c : Nat) := { up 1 with lcy := { State.reset.lcy with spcDown := true, spcCause := c } }
    let m := modNv (fun n => { n with mark := 2, alternate := some {} }) (d 2)
    let b := modNv (fun n => { n with newFw := true, badStarts := 2, alternate := some {} }) (d 0)
    let w (n : Nat) := modNv (fun v => { v with wipePending := true, wipeFrom := n, lcy := if n = 0 then 1 else 4 }) (up 1)
    alive (up 3) = true ∧ (up 3).lcy.spcDown = false ∧ (up 3).pwr.target = none ∧ (∀ x ∈ [d 0, d 2, m, b], alive x = true ∧ x.lcy.spcDown = true) ∧
      (d 0).lcy.spcCause ≠ 2 ∧ (d 2).lcy.spcCause = 2 ∧ (d 0).nv.newFw = false ∧ (d 0).nv.mark = 0 ∧ m.nv.mark ≠ 0 ∧
      (markedImage m).isSome = true ∧ fwCheck m [] ≠ stOk ∧ b.nv.newFw = true ∧ 2 ≤ b.nv.badStarts ∧ b.nv.alternate.isSome = true ∧ b.nv.mark = 0 ∧
      settled (up 1) ∧ (up 1).nv.wipePending = false ∧ settled (w 0) ∧ settled (w 2) ∧ (w 0).nv.wipePending = true ∧ (w 0).nv.wipeFrom = 0 ∧
      (w 2).nv.wipeFrom ≠ 0 ∧ (w 2).nv.lcy = 4 := by decide +kernel

def pairS (f : Pai → Pai) : State :=
  let s := modPos 47 2 (fun x => { x with present := true }) (sampled (paired 1 (inForce { conf0 with ports := List.replicate 48 { ke := 1 } } (live 3))))
  { s with pai := f s.pai }

theorem witness_PeerFramesCarryTimeChannelsAndEpochs :
    let dn := pairS fun p => { p with helloRun := 15 }
    let u := pairS fun p => { p with peerUp := true, mapMatch := true, buf := { num := 3, data := [(0, 1)] } }
    let v := pairS fun p => { p with peerUp := true, select := true, quiet := 16, follower := true, aligned := true, tx := some (3, List.replicate 128 1, 0) }
    let e := pairS fun p => { p with peerUp := true, select := true, tx := some (3, List.replicate 128 1, 128) }
    let ok : PeerHello := ⟨2, 5, 1, 0⟩
    (∀ x ∈ [dn, u, v, e], settled x ∧ peerRuns x = true) ∧ dn.pai.peerUp = false ∧ helloOk dn { ok with proto := 2 } = false ∧ helloOk dn ok = true ∧
      15 ≤ dn.pai.helloRun ∧ (pairS id).pai.helloRun + 1 < 16 ∧ u.pai.peerUp = true ∧ u.pai.handover = false ∧ u.pro.conn = 0 ∧
      peer0.connect = 0 ∧ u.pai.select = false ∧ peer0.select = true ∧ u.pro.inReset = false ∧ (0xBE : Byte).toNat % 4 ≠ 3 ∧
      split u ((0xBE : Byte).toNat / 4) = true ∧ (u.port 47).link = 2 ∧ (u.pos 47 2).present = true ∧
      (le 2 16001 ++ List.replicate 44 (0 : Byte)).length = 46 ∧ leNat (slice (le 2 16001 ++ List.replicate 44 0) 0 2) = u.smp.instant % 65536 ∧
      u.smp.started = true ∧ frameClosed u = false ∧ (u.pos 47 2).got = none ∧ (u.xr 11).down = false ∧ u.pai.buf.num = 3 ∧ u.pai.buf.num ≠ 4 ∧
      u.pai.buf.data ≠ [] ∧ u.pai.mapMatch = true ∧ bufferBytes 1 u.pai.buf.data = some [1] ∧ (iSel v).isSome = true ∧ v.pai.select = true ∧
      v.pai.tx = some (3, List.replicate 128 1, 0) ∧ e.pai.tx = some (3, List.replicate 128 1, 128) ∧ (pairS id).pai.quiet < 16 ∧
      16 ≤ v.pai.quiet := by decide +kernel

theorem witness_PeerFramesCarryTimeChannelsAndEpochs_mirror :
    let u := pairS fun p => { p with peerUp := true }
    let v := withPro (fun p => { p with armed := false }) u
    settled u ∧ peerRuns u = true ∧ mirrorOk u = true ∧ settled v ∧ peerRuns v = true ∧ mirrorOk v = false := by decide +kernel

theorem witness_SelectMovesThePair :
    let n := pairS fun p => { p with peer := some peer0 }
    let h := pairS fun p => { p with select := true, handover := true }
    let d := ctlAt (fun c => { c with state := 3, enable := true }) (pairS fun p => { p with select := true })
    let z := ctlAt (fun c => { c with state := 5 }) (pairS fun p => { p with peer := some { peer0 with ctlState := 4 } })
    hasPai n = true ∧ (∀ x ∈ [n, h, d, z], settled x ∧ peerRuns x = true) ∧ n.pai.select = false ∧ peer0.connect = n.pro.conn ∧ hasCtl n = true ∧
      n.ctl.state ≠ 5 ∧ z.ctl.state = 5 ∧ h.pai.select = true ∧ h.pai.handover = true ∧ d.pai.select = true ∧ d.pai.handover = false ∧
      engineRuns d = true ∧ d.pwr.target = none ∧ d.ctl.state = 3 ∧ d.pro.conn = 0 := by decide +kernel

/-- The arbiter: nobody, this module, or the other one holds SELECT; the other module is fit or not; a breath is lost. -/
theorem witness_SelectMovesThePair_arbiter :
    let a (x : Arb) := { pairS id with arb := x }
    let none_ := a {}
    let own := a { holder := 1, fitA := true, fitB := true, longA := true, longB := true }
    let gap := a { holder := 0, next := 2, fitB := true }
    let alone := a { holder := 2, fitB := true }
    (∀ x ∈ [none_, own, gap, alone], settled x ∧ hasPai x = true ∧ role x = 1) ∧ none_.arb.holder = 0 ∧ none_.arb.next = 0 ∧
      own.arb.holder = roleNum .A ∧ own.arb.long (3 - roleNum .A) = true ∧ own.arb.holder ≠ roleNum .B ∧ own.arb.holder = role own ∧
      gap.arb.next ≠ 0 ∧ alone.arb.holder = roleNum .B ∧ alone.arb.long (3 - roleNum .B) = false ∧ breathLost { m := .B, noBreath := true } (roleNum .B) alone = true ∧
      alone.arb.holder ≠ role alone := by decide +kernel

/-! ### Witnesses: recorder, health, crossings, monitor units -/

def recOf (i code src : Nat) : Record :=
  { index := i, pcyc := 0, optime := 0, flags := 0, instant := 0, code := code, source := src, cls := 2, data := [] }

def recs (f : Rec → Rec) : State := { live 3 with recd := f State.reset.recd }

theorem witness_RecorderAcceptsFoldsLosesAndFlushes :
    let ev : RecEv := ⟨5, 0x0801, 1, [], 0⟩
    let s := recs fun d => { d with inq := [ev] }
    let g := recs fun d => { d with inq := [ev], ring := [recOf 0 0x0801 1], due := true }
    let full := recs fun d => { d with inq := [ev], ring := List.replicate 255 (recOf 0 0x0901 2) }
    let l := recs fun d => { d with inq := [ev], lostOpen := true }
    let fl := recs fun d => { d with flushing := true, taken := 1, ring := [recOf 0 0x0801 1] }
    let sn := inForce { conf0 with classes := List.replicate 8 { regs := [0x80008] } } (recs fun d => { d with snaps := [(5, 2)], markDue := true })
    (∀ x ∈ [s, g, full, l, fl, sn], settled x ∧ recRuns x = true ∧ x.upl.holdup ≠ 3) ∧ s.recd.inq = [ev] ∧
      (s.cfg.recClass (classOf ev.code)).enable = true ∧ s.recd.lostOpen = false ∧ s.recd.ring.length < 255 ∧ newest s = none ∧ newest g = some 0 ∧
      g.recd.ring[0]? = some (recOf 0 0x0801 1) ∧ neverFolds ev.code = false ∧ 255 ≤ full.recd.ring.length ∧ l.recd.lostOpen = true ∧
      g.recd.flushing = false ∧ g.recd.due = true ∧ fl.recd.flushing = true ∧ fl.recNv.records.length < 786432 ∧ fl.recd.taken ≤ 1 ∧
      spcUp sn = true ∧ sn.recd.snaps = [(5, 2)] ∧ (sn.cfg.recClass 2).regs.length = 1 ∧ sn.recd.markDue = true ∧
      (sn.cfg.recClass 7).enable = true ∧ (modUpl (fun u => { u with holdup := 3 }) s).upl.holdup = 3 := by decide +kernel

theorem witness_HealthRoundsErrorsAndCrossings :
    let s := live 3
    let x (n : Nat) (f : Xrec → Xrec) (s : State) : State := { s with xng := { s.xng with xrec := s.xng.xrec.set n (f (s.xr n)) } }
    let v := x 0x1F (fun r => { r with fly := some (.throttle 1 2 true) }) (x 0x12 (fun r => { r with fly := some (.derate 3 4) })
      (x 0x10 (fun r => { r with fly := some (.sop 1 2 3) }) s))
    let p := x 0x29 (fun r => { r with accs := [{ fly := 2, acc := 1 }] }) s
    let d := { s with lcy := { s.lcy with spcInReset := true } }
    let n := (sharedBy s 2).headD 0
    let h := x n (fun r => { r with down := true }) s
    recRuns s = true ∧ s.hkp.temp.length = 6 ∧ s.hkp.slevel.length = 6 ∧ hkpReading none = none ∧ (hkpReading (some 2500)).isSome = true ∧
      s.cfg.sensRate 5 = false ∧ settled s ∧ alive s = true ∧ (∀ k ∈ [0x10, 0x12, 0x1F], xngPresent v k = true ∧ (v.xr k).down = false ∧
        (v.xr k).fly.isSome = true) ∧ (sampling v = true ∧ v.smp.started = true) ∧ sampling (up 1) = false ∧ settled p ∧ xngPresent p 0x29 = true ∧ (p.xr 0x29).accs.length ≤ 24 ∧ islandInReset d 2 = true ∧
      n < d.xng.xrec.length ∧ d.xng.told.contains 2 = false ∧ islandInReset h 2 = false ∧ (h.xr n).down = true ∧ alive h = true ∧ h.pro.inReset = false ∧
      (∃ i ∈ List.range 17, islandPresent (up 1) i = true ∧ clockStopped (up 1) i = true ∧ (up 1).xng.woken.contains i = false) := by decide +kernel

/-- A unit in slot 143, a command slot with zeros, and a unit whose frame holds one in slot 2. -/
def withUnit (m : MUnit) : State := modUnit 143 (fun _ => m) (up 1)
def slotOfOpc (opc dst : Byte) (len : Nat) (d : Bytes) : LinkCmd := ⟨dst, 1, opc, len, fit 8 d⟩
def obeying (k : LinkCmd) (m : MUnit) : MUnit := { m with obey := true, slots := [k, k, k] }

theorem witness_UnitsObeyTheLinkCommands :
    let r : MUnit := { st := .running, addr := 0xBE, ident := { ident 1 with owCaps := 7 } }
    let a : MUnit := { st := .bootUnaddressed, addr := 0xFF, framePort := 47 }
    let k := slotOfOpc 0x40 0xBE 5 [1, 0, 5, 0, 1]
    let w := slotOfOpc 0x01 0xFE 1 [0xBE]
    (∀ m ∈ [obeying k r, obeying w a, r], settled (withUnit m) ∧ (withUnit m).unit (slotOf 47 2) = m) ∧
      (r.slots[2]?).map LinkCmd.opc ≠ some 0x40 ∧ (obeying k r).slots[2]? = some k ∧ addressed r = true ∧ r.obey = false ∧ addressed a = false ∧
      k.dst = r.addr ∧ r.lastOwn.map Resp.cseq ≠ some k.cseq ∧ (obeying w a).slots[2]? = some w ∧ w.dst = 0xFE ∧
      (w.data.getD 0 0).toNat / 4 = a.framePort ∧ (0xBC : Byte).toNat / 4 = 47 ∧ (0xBB : Byte).toNat / 4 ≠ a.framePort := by decide +kernel

/-- Its operands, each at a value that its rule accepts and at one that it refuses. -/
theorem witness_UnitsObeyTheLinkCommands_operands :
    let r : MUnit := { st := .running, addr := 0xBE, ident := { ident 1 with owCaps := 7 } }
    let l : MUnit := { r with st := .loading, loadLen := 3, segs := [(0, [1, 2, 3])], loadCrc := crc32 [1, 2, 3] }
    let k := slotOfOpc 0x40 0xBE 5 [1, 0, 5, 0, 1]
    missing l = [] ∧ missing { l with segs := [] } ≠ [] ∧ l.loadCrc = crc32 (heldImage l) ∧ l.loadCrc ≠ 0 ∧
      r.ident.owCaps.getLsbD ((k.data.getD 3 0).toNat % 4) = true ∧ (k.data.getD 3 0).toNat % 4 ≠ 3 ∧ k.data.getD 4 0 ≠ 0 ∧ r.ow = none ∧
      r.stopFrame = false ∧ r.hot = false ∧ leNat (slice k.data 2 2) ≠ 0 ∧ r.addr ≠ 0xFF ∧ r.lastAll ≠ some 1 ∧
      (∃ e ∈ [Resp.mk 1 0x22 0 []], e.cseq = k.cseq) ∧ adjacentIn 3 = true ∧ adjacentIn 5 = false := by decide +kernel

theorem witness_UnitFramesSamplesAndTimeouts :
    let t : OwTest := { wires := 1, code := 0, pol := false, left := 0, cseq := 1 }
    let r : MUnit := { st := .running, addr := 0xBE, obey := true, chain := 3, timers := (List.replicate 16 none).set 15 (some 62500) }
    let o : MUnit := { r with ow := some t }
    let z : MUnit := { r with resetDue := true }
    let l : MUnit := { r with st := .loading, loadLen := 352 }
    let g : MUnit := { l with starting := true }
    let e : MUnit := { r with echo := some .S, edgeN := true }
    (∀ m ∈ [r, o, z, l, g, e, ({} : MUnit)], settled (withUnit m) ∧ (withUnit m).unit (slotOf 47 2) = m) ∧ ({} : MUnit).st = .sleep ∧
      addressed r = true ∧ addressed ({} : MUnit) = false ∧ r.st ≠ .sleep ∧ r.resetDue = false ∧ z.resetDue = true ∧ r.st = .running ∧ r.cad ≠ 3 ∧
      r.ow = none ∧ r.echo = none ∧ e.echo = some .S ∧ e.edgeN = true ∧ r.resp.head?.map Resp.opc ≠ some 0x01 ∧
      r.timers.getD 15 none = some 62500 ∧ 62500 ≤ r.clock + tCad r.cad ∧ (r.timers.getD 14 none).isNone = true ∧ o.ow = some t ∧ t.left = 0 ∧
      g.st = .loading ∧ g.starting = true := by decide +kernel

/-- The frames of its downstream windows: port 47 and another, an unknown opcode, a last BULK segment and an image that ends in front of its end. -/
theorem witness_UnitFramesSamplesAndTimeouts_frames :
    let d := (downBytes .S 0 77 2 47 [⟨0xBE, 5, 0x22, [1]⟩]).take 20
    let b := (bulkBytes .N 0xBE 5 (List.replicate 52 9)).take 60
    hearLast (downOf .S 77 2 47 [⟨0xBE, 5, 0x22, [1]⟩]) = some (.frame d) ∧
      (∃ f, downIn d = some f ∧ f.cad < 4 ∧ f.port = 47 ∧ f.flags.getLsbD 1 = true ∧ f.slots = [⟨0xBE, 5, 0x22, 1, fit 8 [1]⟩]) ∧
      (∃ f, downIn ((downBytes .N 4 77 0 9 []).take 8) = some f ∧ 4 ≤ f.cad ∧ f.port ≠ 47) ∧ (0x22 : Byte).toNat ∈ linkOpcodes ∧
      (0x60 : Byte).toNat ∉ linkOpcodes ∧ windowFrames (heardBits [1]) ≠ [] ∧ windowFrames [] = [] ∧ hearLast [] = none ∧
      hearLast (heardBits (bulkBytes .N 0xBE 5 (List.replicate 52 9))) = some (.frame b) ∧ (b.getD 0 0) >>> 4 = 3 ∧ b.getD 1 0 = 0xBE ∧
      leNat (slice b 2 2) = 5 ∧ (slice b 8 (leNat (slice b 4 2))).length = 52 ∧ 176 * 5 + 52 ≤ 932 ∧ 931 < 176 * 5 + 52 := by
  refine ⟨by decide +kernel, ⟨_, rfl, by decide +kernel⟩, ⟨_, rfl, by decide +kernel⟩, ?_⟩
  decide +kernel

/-- The timeouts run from the last reference edge: up to it they are cancelled, from it on they act (R103). -/
theorem witness_UnitFramesSamplesAndTimeouts_edges :
    (∀ n ∈ [8000000, 100000000, 10000000000], edgeLost n { clock := n - 62500 } = true ∧ edgeLost n { clock := n - 62501 } = false ∧
      edgeLost n { clock := 2 * n, edgeAt := 2 * n } = false) := by decide +kernel

/-! ### Results of single steps, taken from the spec -/

/-- R46: the CRC-32 of Ethernet, by its published check value. -/
theorem test_crc : crc32 [0x31, 0x32, 0x33, 0x34, 0x35, 0x36, 0x37, 0x38, 0x39] = 0xCBF43926 := by decide +kernel

/-- No row of the table gives bits: no word is a command, and placing one changes nothing. -/
theorem test_no_word_is_a_command : decodeTableWord 16 0x0101 = none ∧ (State.reset.withFetchWord 16 0x0101).pending = [] := by decide +kernel

/-- R345, Table 11.4: bytes 14 and 15 of IDENT_GET are variant and life-cycle state. -/
theorem test_ident : (match (next (.identGet req) (host 0 (variant 2 (up 1)))).out with
    | [.response _ _ 0x0101 0 b] => slice b 14 2 | _ => []) = [2, 0] := by decide +kernel

/-- R264, Table 8.6: the connect sequence with WELD_CHECK begins with K3, both channels. -/
theorem test_connect : (next (.proConnect req) (told (host 1 (live 3)))).pro.kA = 0x4 ∧ (next (.proConnect req) (told (host 1 (live 3)))).pro.conn = 1 := by
  decide +kernel

/-- R242: the first function that opens is the one reported, and all channels are released. -/
theorem test_hw_oc : let t := next (.hwOc ⟨false, false, true⟩) (withPro (fun p => { p with kA := 3, kB := 3, conn := 5 }) (live 3))
    t.pro.firstCode = 0x11 ∧ released t = true ∧ t.pro.tripCnt = 1 := by decide +kernel

/-- R472: 60 V is within the rating, 60.001 V is not. -/
theorem test_feed : goes (exec (.feedBack .A 60000) (up 1)) = true ∧ goes (exec (.feedBack .A 60001) (up 1)) = false := by decide +kernel

/-- R106: a BLEED_SET of two adjacent inputs without ALLOW_ADJACENT is REJECTED with 0x05; with it both timers run. -/
theorem test_bleed_adjacent :
    let r : MUnit := { st := .running, addr := 0xBE, obey := true }
    let f (fl : Byte) := (next (.bleedSet 47 2 2) (withUnit (obeying (slotOfOpc 0x30 0xBE 5 [3, 0, 100, 0, fl]) r))).unit 143
    (f 0).resp.map Resp.stat = [0x05] ∧ (f 1).resp.map Resp.stat = [0x00] ∧ runMask (f 1) = 3 := by decide +kernel

/-- R88: a command of the wrong length is answered BAD_LENGTH. -/
theorem test_bad_length : ((next (.identRead 47 2 0) (withUnit (obeying (slotOfOpc 0x02 0xBE 2 [0]) { st := .running, addr := 0xBE }))).unit
    143).resp.map Resp.stat = [0x04] := by decide +kernel

/-- R43: low nibble first, 0 is 11110 and 1 is 01001. -/
theorem test_code_groups : byteGroups 0x10 = [0b11110, 0b01001] := by decide

/-- R88: an opcode that Table 3.3 does not list is answered UNKNOWN_OPCODE. -/
theorem test_unknown_opcode :
    ((next (.downFrame 47 2 ⟨.N, downOf .N 5 0 47 [⟨0xBE, 1, 0x60, []⟩]⟩) (withUnit { st := .running, addr := 0xBE })).unit 143).resp.map
      Resp.stat = [0x03] := by decide +kernel

/-- R48, Table 2.5: the unit at position 2 sends its block in slot 2 toward N and, of three, in slot 0 toward S. -/
theorem test_up_slots :
    let t := next (.unitSample 47 2 obs0) (withUnit { st := .running, addr := 0xBE, chain := 3, edgeN := true })
    t.out.map (fun o => match o with | .up _ _ _ _ l => l.map Prod.fst | _ => []) = [[125 + 2 * 675], [125]] := by decide +kernel

/-- R402: no signal of a module passes while nobody holds SELECT. -/
theorem test_stage : stageOut { driving 3 with arb := { other := { gate := true } } } = {} := by decide +kernel

/-- R67: half of the time on the ring less TURN (30 us on lane N, 45 us on lane S). -/
theorem test_echo :
    let s (l : Lane) := modPos 0 0 (fun x => { x with present := true, cmd := some (cmdOf 0x04) })
      (modPort 0 (fun x => { x with link := 1, svc := { phase := .measure, lane := l } }) (up 2))
    let rx := heardBits (echoBytes .N 0x00 7)
    ((next (.echoReceived 0 .N rx 0 30200000) (s .N)).pos 0 0).dlyN = some 100000 ∧
      ((next (.echoReceived 0 .S rx 0 45200000) (s .S)).pos 0 0).dlyS = some 100000 := by decide +kernel

/-- R126: an offset of 20 uV is taken, one beyond is not. -/
theorem test_zero_bounds :
    let f (v : Int) := (next .zeroDone (modSmp (fun m => { m with zeroRun := some { n := 16000, sh := 16000 * v } }) (live 2))).smp.shuntOfs
    f 20000 = some 20000 ∧ f 20001 = none := by decide +kernel

/-- R136: 100 V over the measured current, less the injector's and the bar's resistance. -/
theorem test_insulation : (next (.insCycleEnd ⟨25000000, -25000000, 5, 800000, 800000, 1, 1⟩)
    (modIns (fun m => { m with mode := 2, closedMode := 2 }) (live 3))).ins.rIso = 990000 := by decide +kernel

/-- R24: a tick frame beyond the skips is held, counted and flagged. -/
theorem test_tick_skip : let s := modSmp (fun m => { m with ticks := [{ num := 5, span := 1 }] }) { live 3 with est := { State.reset.est with skipLeft := 1, throttle := (2, 1, false) } }
    (next .estimatorTick s).est.skipCnt = 1 ∧ (next .estimatorTick s).est.skipLeft = 0 ∧ ((next .estimatorTick s).event 8).flags = 0x40 := by decide +kernel

/-- R434, R203: a window that closes while one is pending abandons the pending one. -/
theorem test_window_abandoned :
    let s := modSmp (fun m => { m with timeNs := 20000000000 }) (modImp (fun m => { m with
      last := some 1, pend := some { close := 10000000000, win := 1, segs := [], steps := [], cadence := 0 } }) (live 3))
    ((next .windowClose s).event 9).flags.getLsbD 7 = true ∧ (next .windowClose s).imp.pend.map WinRun.close = some 20000000000 := by decide +kernel

/-- R268: a disconnect ramps both limits down before the contactors open. -/
theorem test_disconnect : let s := told (host 1 (withPro (fun p => { p with conn := 5, kA := 3, kB := 3, iCh := 5, iDis := 5 }) (live 3)))
    (next (.proDisconnect req) s).pro.iCh = 0 ∧ (next (.proDisconnect req) s).pro.conn = 6 ∧ (next (.proDisconnect req) s).pro.kA = 3 := by decide +kernel

/-- R278: a gate-driver fault of a driving engine: FAULT with the stage off, no RAMP. -/
theorem test_gd_fault : (next .gdFault (driving 3)).ctl.state = 6 ∧ (next .gdFault (driving 3)).ctl.fault = 1 ∧ stageOff (next .gdFault (driving 3)) = true := by
  decide +kernel

/-- R295: a period of 4 kHz is bad, one of 50 kHz gives its frequency. -/
theorem test_chanter : let s := ctlAt (fun c => { c with edgeSeen := true, src := 1 }) (driving 3)
    (next (.chanterEdge true 250000000) s).ctl.chBad = 1 ∧ (next (.chanterEdge true 20000000) s).ctl.validRun = 1 := by decide +kernel

/-- R322: the lowest free context is reserved, with the next generation. -/
theorem test_hello : let t := next (.hello ⟨true, 0, 3, key32, key32, {}⟩) (sessIn 1 { gen := 0xFF } (sessIn 0 { opened := true } (up 1)))
    (t.sess 1).half = true ∧ (t.sess 1).gen = 0 := by decide +kernel

/-- R330: a stream record carries at most 174 words. -/
theorem test_stream : let t := next (.streamRecordSend 0 none true) (modQ 0 (fun q => { q with bound := true, head := List.replicate 200 (1, true) }) (host 1 (up 1)))
    (t.queue 0).held = 26 ∧ (t.queue 0).rseq = 1 ∧ (t.queue 0).windex = 174 := by decide +kernel

/-- R333: an uncorrectable word takes its item with it; the next item is sent. -/
theorem test_stream_flaw : let t := next (.streamRecordSend 0 (some (1, false)) true) (modQ 0 (fun q => { q with bound := true, head := [(1, true), (2, false), (3, true)] }) (host 1 (up 1)))
    (t.queue 0).unc = 1 ∧ (t.queue 0).cause = 3 ∧ (t.queue 0).windex = 3 ∧ t.out = [.stream 0 0 1 2 0 [3]] := by decide +kernel

/-- R313: the second copy of a frame is dropped and counted. -/
theorem test_prp : let f : EthFrame := ⟨5, 64, none, some (1, 11), true, .other⟩
    let s := modUpl (fun u => { u with nodes := [{ mac := 5, seen := [(1, 0)] }] }) (linked (up 1))
    (next (.ethernetFrameReceived .B f) s).upl.cnt = [0, 1, 0, 0, 1, 0, 0, 0, 0, 0] := by decide +kernel

/-- R387: a transition to OPERATED from SERVICE closes every session. -/
theorem test_lcy_set : let s := told (host 3 (modNv (fun n => { n with lcy := 3 }) (up 1)))
    (next (.lcySet req 2 (BitVec.ofNat 32 s.fac.serial)) s).nv.lcy = 2 ∧
      ((next (.lcySet req 2 (BitVec.ofNat 32 s.fac.serial)) s).sess 0).opened = false ∧ answer (.lcySet req 0 0) s ≠ 0 := by decide +kernel

/-- R424: SELECT goes to the other module when its holder is not fit and the other one has been fit for 10 ms. -/
theorem test_arbiter : let s (b : Bool) := { pairS id with arb := { holder := 1, fitA := true, fitB := true, longA := true, longB := b } }
    (next (.arbiterNotFit { m := .A }) (s true)).arb.holder = 0 ∧ (next (.arbiterNotFit { m := .A }) (s true)).arb.next = 2 ∧
      (next (.arbiterNotFit { m := .A }) (s false)).arb.next = 0 := by decide +kernel

/-- R404: 16 good HELLO in a row bring PEER up, the 16th one alone. -/
theorem test_hello_peer : let f (n : Nat) := (next (.peerHello ⟨2, 5, 1, 0⟩) (pairS fun p => { p with helloRun := n })).pai.peerUp
    f 14 = false ∧ f 15 = true := by decide +kernel

/-- R452: a record takes the next index. -/
theorem test_record : let t := next .recEvent { recs (fun d => { d with inq := [⟨5, 0x0801, 1, [], 0⟩] }) with recNv := { State.reset.recNv with next := 41 } }
    t.recd.ring.map Record.index = [41] ∧ t.recNv.next = 42 := by decide +kernel

/-- R464: a bad sensor is level 1; the module's level is the largest. -/
theorem test_health : let t := next (.housekeepingRound [none, some 2500, some 2500, some 2500, some 2500, some 2500]) (live 3)
    t.hkp.slevel = [1, 0, 0, 0, 0, 0] ∧ t.hkp.level = 1 := by decide +kernel

/-- R437: a flag that hardware sets in the cycle in which it is cleared stays set and counts. -/
theorem test_event_clear : let s := host 2 { up 1 with ev := State.reset.ev.set 6 { flags := 3 } }
    ((next (.eventFlagClear req 6 3 1) s).event 6).flags = 1 ∧ ((next (.eventFlagClear req 6 3 1) s).event 6).cnt = 1 := by decide +kernel

/-- An empty queue idles (DESIGN CHOICE, log entry 3). -/
theorem test_idle : step (up 1) = .next (up 1) := rfl

/-- Module B of a pair that samples a split port with a loaded unit. -/
def standbyB : State :=
  let c : Cfg := { place0 with pair := some ⟨2, 0, 0, 0⟩ }
  modPort 0 (fun x => { x with link := 2, pos := x.pos.modify 0 fun y => { y with present := true, loaded := true, ageS := 0 } })
    { up 3 with cfg := c, cfgPro := c, cfgEst := c }

/-- The active module's frame to port 0 as the standby receives it. -/
def heard0 : DownIn := { lane := .N, cad := 0, instant := 0, flags := 0, port := 0, slots := [] }

/-- R231: the standby notes the BLEED_SET it hears, and records nothing before the answer. -/
theorem test_standby_hears_a_bleed :
    let s := heardFrame 0 { heard0 with slots := [⟨0, 3, 0x30, 5, fit 8 [1, 0, 200, 0, 0]⟩] } standbyB
    s.bal.sent = [⟨0, 1, 200, 0⟩] ∧ (s.bal.recs.getD 0 {}).ends = none := by decide +kernel

/-- R223: with the answer DONE the record runs from the instant of that BLEED_SET, for its 2 s. -/
theorem test_standby_records_a_bleed :
    ((bleedAnswer 0 true (modBal (fun b => { b with sent := [⟨0, 1, 200, 0⟩] }) standbyB)).bal.recs.getD 0 {}).ends = some 2000000000 := by
  decide +kernel

/-- R263, R101: the standby knows the pass from the OW_TEST it heard. -/
theorem test_standby_hears_a_pass :
    let s := heardFrame 0 { heard0 with slots := [⟨0, 3, 0x40, 5, fit 8 [2, 0, 0, 0x81, 9]⟩] } standbyB
    (s.owU 0).pass = some (2, true) ∧ (s.owU 0).since = some 0 := by decide +kernel
/-! ### An image that every check admits: S24E, one model, no group mapped -/

def port0 : Bytes := [0, 1, 0x4A, 0x01, 0, 0, 0, 0]
def slot0 : Bytes := [0, 0, 0xE8, 3, 0x6B, 0x0D, 0, 0]
def group0 : Bytes := 0xFF :: List.replicate 23 0
def axis : Bytes := (List.range 64).flatMap fun n => le 2 (min 10000 (159 * n))
def curve : Bytes := (List.range 64).flatMap fun n => le 2 (30000 + 100 * n)
def secModels : Bytes :=
  axis ++ (le 2 0 ++ (le 2 2500 ++ (le 2 5000 ++ ([0, 0] ++ (curve ++ (curve ++ (curve ++ (curve ++ (curve ++ (curve ++
    List.replicate 408 0))))))))))
def secSmp : Bytes := le 8 0 ++ le 8 0 ++ le 8 1000000
def secPro : Bytes :=
  ([1000000000, 3750000000, 2500000000, 3, 3, 3550000000, 3650000000, 2900000000, 2700000000, 338150000000, 323150000000,
    273150000000, 253150000000, 1, 2500000000000, 50000000, 0, 2000000000, 2000000000, 3000000000, 3000000000, 4000000000] : List Nat).flatMap
    (le 8)
def secPorts : Bytes := (List.replicate 48 port0).flatten
def secSlots : Bytes := (List.replicate 144 slot0).flatten
def secGroups : Bytes := (List.replicate 768 group0).flatten
def imgHead : Bytes :=
  imgMagic ++ le 4 0x00010000 ++ le 4 1 ++ le 4 21596 ++ le 2 6 ++ List.replicate 46 0 ++
    ([(1, 384), (2, 1152), (3, 18432), (4, 1312), (0x10, 24), (0x14, 176)] : List (Nat × Nat)).flatMap fun e => le 4 e.1 ++ le 4 e.2
def imgRest : Bytes := secPorts ++ (secSlots ++ (secGroups ++ (secModels ++ (secSmp ++ secPro))))
def img : Bytes := imgHead ++ (imgRest ++ leW (crc32 (imgHead ++ imgRest)))

theorem slice_skip (a b : Bytes) (n k m : Nat) (h : a.length = n) (hk : n ≤ k) : slice (a ++ b) k m = slice b (k - n) m := by
  subst h; simp [slice, List.drop_append, List.drop_eq_nil_of_le hk]

theorem slice_head (a b : Bytes) (m : Nat) (h : a.length = m) : slice (a ++ b) 0 m = a := by
  subst h; simp [slice]

theorem slice_within (a b : Bytes) (k m : Nat) (h : k + m ≤ a.length) : slice (a ++ b) k m = slice a k m := by
  simp only [slice, List.drop_append_of_le_length (Nat.le_trans (Nat.le_add_right k m) h)]
  rw [List.take_append_of_le_length]; simp; omega

theorem pieces_flatten (n : Nat) (e : Bytes) (h : e.length = n) (k : Nat) :
    pieces n k (List.replicate k e).flatten = List.replicate k e := by
  subst h
  induction k with
  | zero => rfl
  | succ k ih => simp [pieces, List.replicate_succ, ih]

theorem len_head : imgHead.length = 112 := by decide +kernel
theorem len_blocks (k : Nat) (e : Bytes) : (List.replicate k e).flatten.length = k * e.length := by
  induction k with
  | zero => simp
  | succ k ih => rw [List.replicate_succ, List.flatten_cons, List.length_append, ih, Nat.succ_mul, Nat.add_comm]

theorem len_ports : secPorts.length = 384 := len_blocks 48 port0
theorem len_slots : secSlots.length = 1152 := len_blocks 144 slot0
theorem len_groups : secGroups.length = 18432 := len_blocks 768 group0
theorem len_models : secModels.length = 1312 := by decide +kernel
theorem len_smp : secSmp.length = 24 := by decide +kernel
theorem len_pro : secPro.length = 176 := by decide +kernel
theorem len_rest : imgRest.length = 21480 := by
  simp only [imgRest, List.length_append, len_ports, len_slots, len_groups, len_models, len_smp, len_pro]
theorem len_leW (w : Word) : (leW w).length = 4 := by simp [leW, le]
theorem len_img : img.length = 21596 := by simp only [img, List.length_append, len_head, len_rest, len_leW]

theorem leNat_leW (w : Word) : BitVec.ofNat 32 (leNat (leW w)) = w := by
  apply BitVec.eq_of_toNat_eq
  have := w.isLt
  simp [leW, le, leNat, List.range_succ]
  omega

theorem img_crc : crc32 (img.take (21596 - 4)) = BitVec.ofNat 32 (u32At img (21596 - 4)) := by
  have h : (imgHead ++ imgRest).length = 21592 := by simp only [List.length_append, len_head, len_rest]
  have e : img = (imgHead ++ imgRest) ++ leW (crc32 (imgHead ++ imgRest)) := by simp only [img, List.append_assoc]
  have l : (leW (crc32 (imgHead ++ imgRest))).length = 4 := len_leW _
  rw [u32At, e, slice_skip _ _ 21592 _ _ h (by omega), show 21596 - 4 - 21592 = 0 from rfl, List.take_append_of_le_length (by omega),
    List.take_of_length_le (by omega), slice, List.drop_zero, List.take_of_length_le (by omega), leNat_leW]

theorem img_entries : imgEntries img = ([(1, 384), (2, 1152), (3, 18432), (4, 1312), (0x10, 24), (0x14, 176)] : List (Nat × Nat)).map
    fun e => le 4 e.1 ++ le 4 e.2 := by decide +kernel

theorem img_formed : imgFormed img = true := by
  unfold imgFormed sectionsEnd
  simp only [len_img, img_crc, img_entries, beq_self_eq_true]
  decide +kernel

def imgList : List (Nat × Bytes) := [(1, secPorts), (2, secSlots), (3, secGroups), (4, secModels), (0x10, secSmp), (0x14, secPro)]

theorem img_sections : imgSections img = imgList := by
  have c : imgCount img = 6 := by decide +kernel
  have s1 : slice img 112 384 = secPorts := by
    rw [img, slice_skip _ _ 112 _ _ len_head (by omega), imgRest, List.append_assoc]; exact slice_head _ _ _ len_ports
  have s2 : slice img 496 1152 = secSlots := by
    rw [img, slice_skip _ _ 112 _ _ len_head (by omega), imgRest, List.append_assoc, slice_skip _ _ 384 _ _ len_ports (by omega),
      List.append_assoc]; exact slice_head _ _ _ len_slots
  have s3 : slice img 1648 18432 = secGroups := by
    rw [img, slice_skip _ _ 112 _ _ len_head (by omega), imgRest, List.append_assoc, slice_skip _ _ 384 _ _ len_ports (by omega),
      List.append_assoc, slice_skip _ _ 1152 _ _ len_slots (by omega), List.append_assoc]; exact slice_head _ _ _ len_groups
  have s4 : slice img 20080 1312 = secModels := by
    rw [img, slice_skip _ _ 112 _ _ len_head (by omega), imgRest, List.append_assoc, slice_skip _ _ 384 _ _ len_ports (by omega),
      List.append_assoc, slice_skip _ _ 1152 _ _ len_slots (by omega), List.append_assoc,
      slice_skip _ _ 18432 _ _ len_groups (by omega), List.append_assoc]; exact slice_head _ _ _ len_models
  have s5 : slice img 21392 24 = secSmp := by
    rw [img, slice_skip _ _ 112 _ _ len_head (by omega), imgRest, List.append_assoc, slice_skip _ _ 384 _ _ len_ports (by omega),
      List.append_assoc, slice_skip _ _ 1152 _ _ len_slots (by omega), List.append_assoc,
      slice_skip _ _ 18432 _ _ len_groups (by omega), List.append_assoc, slice_skip _ _ 1312 _ _ len_models (by omega), List.append_assoc]
    exact slice_head _ _ _ len_smp
  have s6 : slice img 21416 176 = secPro := by
    rw [img, slice_skip _ _ 112 _ _ len_head (by omega), imgRest, List.append_assoc, slice_skip _ _ 384 _ _ len_ports (by omega),
      List.append_assoc, slice_skip _ _ 1152 _ _ len_slots (by omega), List.append_assoc,
      slice_skip _ _ 18432 _ _ len_groups (by omega), List.append_assoc, slice_skip _ _ 1312 _ _ len_models (by omega), List.append_assoc,
      slice_skip _ _ 24 _ _ len_smp (by omega)]
    exact slice_head _ _ _ len_pro
  have k (n : Nat) (h : n < 2 ^ 32) : leNat (le 4 n) = n := by simp [le, leNat, List.range_succ]; omega
  have u (a b : Nat) (ha : a < 65536) (hb : b < 2 ^ 32) : u16At (le 4 a ++ le 4 b) 0 = a ∧ u32At (le 4 a ++ le 4 b) 4 = b := by
    simp [u16At, u32At, slice, le, leNat, List.range_succ]; omega
  unfold imgSections
  rw [c, img_entries]
  simp only [List.map, takeSections, u 1 384 (by omega) (by omega), u 2 1152 (by omega) (by omega), u 3 18432 (by omega) (by omega),
    u 4 1312 (by omega) (by omega), u 16 24 (by omega) (by omega), u 20 176 (by omega) (by omega), pad4, Nat.reduceMul, Nat.reduceAdd,
    Nat.reduceDiv, s1, s2, s3, s4, s5, s6, imgList]

def imgCfg : Cfg :=
  { version := 1, ports := List.replicate 48 (portEntry port0), slots := List.replicate 144 (slotEntry slot0)
    groups := List.replicate 768 (groupEntry group0), models := [modelOf secModels], smp := scalars secSmp, pro := scalars secPro
    classes := [], net := { ip4Mode := 1 } }

theorem img_cfg : cfgOf img = imgCfg := by
  have v : imgVersion img = 1 := by decide +kernel
  unfold cfgOf
  rw [img_sections, v]
  have g (i : Nat) (x : Bytes) (h : (imgList.find? fun e => e.1 == i).map Prod.snd = some x) : sectionOf imgList i = some x := h
  have z (i : Nat) (h : (imgList.find? fun e => e.1 == i) = none) : sectionOf imgList i = none := by simp [sectionOf, h]
  simp only [g 1 secPorts rfl, g 2 secSlots rfl, g 3 secGroups rfl, g 4 secModels rfl, g 0x10 secSmp rfl, g 0x14 secPro rfl, z 5 rfl, z 6 rfl,
    z 7 rfl, z 0x11 rfl, z 0x12 rfl, z 0x13 rfl, z 0x15 rfl, z 0x20 rfl, z 0x21 rfl, z 0x22 rfl, Option.getD_some, Option.getD_none,
    Option.isSome_none, len_models]
  have p1 : pieces 8 48 secPorts = List.replicate 48 port0 := pieces_flatten 8 port0 rfl 48
  have p2 : pieces 8 144 secSlots = List.replicate 144 slot0 := pieces_flatten 8 slot0 rfl 144
  have p3 : pieces 24 768 secGroups = List.replicate 768 group0 := pieces_flatten 24 group0 rfl 768
  have p4 : pieces 1312 (1312 / 1312) secModels = [secModels] := by
    simp only [Nat.reduceDiv, pieces]; rw [List.take_of_length_le (Nat.le_of_eq len_models)]
  rw [p1, p2, p3, p4]
  simp only [List.map_replicate, List.map, imgCfg]
  rfl
theorem u16_part (b : Bytes) (off n m : Nat) (h : n + 2 ≤ m) : u16At b (off + n) = u16At (slice b off m) n := by
  simp only [u16At, slice, List.drop_take, List.drop_drop, List.take_take, Nat.min_eq_left (Nat.le_sub_of_add_le (Nat.add_comm n 2 ▸ h))]

/-- The voltages of every branch of the model. -/
def volts : List Nat := (List.range 64).map fun n => u16At curve (2 * n)

theorem branch_volts (off : Nat) (h : slice secModels off 128 = curve) : ((List.range 64).map fun n => u16At secModels (off + 2 * n)) = volts := by
  apply List.map_congr_left
  intro n hn
  rw [u16_part secModels off (2 * n) 128 (by have := List.mem_range.1 hn; omega), h]

theorem model_ocv : (modelOf secModels).ocv = List.replicate 3 (List.replicate 2 volts) := by
  have e (a b c : Nat) : a + b + c = (a + b) + c := rfl
  simp only [modelOf, show List.range 3 = [0, 1, 2] from rfl, show List.range 2 = [0, 1] from rfl, List.map, Nat.reduceMul, Nat.reduceAdd,
    branch_volts 136 (by decide +kernel), branch_volts 264 (by decide +kernel), branch_volts 392 (by decide +kernel),
    branch_volts 520 (by decide +kernel), branch_volts 648 (by decide +kernel), branch_volts 776 (by decide +kernel)]
  rfl

theorem img_model : modelOk (modelOf secModels) = true := by
  unfold modelOk
  rw [model_ocv]
  decide +kernel

def s24e : State := host 3 (variant 3 (up 1))

theorem firstBad_none (l : List (Option Bad)) (h : ∀ x ∈ l, x = none) : firstBad l = none := by
  simp only [firstBad, List.findSome?_eq_none_iff]; exact fun x hx => h x hx

theorem img_unmapped (g : Nat) : imgCfg.place g = none := by
  have : (imgCfg.group g).slot = none := by
    simp only [Cfg.group, imgCfg, List.getD_eq_getElem?_getD, List.getElem?_replicate]
    split <;> rfl
  simp only [Cfg.place, this, Option.map_none]

theorem img_values : checkValues s24e imgCfg = none := by
  apply firstBad_none
  have m : ∀ x ∈ (imgCfg.models.zipIdx.map fun e => badIf (!modelOk e.1) (bad stRange 0x0210 e.2)), x = none := by
    have : imgCfg.models.zipIdx = [(modelOf secModels, 0)] := rfl
    rw [this]; simp only [List.map, img_model]; decide
  have p : ∀ x ∈ ((List.range 768).map fun g => badIf (!placeOk s24e imgCfg g) (bad stRange 0x0211 g)), x = none := by
    intro x hx
    obtain ⟨g, -, rfl⟩ := List.mem_map.1 hx
    simp only [placeOk, img_unmapped]; rfl
  have b : ∀ x ∈ ((List.range (nPorts s24e)).map (checkBleed s24e imgCfg)), x = none := by
    have : ((List.range (nPorts s24e)).map (checkBleed s24e imgCfg)).all Option.isNone = true := by decide +kernel
    intro x hx; exact Option.isNone_iff_eq_none.1 (List.all_eq_true.1 this x hx)
  have r : ∀ x ∈ [badIf (!protectOk imgCfg) (bad stRange 0x0212)] ++ (((List.range 8).map fun b => badIf (!binOk imgCfg b) (bad stRange 0x0214 b)) ++
      ((imgCfg.banks.zipIdx.map fun e => badIf (decide (e.1.uMax ≤ e.1.uMin)) (bad stRange 0x0215 e.2)) ++
        [badIf (imgCfg.hasCtl && !controlOk imgCfg) (bad stRange 0x0215)])), x = none := by
    decide +kernel
  intro x hx
  simp only [List.mem_append, or_assoc] at hx r
  rcases hx with h | h | h | h | h
  · exact m x h
  · exact p x h
  · exact r x (.inl h)
  · exact b x h
  · exact r x (.inr h)

theorem img_form : checkForm s24e img = none := by
  have : imgFormat img = 0x00010000 := by decide +kernel
  unfold checkForm
  rw [img_formed, img_sections, this]
  decide +kernel
theorem img_presence : checkPresence s24e img = none := by
  unfold checkPresence
  rw [img_sections, img_cfg]
  decide +kernel
theorem img_items : checkItems s24e imgCfg imgList = none := by decide +kernel
theorem img_deadlines : checkDeadlines s24e imgCfg = none := by decide +kernel
theorem img_serial : imgSerial img = 0 := by decide +kernel
theorem img_structure : checkStructure s24e imgCfg = none := by decide +kernel

theorem admitted_of (s : State) (b : Bytes) (r : Bool) (c : Cfg) (l : List (Nat × Bytes)) (h1 : checkForm s b = none)
    (h2 : checkPresence s b = none) (hc : cfgOf b = c) (hl : imgSections b = l) (h3 : checkStructure s c = none)
    (h4 : s.nv.versionHigh < c.version) (h5 : imgSerial b = 0) (h6 : checkItems s c l = none) (h7 : checkValues s c = none)
    (h8 : checkDeadlines s c = none) : admission s b r = none := by
  have v : decide (c.version ≤ s.nv.versionHigh) = false := decide_eq_false (Nat.not_le.2 h4)
  unfold admission
  rw [h1, h2, hc, hl]
  simp only [h3, h5, h6, h7, h8, v, Bool.and_false]
  rfl

theorem img_newer : s24e.nv.versionHigh < imgCfg.version := Nat.zero_lt_one

theorem img_admitted (r : Bool) : admission s24e img r = none := by
  apply admitted_of s24e img r imgCfg imgList
  · exact img_form
  · exact img_presence
  · exact img_cfg
  · exact img_sections
  · exact img_structure
  · exact img_newer
  · exact img_serial
  · exact img_items
  · exact img_values
  · exact img_deadlines

/-- The bytes of a string with their offsets from `k` on. -/
def placed : Nat → Bytes → List (Nat × Byte)
  | _, [] => []
  | k, x :: r => (k, x) :: placed (k + 1) r

theorem placed_reads (b : Bytes) : ∀ k, (List.range' k b.length).map (fun o =>
    (((placed k b).find? fun e => e.1 == o).map Prod.snd).getD 0) = b := by
  induction b with
  | nil => intro k; rfl
  | cons x r ih =>
    intro k
    simp only [List.length_cons, List.range'_succ, List.map_cons, placed, List.find?_cons, beq_self_eq_true, Option.map_some, Option.getD_some]
    congr 1
    refine Eq.trans (List.map_congr_left ?_) (ih (k + 1))
    intro o ho
    have : (k == o) = false := beq_eq_false_iff_ne.2 (by have := (List.mem_range'.1 ho); omega)
    simp only [this]

/-- PENDING holds an image whole. -/
def pends (b : Bytes) (s : State) : State := { s with image := { len := b.length, opened := true, bytes := placed 0 b } }

theorem pending_is (b : Bytes) (s : State) : pendingBytes (pends b s) = b := by
  simp only [pendingBytes, pends, if_true, List.range_eq_range', placed_reads]

theorem admission_image (s : State) (x : Pending) (b : Bytes) (r : Bool) : admission { s with image := x } b r = admission s b r := rfl
theorem admission_previous (s : State) (p : Option Bytes) (b : Bytes) (r : Bool) :
    admission (modNv (fun n => { n with previous := p }) s) b r = admission s b r := rfl
theorem admitted_pends (r : Bool) : admission (pends img s24e) img r = none := (admission_image s24e _ img r).trans (img_admitted r)
theorem admitted_previous (r : Bool) : admission (modNv (fun n => { n with previous := some img }) s24e) img r = none :=
  (admission_previous s24e _ img r).trans (img_admitted r)

theorem witness_AdmissionCommitsTheImage :
    let s := pends img s24e
    let v := modNv (fun n => { n with previous := some img }) s24e
    (s.nv.lcy ≠ 4 ∧ stateOk [1, 2, 3, 4] s = true ∧ heard req 0x0303 2 s ∧ deferredBusy 0x0303 s = false ∧
      admission s (pendingBytes s) false = none) ∧
    heard req 0x0304 2 v ∧ deferredBusy 0x0304 v = false ∧ v.nv.previous = some img ∧ v.nv.prevStale = false ∧
      imgFormat img / 65536 = ownFormat v / 65536 ∧ admission v img true = none := by
  refine ⟨⟨by decide +kernel, by decide +kernel, by decide +kernel, by decide +kernel, ?_⟩, by decide +kernel, by decide +kernel, rfl, rfl,
    by decide +kernel, ?_⟩
  · rw [pending_is]
    exact admitted_pends false
  · exact admitted_previous true

theorem witness_RefusedImageLeavesTheSlots :
    let s := host 2 { up 1 with image := { len := 64, opened := true, bytes := [] } }
    s.nv.lcy ≠ 4 ∧ stateOk [1, 2, 3, 4] s = true ∧ heard req 0x0303 2 s ∧ deferredBusy 0x0303 s = false ∧
      admission s (pendingBytes s) false = some (bad stFormat 0x0001) := by decide +kernel

/-! ### Witnesses: further clauses -/

/-- A request whose turn it is, one whose answer is still to come, and one that waits behind another. -/
theorem witness_RequestStatusFollowsTheOrderOfJudgement_turn :
    let s := host 3 (up 1)
    let d := { s with ses := { s.ses with deferred := [{ op := 0x0801, ctx := 0, gen := 0, tag := 1 }] } }
    let w := { s with ses := { s.ses with waiting := [(0, 1)] } }
    nextUp req s = true ∧ unanswered req s = none ∧ nextUp req d = true ∧ unanswered req d = some 0x0801 ∧
      (d.sess 0).store.find? (fun e => e.tag == req.tag) = none ∧ nextUp req w = true ∧ nextUp ⟨0, 2, true⟩ w = false ∧
      nextUp req (modSess 0 (fun x => { x with store := [⟨1, 0x0103, 0, [9]⟩] }) s) = true := by decide +kernel

/-- Every group is on a unit that is there. -/
def held768 : State :=
  let s := host 2 (up 2)
  { s with
    cfg := { conf0 with groups := List.replicate 768 { slot := some 0, input := 0 } }
    prt := s.prt.modify 0 fun x => { x with pos := x.pos.modify 0 fun y => { y with present := true } } }

theorem witness_RangedReadsAnswerTheNamedPart_held : ∀ i ∈ List.range 256, groupHeld held768 (512 + i) = true := by
  intro i hi
  have : held768.cfg.place (512 + i) = some (0, 0) := by
    have : 512 + i < 768 := by have := List.mem_range.1 hi; omega
    simp only [Cfg.place, Cfg.group, held768, List.getD_eq_getElem?_getD, List.getElem?_replicate, this, if_true, Option.getD_some, Option.map_some]
  unfold groupHeld
  rw [this]
  decide +kernel

theorem witness_ranged_commands_held :
    settled held768 ∧ heard req 0x0501 0 held768 ∧ heard req 0x0503 0 held768 ∧ heard req 0x0504 0 held768 ∧ heard req 0x0603 0 held768 ∧
      (modPos 47 2 (fun x => { x with present := true }) (up 2)).posU 143 = { (up 2).posU 143 with present := true } ∧
      0x20 < (up 2).xng.xrec.length := by decide +kernel

/-- A record whose tag is not the one its key gives, and one of an unknown type. -/
theorem witness_SessionsCloseAndFreeTheirQueues_refused :
    ({ hdr 1 28 with known := false } : RecHdr).known = false ∧
      ∃ h : RecHdr, h.known = true ∧ h.len = 28 ∧ h.ctx = 0 ∧ h.gen = 0 ∧ h.seq = 1 ∧
        h.tag ≠ Config.gcmTag [] ([] ++ le 8 h.seq) (recordAad h 0x14) [] :=
  ⟨rfl, ⟨28, true, 0, 0, 1, Config.gcmTag [] ([] ++ le 8 1) (recordAad ⟨28, true, 0, 0, 1, 0, {}⟩ 0x14) [] + 1, {}⟩, rfl, rfl, rfl, rfl, rfl,
    fun h => absurd h (by simp [recordAad])⟩

/-- Two grandmasters, DHCPv4 in each state of its client, and the start of the link selection. -/
theorem witness_PtpFollowsItsLinks_dhcp :
    let m : Master := { gm := 7, cls := 6, acc := 0x21, steps := 1 }
    let n : Master := { m with gm := 8, prio1 := 1 }
    let s := modUpl (fun u => { u with sel := 1, ptpStarted := true, a := { u.a with master := some m } }) (linked (up 2))
    let d (k : Nat) := modUpl (fun u => { u with dhcp := k, offered := 9 }) (up 2)
    settled s ∧ alive s = true ∧ (uplink s .B).up = true ∧ (uplink s (otherLink .B)).master = some m ∧ n.gm ≠ m.gm ∧ n.prio1 < m.prio1 ∧
      n.domain = s.net.domain ∧ (up 2).upl.ptpStarted = false ∧ (d 1).net.ip4Mode = 1 ∧ (d 1).upl.dhcp = 1 ∧ (d 2).upl.dhcp = 2 ∧
      (d 2).upl.offered = 9 := by decide +kernel

theorem witness_FeedsAndHoldup_trip :
    let s := live 3
    s.pro.latched.getLsbD 0x1B = false ∧ (withPro (fun p => { p with latched := 0x8000000 }) s).pro.latched.getLsbD 0x1B = true := by decide +kernel

/-- A ring whose delays were measured in service cycles, and one of which they were not. -/
theorem witness_PortEventsJudgeRingLanesAndUnits_ring :
    let s := modPort 47 (fun x => { x with link := 2, ring := 1, goodRun := 16, ringService := some 5 }) (live 3)
    settled s ∧ (s.port 47).wasIncomplete = false ∧ split s 47 = false ∧ (s.port 47).ringService.isSome = true ∧ (s.port 47).returns = [] ∧
      ((live 3).port 47).ringService = none ∧ (s.port 47).pos.length = 3 ∧ 143 < s.bal.slots.length := by decide +kernel

theorem witness_ImpedanceRunsFramesStepsAndWindows_groups :
    let s := { live 3 with cfgWin := conf0 }
    hasImp s = true ∧ 0 ∈ s.cfgWin.mapped ∧ (s.cfgImp.group 0).slot.isSome = true ∧ 0x15 < s.xng.xrec.length ∧
      (s.imp.runDue = false ∨ s.imp.runFrom < 1) := by decide +kernel

theorem witness_BalancingRoundsEndAndTestsStart_waits :
    let k := reqTo 1 0 0 0x31 [1, 0]
    let s := modPort 0 (fun x => { x with waiting := [k] }) (live 3)
    (s.port 0).waiting.any (fun r => r.opc == 0x31 && r.dst == addrOf 0 0) = true ∧
      ((live 3).port 0).waiting.any (fun r => r.opc == 0x31 && r.dst == addrOf 0 0) = false := by decide +kernel

/-- CHANTER_LOST with and without an edge, with a valid period that is old. -/
theorem witness_ChanterTonesAndValleys_lost :
    let s := ctlAt (fun c => { c with edgeAt := 999990000, perAt := 5 }) (live 3)
    let late : Bool := decide (s.ctl.edgeAt + 200000 ≤ max s.smp.timeNs s.ctl.time + s.cfgCtl.tUpd)
    late = false ∧ decide (s.ctl.perAt + 500000 ≤ max s.smp.timeNs s.ctl.time + s.cfgCtl.tUpd) = true ∧
      decide ((live 3).ctl.edgeAt + 200000 ≤ max (live 3).smp.timeNs (live 3).ctl.time + (live 3).cfgCtl.tUpd) = true := by decide +kernel

/-- A holder's state that opens the string of the module that takes over, and an activation that waits for the hand-over. -/
theorem witness_SelectMovesThePair_opens :
    let o (c : Nat) := pairS fun p => { p with peer := some { peer0 with connect := c } }
    let a := pairS fun p => { p with select := true, handover := true, activate := true }
    let d := { a with ses := { a.ses with
      ctx := a.ses.ctx.set 0 { opened := true, role := 3 }
      deferred := [{ op := 0x0C02, ctx := 0, gen := 0, tag := 1 }, { op := 0x0A03, ctx := 0, gen := 0, tag := 2 }] } }
    (∀ c ∈ [2, 7], settled (o c) ∧ peerRuns (o c) = true ∧ (o c).pai.select = false ∧ tripped (o c) = false ∧ (o c).pro.conn = 0 ∧
      (o c).pro.aboveBreak = false ∧ (o c).pro.aboveNever = false) ∧ d.pai.activate = true ∧ (running 0x0C02 d).isSome = true ∧
      (running 0x0A03 d).isSome = true ∧ (d.sess 0).opened = true ∧ (d.sess 0).gen = 0 ∧
      ({ m := .B, long := false } : FitReport).long = false := by decide +kernel

theorem witness_HealthRoundsErrorsAndCrossings_values :
    let s := live 3
    let f (n : Nat) (v : XVal) := { s with xng := { s.xng with xrec := s.xng.xrec.set n { s.xr n with fly := some v } } }
    let l := [(0, (0 : F32), (0 : F32), (0 : F32))]
    let q : ProView := { probes := [(143, 15)] }
    (∀ x ∈ [f 0x15 (.results l), f 0x16 (.tickState { time := 5, groups := [] }), f 0x20 (.phase 7), f 0x13 (.prot q), f 0x11 (.sop 1 2 3)],
      alive x = true ∧ recRuns x = true) ∧ (∀ n ∈ [0x15, 0x16, 0x20, 0x13, 0x11], xngPresent s n = true ∧ (s.xr n).down = false) ∧
      (l.map Prod.fst).Nodup ∧ 0 < s.est.ctx.length ∧ s.pai.follower = false ∧ 143 < s.bal.slots.length ∧ (s.bal.slots.getD 143 {}).probe = 0 ∧
      (∃ e ∈ [({ ue := true, spc := true } : ScrubError)], e.ue = true ∧ e.spc = true) ∧ alive (modUpl (fun u => { u with holdup := 2 }) s) = false ∧
      recRuns (modUpl (fun u => { u with holdup := 2 }) s) = true := by decide +kernel

/-- PRO leaves reset while the SPC island is in it: the crossings that the two share stay DOWN. -/
theorem witness_HealthRoundsErrorsAndCrossings_shut :
    let s := live 3
    let d := { s with lcy := { s.lcy with spcInReset := true } }
    let b := { d with xng := { d.xng with xrec := d.xng.xrec.set 0x4D { s.xr 0x4D with down := true }, told := [2] } }
    b.pro.inReset = false ∧ islandInReset b 2 = true ∧ b.xng.told.contains 2 = true ∧ 0x4D ∈ sharedBy b 2 ∧ 0x4D ∈ sharedBy b 13 ∧
      (b.xr 0x4D).down = true ∧ ((next (.rehandshakeDone 13) b).xr 0x4D).down = true ∧
      ((next (.rehandshakeDone 2) b).xr 0x4D).down = false := by decide +kernel

end Sys2Proof.Tests
end

section
/-! Requests whose refusals leave a note, and register writes: what one does that reaches its judgement and is not refused. -/

namespace Sys2Proof.Machine

open Sys2Proof

variable (s : State)

/-! ### The receipt of a request -/

@[simp] theorem touch_fac (r : Req) : (touch r s).fac = s.fac := by unfold touch; split <;> rfl
@[simp] theorem touch_pwr (r : Req) : (touch r s).pwr = s.pwr := by unfold touch; split <;> rfl
@[simp] theorem touch_nv (r : Req) : (touch r s).nv = s.nv := by unfold touch; split <;> rfl
@[simp] theorem touch_xng (r : Req) : (touch r s).xng = s.xng := by unfold touch; split <;> rfl

theorem stateOk_touch (l : List Nat) (r : Req) : stateOk l (touch r s) = stateOk l s := by simp [stateOk]

theorem touch_opened (r : Req) (c : Nat) : ((touch r s).sess c).opened = (s.sess c).opened := by
  unfold touch
  split
  · simp only [State.sess, modSess, List.getD_eq_getElem?_getD, List.getElem?_modify]
    cases s.ses.ctx[c]? with
    | none => rfl
    | some x => simp only [Option.getD_some]; split <;> rfl
  · rfl

/-- A request that reaches its judgement and in which the command finds nothing wrong runs, whatever a refusal would have noted. -/
theorem requestNoting_heard {s : State} {r : Req} {op least : Nat} (h : heard r op least s) (j : State → Judge)
    (noted : Nat → State → State) (run : State → State) (hj : (j (touch r s)).first false = none) :
    requestNoting r op least j noted run s = run (touch r s) := by
  obtain ⟨hup, hopen, hstore, hzeros, hrole, hwipe, hnext, hun⟩ := h
  have free : ((touch r s).nv.wipePending && (running 0x0B02 (touch r s)).isNone && !duringWipe.contains op) = false := by
    rw [touch_nv]
    cases hw : s.nv.wipePending with
    | false => rfl
    | true => simp only [hwipe hw, Bool.not_true, Bool.and_false]
  have auth : decide ((s.sess r.ctx.toNat).role < least) = false := decide_eq_false (Nat.not_lt.mpr hrole)
  unfold requestNoting
  simp only [hup, hopen, hnext, Bool.not_true, Bool.or_false, Bool.false_eq_true, if_false, hstore, unanswered_touch, hun, hzeros,
    auth, free]
  change (match (j (touch r s)).first false with
    | some (st, body) => noted st (respond r op st body (touch r s))
    | none => run (touch r s)) = _
  rw [hj]

/-- A command whose effect is known and leaves the conditions as last reported. -/
theorem act_eq_next {f : State → State} {s t : State} (h : f { s with out := [] } = t) (ht : settled t) :
    act f s = .next (transmit s t) := by
  subst h
  exact act_settled s f ht

/-! ### Register writes (R12, R347, R435) -/

/-- Nothing stands against a write of `w` at address `a`. -/
structure WriteOk (a : Nat) (w : Word) (s : State) : Prop where
  awake : stateOk awake s = true
  inside : (blockAt a).isSome = true
  aligned : a % 4 = 0
  present : absentAt s a = false
  named : (presentValue s (a / 65536) (a % 65536)).isSome = true
  judge : writeJudge s (a / 65536) (a % 65536) w = {}
  notShut : proShut s a = false

/-- A write that nothing stands against has its effect and is answered OK, where it does not close its own session. -/
theorem writeRequest_heard {s : State} {r : Req} {a : Nat} {w : Word} (h : heard r 0x0D02 2 s) (hw : WriteOk a w (touch r s))
    (ho : ((writeFx a w (touch r s)).sess r.ctx.toNat).opened = true) :
    writeRequest r a w s = respond r 0x0D02 stOk [] (writeFx a w (touch r s)) := by
  obtain ⟨hawake, hin, hal, hpres, hnamed, hjudge, hshut⟩ := hw
  refine (requestNoting_heard h _ _ _ ?_).trans (if_pos ho)
  simp [Judge.first, hawake, hin, hal, hpres, hjudge, hshut, Option.isNone_eq_false_iff.mpr hnamed]

end Sys2Proof.Machine
end

section
/-! Event blocks: the address of EVENT, and what set events leave in the flags and the 8-bit counters (R13, R437). -/

namespace Sys2Proof.Machine

open Sys2Proof

/-! ### The address of EVENT -/

theorem eventAddr_block {e : Nat} (h : e < 20) : eventAddr e / 65536 = e ∧ eventAddr e % 65536 = 0xC := by
  unfold eventAddr
  rw [if_neg (by omega)]
  omega

theorem eventAddr_port {e : Nat} (h : 20 ≤ e) (h' : e < 68) :
    eventAddr e / 65536 = 4 ∧ eventAddr e % 65536 = 0x400 * (e - 20) + 0xC := by
  unfold eventAddr
  rw [if_pos h]
  omega

theorem eventAt_eventAddr {e : Nat} (h1 : 1 ≤ e) (h4 : e ≠ 4) (h : e < 68) : eventAt (eventAddr e) = some e := by
  unfold eventAt
  rcases Nat.lt_or_ge e 20 with hb | hp
  · obtain ⟨hd, hm⟩ := eventAddr_block hb
    simp [hd, hm, h4, show e ≠ 0 by omega]
  · obtain ⟨hd, hm⟩ := eventAddr_port hp h
    simp only [hd, hm, if_true]
    rw [if_pos (by omega)]
    congr 1
    omega

/-- A write to EVENT of a present block meets no objection. -/
theorem writeOk_event {s : State} {e : Nat} {w : Word} (h1 : 1 ≤ e) (h4 : e ≠ 4) (h : e < 68) (hp : eventPresent s e = true)
    (ha : stateOk awake s = true) (hx : e = 0x0B → (s.xr 0x4D).down = false) : WriteOk (eventAddr e) w s := by
  rcases Nat.lt_or_ge e 20 with hb | hport
  · obtain ⟨hd, hm⟩ := eventAddr_block hb
    have hpb : blockPresent s e = true := by simpa [eventPresent, hb] using hp
    have hgap : e ≠ 3 ∧ e ≠ 5 := by
      constructor <;> rintro rfl <;> simp [blockPresent] at hpb
    have hval : (presentValue s e 0xC).isSome = true := by
      simp [presentValue, eventValue, h4, show e ≠ 0 by omega]
    refine ⟨ha, ?_, ?_, ?_, by rwa [hd, hm], ?_, ?_⟩
    · simp [blockAt, hd, h4, hgap, show e ≤ 19 by omega]
    · omega
    · simp [absentAt, hd, h4, hpb]
    · rw [hd, hm]
      simp [writeJudge, wordsAt, h4]
    · rw [proShut, hd]
      by_cases he : e = 0x0B
      · simp [hx he]
      · simp [he]
  · obtain ⟨hd, hm⟩ := eventAddr_port hport h
    have hpp : portPresent s (e - 20) = true := by simpa [eventPresent, Nat.not_lt.mpr hport] using hp
    have hq : (0x400 * (e - 20) + 0xC) % 0x400 = 0xC := by omega
    have hn : (0x400 * (e - 20) + 0xC) / 0x400 = e - 20 := by omega
    refine ⟨ha, ?_, ?_, ?_, ?_, ?_, ?_⟩
    · simp [blockAt, hd, hm, show 0x400 * (e - 20) + 0xC < 0xC000 by omega]
    · omega
    · simp only [absentAt, hd, hm, hn, hpp, if_true, Bool.not_true]
    · simp [hd, hm, presentValue, hq, eventValue]
    · rw [hd, hm]
      simp [writeJudge, hq]
    · simp [proShut, hd]

/-- W1C: the effect of a write to EVENT. -/
theorem writeFx_event {e : Nat} (h1 : 1 ≤ e) (h4 : e ≠ 4) (h : e < 68) (w : Word) (s : State) :
    writeFx (eventAddr e) w s = clearFlags e (w.truncate 16) s := by
  simp only [writeFx, eventAt_eventAddr h1 h4 h]

theorem event_clearFlags {s : State} {e : Nat} (h : e < s.ev.length) (m : Half) :
    (clearFlags e m s).event e = { s.event e with flags := (s.event e).flags &&& ~~~m } := by
  simp [clearFlags, State.event, List.getD_eq_getElem?_getD, List.getElem?_eq_getElem h]

/-! ### Set events -/

/-- A set event of flag `n` in its block: the flag is set, its counter counts. -/
def Ev.mark (x : Ev) (n : Nat) : Ev := { x with flags := x.flags ||| (1#16 <<< n), cnt := bumpEvcnt x.cnt n }

theorem event_setFlag_self {s : State} {e : Nat} (h : e < s.ev.length) (n : Nat) : (setFlag e n s).event e = (s.event e).mark n := by
  simp [setFlag, Ev.mark, State.event, List.getD_eq_getElem?_getD, List.getElem?_eq_getElem h]

/-- What is present is a matter of the variant. -/
theorem eventPresent_congr {s t : State} (h : t.fac = s.fac) (e : Nat) : eventPresent t e = eventPresent s e := by
  unfold eventPresent blockPresent portPresent nPorts hasImp hasCtl hasPai
  rw [h]

/-- Raising flags of a present block other than XNG marks them in turn in that block. -/
theorem event_forAll_raise {s : State} {e : Nat} (hx : e ≠ 0x13) (h : e < s.ev.length) (hp : eventPresent s e = true) (l : List Nat) :
    (forAll l (raise e) s).event e = l.foldl Ev.mark (s.event e) := by
  unfold forAll
  induction l generalizing s with
  | nil => rfl
  | cons n l ih =>
    rw [List.foldl_cons, List.foldl_cons, ih (by simpa using h) (by rwa [eventPresent_congr (raise_fac s e n)]),
      event_raise s e n e hx hp, event_setFlag_self h]

@[simp] theorem Ev.mark_latch (x : Ev) (n : Nat) : (x.mark n).latch = x.latch := rfl

theorem Ev.mark_flags (x : Ev) {n k : Nat} (hk : k < 16) :
    (x.mark n).flags.getLsbD k = (x.flags.getLsbD k || decide (k = n)) := by
  simp only [Ev.mark, BitVec.getLsbD_or, BitVec.getLsbD_shiftLeft, BitVec.getLsbD_one]
  congr 1
  rw [Bool.eq_iff_iff]
  simp
  omega

/-- Adding 1 to byte `n`, which is not 255, carries nothing into the bytes above. -/
theorem add_pow_div_above {c n k : Nat} (h : c / 256 ^ n % 256 ≠ 255) (hk : n < k) : (c + 256 ^ n) / 256 ^ k = c / 256 ^ k := by
  obtain ⟨d, rfl⟩ : ∃ d, k = n + 1 + d := ⟨k - n - 1, by omega⟩
  have next : (c + 256 ^ n) / 256 ^ (n + 1) = c / 256 ^ (n + 1) := by
    rw [Nat.pow_succ, ← Nat.div_div_eq_div_mul, ← Nat.div_div_eq_div_mul, Nat.add_div_right _ (Nat.pow_pos (by decide))]
    omega
  rw [Nat.pow_add, ← Nat.div_div_eq_div_mul, ← Nat.div_div_eq_div_mul, next]

/-- It changes that byte alone. -/
theorem add_pow_byte {c n : Nat} (h : c / 256 ^ n % 256 ≠ 255) (k : Nat) :
    (c + 256 ^ n) / 256 ^ k % 256 = if k = n then c / 256 ^ k % 256 + 1 else c / 256 ^ k % 256 := by
  have hpos : 0 < 256 ^ k := Nat.pow_pos (by decide)
  rcases Nat.lt_trichotomy k n with hlt | rfl | hgt
  · obtain ⟨d, rfl⟩ : ∃ d, n = k + (d + 1) := ⟨n - k - 1, by omega⟩
    rw [if_neg (by omega), Nat.pow_add, Nat.add_mul_div_left _ _ hpos, Nat.pow_succ]
    omega
  · rw [if_pos rfl, Nat.add_div_right _ hpos]
    omega
  · rw [if_neg (by omega), add_pow_div_above h hgt]

/-- The counter of flag `k`. -/
def evByte (c : BitVec 128) (k : Nat) : Byte := c.extractLsb' (8 * k) 8

theorem evByte_toNat (c : BitVec 128) (k : Nat) : (evByte c k).toNat = c.toNat / 256 ^ k % 256 := by
  rw [evByte, BitVec.extractLsb'_toNat, Nat.shiftRight_eq_div_pow, Nat.pow_mul]

/-- Counting a flag adds 1 to its own counter up to 255; the others stay (R437). -/
theorem evByte_bumpEvcnt (c : BitVec 128) {n : Nat} (hn : n < 16) (k : Nat) :
    evByte (bumpEvcnt c n) k = if k = n ∧ evByte c k ≠ 255#8 then evByte c k + 1 else evByte c k := by
  unfold bumpEvcnt
  change evByte (if evByte c n = 255#8 then c else c + (1#128 <<< (8 * n))) k = _
  by_cases hfull : evByte c n = 255#8
  · rw [if_pos hfull, if_neg (by rintro ⟨rfl, hne⟩; exact hne hfull)]
  · have hbyte : c.toNat / 256 ^ n % 256 ≠ 255 := by
      rw [← evByte_toNat]
      exact fun h => hfull (BitVec.eq_of_toNat_eq h)
    have hpow : (1#128 <<< (8 * n)).toNat = 256 ^ n := by
      have hlt : 2 ^ (8 * n) < 2 ^ 128 := Nat.pow_lt_pow_right (by decide) (by omega)
      rw [BitVec.toNat_shiftLeft, Nat.shiftLeft_eq, BitVec.toNat_ofNat, Nat.one_mod, Nat.one_mul, Nat.mod_eq_of_lt hlt, Nat.pow_mul]
    have hfit : c.toNat + 256 ^ n < 2 ^ 128 := by
      have top := add_pow_div_above hbyte hn
      have := c.isLt
      omega
    rw [if_neg hfull]
    apply BitVec.eq_of_toNat_eq
    rw [evByte_toNat, BitVec.toNat_add, hpow, Nat.mod_eq_of_lt hfit, add_pow_byte hbyte]
    by_cases hk : k = n
    · subst hk
      rw [if_pos rfl, if_pos ⟨rfl, hfull⟩, BitVec.toNat_add, evByte_toNat]
      simp
      omega
    · rw [if_neg hk, if_neg (fun h => hk h.1), evByte_toNat]

theorem evByte_mark (x : Ev) {n : Nat} (hn : n < 16) (k : Nat) :
    evByte (x.mark n).cnt k = if k = n ∧ evByte x.cnt k ≠ 255#8 then evByte x.cnt k + 1 else evByte x.cnt k :=
  evByte_bumpEvcnt x.cnt hn k

theorem latch_foldl_mark (l : List Nat) (x : Ev) : (l.foldl Ev.mark x).latch = x.latch := by
  induction l generalizing x with
  | nil => rfl
  | cons n l ih => rw [List.foldl_cons, ih, Ev.mark_latch]

theorem flags_foldl_mark (l : List Nat) (x : Ev) {k : Nat} (hk : k < 16) :
    (l.foldl Ev.mark x).flags.getLsbD k = (x.flags.getLsbD k || decide (k ∈ l)) := by
  induction l generalizing x with
  | nil => simp
  | cons n l ih => rw [List.foldl_cons, ih, Ev.mark_flags x hk, Bool.or_assoc]; simp

/-- Each flag set once counts once. -/
theorem evByte_foldl_mark {l : List Nat} (hl : l.Nodup) (hlt : ∀ n ∈ l, n < 16) (x : Ev) (k : Nat) :
    evByte (l.foldl Ev.mark x).cnt k = if k ∈ l ∧ evByte x.cnt k ≠ 255#8 then evByte x.cnt k + 1 else evByte x.cnt k := by
  induction l generalizing x with
  | nil => simp
  | cons n l ih =>
    obtain ⟨hnot, hl⟩ := List.nodup_cons.mp hl
    rw [List.foldl_cons, ih hl (fun m hm => hlt m (List.mem_cons_of_mem _ hm)), evByte_mark x (hlt n List.mem_cons_self)]
    by_cases hk : k = n
    · subst hk
      simp [hnot]
    · simp [hk]

/-- The check of the conditions finds nothing new after raised flags. -/
theorem settled_forAll_raise {s : State} (h : settled s) (e : Nat) (l : List Nat) : settled (forAll l (raise e) s) := by
  have hpro := forAll_keeps s State.pro l _ fun n t => raise_pro t e n
  have hhkp := forAll_keeps s State.hkp l _ fun n t => raise_hkp t e n
  have hsmp := forAll_keeps s State.smp l _ fun n t => raise_smp t e n
  have hlcy := forAll_keeps s State.lcy l _ fun n t => raise_lcy t e n
  have hpwr := forAll_keeps s State.pwr l _ fun n t => raise_pwr t e n
  exact settled_congr h (by rw [hpro]) (by rw [hhkp]) (by rw [hsmp]) (by rw [hlcy]) (by rw [hpwr])

end Sys2Proof.Machine
end

section
/-! EVENT_FLAG_CLEAR and XNG_CTRL (R13, R437, R443). -/

namespace Sys2Proof.Machine

open Sys2Proof

/-! ### EVENT_FLAG_CLEAR -/

/-- The flags of block `e` that hardware sets in the cycle of the write. -/
def setNow (e : Nat) (sets : Half) : List Nat := (List.range (flagCount e)).filter fun n => sets.getLsbD n

theorem nodup_setNow (e : Nat) (sets : Half) : (setNow e sets).Nodup := List.nodup_range.filter _

theorem mem_setNow {e : Nat} {sets : Half} {n : Nat} : n ∈ setNow e sets ↔ (decide (n < flagCount e) && sets.getLsbD n) = true := by
  simp [setNow]

theorem setNow_lt {e : Nat} {sets : Half} : ∀ n ∈ setNow e sets, n < 16 := by
  intro n hn
  rw [mem_setNow, Bool.and_eq_true] at hn
  exact BitVec.lt_of_getLsbD hn.2

theorem writeRequest_event {r : Req} {s : State} (h : mayWrite r s) {e : Nat} (h1 : 1 ≤ e) (h4 : e ≠ 4) (hlt : e < 68)
    (hp : eventPresent s e = true) (hx : e = 0x0B → (s.xr 0x4D).down = false) (mask : Half) :
    writeRequest r (eventAddr e) (mask.zeroExtend 32) s = respond r 0x0D02 stOk [] (clearFlags e mask (touch r s)) := by
  obtain ⟨-, hheard, hawake⟩ := h
  have ⟨_, hopened, _⟩ := hheard
  have hok : WriteOk (eventAddr e) (mask.zeroExtend 32) (touch r s) :=
    writeOk_event h1 h4 hlt (by rwa [eventPresent_congr (touch_fac s r)]) (by rwa [stateOk_touch]) (by simpa [State.xr] using hx)
  have heff : writeFx (eventAddr e) (mask.zeroExtend 32) (touch r s) = clearFlags e mask (touch r s) := by
    rw [writeFx_event h1 h4 hlt]
    simp
  have hopen : ((clearFlags e mask (touch r s)).sess r.ctx.toNat).opened = true := (touch_opened s r _).trans hopened
  rw [writeRequest_heard hheard hok (by rwa [heff]), heff]

/-- The write clears the flags of the mask and is answered; then hardware's flags are raised. -/
theorem exec_eventFlagClear {r : Req} {s : State} (h : mayWrite r s) (e : Fin 68) (mask sets : Half) (h1 : 1 ≤ e.val) (h4 : e.val ≠ 4)
    (hp : eventPresent s e.val = true) (hx : e.val = 0x0B → (s.xr 0x4D).down = false) :
    exec (.eventFlagClear r e mask sets) s = .next (transmit s (forAll (setNow e.val sets) (raise e.val)
      (respond r 0x0D02 stOk [] (clearFlags e.val mask (touch r { s with out := [] }))))) := by
  have ⟨hset, ⟨hup, _⟩, _⟩ := h
  have halive : alive { s with out := [] } = true := (Bool.and_eq_true_iff.mp hup).1
  have hw := writeRequest_event (s := { s with out := [] }) h h1 h4 e.isLt hp hx mask
  have hs : settled (clearFlags e.val mask (touch r { s with out := [] })) :=
    settled_congr (settled_touch s r hset) rfl rfl rfl rfl rfl
  change execEventFlagClear r e mask sets s = _
  unfold execEventFlagClear
  refine act_eq_next ?_ (settled_forAll_raise (settled_respond _ _ _ _ _ hs) _ _)
  simp only [halive, if_true, setNow, hw]

/-- What EVENT_FLAG_CLEAR leaves in its block. -/
theorem event_clear_raise {r : Req} {s : State} {e : Nat} (hx : e ≠ 0x13) (hlt : e < s.ev.length) (hp : eventPresent s e = true)
    (mask : Half) (l : List Nat) :
    (forAll l (raise e) (respond r 0x0D02 stOk [] (clearFlags e mask (touch r s)))).event e =
      l.foldl Ev.mark { s.event e with flags := (s.event e).flags &&& ~~~mask } := by
  let t := respond r 0x0D02 stOk [] (clearFlags e mask (touch r s))
  have hev : t.ev = (clearFlags e mask s).ev := by
    simp only [t, (respond_frame _ _ _ _ _).1, clearFlags, modEv_ev, touch_ev]
  have hfac : t.fac = s.fac := touch_fac s r
  have hlen : e < t.ev.length := by
    rw [hev]
    simpa [clearFlags] using hlt
  have hevent : t.event e = (clearFlags e mask s).event e := by simp only [State.event, hev]
  rw [event_forAll_raise hx hlen (by rwa [eventPresent_congr hfac]), hevent, event_clearFlags hlt]

/-! ### XNG_CTRL -/

/-- CNT_CLR on the crossings. -/
def clearCrossings (b : Bool) (x : Xng) : Xng :=
  { x with xrec := if b then x.xrec.map fun r => { r with flush := 0, loss := 0, refused := 0 } else x.xrec }

/-- EVCNT_CLR on the event blocks. -/
def clearCounters (b : Bool) (l : List Ev) : List Ev :=
  if b then l.map fun x => { x with cnt := 0, latch := x.latch.map fun _ => 0 } else l

theorem xngCtrlFx_eq (w : Word) (s : State) :
    xngCtrlFx w s = { s with xng := clearCrossings (w.getLsbD 0) s.xng, ev := clearCounters (w.getLsbD 1) s.ev } := by
  unfold xngCtrlFx onlyIf ctlBit
  cases w.getLsbD 0 <;> cases w.getLsbD 1 <;> rfl

theorem writeOk_xngCtrl {s : State} (ha : stateOk awake s = true) (w : Word) : WriteOk 0x130004 w s where
  awake := ha
  inside := rfl
  aligned := rfl
  present := rfl
  named := rfl
  judge := rfl
  notShut := rfl

theorem writeRequest_xngCtrl {r : Req} {s : State} (h : mayWrite r s) (w : Word) :
    writeRequest r 0x130004 w s = respond r 0x0D02 stOk [] (xngCtrlFx w (touch r s)) := by
  obtain ⟨-, hheard, hawake⟩ := h
  have ⟨_, hopened, _⟩ := hheard
  have hopen : ((xngCtrlFx w (touch r s)).sess r.ctx.toNat).opened = true := by
    rw [xngCtrlFx_eq]
    exact (touch_opened s r _).trans hopened
  exact writeRequest_heard hheard (writeOk_xngCtrl (by rwa [stateOk_touch]) w) hopen

/-- The write answers OK, clears the counters that it names, and leaves the rest. -/
theorem act_xngCtrl {r : Req} {s : State} (h : mayWrite r s) (w : Word) :
    ∃ t, act (writeRequest r 0x130004 w) s = .next t ∧ t.out = [.response r.ctx r.tag 0x0D02 stOk []] ∧
      t.xng = clearCrossings (w.getLsbD 0) s.xng ∧ t.ev = clearCounters (w.getLsbD 1) s.ev ∧
      stillFor r.ctx t = stillFor r.ctx { s with xng := t.xng } := by
  let x := clearCrossings (w.getLsbD 0) s.xng
  let u := touch r { s with out := [] }
  let v := { u with xng := x, ev := clearCounters (w.getLsbD 1) s.ev }
  have hw : writeRequest r 0x130004 w { s with out := [] } = respond r 0x0D02 stOk [] v := by
    rw [writeRequest_xngCtrl (s := { s with out := [] }) h, xngCtrlFx_eq, touch_xng, touch_ev]
  have hv : settled v := settled_congr (settled_touch s r h.1) rfl rfl rfl rfl rfl
  obtain ⟨hev, -, -, hxng⟩ := respond_frame v r 0x0D02 stOk []
  have hcleared : { u with xng := x } = touch r { s with out := [], xng := x } := by
    unfold u touch
    split <;> rfl
  refine ⟨_, act_eq_next hw (settled_respond _ _ _ _ _ hv), ?_, hxng, hev, ?_⟩
  · rw [transmit_out, respond_out]
    exact congrArg (· ++ _) (touch_out _ r)
  · calc stillFor r.ctx (transmit s (respond r 0x0D02 stOk [] v))
        = stillFor r.ctx v := (stillFor_of_still _ (still_transmit _ _)).trans (stillFor_respond _ _ _ _ _)
      _ = stillFor r.ctx { u with xng := x } := stillFor_of_still _ rfl
      _ = stillFor r.ctx { s with out := [], xng := x } := hcleared ▸ stillFor_touch _ r
      _ = stillFor r.ctx { s with xng := x } := stillFor_of_still _ rfl
      _ = stillFor r.ctx { s with xng := (respond r 0x0D02 stOk [] v).xng } := by rw [hxng]

/-! ### The statement -/

/-- Settles O24: EVENT_FLAG_CLEAR clears first and raises hardware's flags then, each of them once; XNG_CTRL is one effect on the
crossings and the event blocks. -/
theorem eventClearLosesToTheHardwareSet : Obligations.EventClearLosesToTheHardwareSet := by
  unfold Obligations.EventClearLosesToTheHardwareSet
  intro r s h
  refine ⟨fun e mask sets h1 h4 hx hlt hp hdown => ?_, fun c w hc => ?_⟩
  · have hblock := event_clear_raise (r := r) (s := { s with out := [] }) hx hlt hp mask (setNow e.val sets)
    have hkeep {β : Type} (g : State → β) (hg : ∀ n t, g (raise e.val n t) = g t) (t : State) :
        g (forAll (setNow e.val sets) (raise e.val) t) = g t := forAll_keeps t g _ _ hg
    refine ⟨_, exec_eventFlagClear h e mask sets h1 h4 hp hdown, ?_, ?_, ?_, fun n hn => ⟨?_, ?_⟩⟩
    · rw [stillFor_of_still _ (still_transmit _ _), stillFor_of_still _ (hkeep still (fun n t => still_raise t e.val n) _),
        stillFor_respond]
      exact stillFor_touch { s with out := [] } r
    · rw [transmit_out, hkeep State.out (fun n t => raise_out t e.val n), respond_out]
      exact congrArg (· ++ _) (touch_out _ r)
    · exact (congrArg Ev.latch hblock).trans (latch_foldl_mark _ _)
    · refine (congrArg (fun x : Ev => x.flags.getLsbD n) hblock).trans ((flags_foldl_mark _ _ hn).trans ?_)
      simp [mem_setNow, hn, State.event]
    · refine (congrArg (fun x : Ev => evByte x.cnt n) hblock).trans ((evByte_foldl_mark (nodup_setNow _ _) setNow_lt _ n).trans ?_)
      simp only [mem_setNow]
      rfl
  · obtain ⟨t, hexec, hout, hxng, hev, hstill⟩ := act_xngCtrl h w
    have hc' : exec c s = .next t := by
      rcases hc with rfl | rfl
      · exact hexec
      · exact hexec
    exact ⟨t, hc', hout, hxng, hev, hstill⟩

end Sys2Proof.Machine
end

section
/-! What a command leaves of its effect; two statements that fail, each at a state that its hypotheses allow. -/

namespace Sys2Proof.Machine

open Sys2Proof

/-- A command ends as its effect left the state, but for what reporting moves. -/
theorem act_next (f : State → State) (s : State) : ∃ t, act f s = .next t ∧ still t = still (f { s with out := [] }) :=
  ⟨_, rfl, (still_transmit _ _).trans (still_condCheck _)⟩

theorem still_of_act {f : State → State} {s t : State} (h : act f s = .next t) : still t = still (f { s with out := [] }) := by
  obtain ⟨u, hu, hstill⟩ := act_next f s
  exact Host.Outcome.next.inj (hu.symm.trans h) ▸ hstill

/-! ### FRAME_STARVATION on an image without a mapped group -/

theorem still_frameStarvation {s t : State} (hruns : proRuns s = true) (h : exec .frameStarvation s = .next t) :
    still t = still (starveFx { s with out := [] }) :=
  (still_of_act h).trans (congrArg still (if_pos hruns))

/-- Without a mapped group nothing is stale: FRAME_STARVATION ends function 0x0C and its grace. -/
theorem starveFx_unmapped {s : State} (hmap : s.cfgPro.mapped = []) (harmed : s.pro.armed = true) (hsamples : sampling s = true)
    (hfed : s.pro.starved = false) :
    starveFx s = setAct 0x0C false (modPro (fun p => { p with starved := true, graceRun := false }) s) := by
  simp [starveFx, hmap, harmed, hsamples, hfed, staleFx, modPro]

theorem defaultCfg_mapped : defaultCfg.mapped = [] := by
  refine List.filterMap_eq_nil_iff.mpr fun e he => ?_
  have hfree : e.1 = {} := List.eq_of_mem_replicate (List.fst_mem_of_mem_zipIdx he)
  simp [hfree]

/-- A module in SURVEY with an armed PRO, on an image that maps no group. -/
def unmappedModule : State := { State.reset with pwr := { state := 2, ready := true }, pro := { armed := true } }

/-- Refutes O50: on an image that maps no group FRAME_STARVATION finds nothing stale, so function 0x0C does not become active. -/
theorem not_starvationAndSupplyFaultReachTheSafeState : ¬ Obligations.StarvationAndSupplyFaultReachTheSafeState := by
  intro h
  obtain ⟨starved, -⟩ := h unmappedModule rfl rfl
  obtain ⟨t, hexec, -, hactive, -⟩ := starved rfl rfl rfl rfl rfl
  have hmap : unmappedModule.cfgPro.mapped = [] := congrArg Cfg.mapped (rfl : unmappedModule.cfgPro = defaultCfg) ▸ defaultCfg_mapped
  have hstill := still_frameStarvation rfl hexec
  rw [starveFx_unmapped (s := { unmappedModule with out := [] }) hmap rfl rfl rfl] at hstill
  rw [of_still State.pro (fun _ => rfl) hstill] at hactive
  exact absurd hactive (by decide)

/-! ### LEARNED_DATA_SAVE over a copy with fewer groups than the array -/

/-- A module in SURVEY whose newest valid copy of the learned data holds no group, with a context of some capacity. -/
def shortCopyModule : State :=
  { State.reset with
    pwr := { state := 2, ready := true }
    est := { ctx := [{ cap := 1 }] }
    nv := { copyA := { ok := true } } }

/-- Refutes O45: a save of the dynamic part takes the whole data of a group that the newest valid copy does not hold, so its capacity is the
context's and not that of an empty group. -/
theorem not_estimatorTicksRunSkipAndSave : ¬ Obligations.EstimatorTicksRunSkipAndSave := by
  intro h
  obtain ⟨-, saves⟩ := h shortCopyModule rfl rfl rfl
  obtain ⟨⟨t, c, hexec, -, -, hnewest, -, -, -, hdynamic, -⟩, -⟩ := saves false
  have hnv : t.nv = (saveLearned false false true shortCopyModule).nv := of_still State.nv (fun _ => rfl) (still_of_act hexec)
  have hcap := (hdynamic { ok := true } 0 rfl rfl rfl (by decide)).2
  rw [hnv] at hnewest
  obtain rfl := Option.some.inj hnewest
  exact absurd hcap (by decide)

end Sys2Proof.Machine
end

section
/-! What an operation leaves, by masks of the state: each mask drops the parts that a family of operations moves, and every operation of
the family leaves the mask. -/

namespace Sys2Proof.Machine

open Sys2Proof

variable (s : State)

/-! ### Crossings -/

/-- The crossings as far as no offer, refusal or loss moves them: which are DOWN. -/
def downs (s : State) : List Bool := s.xng.xrec.map Xrec.down

/-- The state less what reporting and the crossings move. -/
def sansXng (s : State) : State := { still s with xng := { xrec := s.xng.xrec.map fun r => { down := r.down } } }

theorem map_xrec_eq_downs : (s.xng.xrec.map fun r => ({ down := r.down } : Xrec)) = (downs s).map fun d => { down := d } := by
  simp [downs, Function.comp_def]

theorem downs_still : downs (still s) = downs s := by simp [downs, still, Function.comp_def]

theorem xr_down (x : Nat) : (s.xr x).down = (downs s).getD x false := by
  simp only [State.xr, downs, List.getD_eq_getElem?_getD, List.getElem?_map]
  cases s.xng.xrec[x]? <;> rfl

theorem sansXng_of_still {s t : State} (h : still t = still s) : sansXng t = sansXng s := by
  have hd : downs t = downs s := of_still downs downs_still h
  simp only [sansXng, map_xrec_eq_downs, h, hd]

theorem sansXng_modX (x : Nat) (f : Xrec → Xrec) (h : ∀ r, (f r).down = r.down) : sansXng (modX x f s) = sansXng s := by
  have hd : downs (modX x f s) = downs s := map_modify _ _ _ _ h
  simp only [sansXng, map_xrec_eq_downs, hd]
  rfl

@[simp] theorem sansXng_raiseXng (n : Nat) : sansXng (raiseXng n s) = sansXng s := sansXng_of_still (still_raiseXng s n)

@[simp] theorem sansXng_refuse (x : Nat) : sansXng (refuse x s) = sansXng s := by
  unfold refuse
  dsimp only
  split
  · exact sansXng_modX _ _ _ fun _ => rfl
  · rw [sansXng_raiseXng]
    exact sansXng_modX _ _ _ fun _ => rfl

@[simp] theorem sansXng_offer (x : Nat) (v : XVal) : sansXng (offer x v s) = sansXng s := by
  have hcur : sansXng (modX x (fun r => { r with cur := some v }) s) = sansXng s := sansXng_modX _ _ _ fun _ => rfl
  unfold offer
  dsimp only
  split
  · exact hcur
  · split
    · split
      · exact hcur
      · rw [sansXng_refuse, hcur]
    · split
      · refine (sansXng_modX _ _ _ ?_).trans hcur
        exact fun _ => rfl
      · refine (sansXng_modX _ _ _ ?_).trans hcur
        exact fun _ => rfl

@[simp] theorem sansXng_tellEst : sansXng (tellEst s) = sansXng s := by
  unfold tellEst
  split
  · rfl
  · exact sansXng_offer _ _ _

@[simp] theorem sansXng_insPass : sansXng (insPass s) = sansXng s := sansXng_offer _ _ _

/-! ### Steady parts -/

/-- The parts that no protection, contactor, engine or planner operation moves: factory data, NV, the configuration committed, PENDING, the
life cycle but for DEBUG_EN, the timebase and aggregator but for the zero learning's requests, which crossings are DOWN, whether the
supervisor is ready and which sessions are open. -/
def steady (s : State) : State :=
  { fac := s.fac, nv := s.nv, recNv := s.recNv, cfg := s.cfg, image := s.image
    lcy := { s.lcy with debugEn := false }
    smp := { s.smp with zeroSeen := false, zeroReq := false }
    xng := { xrec := s.xng.xrec.map fun r => { down := r.down } }
    ses := { hsReady := s.ses.hsReady, ctx := s.ses.ctx.map fun x => { opened := x.opened } } }

theorem steady_sansXng : steady (sansXng s) = steady s := by
  simp only [steady, sansXng, still, List.map_map, Function.comp_def]

theorem steady_of_sansXng {s t : State} (h : sansXng t = sansXng s) : steady t = steady s := by
  rw [← steady_sansXng t, h, steady_sansXng]

theorem steady_of_still {s t : State} (h : still t = still s) : steady t = steady s := steady_of_sansXng (sansXng_of_still h)

@[simp] theorem steady_raise (e n : Nat) : steady (raise e n s) = steady s := steady_of_still (still_raise s e n)
@[simp] theorem steady_raiseIf (b : Bool) (e n : Nat) : steady (raiseIf b e n s) = steady s := steady_of_still (still_raiseIf s b e n)
@[simp] theorem steady_recordCode (i c src : Nat) (d : Bytes) : steady (recordCode i c src d s) = steady s :=
  steady_of_still (still_recordCode s i c src d)
@[simp] theorem steady_notice (cls typ : Nat) (d : Bytes) : steady (notice cls typ d s) = steady s :=
  steady_of_still (still_notice s cls typ d)
@[simp] theorem steady_noticeState (p : Nat) : steady (noticeState p s) = steady s := steady_of_still (still_noticeState s p)
@[simp] theorem steady_send (o : Out) : steady (send o s) = steady s := rfl
@[simp] theorem steady_refuse (x : Nat) : steady (refuse x s) = steady s := steady_of_sansXng (sansXng_refuse s x)
@[simp] theorem steady_offer (x : Nat) (v : XVal) : steady (offer x v s) = steady s := steady_of_sansXng (sansXng_offer s x v)
@[simp] theorem steady_tellEst : steady (tellEst s) = steady s := steady_of_sansXng (sansXng_tellEst s)
@[simp] theorem steady_insPass : steady (insPass s) = steady s := steady_of_sansXng (sansXng_insPass s)

@[simp] theorem steady_modPro (f : Pro → Pro) : steady (modPro f s) = steady s := rfl
@[simp] theorem steady_modCtl (f : Ctl → Ctl) : steady (modCtl f s) = steady s := rfl
@[simp] theorem steady_modBal (f : Bal → Bal) : steady (modBal f s) = steady s := rfl
@[simp] theorem steady_modIns (f : Ins → Ins) : steady (modIns f s) = steady s := rfl
@[simp] theorem steady_modEst (f : Est → Est) : steady (modEst f s) = steady s := rfl
@[simp] theorem steady_modImp (f : Imp → Imp) : steady (modImp f s) = steady s := rfl
@[simp] theorem steady_modPwr (f : Pwr → Pwr) : steady (modPwr f s) = steady s := rfl
@[simp] theorem steady_modOw (u : Nat) (f : OwUnit → OwUnit) : steady (modOw u f s) = steady s := rfl
@[simp] theorem steady_modSlot (u : Nat) (f : BalSlot → BalSlot) : steady (modSlot u f s) = steady s := rfl
@[simp] theorem steady_modPort (p : Nat) (f : Port → Port) : steady (modPort p f s) = steady s := rfl
@[simp] theorem steady_takeWord : steady (takeWord s).2 = steady s := rfl
@[simp] theorem steady_addReq (p : Nat) (r : LinkReq) : steady (addReq p r s) = steady s := rfl
@[simp] theorem steady_sendPeer (p : Byte) (b : Bytes) : steady (sendPeer p b s) = steady s := rfl

@[simp] theorem steady_ite {c : Prop} [Decidable c] (a b : State) :
    steady (if c then a else b) = if c then steady a else steady b := apply_ite steady c a b

theorem steady_forAll {α : Type} (l : List α) (f : α → State → State) (h : ∀ a t, steady (f a t) = steady t) :
    steady (forAll l f s) = steady s := forAll_keeps s steady l f h

theorem steady_modSess (c : Nat) (f : Sess → Sess) (h : ∀ x, (f x).opened = x.opened) : steady (modSess c f s) = steady s := by
  have hctx : (s.ses.ctx.modify c f).map (fun x => ({ opened := x.opened } : Sess)) = s.ses.ctx.map fun x => { opened := x.opened } :=
    map_modify _ _ _ _ fun x => by rw [h]
  simp only [steady, modSess, hctx]

/-! ### Answers and completions -/

@[simp] theorem steady_respond (r : Req) (op st : Nat) (b : Bytes) : steady (respond r op st b s) = steady s := by
  have hsent : steady (sendResponse r op st b s) = steady s := steady_of_still (still_sendResponse _ _ _ _ _)
  unfold respond
  dsimp only
  split
  · exact hsent
  · refine (steady_modSess _ _ _ ?_).trans hsent
    exact fun _ => rfl

@[simp] theorem steady_complete (d : Deferred) (st : Nat) (b : Bytes) : steady (complete d st b s) = steady s := by
  unfold complete
  dsimp only
  split
  · rw [steady_send]
    refine (steady_modSess _ _ _ ?_).trans rfl
    exact fun _ => rfl
  · rfl

@[simp] theorem steady_completeOp (op st : Nat) (b : Bytes) : steady (completeOp op st b s) = steady s := by
  unfold completeOp
  split
  · exact steady_complete _ _ _ _
  · rfl

/-! ### The control engine -/

@[simp] theorem steady_backFx : steady (backFx s) = steady s := by simp [backFx]
@[simp] theorem steady_srcTaken (n : Nat) : steady (srcTaken n s) = steady s := by simp [srcTaken]
@[simp] theorem steady_srcWatch (old : Nat) : steady (srcWatch old s) = steady s := by simp [srcWatch]
@[simp] theorem steady_haltEngine (st cause fault : Nat) : steady (haltEngine st cause fault s) = steady s := by simp [haltEngine]

@[simp] theorem steady_answerStart (st : Nat) (b : Bytes) : steady (answerStart st b s) = steady s := by
  unfold answerStart
  split
  · rfl
  · simp only [steady_ite, steady_respond]
    exact ite_self _

@[simp] theorem steady_parkEngine (cause : Nat) : steady (parkEngine cause s) = steady s := by simp [parkEngine, parkEngineWith]

theorem steady_sameCycle {b : Bool} {u : State} (h : sameCycle s = (b, u)) : steady u = steady s :=
  (congrArg (fun p => steady p.2) h).symm

@[simp] theorem steady_tripEngine : steady (tripEngine s) = steady s := by
  unfold tripEngine
  split
  · split
    · rename_i h
      exact (steady_modCtl _ _).trans (steady_sameCycle s h)
    · rename_i h
      exact steady_sameCycle s h
  · exact steady_parkEngine _ _

@[simp] theorem steady_engineOff : steady (engineOff s) = steady s := by simp [engineOff]

/-! ### The planner's stops and the end of wire learning -/

@[simp] theorem steady_withdraw (u : Nat) (m : Half) : steady (withdraw u m s) = steady s := rfl
@[simp] theorem steady_stopAllPorts : steady (stopAllPorts s) = steady s := rfl
@[simp] theorem steady_addStop (u : Nat) (m : Half) : steady (addStop u m s) = steady s := by simp [addStop]
@[simp] theorem steady_stopSlot (u : Nat) (m : Half) : steady (stopSlot u m s) = steady s := by simp [stopSlot]
@[simp] theorem steady_stopGroups (u : Nat) (m : Half) : steady (stopGroups u m s) = steady s := by simp [stopGroups]

@[simp] theorem steady_sendModes (m : Bool) : steady (sendModes m s) = steady s := by
  unfold sendModes
  rw [steady_modBal, steady_forAll, steady_forAll]
  · exact fun p t => steady_addReq _ _ _
  · exact fun u t => by simp

@[simp] theorem steady_learnAbort : steady (learnAbort s) = steady s := by simp [learnAbort]

/-! ### Power states other than LISTEN -/

@[simp] theorem steady_setPower (st : Nat) : steady (setPower st s) = steady s := by
  unfold setPower
  split
  · rfl
  · rw [steady_noticeState, steady_raise]
    rfl

@[simp] theorem steady_leaveMaintain : steady (leaveMaintain s) = steady s := (steady_learnAbort _).trans rfl

theorem steady_enterState {t : Nat} (ht : t ≠ 1) : steady (enterState t s) = steady s := by
  have hzero (f : Smp → Smp) (u : State) (hf : ∀ m : Smp, ({ f m with zeroSeen := false, zeroReq := false } : Smp) =
      { m with zeroSeen := false, zeroReq := false }) : steady (modSmp f u) = steady u := by
    simp only [steady, modSmp, hf]
  have hlisten : (t == 1) = false := beq_false_of_ne ht
  simp [enterState, onlyIf, hlisten, hzero]

end Sys2Proof.Machine
end

section
/-! Protection, contactors and sense-wire tests leave the steady parts. -/

namespace Sys2Proof.Machine

open Sys2Proof

variable (s : State)

/-! ### Transitions that a contactor sequence completes -/

theorem steady_finishTransition {t : Nat} (ht : t ≠ 1) : steady (finishTransition t s) = steady s := by
  simp [finishTransition, steady_enterState _ ht]

/-- Out of RUN a transition to LISTEN waits for the ports' last cycle (R362): it does not complete at once. -/
@[simp] theorem steady_continueOut : steady (continueOut s) = steady s := by
  unfold continueOut
  split
  · rename_i t _
    split
    · rename_i hrun
      have hsampling : sampling s = true := by simp_all [sampling]
      unfold proceedTo
      split
      · rfl
      · rename_i hstop
        exact steady_finishTransition s fun ht => hstop (by simp [ht, hsampling])
    · rfl
  · rfl

/-! ### Functions and limits -/

@[simp] theorem steady_setAct (code : Nat) (on : Bool) : steady (setAct code on s) = steady s := rfl

@[simp] theorem steady_proRecord (code idx : Nat) (val thr : Int) (how : Byte) : steady (proRecord code idx val thr how s) = steady s :=
  steady_recordCode _ _ _ _ _

@[simp] theorem steady_setDerate (ch : Rat) (sc : Nat) (dis : Rat) (sd : Nat) : steady (setDerate ch sc dis sd s) = steady s := by
  simp [setDerate]

@[simp] theorem steady_zeroLimits (code : Nat) : steady (zeroLimits code s) = steady s := steady_setDerate _ _ _ _ _

@[simp] theorem steady_note (code idx : Nat) (val thr : Int) : steady (note code idx val thr s) = steady s := by simp [note]

@[simp] theorem steady_activate (code idx : Nat) (val thr : Int) : steady (activate code idx val thr s) = steady s := by simp [activate]

/-! ### Channels -/

@[simp] theorem steady_setConn (st : Nat) : steady (setConn st s) = steady s := by simp [setConn]

@[simp] theorem steady_setFeedback (code : Nat) (m : BitVec 4) : steady (setFeedback code m s) = steady s := by simp [setFeedback]

@[simp] theorem steady_feedbackActive : steady (feedbackActive s) = steady s := by simp [feedbackActive]

@[simp] theorem steady_assertK (m : BitVec 4) : steady (assertK m s) = steady s := by simp [assertK]

@[simp] theorem steady_releaseK (m : BitVec 4) : steady (releaseK m s) = steady s := by simp [releaseK, brokeAbove]

@[simp] theorem steady_currentCut (flags : Byte) : steady (currentCut flags s) = steady s := by simp [currentCut]

@[simp] theorem steady_finishOpen : steady (finishOpen s) = steady s := by
  cases hab : s.pro.aborted <;> simp [finishOpen, hab]

@[simp] theorem steady_openingStep : steady (openingStep s) = steady s := by simp [openingStep]

@[simp] theorem steady_releasePoint : steady (releasePoint s) = steady s := by simp [releasePoint]

@[simp] theorem steady_beginOpen (hw : Bool) : steady (beginOpen hw s) = steady s := by simp [beginOpen]

@[simp] theorem steady_openString (hw : Bool) : steady (openString hw s) = steady s := by simp [openString, onlyIf]

@[simp] theorem steady_openAct (code idx : Nat) (val thr : Int) (hw : Bool) : steady (openAct code idx val thr hw s) = steady s := by
  simp [openAct, onlyIf]

@[simp] theorem steady_fire (code : Nat) (cond : Option (Nat × Int)) (thr : Int) : steady (fire code cond thr s) = steady s := by
  cases cond <;> simp [fire]

@[simp] theorem steady_noteIf (code : Nat) (cond : Option (Nat × Int)) (thr : Int) : steady (noteIf code cond thr s) = steady s := by
  cases cond <;> simp [noteIf]

/-! ### The sequencer -/

@[simp] theorem steady_closeNeg : steady (closeNeg s) = steady s := by simp [closeNeg]
@[simp] theorem steady_startPrecharge : steady (startPrecharge s) = steady s := by simp [startPrecharge]
@[simp] theorem steady_seqStep : steady (seqStep s) = steady s := by simp [seqStep]
@[simp] theorem steady_prechgFail : steady (prechgFail s) = steady s := by simp [prechgFail]
@[simp] theorem steady_prechargeStep (t : Nat) : steady (prechargeStep t s) = steady s := by simp [prechargeStep]
@[simp] theorem steady_connectWatch : steady (connectWatch s) = steady s := by simp [connectWatch]

/-! ### Contactor feedback, with the insulation monitor's network (R135, R240) -/

@[simp] theorem steady_insModeSettle : steady (insModeSettle s) = steady s := by simp [insModeSettle]

theorem steady_insChange (f : State → State) (h : steady (f s) = steady s) : steady (insChange f s) = steady s := by
  simp [insChange, onlyIf, h]

@[simp] theorem steady_kfTake : steady (kfTake s) = steady s := by
  unfold kfTake
  refine steady_insChange s _ ?_
  simp only [steady_insModeSettle, steady_seqStep, steady_feedbackActive, steady_modPro]

@[simp] theorem steady_kfSettle : steady (kfSettle s) = steady s := by simp [kfSettle]

/-! ### Sense-wire tests -/

@[simp] theorem steady_owClassify (u w : Nat) (b : Bool) : steady (owClassify u w b s) = steady s := rfl

@[simp] theorem steady_owInconclusive (u w : Nat) : steady (owInconclusive u w s) = steady s := by simp [owInconclusive]

@[simp] theorem steady_probeAsk (u : Nat) (p : Probe) : steady (probeAsk u p s) = steady s := rfl

@[simp] theorem steady_probeEnd (u : Nat) (p : Probe) : steady (probeEnd u p s) = steady s := by
  unfold probeEnd
  dsimp only
  split
  · simp only [steady_ite, steady_raise, steady_owClassify, steady_owInconclusive, steady_modOw, steady_modSlot, ite_self]
  · simp only [steady_ite, steady_raise, steady_owInconclusive, steady_modOw, steady_modSlot, ite_self]

@[simp] theorem steady_owSend (u : Nat) (m : BitVec 24) (pol : Bool) : steady (owSend u m pol s) = steady s := rfl

@[simp] theorem steady_passEnd (u : Nat) (m : BitVec 24) (pol : Bool) : steady (passEnd u m pol s) = steady s := by
  unfold passEnd
  dsimp only
  simp only [steady_ite, steady_modOw]
  rw [steady_forAll]
  · simp
  · intro w t
    simp

@[simp] theorem steady_probeSuspect (u w : Nat) (b : List (Option Rat)) : steady (probeSuspect u w b s) = steady s := by
  simp [probeSuspect]

@[simp] theorem steady_owNext (u : Nat) : steady (owNext u s) = steady s := by
  unfold owNext
  dsimp only
  split
  · exact steady_probeSuspect _ _ _ _
  · split
    · simp
    · split <;> simp

@[simp] theorem steady_owFrame (u : Nat) (f : Frame) : steady (owFrame u f s) = steady s := by
  unfold owFrame
  dsimp only
  split
  · rfl
  · split
    · rfl
    · split
      · simp
      · split <;> simp

theorem steady_owFrames (f : Frame) (l : List Nat) : steady (forAll l (fun u s => owFrame u f s) s) = steady s :=
  steady_forAll s l _ fun u t => steady_owFrame t u f

@[simp] theorem steady_devStart (g : Nat) : steady (devStart g s) = steady s := by
  unfold devStart
  split
  · rfl
  · simp

/-! ### A coherent frame -/

@[simp] theorem steady_classFx : steady (classFx s) = steady s := by simp [classFx]
@[simp] theorem steady_cellLimits (f : Frame) : steady (cellLimits f s) = steady s := by simp [cellLimits]
@[simp] theorem steady_pairLimits (f : Frame) : steady (pairLimits f s) = steady s := by simp [pairLimits]
@[simp] theorem steady_strOvFx (f : Frame) : steady (strOvFx f s) = steady s := by simp [strOvFx]
@[simp] theorem steady_stackFx (f : Frame) : steady (stackFx f s) = steady s := by simp [stackFx]
@[simp] theorem steady_derateZero (code : Nat) : steady (derateZero code s) = steady s := by simp [derateZero]

@[simp] theorem steady_staleFx (g : Option Nat) : steady (staleFx g s) = steady s := by
  cases g <;> simp [staleFx]

@[simp] theorem steady_tempFx (f : Frame) (l : List TempIn) : steady (tempFx f l s) = steady s := by simp [tempFx]
@[simp] theorem steady_derateFns (r : List Reading) (l : List TempIn) : steady (derateFns r l s) = steady s := by simp [derateFns]
@[simp] theorem steady_publishLimits (l : List Figure) : steady (publishLimits l s) = steady s := by simp [publishLimits]

@[simp] theorem steady_extremes (r : List Reading) (l : List TempIn) : steady (extremes r l s) = steady s := by
  unfold extremes
  cases highest r <;> cases lowest r <;> cases hottest l <;> simp only [steady_modPro]

@[simp] theorem steady_devFx (f : Frame) (r : List Reading) : steady (devFx f r s) = steady s := by
  unfold devFx
  dsimp only
  rw [steady_forAll]
  · rfl
  · intro g t
    split <;> simp

@[simp] theorem steady_proFrame (f : Frame) : steady (proFrame f s) = steady s := by
  unfold proFrame
  split
  · rfl
  · simp only [steady_connectWatch, steady_ite, steady_modPro, steady_prechargeStep, steady_publishLimits, steady_extremes,
      steady_devFx, steady_derateFns, steady_tempFx, steady_staleFx, steady_stackFx, steady_strOvFx, steady_pairLimits,
      steady_cellLimits, steady_classFx, steady_owFrames, steady_kfSettle, ite_self]
    rfl

end Sys2Proof.Machine
end

section
/-! FRAME_CLOSE (R19 to R22, R64, R131, R132): the coherent frame of the instant, the tick it joins, the frames that wait for QUE. -/

namespace Sys2Proof.Machine

open Sys2Proof

variable (s : State)

/-! ### What a frame's consumers move: the impedance engine, the planner's records, the stream queues -/

/-- The state less what reporting, the crossings and the consumers of a frame move. -/
def sansConsumers (s : State) : State := { sansXng s with imp := {}, cfgImp := {}, que := [], bal := {} }

theorem sansConsumers_of_sansXng {s t : State} (h : sansXng t = sansXng s) : sansConsumers t = sansConsumers s := by
  simp only [sansConsumers, h]

theorem sansConsumers_of_still {s t : State} (h : still t = still s) : sansConsumers t = sansConsumers s :=
  sansConsumers_of_sansXng (sansXng_of_still h)

@[simp] theorem sansConsumers_raise (e n : Nat) : sansConsumers (raise e n s) = sansConsumers s :=
  sansConsumers_of_still (still_raise s e n)
@[simp] theorem sansConsumers_raiseIf (b : Bool) (e n : Nat) : sansConsumers (raiseIf b e n s) = sansConsumers s :=
  sansConsumers_of_still (still_raiseIf s b e n)
@[simp] theorem sansConsumers_raiseXng (n : Nat) : sansConsumers (raiseXng n s) = sansConsumers s :=
  sansConsumers_of_still (still_raiseXng s n)
@[simp] theorem sansConsumers_refuse (x : Nat) : sansConsumers (refuse x s) = sansConsumers s :=
  sansConsumers_of_sansXng (sansXng_refuse s x)
@[simp] theorem sansConsumers_modImp (f : Imp → Imp) : sansConsumers (modImp f s) = sansConsumers s := rfl
@[simp] theorem sansConsumers_modBal (f : Bal → Bal) : sansConsumers (modBal f s) = sansConsumers s := rfl
@[simp] theorem sansConsumers_que (l : List Queue) : sansConsumers { s with que := l } = sansConsumers s := rfl
@[simp] theorem sansConsumers_modQ (q : Nat) (f : Queue → Queue) : sansConsumers (modQ q f s) = sansConsumers s := rfl
@[simp] theorem sansConsumers_ite {c : Prop} [Decidable c] (a b : State) :
    sansConsumers (if c then a else b) = if c then sansConsumers a else sansConsumers b := apply_ite sansConsumers c a b

theorem sansConsumers_lost (x : Nat) (f : Word → Word) :
    sansConsumers (modX x (fun r => { r with loss := f r.loss }) s) = sansConsumers s := by
  refine sansConsumers_of_sansXng (sansXng_modX _ _ _ ?_)
  exact fun _ => rfl

/-! ### The impedance engine on a frame that it does not process -/

@[simp] theorem sansConsumers_freshRun : sansConsumers (freshRun s) = sansConsumers s := rfl

@[simp] theorem sansConsumers_openRun (f : Frame) : sansConsumers (openRun f s) = sansConsumers s := by
  have hcfg (c : Cfg) : sansConsumers { s with cfgImp := c } = sansConsumers s := rfl
  simp [openRun, hcfg]

@[simp] theorem sansConsumers_cutRun (b : Bool) : sansConsumers (cutRun b s) = sansConsumers s := by simp [cutRun]

@[simp] theorem sansConsumers_binFrame (b : Nat) (x : SegFrame) : sansConsumers (binFrame b x s) = sansConsumers s := by
  simp [binFrame]

@[simp] theorem sansConsumers_endStep (t : Nat) : sansConsumers (endStep t s) = sansConsumers s := by
  unfold endStep
  split <;> simp

@[simp] theorem sansConsumers_stepMs (m : MsMean) : sansConsumers (stepMs m s) = sansConsumers s := by
  unfold stepMs
  dsimp only
  split <;> split <;> simp

@[simp] theorem sansConsumers_msFrame (f : Frame) (lost : Bool) : sansConsumers (msFrame f lost s) = sansConsumers s := by
  simp only [msFrame, sansConsumers_ite, sansConsumers_stepMs, sansConsumers_modImp, ite_self]

theorem sansConsumers_binFrames (x : SegFrame) (l : List Nat) :
    sansConsumers (forAll l (fun b s => binFrame b x s) s) = sansConsumers s :=
  forAll_keeps s sansConsumers l _ fun b t => sansConsumers_binFrame t b x

@[simp] theorem sansConsumers_lostFrame (f : Frame) : sansConsumers (lostFrame f s) = sansConsumers s := by
  simp [lostFrame, sansConsumers_binFrames]

@[simp] theorem sansConsumers_takeThrottle : sansConsumers (takeThrottle s) = sansConsumers s := by
  unfold takeThrottle
  split <;> rfl

/-! ### The planner's records and the queues -/

@[simp] theorem sansConsumers_creditFrame (f : Frame) (b : Bool) : sansConsumers (creditFrame f b s) = sansConsumers s := by
  simp only [creditFrame, sansConsumers_raiseIf, sansConsumers_modBal]

@[simp] theorem sansConsumers_modesInForce : sansConsumers (modesInForce s) = sansConsumers s := rfl

@[simp] theorem sansConsumers_produce (typ occ : Nat) (c : Queue → List Quad) :
    sansConsumers (produce typ occ c s) = sansConsumers s :=
  forAll_keeps s sansConsumers _ _ fun i t => by simp [appendItem]

@[simp] theorem sansConsumers_frameItems (f : Frame) : sansConsumers (frameItems f s) = sansConsumers s := by simp [frameItems]

/-! ### The aggregator -/

/-- What the aggregator collects: its frames, ticks and counts, with what it takes them under. -/
def collected (s : State) : State :=
  { fac := s.fac, cfg := s.cfg
    xng := { xrec := s.xng.xrec.map fun r => { down := r.down } }
    smp := { vStr := s.smp.vStr, frames := s.smp.frames, acc := s.smp.acc, ticks := s.smp.ticks, queFrames := s.smp.queFrames
             ovrQue := s.smp.ovrQue } }

/-- The same with the start-up that its first frame completes. -/
def collecting (s : State) : State := { collected s with pwr := { waitFirst := s.pwr.waitFirst, target := s.pwr.target } }

theorem collected_of_steady {s t : State} (h : steady t = steady s) : collected t = collected s := by
  have hs (u : State) : collected (steady u) = collected u := by simp only [collected, steady, List.map_map, Function.comp_def]
  rw [← hs t, h, hs]

theorem collecting_of_sansConsumers {s t : State} (h : sansConsumers t = sansConsumers s) : collecting t = collecting s := by
  have hs (u : State) : collecting (sansConsumers u) = collecting u := by
    simp only [collecting, collected, sansConsumers, sansXng, still, List.map_map, Function.comp_def]
  rw [← hs t, h, hs]

theorem collected_of_still {s t : State} (h : still t = still s) : collected t = collected s :=
  collected_of_steady (steady_of_still h)

/-! ### The tick in course -/

/-- Another tick in course, and other tick frames waiting. -/
def withTicks (a : Tick) (l : List Tick) (s : State) : State := modSmp (fun m => { m with acc := a, ticks := l }) s

theorem takeThrottle_smp : (takeThrottle s).smp = s.smp := by
  unfold takeThrottle
  split <;> rfl

/-- The tick in course is delivered: it is empty, and its frame waits where fewer than two do. -/
theorem collecting_deliverTick (h : s.smp.acc.n ≠ 0) : ∃ l, collecting (deliverTick s) = withTicks {} l (collecting s) ∧
    (s.smp.ticks.length < 2 → ∃ x, l = s.smp.ticks ++ [x]) := by
  have hthrottle (u : State) : collecting (takeThrottle u) = collecting u := collecting_of_sansConsumers (sansConsumers_takeThrottle u)
  have hlost (u : State) : collecting (raiseXng 2 (modX 0x0F (fun r => { r with loss := satAdd r.loss 1 }) u)) = collecting u :=
    collecting_of_sansConsumers ((sansConsumers_raiseXng _ _).trans (sansConsumers_lost _ _ fun w => satAdd w 1))
  unfold deliverTick
  rw [if_neg h]
  dsimp only
  by_cases hfull : 2 ≤ s.smp.ticks.length
  · simp only [hfull, decide_true, if_true]
    refine ⟨s.smp.ticks, (hlost _).trans ?_, fun hroom => absurd hfull (Nat.not_le.mpr hroom)⟩
    change withTicks {} (takeThrottle _).smp.ticks (collecting (takeThrottle _)) = _
    rw [hthrottle, takeThrottle_smp]
    rfl
  · simp only [hfull, decide_false, Bool.false_eq_true, if_false]
    refine ⟨s.smp.ticks ++ [?tick], ?delivered, fun _ => ⟨?tick, rfl⟩⟩
    case delivered =>
      change withTicks {} ((takeThrottle _).smp.ticks ++ [_]) (collecting (takeThrottle _)) = _
      rw [hthrottle, takeThrottle_smp]
      rfl

/-! ### Frames for IMP and QUE -/

@[simp] theorem collecting_toImp (f : Frame) : collecting (toImp f s) = collecting s := by
  unfold toImp
  split
  · rfl
  · split
    · exact collecting_of_sansConsumers (sansConsumers_refuse _ _)
    · split
      · split
        · rfl
        · have hover (u : State) (g : Smp → Smp) (old : Frame) (hg : collecting (modSmp g u) = collecting u) :
              collecting (raise 0x06 10 (lostFrame old (modSmp g u))) = collecting u :=
            (collecting_of_sansConsumers ((sansConsumers_raise _ _ _).trans (sansConsumers_lostFrame _ _))).trans hg
          refine (hover _ _ _ rfl).trans (collecting_of_sansConsumers ((sansConsumers_raiseXng _ _).trans ?_))
          exact sansConsumers_lost _ _ fun w => satAdd w 1
      · rfl

theorem downs_collecting : downs (collecting s) = downs s := by
  simp only [downs, collecting, collected, List.map_map, Function.comp_def]

/-- Other frames waiting for QUE, and another count of its overruns. -/
def withQue (l : List Frame) (w : Word) (s : State) : State := modSmp (fun m => { m with queFrames := l, ovrQue := w }) s

/-- QUE takes its frames or leaves them waiting; the ninth of a lagging QUE costs the oldest. -/
theorem collecting_toQueues (lags : Bool) (f : Frame) : ∃ l w, collecting (toQueues lags f s) = withQue l w (collecting s) ∧
    (lags = true → 8 ≤ s.smp.queFrames.length → (s.xr 0x0E).down = false →
      l = s.smp.queFrames.drop 1 ++ [f] ∧ w = satAdd s.smp.ovrQue 1) := by
  have hitems (l : List Frame) (u : State) :
      collecting (forAll l (fun f s => { frameItems f s with que := (frameItems f s).que.map fun q => { q with old := q.old - 1 } }) u) =
        collecting u :=
    collecting_of_sansConsumers (forAll_keeps u sansConsumers l _ fun g t =>
      (sansConsumers_que _ _).trans (sansConsumers_frameItems t g))
  unfold toQueues
  by_cases hdown : (s.xr 0x0E).down = true
  · rw [if_pos hdown]
    exact ⟨_, _, collecting_of_sansConsumers (sansConsumers_refuse s _), fun _ _ hup => absurd (hup.symm.trans hdown) Bool.false_ne_true⟩
  · rw [if_neg hdown]
    dsimp only
    cases lags with
    | false => exact ⟨[], s.smp.ovrQue, hitems _ _, fun h => absurd h Bool.false_ne_true⟩
    | true =>
      by_cases hroom : (s.smp.queFrames ++ [f]).length ≤ 8
      · simp only [Bool.not_true, Bool.false_eq_true, if_false, if_pos hroom]
        refine ⟨s.smp.queFrames ++ [f], s.smp.ovrQue, rfl, fun _ hfull => absurd hroom ?_⟩
        rw [List.length_append, List.length_singleton]
        omega
      · simp only [Bool.not_true, Bool.false_eq_true, if_false, if_neg hroom]
        have hlost : collecting (raiseXng 2 (modX 0x0E (fun r => { r with loss := satAdd r.loss 1 }) s)) = collecting s :=
          collecting_of_sansConsumers ((sansConsumers_raiseXng _ _).trans (sansConsumers_lost _ _ fun w => satAdd w 1))
        refine ⟨(s.smp.queFrames ++ [f]).drop 1, satAdd s.smp.ovrQue 1,
          (collecting_of_sansConsumers (sansConsumers_raise _ _ _)).trans ?_, fun _ hfull _ => ⟨?_, rfl⟩⟩
        · generalize raiseXng 2 (modX 0x0E (fun r => { r with loss := satAdd r.loss 1 }) s) = u at hlost ⊢
          change withQue _ (satAdd (collecting u).smp.ovrQue 1) (collecting u) = _
          rw [hlost]
          rfl
        · exact List.drop_append_of_le_length (by omega)

/-! ### The start-up's first frame -/

theorem steady_firstFrame (h : s.pwr.waitFirst = true → s.pwr.target ≠ some 1) : steady (firstFrame s) = steady s := by
  unfold firstFrame
  by_cases hwait : s.pwr.waitFirst = true
  · simp only [hwait, Bool.not_true, Bool.false_eq_true, if_false, raiseIf_pwr, raise_pwr, modPwr]
    split
    · rename_i t ht
      have hne : t ≠ 1 := fun h1 => h hwait (ht.trans (congrArg some h1))
      rw [steady_finishTransition _ hne]
      simp only [steady_ite, steady_setPower, steady_enterState _ (by decide : (2 : Nat) ≠ 1), steady_raiseIf, steady_raise, ite_self]
      rfl
    · simp only [steady_raiseIf, steady_raise]
      rfl
  · simp [hwait]

/-! ### The planner on a frame: inhibits, wire learning -/

@[simp] theorem steady_inhibitStops : steady (inhibitStops s) = steady s := by
  unfold inhibitStops
  split
  · rfl
  · exact steady_forAll s _ _ fun u t => by simp

@[simp] theorem steady_learnBleed (n : Nat) (on : Bool) : steady (learnBleed n on s) = steady s :=
  steady_forAll s _ _ fun u t => by simp

@[simp] theorem collected_keepWire (u : Nat) (w : WireData) : collected (keepWire u w s) = collected s := by
  have hput (v : Nat) (d : WireData) (t : State) :
      collected { modSlot v (fun b => { b with wire := some d }) t with nv := { t.nv with wires := t.nv.wires.set v (some d) } } =
        collected t := rfl
  unfold keepWire onlyIf
  dsimp only
  repeat' split
  all_goals rfl

@[simp] theorem collected_learnEnd (l : LearnRun) : collected (learnEnd l s) = collected s := by
  have hkept (good : List (Nat × WireData)) (u : State) :
      collected (forAll good (fun e s => raiseIf (decide (3277 ≤ e.2.rho)) 0x0A 6 (keepWire e.1 e.2 s)) u) = collected u :=
    forAll_keeps u collected good _ fun e t => (collected_of_still (still_raiseIf _ _ _ _)).trans (collected_keepWire t _ _)
  unfold learnEnd
  simp only [collected_of_steady (steady_completeOp _ _ _ _), collected_of_steady (steady_raiseIf _ _ _ _),
    collected_of_steady (steady_sendModes _ _), collected_of_steady (steady_stopAllPorts _), hkept]
  rfl

theorem collected_learnNext (l : LearnRun) (t : Nat) : collected (learnNext l t s) = collected s := by
  unfold learnNext
  dsimp only
  split
  · rfl
  · split
    · exact collected_learnEnd s l
    · refine collected_of_steady ((steady_modBal _ _).trans (steady_forAll _ _ _ ?_))
      exact fun p t => steady_addReq t _ _

theorem collected_learnFrame (f : Frame) : collected (learnFrame f s) = collected s := by
  unfold learnFrame
  split
  · rfl
  · split
    · exact collected_of_steady (steady_learnAbort s)
    · dsimp only
      split
      · rfl
      · split
        · exact collected_of_steady (steady_learnBleed _ _ _)
        · rfl
        · exact collected_of_steady (steady_learnBleed _ _ _)
        · exact collected_learnNext s _ _

end Sys2Proof.Machine
end

section
/-! FRAME_CLOSE, continued: the frame itself, and the statement. -/

namespace Sys2Proof.Machine

open Sys2Proof

variable (s : State)

/-! ### Instants without a block (R64) -/

/-- What the ports heard in the instant's cycle, as far as a frame reads it. -/
def heardOnPorts (s : State) : List (Nat × List (Option (Block × Bytes × Lane))) := s.prt.map fun p => (p.link, p.pos.map Pos.got)

/-- The state less the ports, the estimator and the pair unit. -/
def sansMisses (s : State) : State := { s with prt := [], est := {}, pai := {} }

theorem slotBlock_congr {s t : State} (h : heardOnPorts t = heardOnPorts s) (u : Nat) : slotBlock t u = slotBlock s u := by
  have hport (v : State) (p : Nat) : (heardOnPorts v).getD p (0, [none, none, none]) = ((v.port p).link, (v.port p).pos.map Pos.got) := by
    simp only [heardOnPorts, State.port, List.getD_eq_getElem?_getD, List.getElem?_map]
    cases v.prt[p]? <;> rfl
  have hgot (v : State) (p c : Nat) : (v.pos p c).got = ((v.port p).pos.map Pos.got).getD c none := by
    simp only [State.pos, List.getD_eq_getElem?_getD, List.getElem?_map]
    cases (v.port p).pos[c]? <;> rfl
  have hp := congrArg (fun l => l.getD (u / 3) (0, [none, none, none])) h
  simp only [hport, Prod.mk.injEq] at hp
  simp only [slotBlock, State.posU, hgot, hp]

theorem heardOnPorts_pai (x : Pai) : heardOnPorts { s with pai := x } = heardOnPorts s := rfl
theorem sansMisses_pai (x : Pai) : sansMisses { s with pai := x } = sansMisses s := rfl

theorem heardOnPorts_modPort (p : Nat) (f : Port → Port) (h : ∀ x, (f x).link = x.link ∧ (f x).pos.map Pos.got = x.pos.map Pos.got) :
    heardOnPorts (modPort p f s) = heardOnPorts s :=
  map_modify _ _ _ _ fun x => by rw [(h x).1, (h x).2]

theorem heardOnPorts_countMisses : heardOnPorts (countMisses s) = heardOnPorts s := by
  have hcount (u : Nat) (t : State) (f : Port → Port) (g : Pos → Pos) (hf : ∀ x, (f x).link = x.link ∧ (f x).pos = x.pos)
      (hg : ∀ x, (g x).got = x.got) : heardOnPorts (modPort (u / 3) f (modPos (u / 3) (u % 3) g t)) = heardOnPorts t := by
    rw [heardOnPorts_modPort _ _ _ fun x => ⟨(hf x).1, by rw [(hf x).2]⟩]
    exact heardOnPorts_modPort _ _ _ fun x => ⟨rfl, map_modify _ _ _ _ hg⟩
  unfold countMisses
  refine (forAll_keeps _ heardOnPorts _ _ fun p t => ?_).trans ((heardOnPorts_pai _ _).trans (forAll_keeps _ heardOnPorts _ _ fun u t => ?_))
  · dsimp only
    split
    · exact forAll_keeps t heardOnPorts _ _ fun _ _ => rfl
    · rfl
  · dsimp only
    split
    · rfl
    · exact hcount u t _ _ (fun _ => ⟨rfl, rfl⟩) fun _ => rfl

theorem sansMisses_countMisses : sansMisses (countMisses s) = sansMisses s := by
  unfold countMisses
  refine (forAll_keeps _ sansMisses _ _ fun p t => ?_).trans ((sansMisses_pai _ _).trans (forAll_keeps _ sansMisses _ _ fun u t => ?_))
  · dsimp only
    split
    · exact forAll_keeps t sansMisses _ _ fun _ _ => rfl
    · rfl
  · dsimp only
    split <;> rfl

theorem smp_of_sansMisses {s t : State} (h : sansMisses t = sansMisses s) : t.smp = s.smp := (congrArg State.smp h : _)

theorem cfg_of_sansMisses {s t : State} (h : sansMisses t = sansMisses s) : t.cfg = s.cfg := (congrArg State.cfg h : _)

theorem collecting_of_sansMisses {s t : State} (h : sansMisses t = sansMisses s) : collecting t = collecting s :=
  (congrArg collecting h : _)

/-! ### The frame (R131, R132, Table 4.7) -/

theorem buildFrame_missing {g u n : Nat} (hg : g < 768) (hplace : s.cfg.place g = some (u, n)) (hu : u < 144)
    (hblock : slotBlock s u = none) : (buildFrame s).v.getD g 1 = 0 ∧ ((buildFrame s).gf.getD g 0).getLsbD 0 = true := by
  have hflags : (groupFlags s u n).getLsbD 0 = true := by
    simp only [groupFlags, hblock, BitVec.getLsbD_or]
    rfl
  constructor
  · simp [buildFrame, List.getD_eq_getElem?_getD, List.getElem?_range hg, hplace, List.getElem?_range hu, hblock]
  · simpa [buildFrame, List.getD_eq_getElem?_getD, List.getElem?_range hg, hplace] using hflags

theorem buildFrame_unmapped {g : Nat} (hg : g < 768) (hplace : s.cfg.place g = none) :
    (buildFrame s).v.getD g 1 = 0 ∧ (buildFrame s).gf.getD g 0 = 0x80 := by
  constructor <;> simp [buildFrame, List.getD_eq_getElem?_getD, List.getElem?_range hg, hplace]

/-! ### The last instant of a tick -/

theorem tickLast_of_sansMisses {s t : State} (hstarted : s.smp.started = true) (h : sansMisses t = sansMisses s) :
    tickLast t = tickLast s := by
  have hsmp : t.smp = s.smp := smp_of_sansMisses h
  have hcfg : t.cfg = s.cfg := cfg_of_sansMisses h
  have hcfgSmp : t.cfgSmp = s.cfgSmp := (congrArg State.cfgSmp h : _)
  have hctl : t.ctl = s.ctl := (congrArg State.ctl h : _)
  simp [tickLast, nextStep, nextCad, nextShift, nextTime, lowCalm, tonesRun, configuredCad, perTick, hsmp, hcfg, hcfgSmp, hctl, hstarted]

/-! ### From the instant to the frame -/

/-- The two voltages of the instant as FRAME_CLOSE takes them (R131). -/
def takeVolts (v : VoltObs) (s : State) : State :=
  let ok (x : Int) (bad : Bool) : Bool := !bad && decide (x.natAbs ≤ 2600000)
  modSmp (fun m => { m with vStr := v.vStr, vLnk := v.vLnk, vStrOk := ok v.vStr v.strFault, vLnkOk := ok v.vLnk v.lnkFault }) s

/-- The state of which FRAME_CLOSE makes its frame. -/
def atFrame (v : VoltObs) (s : State) : State := countMisses (takeVolts v s)

/-- The frame joins the frames kept and the tick in course. -/
def addFrame (f : Frame) (s : State) : State :=
  modSmp (fun m => { m with frames := (f :: m.frames).take 8, acc := addToTick f m.acc, timeStep := false, closed := true }) s

theorem sansMisses_atFrame (v : VoltObs) : sansMisses (atFrame v s) = sansMisses (takeVolts v s) := sansMisses_countMisses _

theorem atFrame_smp (v : VoltObs) : (atFrame v s).smp = (takeVolts v s).smp := smp_of_sansMisses (sansMisses_atFrame s v)

theorem atFrame_cfg (v : VoltObs) : (atFrame v s).cfg = s.cfg := (cfg_of_sansMisses (sansMisses_atFrame s v)).trans rfl

theorem slotBlock_atFrame (v : VoltObs) (u : Nat) : slotBlock (atFrame v s) u = slotBlock s u :=
  (slotBlock_congr (heardOnPorts_countMisses (takeVolts v s)) u).trans rfl

theorem tickLast_atFrame (v : VoltObs) (hstarted : s.smp.started = true) : tickLast (atFrame v s) = tickLast s :=
  (tickLast_of_sansMisses (s := takeVolts v s) hstarted (sansMisses_atFrame s v)).trans rfl

theorem collecting_atFrame (v : VoltObs) : collecting (atFrame v s) = modSmp (fun m => { m with vStr := v.vStr }) (collecting s) :=
  (collecting_of_sansMisses (sansMisses_atFrame s v)).trans rfl

/-! ### From the frame to its consumers -/

theorem collecting_tick (last : Bool) (h : s.smp.acc.n ≠ 0) : ∃ a l,
    collecting (if last then deliverTick s else s) = withTicks a l (collecting s) ∧
    (last = true → a.n = 0 ∧ (s.smp.ticks.length < 2 → ∃ x, l = s.smp.ticks ++ [x])) ∧
    (last = false → a = s.smp.acc ∧ l = s.smp.ticks) := by
  cases last with
  | false => exact ⟨s.smp.acc, s.smp.ticks, rfl, fun hl => absurd hl Bool.false_ne_true, fun _ => ⟨rfl, rfl⟩⟩
  | true =>
    obtain ⟨l, hticks, hroom⟩ := collecting_deliverTick s h
    exact ⟨{}, l, hticks, fun _ => ⟨rfl, hroom⟩, fun hl => absurd hl.symm Bool.false_ne_true⟩

theorem collected_consumers (f : Frame) (h : s.pwr.waitFirst = true → s.pwr.target ≠ some 1) :
    collected (learnFrame f (inhibitStops (if ((firstFrame s).xr 0x0C).down then refuse 0x0C (firstFrame s)
      else tellEst (proFrame f (firstFrame s))))) = collected s := by
  rw [collected_learnFrame]
  refine collected_of_steady ?_
  simp only [steady_inhibitStops, steady_ite, steady_refuse, steady_tellEst, steady_proFrame, steady_firstFrame s h, ite_self]

/-- The frame in the tick in course, its charges with the planner's records. -/
def joinTick (f : Frame) (s : State) : State := modesInForce (creditFrame f false (addFrame f s))

theorem collecting_joinTick (f : Frame) : collecting (joinTick f s) =
    modSmp (fun m => { m with frames := (f :: m.frames).take 8, acc := addToTick f m.acc }) (collecting s) :=
  (collecting_of_sansConsumers ((sansConsumers_modesInForce _).trans (sansConsumers_creditFrame _ f false))).trans rfl

/-- The frame once its tick and the two readers of frames have it. -/
def frameTaken (lags last : Bool) (f : Frame) (s : State) : State :=
  toQueues lags f (toImp f (if last then deliverTick (joinTick f s) else joinTick f s))

theorem frameCloseFx_eq (v : VoltObs) : frameCloseFx v s =
    let f := buildFrame (atFrame v s)
    let t := firstFrame (frameTaken v.queLags (tickLast (atFrame v s)) f (atFrame v s))
    learnFrame f (inhibitStops (if (t.xr 0x0C).down then refuse 0x0C t else tellEst (proFrame f t))) := rfl

theorem collecting_frameTaken (lags last : Bool) (f : Frame) : ∃ a l q w,
    collecting (frameTaken lags last f s) = modSmp (fun m => { m with
      frames := (f :: m.frames).take 8, acc := a, ticks := l, queFrames := q, ovrQue := w }) (collecting s) ∧
    (last = true → a.n = 0 ∧ (s.smp.ticks.length < 2 → ∃ x, l = s.smp.ticks ++ [x])) ∧
    (last = false → a.n = s.smp.acc.n + 1 ∧ l = s.smp.ticks) ∧
    (lags = true → 8 ≤ s.smp.queFrames.length → (s.xr 0x0E).down = false →
      q = s.smp.queFrames.drop 1 ++ [f] ∧ w = satAdd s.smp.ovrQue 1) := by
  have hjoin := collecting_joinTick s f
  have hacc : (joinTick f s).smp.acc.n = s.smp.acc.n + 1 := congrArg (fun u => u.smp.acc.n) hjoin
  have hticks : (joinTick f s).smp.ticks = s.smp.ticks := congrArg (fun u => u.smp.ticks) hjoin
  obtain ⟨a, l, htick, hlast, hmid⟩ := collecting_tick (joinTick f s) last (hacc ▸ Nat.succ_ne_zero _)
  unfold frameTaken
  generalize (if last then deliverTick (joinTick f s) else joinTick f s) = u at htick ⊢
  obtain ⟨q, w, hque, hlag⟩ := collecting_toQueues (toImp f u) lags f
  have himp : collecting (toImp f u) = withTicks a l (modSmp (fun m => { m with
      frames := (f :: m.frames).take 8, acc := addToTick f m.acc }) (collecting s)) := by
    rw [collecting_toImp, htick, hjoin]
  rw [himp] at hque
  refine ⟨a, l, q, w, hque, ?_, ?_, ?_⟩
  · rwa [hticks] at hlast
  · intro h
    obtain ⟨ha, hl⟩ := hmid h
    exact ⟨ha ▸ hacc, hl.trans hticks⟩
  · have hframes : (toImp f u).smp.queFrames = s.smp.queFrames := congrArg (fun u => u.smp.queFrames) himp
    have hovr : (toImp f u).smp.ovrQue = s.smp.ovrQue := congrArg (fun u => u.smp.ovrQue) himp
    have hdowns : downs (collecting (toImp f u)) = downs (collecting s) := (congrArg downs himp).trans rfl
    rw [downs_collecting, downs_collecting] at hdowns
    have hdown : ((toImp f u).xr 0x0E).down = (s.xr 0x0E).down := by rw [xr_down, xr_down, hdowns]
    rwa [hframes, hovr, hdown] at hlag

/-- What FRAME_CLOSE does to the aggregator: the frame, the tick that it joins and may end, the frames that wait for QUE. -/
theorem collected_frameCloseFx (v : VoltObs) (hstart : s.pwr.waitFirst = true → s.pwr.target ≠ some 1) :
    let f := buildFrame (atFrame v s)
    let last := tickLast (atFrame v s)
    ∃ a l q w, collected (frameCloseFx v s) = modSmp (fun m => { m with
        vStr := v.vStr, frames := (f :: m.frames).take 8, acc := a, ticks := l, queFrames := q, ovrQue := w }) (collected s) ∧
      (last = true → a.n = 0 ∧ (s.smp.ticks.length < 2 → ∃ x, l = s.smp.ticks ++ [x])) ∧
      (last = false → a.n = s.smp.acc.n + 1 ∧ l = s.smp.ticks) ∧
      (v.queLags = true → 8 ≤ s.smp.queFrames.length → (s.xr 0x0E).down = false →
        q = s.smp.queFrames.drop 1 ++ [f] ∧ w = satAdd s.smp.ovrQue 1) := by
  intro f last
  have hat := collecting_atFrame s v
  obtain ⟨a, l, q, w, htaken, hlast, hmid, hlag⟩ := collecting_frameTaken (atFrame v s) v.queLags last f
  have hsmp : (atFrame v s).smp = (takeVolts v s).smp := atFrame_smp s v
  have hdowns : downs (collecting (atFrame v s)) = downs (collecting s) := (congrArg downs hat).trans rfl
  rw [downs_collecting, downs_collecting] at hdowns
  have hdown : ((atFrame v s).xr 0x0E).down = (s.xr 0x0E).down := by rw [xr_down, xr_down, hdowns]
  rw [hat] at htaken
  rw [hsmp] at hlast hmid hlag
  rw [hdown] at hlag
  refine ⟨a, l, q, w, ?_, hlast, hmid, hlag⟩
  rw [frameCloseFx_eq]
  change collected (learnFrame f _) = _
  generalize frameTaken v.queLags last f (atFrame v s) = u at htaken ⊢
  have hwait : u.pwr.waitFirst = s.pwr.waitFirst := congrArg (fun u => u.pwr.waitFirst) htaken
  have htarget : u.pwr.target = s.pwr.target := congrArg (fun u => u.pwr.target) htaken
  have hfirst : u.pwr.waitFirst = true → u.pwr.target ≠ some 1 := fun h => htarget ▸ hstart (hwait ▸ h)
  rw [collected_consumers u f hfirst]
  exact congrArg (fun u => { u with pwr := {} }) htaken

/-! ### The statement -/

theorem tickLast_out (s : State) (o : List Out) : tickLast { s with out := o } = tickLast s := rfl

theorem collected_execFrameClose {s : State} (v : VoltObs) (halive : alive s = true) (hcycling : cycling s = true)
    (hstarted : s.smp.started = true) (hopen : frameClosed s = false) :
    ∃ t, exec (.frameClose v) s = .next t ∧ collected t = collected (frameCloseFx v { s with out := [] }) := by
  have heffect : ∀ u : State, alive u = true → cycling u = true → u.smp.started = true → frameClosed u = false →
      (if alive u && cycling u && u.smp.started && !frameClosed u then frameCloseFx v u else u) = frameCloseFx v u := by
    intro u h1 h2 h3 h4
    simp [h1, h2, h3, h4]
  obtain ⟨t, hexec, hstill⟩ :=
    act_next (fun s => if alive s && cycling s && s.smp.started && !frameClosed s then frameCloseFx v s else s) s
  exact ⟨t, hexec, collected_of_still (hstill.trans (congrArg still (heffect _ halive hcycling hstarted hopen)))⟩

/-- Settles O41: the frame is built of the instant as it stands, then only its consumers read it; none of them takes frames or ticks back. -/
theorem framesCloseIntoTicks : Obligations.FramesCloseIntoTicks := by
  intro s v halive hcycling hstarted hopen hstart
  obtain ⟨t, hexec, hcollected⟩ := collected_execFrameClose v halive hcycling hstarted hopen
  obtain ⟨a, l, q, w, haggregate, hlast, hmid, hlag⟩ := collected_frameCloseFx { s with out := [] } v hstart
  rw [haggregate] at hcollected
  have hcfg := atFrame_cfg { s with out := [] } v
  have hsmp := atFrame_smp { s with out := [] } v
  have hblock := slotBlock_atFrame { s with out := [] } v
  have htick := (tickLast_atFrame { s with out := [] } v hstarted).trans (tickLast_out s [])
  rw [htick] at hlast hmid
  generalize atFrame v { s with out := [] } = u at *
  have hframes : t.smp.frames = (buildFrame u :: s.smp.frames).take 8 := congrArg (fun x => x.smp.frames) hcollected
  have hvStr : t.smp.vStr = v.vStr := congrArg (fun x => x.smp.vStr) hcollected
  have hacc : t.smp.acc = a := congrArg (fun x => x.smp.acc) hcollected
  have hticks : t.smp.ticks = l := congrArg (fun x => x.smp.ticks) hcollected
  have hque : t.smp.queFrames = q := congrArg (fun x => x.smp.queFrames) hcollected
  have hovr : t.smp.ovrQue = w := congrArg (fun x => x.smp.ovrQue) hcollected
  have hcfgEnd : t.cfg = s.cfg := congrArg (fun x => x.cfg) hcollected
  have hfacEnd : t.fac = s.fac := congrArg (fun x => x.fac) hcollected
  refine ⟨t, buildFrame u, hexec, hframes ▸ rfl, congrArg (fun m => m.instant) hsmp, congrArg (fun m => m.timeNs) hsmp,
    congrArg (fun m => m.vStr) hsmp, congrArg (fun m => m.vLnk) hsmp, congrArg (fun m => m.iShunt) hsmp,
    congrArg (fun m => m.iHall) hsmp, hvStr, ?missing, ?unmapped, ?last, ?mid, ?lag,
    hcfgEnd, hfacEnd⟩
  case missing =>
    intro g m n hg hplace hm hnone
    exact buildFrame_missing u hg (hcfg ▸ hplace) hm ((hblock m).trans hnone)
  case unmapped =>
    intro g hg hplace
    exact buildFrame_unmapped u hg (hcfg ▸ hplace)
  case last =>
    intro h
    obtain ⟨hempty, hroom⟩ := hlast h
    refine ⟨hacc ▸ hempty, fun hless => ?_⟩
    obtain ⟨x, hl⟩ := hroom hless
    rw [hticks, hl]
    exact ⟨by simp, List.take_left⟩
  case mid =>
    intro h
    obtain ⟨ha, hl⟩ := hmid h
    exact ⟨hacc ▸ ha, hticks.trans hl⟩
  case lag =>
    intro hlags hfull hup
    obtain ⟨hq, hw⟩ := hlag hlags hfull hup
    exact ⟨hque.trans hq, hovr.trans hw⟩

end Sys2Proof.Machine
end

section
/-! The supervisor's reset (R34 to R36, R364): what it leaves of the module, and what it settles of its own. -/

namespace Sys2Proof.Machine

open Sys2Proof

variable (s : State)

/-! ### What the supervisor's own operations leave -/

/-- The state less the supervisor's tables, the control engine and what reporting moves. -/
def sansHost (s : State) : State := { still s with ses := {}, que := [], ctl := {}, recd := {}, pai := {}, xng := {} }

theorem sansHost_of_still {s t : State} (h : still t = still s) : sansHost t = sansHost s :=
  congrArg (fun u => { u with ses := {}, que := [], ctl := {}, recd := {}, pai := {}, xng := {} }) h

@[simp] theorem sansHost_raise (e n : Nat) : sansHost (raise e n s) = sansHost s := sansHost_of_still (still_raise s e n)
@[simp] theorem sansHost_raiseIf (b : Bool) (e n : Nat) : sansHost (raiseIf b e n s) = sansHost s := sansHost_of_still (still_raiseIf s b e n)
@[simp] theorem sansHost_send (o : Out) : sansHost (send o s) = sansHost s := rfl
@[simp] theorem sansHost_ses (x : Ses) : sansHost { s with ses := x } = sansHost s := rfl
@[simp] theorem sansHost_modSess (c : Nat) (f : Sess → Sess) : sansHost (modSess c f s) = sansHost s := rfl
@[simp] theorem sansHost_modQ (q : Nat) (f : Queue → Queue) : sansHost (modQ q f s) = sansHost s := rfl
@[simp] theorem sansHost_modCtl (f : Ctl → Ctl) : sansHost (modCtl f s) = sansHost s := rfl
@[simp] theorem sansHost_modRec (f : Rec → Rec) : sansHost (modRec f s) = sansHost s := rfl
@[simp] theorem sansHost_ite {c : Prop} [Decidable c] (a b : State) :
    sansHost (if c then a else b) = if c then sansHost a else sansHost b := apply_ite sansHost c a b

@[simp] theorem sansHost_unbindQueue (i : Nat) : sansHost (unbindQueue i s) = sansHost s := by simp [unbindQueue, flushQueue]

@[simp] theorem sansHost_freeContext (c : Nat) : sansHost (freeContext c s) = sansHost s := by
  unfold freeContext
  rw [sansHost_modSess, sansHost_ses]
  refine forAll_keeps s sansHost _ _ ?_
  exact fun i t => by simp

@[simp] theorem sansHost_closeSession (c cause : Nat) (tell : Bool) : sansHost (closeSession c cause tell s) = sansHost s := by
  simp [closeSession]

@[simp] theorem sansHost_respond (r : Req) (op st : Nat) (b : Bytes) : sansHost (respond r op st b s) = sansHost s := by
  simp [respond, sendResponse]

@[simp] theorem sansHost_completeOp (op st : Nat) (b : Bytes) : sansHost (completeOp op st b s) = sansHost s := by
  unfold completeOp
  split
  · simp [complete]
  · rfl

@[simp] theorem sansHost_answerStart (st : Nat) (b : Bytes) : sansHost (answerStart st b s) = sansHost s := by
  unfold answerStart
  split
  · rfl
  · simp

@[simp] theorem sansHost_backFx : sansHost (backFx s) = sansHost s := by simp [backFx]
@[simp] theorem sansHost_srcTaken (n : Nat) : sansHost (srcTaken n s) = sansHost s := by simp [srcTaken]
@[simp] theorem sansHost_srcWatch (old : Nat) : sansHost (srcWatch old s) = sansHost s := by simp [srcWatch]
@[simp] theorem sansHost_haltEngine (st cause fault : Nat) : sansHost (haltEngine st cause fault s) = sansHost s := by simp [haltEngine]

@[simp] theorem sansHost_parkEngine (cause : Nat) : sansHost (parkEngine cause s) = sansHost s := by
  simp [parkEngine, parkEngineWith]

@[simp] theorem sansHost_dropSnaps : sansHost (dropSnaps s) = sansHost s :=
  forAll_keeps (modRec (fun d => { d with snaps := [] }) s) sansHost _ _ fun _ t => by simp

/-! ### Sessions end -/

theorem opened_of_still {s t : State} (h : still t = still s) (c : Nat) : (t.sess c).opened = (s.sess c).opened := by
  have hopened (u : State) : ((still u).sess c).opened = (u.sess c).opened := by
    simp only [State.sess, still, List.getD_eq_getElem?_getD, List.getElem?_map]
    cases u.ses.ctx[c]? <;> rfl
  exact of_still (fun u => (u.sess c).opened) hopened h

theorem opened_freeContext (c d : Nat) : ((freeContext c s).sess d).opened = ((s.sess d).opened && c != d) := by
  have hqueues (u : State) : ((forAll (List.range 64) (fun i t =>
      let q := t.queue i
      if q.bound && q.ctx.toNat == c then unbindQueue i t else t) u).sess d).opened = (u.sess d).opened := by
    refine forAll_keeps u (fun v => (v.sess d).opened) _ _ ?_
    intro i t
    dsimp only
    split
    · exact opened_of_still (t := flushQueue i t) (s := modQ i Queue.flush t) (still_raise _ _ _) d
    · rfl
  unfold freeContext
  rw [← hqueues s]
  generalize forAll (List.range 64) _ s = u
  simp only [State.sess, modSess, List.getD_eq_getElem?_getD, List.getElem?_modify]
  by_cases hcd : c = d
  · subst hcd
    cases u.ses.ctx[c]? <;> simp
  · cases u.ses.ctx[d]? <;> simp [hcd]

/-- An operation for each entry of a list that settles its entry for good settles them all. -/
theorem forAll_each {α : Type} (P : α → State → Prop) (f : α → State → State) (hdo : ∀ a s, P a (f a s))
    (hkeep : ∀ a b s, P b s → P b (f a s)) (l : List α) : ∀ a ∈ l, P a (forAll l f s) := by
  have hstays : ∀ (l : List α) (b : α) (s : State), P b s → P b (forAll l f s) := by
    intro l b
    induction l with
    | nil => exact fun s h => h
    | cons a l ih => exact fun s h => ih (f a s) (hkeep a b s h)
  induction l generalizing s with
  | nil => exact fun a ha => absurd ha List.not_mem_nil
  | cons b l ih =>
    intro a ha
    rcases List.mem_cons.mp ha with rfl | ha
    · exact hstays l a (f a s) (hdo a s)
    · exact ih (f b s) a ha

theorem opened_closeSession (c d cause : Nat) (tell : Bool) :
    ((closeSession c cause tell s).sess d).opened = ((s.sess d).opened && c != d) := by
  unfold closeSession
  by_cases hopen : (s.sess c).opened = true
  · rw [if_pos hopen, opened_of_still (still_raise _ _ _), opened_freeContext]
    cases tell <;> rfl
  · rw [if_neg hopen]
    by_cases hcd : c = d
    · subst hcd
      simpa using hopen
    · simp [hcd]

theorem closeAll_opened (cause : Nat) {c : Nat} (hc : c < 256) : ((closeAll cause s).sess c).opened = false := by
  refine forAll_each s (fun c t => (t.sess c).opened = false) (fun c t => closeSession c cause true t) ?_ ?_ _ c (List.mem_range.mpr hc)
  · intro a t
    simp [opened_closeSession]
  · intro a b t h
    simp [opened_closeSession, h]

/-- Every context in use is freed, without a CLOSE. -/
def freeAll (s : State) : State :=
  forAll (List.range 256) (fun c s => if (s.sess c).opened || (s.sess c).half then freeContext c s else s) s

@[simp] theorem sansHost_freeAll : sansHost (freeAll s) = sansHost s :=
  forAll_keeps s sansHost _ _ fun c t => by simp

theorem freeAll_opened {c : Nat} (hc : c < 256) : ((freeAll s).sess c).opened = false := by
  refine forAll_each s (fun c t => (t.sess c).opened = false)
    (fun c s => if (s.sess c).opened || (s.sess c).half then freeContext c s else s) ?_ ?_ _ c (List.mem_range.mpr hc)
  · intro a t
    split
    · simp [opened_freeContext]
    · rename_i hunused
      exact Bool.eq_false_of_not_eq_true fun h => hunused (by simp [h])
  · intro a b t h
    split
    · simp [opened_freeContext, h]
    · exact h

/-! ### What the reset has settled stays so while it abandons a transition -/

/-- Stores, channels, the engine's state with the host's set-point, deferred commands, and which sessions are open. -/
def hostLeft (s : State) : State :=
  { fac := s.fac, nv := s.nv, recNv := s.recNv, cfg := s.cfg, image := s.image
    pro := { kA := s.pro.kA, kB := s.pro.kB }, ctl := { state := s.ctl.state, spHost := s.ctl.spHost }
    ses := { deferred := s.ses.deferred, hsReady := s.ses.hsReady, ctx := s.ses.ctx.map fun x => { opened := x.opened } } }

theorem hostLeft_of_sansXng {s t : State} (h : sansXng t = sansXng s) : hostLeft t = hostLeft s := by
  have hs (u : State) : hostLeft (sansXng u) = hostLeft u := by
    simp only [hostLeft, sansXng, still, List.map_map, Function.comp_def]
  rw [← hs t, h, hs]

@[simp] theorem hostLeft_raise (e n : Nat) : hostLeft (raise e n s) = hostLeft s :=
  hostLeft_of_sansXng (sansXng_of_still (still_raise s e n))
@[simp] theorem hostLeft_offer (x : Nat) (v : XVal) : hostLeft (offer x v s) = hostLeft s := hostLeft_of_sansXng (sansXng_offer s x v)
@[simp] theorem hostLeft_tellEst : hostLeft (tellEst s) = hostLeft s := hostLeft_of_sansXng (sansXng_tellEst s)
@[simp] theorem hostLeft_insPass : hostLeft (insPass s) = hostLeft s := hostLeft_of_sansXng (sansXng_insPass s)
@[simp] theorem hostLeft_modSmp (f : Smp → Smp) : hostLeft (modSmp f s) = hostLeft s := rfl
@[simp] theorem hostLeft_modIns (f : Ins → Ins) : hostLeft (modIns f s) = hostLeft s := rfl
@[simp] theorem hostLeft_modRec (f : Rec → Rec) : hostLeft (modRec f s) = hostLeft s := rfl
@[simp] theorem hostLeft_disarmed : hostLeft (disarmed s) = hostLeft s := rfl
@[simp] theorem hostLeft_ite {c : Prop} [Decidable c] (a b : State) :
    hostLeft (if c then a else b) = if c then hostLeft a else hostLeft b := apply_ite hostLeft c a b

@[simp] theorem hostLeft_takeThrottle : hostLeft (takeThrottle s) = hostLeft s := by
  unfold takeThrottle
  split <;> rfl

@[simp] theorem hostLeft_disarm : hostLeft (disarm s) = hostLeft s := by simp [disarm]

@[simp] theorem hostLeft_zeroLapse : hostLeft (zeroLapse s) = hostLeft s := by simp [zeroLapse, onlyIf]

@[simp] theorem hostLeft_insModeSettle : hostLeft (insModeSettle s) = hostLeft s := by simp [insModeSettle]

theorem hostLeft_insChange (f : State → State) (h : ∀ t, hostLeft (f t) = hostLeft t) : hostLeft (insChange f s) = hostLeft s := by
  simp [insChange, onlyIf, h]

theorem hostLeft_modCtl (f : Ctl → Ctl) (hstate : (f s.ctl).state = s.ctl.state) (hhost : (f s.ctl).spHost = s.ctl.spHost) :
    hostLeft (modCtl f s) = hostLeft s := by
  simp only [hostLeft, modCtl, hstate, hhost]

theorem running_of_none (h : s.ses.deferred = []) (op : Nat) : running op s = none := by simp [running, h]

theorem completeOp_of_none (h : s.ses.deferred = []) (op st : Nat) (b : Bytes) : completeOp op st b s = s := by
  simp [completeOp, running_of_none s h]

theorem diagDrop_of_none (h : s.ses.deferred = []) (slots : Nat → Bool) : diagDrop slots s = s := by
  simp [diagDrop, h, forAll]

theorem hostLeft_stopSampling (h : s.ses.deferred = []) : hostLeft (stopSampling s) = hostLeft s := by
  unfold stopSampling
  rw [diagDrop_of_none s h, hostLeft_insChange _ _ hostLeft_insModeSettle, hostLeft_disarm, hostLeft_takeThrottle, hostLeft_modSmp,
    hostLeft_modCtl]
  · rw [← hostLeft_zeroLapse s]
    generalize zeroLapse s = u
    rfl
  · rfl
  · rfl

theorem hostLeft_failTransition (h : s.ses.deferred = []) (st : Nat) : hostLeft (failTransition st s) = hostLeft s := by
  unfold failTransition
  rw [completeOp_of_none]
  · rfl
  · exact h

theorem hostLeft_abandon (h : s.ses.deferred = []) : hostLeft (abandon s) = hostLeft s := by
  unfold abandon
  split
  · rfl
  · have hports : hostLeft (if s.pwr.waitFirst then stopSampling s else s) = hostLeft s := by
      rw [hostLeft_ite, hostLeft_stopSampling s h, ite_self]
    dsimp only
    rw [hostLeft_raise]
    generalize (if s.pwr.waitFirst then stopSampling s else s) = u at hports ⊢
    have hnone : u.ses.deferred = [] := (congrArg (fun u => u.ses.deferred) hports).trans h
    rw [hostLeft_failTransition u hnone, hports]

@[simp] theorem hostLeft_dropSnaps : hostLeft (dropSnaps s) = hostLeft s :=
  forAll_keeps (modRec (fun d => { d with snaps := [] }) s) hostLeft _ _ fun _ t => by simp

/-! ### The engine parks -/

@[simp] theorem hostLeft_backFx : hostLeft (backFx s) = hostLeft s := by
  unfold backFx
  rw [hostLeft_ite, hostLeft_raise, hostLeft_modCtl _ _ rfl rfl, ite_self]

@[simp] theorem hostLeft_srcTaken (n : Nat) : hostLeft (srcTaken n s) = hostLeft s := by
  unfold srcTaken
  dsimp only
  generalize hu : modCtl _ s = u
  have hleft : hostLeft u = hostLeft s := hu ▸ hostLeft_modCtl s _ rfl rfl
  simp only [hostLeft_ite, hostLeft_backFx, ite_self, hleft]

@[simp] theorem hostLeft_srcWatch (old : Nat) : hostLeft (srcWatch old s) = hostLeft s := by simp [srcWatch]

theorem hostLeft_haltEngine (st cause fault : Nat) :
    hostLeft (haltEngine st cause fault s) = modCtl (fun c => { c with state := st }) (hostLeft s) :=
  (hostLeft_srcWatch _ _).trans rfl

theorem answerStart_of_none (h : s.ses.deferred = []) (st : Nat) (b : Bytes) : answerStart st b s = s := by
  simp [answerStart, running_of_none s h]

/-- With no command deferred a park leaves the engine's state alone to change: it does not run. -/
theorem hostLeft_parkEngine (h : s.ses.deferred = []) (cause : Nat) : ∃ st, (st ≠ 2 ∧ st ≠ 3 ∧ st ≠ 4) ∧
    hostLeft (parkEngine cause s) = modCtl (fun c => { c with state := st }) (hostLeft s) := by
  have hhalt := hostLeft_haltEngine s 1 cause 0
  have hnone : (haltEngine 1 cause 0 s).ses.deferred = [] := (congrArg (fun u => u.ses.deferred) hhalt).trans h
  unfold parkEngine parkEngineWith
  by_cases hruns : engineRuns s = true
  · refine ⟨1, by decide, ?_⟩
    rw [if_pos hruns]
    change hostLeft (completeOp 0x0802 stOk [] (answerStart stForbidden _ (haltEngine 1 cause 0 s))) = _
    rw [answerStart_of_none _ hnone, completeOp_of_none _ hnone, hhalt]
  · rw [if_neg hruns]
    by_cases hshadow : s.ctl.state = 5
    · exact ⟨1, by decide, by rw [if_pos hshadow, hhalt]⟩
    · refine ⟨s.ctl.state, ?_, by rw [if_neg hshadow]; rfl⟩
      simpa [engineRuns, and_assoc] using hruns

/-! ### The reset as a whole -/

/-- No deferred command, no request waiting, nothing PENDING, and no supervisor that is ready. -/
def noRequests (s : State) : State :=
  { s with ses := { s.ses with hsReady := false, deferred := [], waiting := [] }, image := {} }

/-- The island goes down, with the cause of its reset. -/
def spcFalls (cause : Nat) (s : State) : State :=
  let s := modPai (fun p => { p with handover := false, activate := false }) s
  modLcy (fun l => { l with spcDown := true, spcInReset := true, spcCause := cause }) { s with xng := { s.xng with told := s.xng.told.erase 2 } }

/-- The engine is parked and takes no set-point of the host. -/
def hostParked (s : State) : State := modCtl (fun c => { c with spHost := 0 }) (parkEngine 4 s)

theorem spcResetFx_eq (cause : Nat) :
    spcResetFx cause s = spcFalls cause (dropSnaps (abandon (hostParked (noRequests (freeAll s))))) := by
  unfold spcResetFx spcFalls hostParked noRequests freeAll
  rfl

theorem sansHost_hostParked : sansHost (hostParked s) = sansHost s := (sansHost_modCtl _ _).trans (sansHost_parkEngine s 4)

theorem hostLeft_hostParked (h : s.ses.deferred = []) : ∃ st, (st ≠ 2 ∧ st ≠ 3 ∧ st ≠ 4) ∧
    hostLeft (hostParked s) = modCtl (fun c => { c with state := st, spHost := 0 }) (hostLeft s) := by
  obtain ⟨st, hst, hpark⟩ := hostLeft_parkEngine s h 4
  have hhost (u : State) : hostLeft (modCtl (fun c => { c with spHost := 0 }) u) = modCtl (fun c => { c with spHost := 0 }) (hostLeft u) := rfl
  exact ⟨st, hst, (hhost _).trans (hpark ▸ rfl)⟩

theorem opened_hostLeft (c : Nat) : ((hostLeft s).sess c).opened = (s.sess c).opened := by
  simp only [hostLeft, State.sess, List.getD_eq_getElem?_getD, List.getElem?_map]
  cases s.ses.ctx[c]? <;> rfl

theorem hostLeft_spcResetFx (cause : Nat) : ∃ st, (st ≠ 2 ∧ st ≠ 3 ∧ st ≠ 4) ∧
    hostLeft (spcResetFx cause s) = modCtl (fun c => { c with state := st, spHost := 0 }) (hostLeft (noRequests (freeAll s))) := by
  rw [spcResetFx_eq]
  generalize freeAll s = r
  obtain ⟨st, hst, hparked⟩ := hostLeft_hostParked (noRequests r) rfl
  generalize hostParked (noRequests r) = u at hparked ⊢
  have hnone : u.ses.deferred = [] := congrArg (fun u => u.ses.deferred) hparked
  have hdropped := (hostLeft_dropSnaps (abandon u)).trans ((hostLeft_abandon u hnone).trans hparked)
  generalize dropSnaps (abandon u) = v at hdropped ⊢
  exact ⟨st, hst, hdropped⟩

/-- With no transition in course the reset leaves all but the supervisor's own parts. -/
theorem sansHost_spcResetFx (h : s.pwr.target = none) (cause : Nat) : sansHost (spcResetFx cause s) =
    { sansHost s with image := {}, lcy := { s.lcy with spcDown := true, spcInReset := true, spcCause := cause } } := by
  rw [spcResetFx_eq]
  have hfree := sansHost_freeAll s
  generalize freeAll s = r at hfree ⊢
  have hparked := sansHost_hostParked (noRequests r)
  generalize hostParked (noRequests r) = u at hparked ⊢
  have hleft : sansHost u = { sansHost s with image := {} } := hparked.trans (congrArg (fun u => { u with image := {} }) hfree)
  have htarget : u.pwr.target = none := (congrArg (fun u => u.pwr.target) hleft).trans h
  have habandon : abandon u = u := by simp [abandon, htarget]
  rw [habandon]
  have hdropped := (sansHost_dropSnaps u).trans hleft
  generalize dropSnaps u = v at hdropped ⊢
  exact congrArg (modLcy fun l => { l with spcDown := true, spcInReset := true, spcCause := cause }) hdropped

/-- What a reset settles of the supervisor, and what it leaves whatever was in course. -/
theorem spcResetFx_settles {s t : State} {cause : Nat} (h : still t = still (spcResetFx cause s)) :
    t.lcy.spcDown = true ∧ t.lcy.spcInReset = true ∧ t.lcy.spcCause = cause ∧ t.image = {} ∧
      t.ses.deferred = [] ∧ t.ses.hsReady = false ∧ (∀ c, c < 256 → (t.sess c).opened = false) ∧
      engineRuns t = false ∧ t.ctl.spHost = 0 ∧ t.pro.kA = s.pro.kA ∧ t.pro.kB = s.pro.kB ∧
      t.fac = s.fac ∧ t.cfg = s.cfg ∧ t.nv = s.nv ∧ t.recNv = s.recNv := by
  obtain ⟨st, ⟨h2, h3, h4⟩, hfx⟩ := hostLeft_spcResetFx s cause
  have hleft := (hostLeft_of_sansXng (sansXng_of_still h)).trans hfx
  have hlcy : t.lcy = (spcResetFx cause s).lcy := of_still State.lcy (fun _ => rfl) h
  rw [spcResetFx_eq] at hlcy
  have hfree := sansHost_freeAll s
  have hclosed := fun c (hc : c < 256) => freeAll_opened s hc
  generalize freeAll s = r at hleft hfree hclosed hlcy
  have hstate : t.ctl.state = st := congrArg (fun u => u.ctl.state) hleft
  have hopened (c : Nat) : (t.sess c).opened = (r.sess c).opened := by
    rw [← opened_hostLeft t c, hleft]
    exact opened_hostLeft r c
  have hkA : t.pro.kA = r.pro.kA := congrArg (fun u => u.pro.kA) hleft
  have hkB : t.pro.kB = r.pro.kB := congrArg (fun u => u.pro.kB) hleft
  have hfac : t.fac = r.fac := congrArg (fun u => u.fac) hleft
  have hcfg : t.cfg = r.cfg := congrArg (fun u => u.cfg) hleft
  have hnv : t.nv = r.nv := congrArg (fun u => u.nv) hleft
  have hrecNv : t.recNv = r.recNv := congrArg (fun u => u.recNv) hleft
  refine ⟨hlcy ▸ rfl, hlcy ▸ rfl, hlcy ▸ rfl, congrArg (fun u => u.image) hleft, congrArg (fun u => u.ses.deferred) hleft,
    congrArg (fun u => u.ses.hsReady) hleft,
    fun c hc => (hopened c).trans (hclosed c hc), ?_, congrArg (fun u => u.ctl.spHost) hleft,
    hkA.trans (congrArg (fun u => u.pro.kA) hfree), hkB.trans (congrArg (fun u => u.pro.kB) hfree),
    hfac.trans (congrArg (fun u => u.fac) hfree), hcfg.trans (congrArg (fun u => u.cfg) hfree),
    hnv.trans (congrArg (fun u => u.nv) hfree), hrecNv.trans (congrArg (fun u => u.recNv) hfree)⟩
  simp [engineRuns, hstate, h2, h3, h4]

/-- SPC_RESET of a running supervisor. -/
theorem spcReset_of_running {s : State} (halive : alive s = true) {cause : Fin 4} (hcause : cause ≠ 2) (hup : s.lcy.spcDown = false) :
    ∃ t, exec (.spcReset cause) s = .next t ∧ still t = still (spcResetFx cause.val { s with out := [] }) := by
  obtain ⟨t, hexec, hstill⟩ := act_next
    (fun s => if alive s && cause != 2 then spcResetFx cause.val (if s.lcy.spcDown then failedStart s else s) else s) s
  refine ⟨t, hexec, hstill.trans (congrArg still ?_)⟩
  have halive' : alive { s with out := [] } = true := halive
  simp only [halive', bne_iff_ne.mpr hcause, Bool.and_self, if_true, hup, Bool.false_eq_true, if_false]

end Sys2Proof.Machine
end

section
/-! The supervisor's restart (R35, R384, R393 to R395): firmware, microcode, configuration, HS_READY. -/

namespace Sys2Proof.Machine

open Sys2Proof

variable (s : State)

/-! ### The commit pulse moves the configuration alone of the steady parts (R379 to R381) -/

@[simp] theorem steady_diagAnswer (u : Nat) (b : Option Bytes) : steady (diagAnswer u b s) = steady s := by
  unfold diagAnswer
  split
  · rfl
  · dsimp only
    split
    · rfl
    · split
      · exact (steady_respond _ _ _ _ _).trans rfl
      · exact (steady_respond _ _ _ _ _).trans rfl

@[simp] theorem steady_diagDrop (slots : Nat → Bool) : steady (diagDrop slots s) = steady s :=
  steady_forAll s _ _ fun d t => by simp

@[simp] theorem steady_beginEnum (p : Nat) : steady (beginEnum p s) = steady s := by
  unfold beginEnum
  rw [steady_modPort, steady_diagDrop]
  exact steady_forAll s _ _ fun _ _ => rfl

@[simp] theorem steady_bringUp (l : List Nat) : steady (bringUp l s) = steady s := steady_forAll s _ _ fun p t => steady_beginEnum t p

@[simp] theorem steady_srcFx (n : Nat) : steady (srcFx n s) = steady s := by simp [srcFx]

@[simp] theorem steady_swapFx (old new : Bank) (b : Nat) (seed : Bool) : steady (swapFx old new b seed s) = steady s := by
  simp [swapFx]

@[simp] theorem steady_bankReqFx (b : Nat) : steady (bankReqFx b s) = steady s := by simp [bankReqFx]

@[simp] theorem steady_commitIns (a b : Cfg) : steady (commitIns a b s) = steady s := by
  have hwrite (u : State) (m c : Nat) : steady (insWrite m c u) = steady u := steady_insChange u _ ((steady_insModeSettle _).trans rfl)
  simp [commitIns, hwrite]

@[simp] theorem steady_commitFields (had : Bool) (a b : Cfg) : steady (commitFields had a b s) = steady s := by simp [commitFields]

@[simp] theorem steady_takeConfig : steady (takeConfig s) = steady s := (steady_kfSettle _).trans rfl

theorem steady_commitPulse (had : Bool) (c : Cfg) : steady (commitPulse had c s) = { steady s with cfg := c } := by
  simp only [commitPulse, steady_ite, steady_bringUp, steady_commitFields, steady_commitIns, steady_takeConfig, ite_self]
  rfl

/-! ### The stores over a restart -/

/-- Factory data, the recorder's NV region, and the NV less the marks that a boot sets on its configuration slots. -/
def stored (s : State) : State :=
  { fac := s.fac, recNv := s.recNv, nv := { s.nv with formatStale := false, prevStale := false, activeFailed := false } }

theorem stored_of_steady {s t : State} (h : steady t = steady s) : stored t = stored s := (congrArg stored h : _)

theorem stored_of_still {s t : State} (h : still t = still s) : stored t = stored s := stored_of_steady (steady_of_still h)

@[simp] theorem stored_raise (e n : Nat) : stored (raise e n s) = stored s := stored_of_still (still_raise s e n)

theorem stored_bootMarks : stored (bootMarks s) = stored s := by
  unfold bootMarks
  dsimp only
  split
  · exact (stored_raise _ _ _).trans rfl
  · rfl

theorem stored_reconfigure : stored (reconfigure s) = stored s := by
  have hcommit (had : Bool) (c : Cfg) (u : State) : stored (commitPulse had c u) = stored u := (congrArg stored (steady_commitPulse u had c) : _)
  unfold reconfigure
  dsimp only
  split
  · rfl
  · rw [hcommit, stored_bootMarks]

theorem stored_loadUcode : stored (loadUcode s) = stored s := by
  unfold loadUcode
  dsimp only
  split <;> rfl

theorem bootConfig_stale {s t : State} (h : t.nv = s.nv) : (bootConfig t).2.1 = (bootConfig s).2.1 := by
  simp only [bootConfig, ownFormat, h]
  cases s.nv.active with
  | none => rfl
  | some b =>
    by_cases hmajor : imgFormat b / 65536 ≠ s.nv.running.cfgFormat.toNat / 65536
    · simp [hmajor]
    · cases ht : (bootCheck t b).isSome <;> cases hs : (bootCheck s b).isSome <;> simp [hmajor, ht, hs]

/-! ### Marks and fallback -/

theorem carryOut_of_unmarked (h : s.nv.mark = 0) : carryOut s = s := if_pos h

theorem carryOut_keeps : (carryOut s).fac = s.fac ∧ (carryOut s).recNv = s.recNv ∧ (carryOut s).nv.creds = s.nv.creds ∧
    (carryOut s).nv.lcy = s.nv.lcy ∧ (carryOut s).nv.mark = 0 := by
  unfold carryOut
  split
  · rename_i h
    exact ⟨rfl, rfl, rfl, rfl, h⟩
  · dsimp only
    split <;> simp [modNv]

/-- A mark that names an image: the image runs where its check passes, else the slots stay. -/
theorem carryOut_of_marked {f : FwImage} (hmark : s.nv.mark ≠ 0) (himage : markedImage s = some f) :
    (carryOut s).nv.updLast = fwCheck s f.raw ∧
    (fwCheck s f.raw = stOk → (carryOut s).nv.running = f ∧ (carryOut s).nv.alternate = some s.nv.running) ∧
    (fwCheck s f.raw ≠ stOk → (carryOut s).nv.running = s.nv.running ∧ (carryOut s).nv.alternate = s.nv.alternate) := by
  unfold carryOut
  rw [if_neg hmark]
  simp only [himage]
  generalize fwCheck s f.raw = st
  cases st with
  | zero => simp [modNv, stOk]
  | succ n => simp [modNv, stOk]

theorem fallBack_keeps : (fallBack s).fac = s.fac ∧ (fallBack s).recNv = s.recNv ∧ (fallBack s).nv.creds = s.nv.creds ∧
    (fallBack s).nv.lcy = s.nv.lcy ∧ (fallBack s).nv.mark = s.nv.mark := by
  unfold fallBack
  split
  · split <;> simp [modNv]
  · exact ⟨rfl, rfl, rfl, rfl, rfl⟩

theorem fallBack_of_proven (h : s.nv.newFw = false ∨ s.nv.badStarts < 2) : fallBack s = s := by
  refine if_neg ?_
  rcases h with h | h
  · simp [h]
  · simp [Nat.not_le.mpr h]

/-- New firmware that started badly twice gives way to the image before it. -/
theorem fallBack_of_failed {f : FwImage} (hnew : s.nv.newFw = true) (hbad : 2 ≤ s.nv.badStarts) (hother : s.nv.alternate = some f) :
    (fallBack s).nv.running = f ∧ (fallBack s).nv.alternate = some s.nv.running ∧ (fallBack s).nv.updKind = 3 := by
  simp [fallBack, hnew, hbad, hother, modNv]

/-! ### The restart as a whole -/

/-- HS_READY in the NV: the firmware has proved itself, and its MIN_VER holds from then on (R395). -/
def hsProven (n : Nv) : Nv :=
  { n with newFw := false, badStarts := 0, fwMin := if n.fwMin.toNat < n.running.minVer.toNat then n.running.minVer else n.fwMin }

/-- The firmware that a restart runs. -/
def spcLoaded (s : State) : State := carryOut (fallBack s)

theorem stored_hsReached : stored (hsReached s) = modNv hsProven (stored s) := rfl

theorem stored_spcStart : stored (spcStart s) = modNv hsProven (stored (spcLoaded s)) := by
  have hready : stored (spcStart s) = stored (hsReached (reconfigure (loadUcode (spcLoaded s)))) :=
    (stored_of_still (still_recordCode _ _ _ _ _)).trans rfl
  rw [hready, stored_hsReached, stored_reconfigure, stored_loadUcode]

theorem spcLoaded_keeps : (spcLoaded s).fac = s.fac ∧ (spcLoaded s).recNv = s.recNv ∧ (spcLoaded s).nv.creds = s.nv.creds ∧
    (spcLoaded s).nv.lcy = s.nv.lcy ∧ (spcLoaded s).nv.mark = 0 := by
  obtain ⟨hfac, hrecNv, hcreds, hlcy, hmark⟩ := carryOut_keeps (fallBack s)
  obtain ⟨hfac', hrecNv', hcreds', hlcy', -⟩ := fallBack_keeps s
  exact ⟨hfac.trans hfac', hrecNv.trans hrecNv', hcreds.trans hcreds', hlcy.trans hlcy', hmark⟩

theorem hsProven_fwMin (n : Nv) : (hsProven n).fwMin.toNat = max n.fwMin.toNat n.running.minVer.toNat := by
  unfold hsProven
  dsimp only
  split <;> omega

/-- The island is up again. -/
def spcRises (s : State) : State := modLcy (fun l => { l with spcDown := false, spcInReset := false }) s

/-- A restart ends with HS_READY; its record moves nothing else. -/
theorem still_spcStart : still (spcStart s) = still (spcRises (hsReached (reconfigure (loadUcode (spcLoaded s))))) :=
  still_recordCode _ _ _ _ _

/-- What every restart settles, and what it leaves whatever firmware runs. -/
theorem spcStart_settles {s t : State} (h : still t = still (spcStart s)) :
    t.lcy.spcDown = false ∧ t.lcy.spcInReset = false ∧ t.ses.hsReady = true ∧ t.nv.mark = 0 ∧ t.nv.newFw = false ∧ t.nv.badStarts = 0 ∧
      t.fac = s.fac ∧ t.recNv = s.recNv ∧ t.nv.creds = s.nv.creds ∧ t.nv.lcy = s.nv.lcy := by
  have hstored := (stored_of_still h).trans (stored_spcStart s)
  have hup := h.trans (still_spcStart s)
  have hdown : t.lcy.spcDown = false := of_still (fun u => u.lcy.spcDown) (fun _ => rfl) hup
  have hreset : t.lcy.spcInReset = false := of_still (fun u => u.lcy.spcInReset) (fun _ => rfl) hup
  have hready : t.ses.hsReady = true := of_still (fun u => u.ses.hsReady) (fun _ => rfl) hup
  obtain ⟨hfac, hrecNv, hcreds, hlcy, hmark⟩ := spcLoaded_keeps s
  generalize spcLoaded s = u at hstored hfac hrecNv hcreds hlcy hmark
  exact ⟨hdown, hreset, hready, (congrArg (fun v => v.nv.mark) hstored).trans hmark, congrArg (fun v => v.nv.newFw) hstored,
    congrArg (fun v => v.nv.badStarts) hstored, (congrArg (fun v => v.fac) hstored).trans hfac,
    (congrArg (fun v => v.recNv) hstored).trans hrecNv, (congrArg (fun v => v.nv.creds) hstored).trans hcreds,
    (congrArg (fun v => v.nv.lcy) hstored).trans hlcy⟩

/-- The slots and the last result after a restart are those of the firmware that it loaded; its MIN_VER raises the stored minimum. -/
theorem spcStart_slots {s t : State} (h : still t = still (spcStart s)) :
    t.nv.running = (spcLoaded s).nv.running ∧ t.nv.alternate = (spcLoaded s).nv.alternate ∧
      t.nv.updLast = (spcLoaded s).nv.updLast ∧ t.nv.updKind = (spcLoaded s).nv.updKind ∧
      t.nv.fwMin.toNat = max (spcLoaded s).nv.fwMin.toNat (spcLoaded s).nv.running.minVer.toNat := by
  have hstored := (stored_of_still h).trans (stored_spcStart s)
  generalize spcLoaded s = u at hstored ⊢
  have hmin : t.nv.fwMin = (hsProven u.nv).fwMin := congrArg (fun v => v.nv.fwMin) hstored
  exact ⟨congrArg (fun v => v.nv.running) hstored, congrArg (fun v => v.nv.alternate) hstored, congrArg (fun v => v.nv.updLast) hstored,
    congrArg (fun v => v.nv.updKind) hstored, (congrArg BitVec.toNat hmin).trans (hsProven_fwMin u.nv)⟩

theorem loadUcode_keeps : (loadUcode s).nv = s.nv ∧ (loadUcode s).cfg = s.cfg ∧ (loadUcode s).pro = s.pro ∧ (loadUcode s).smp = s.smp ∧
    (loadUcode s).bal = s.bal := by
  unfold loadUcode
  dsimp only
  split <;> exact ⟨rfl, rfl, rfl, rfl, rfl⟩

/-- On the firmware that ran before, and a configuration that it judges as before, the restart leaves what runs beside the supervisor. -/
theorem spcStart_undisturbed {s t : State} (h : still t = still (spcStart s)) (hloaded : spcLoaded s = s)
    (hstale : (bootConfig s).2.1 = s.nv.formatStale) : t.cfg = s.cfg ∧ t.pro = s.pro ∧ t.smp = s.smp ∧ t.bal = s.bal := by
  obtain ⟨hnv, hcfg, hpro, hsmp, hbal⟩ := loadUcode_keeps s
  have hsame : reconfigure (loadUcode s) = loadUcode s := if_pos (by rw [bootConfig_stale hnv, hstale, hnv])
  have hup := h.trans (still_spcStart s)
  rw [hloaded, hsame] at hup
  generalize loadUcode s = u at hup hcfg hpro hsmp hbal
  exact ⟨(of_still (fun v => v.cfg) (fun _ => rfl) hup).trans hcfg, (of_still (fun v => v.pro) (fun _ => rfl) hup).trans hpro,
    (of_still (fun v => v.smp) (fun _ => rfl) hup).trans hsmp, (of_still (fun v => v.bal) (fun _ => rfl) hup).trans hbal⟩

/-- The command that ends the restart: ACTIVATION_PAUSE_END after an activation, else SPC_RESTART_DONE. -/
theorem restart_of_down {s : State} (halive : alive s = true) (hdown : s.lcy.spcDown = true) {c : Instr}
    (hc : (c = .spcRestartDone ∧ s.lcy.spcCause ≠ 2) ∨ (c = .activationPauseEnd ∧ s.lcy.spcCause = 2)) :
    ∃ t, exec c s = .next t ∧ still t = still (spcStart { s with out := [] }) := by
  have halive' : alive { s with out := [] } = true := halive
  rcases hc with ⟨rfl, hcause⟩ | ⟨rfl, hcause⟩
  · obtain ⟨t, hexec, hstill⟩ := act_next (fun s => if alive s && s.lcy.spcDown && s.lcy.spcCause != 2 then spcStart s else s) s
    refine ⟨t, hexec, hstill.trans (congrArg still (if_pos ?_))⟩
    simp [halive', hdown, hcause]
  · obtain ⟨t, hexec, hstill⟩ := act_next (fun s => if alive s && s.lcy.spcDown && s.lcy.spcCause == 2 then spcStart s else s) s
    refine ⟨t, hexec, hstill.trans (congrArg still (if_pos ?_))⟩
    simp [halive', hdown, hcause]

end Sys2Proof.Machine
end

section
/-! The end of a wipe (R387, R388), and the statement on the supervisor. -/

namespace Sys2Proof.Machine

open Sys2Proof

variable (s : State)

/-! ### The stores over a wipe -/

/-- Factory data, NV, the configuration committed and the life cycle. -/
def records (s : State) : State := { fac := s.fac, nv := s.nv, recNv := s.recNv, cfg := s.cfg, lcy := { s.lcy with debugEn := false } }

theorem records_of_steady {s t : State} (h : steady t = steady s) : records t = records s := (congrArg records h : _)

theorem records_of_still {s t : State} (h : still t = still s) : records t = records s := records_of_steady (steady_of_still h)

theorem records_commitPulse (had : Bool) (c : Cfg) : records (commitPulse had c s) = { records s with cfg := c } :=
  (congrArg records (steady_commitPulse s had c) : _)

@[simp] theorem sansHost_closeAll (cause : Nat) : sansHost (closeAll cause s) = sansHost s :=
  forAll_keeps s sansHost _ _ fun c t => by simp

/-- The transition ends: LAST_STATUS is OK. -/
theorem sansHost_lcyDone : sansHost (lcyDone s) = modNv (fun n => { n with lcyLast := stOk }) (sansHost s) := by
  unfold lcyDone
  rw [sansHost_raise, sansHost_closeAll, sansHost_completeOp]
  rfl

theorem lcyDone_opened {c : Nat} (hc : c < 256) : ((lcyDone s).sess c).opened = false :=
  (opened_of_still (still_raise _ _ _) c).trans (closeAll_opened _ 4 hc)

/-! ### The set that a wipe erases -/

theorem wipeSet_fromFactory (h : s.nv.wipeFrom = 0) :
    wipeSet s = modNv (fun n => { n with creds := n.creds.filter fun c => c.id != 0 }) s := if_pos h

/-- The set beyond the configuration: credentials and the recorder's region go with a retirement alone. -/
def wipeOwn (s : State) : State := if s.nv.lcy = 4 then modNv (fun n => { n with creds := [] }) (wipeRecords (wipeFull s)) else wipeFull s

theorem records_wipeSet (h : s.nv.wipeFrom ≠ 0) :
    records (wipeSet s) = modLcy (fun l => { l with defaultsLocked := true }) { records (wipeOwn s) with cfg := defaultCfg } := by
  have hlocked (u : State) : records (modLcy (fun l => { l with defaultsLocked := true }) u) =
      modLcy (fun l => { l with defaultsLocked := true }) (records u) := rfl
  unfold wipeSet
  rw [if_neg h]
  dsimp only
  rw [records_of_still (still_raise _ _ _), hlocked, records_commitPulse]
  rfl

theorem wipeOwn_keeps : (wipeOwn s).fac = s.fac ∧ (wipeOwn s).nv.lcy = s.nv.lcy := by
  unfold wipeOwn
  split <;> exact ⟨rfl, rfl⟩

theorem wipeOwn_configuration : (wipeOwn s).nv.active = none ∧ (wipeOwn s).nv.previous = none ∧ (wipeOwn s).nv.versionHigh = 0 ∧
    (wipeOwn s).nv.copyA = {} ∧ (wipeOwn s).nv.copyB = {} ∧ (wipeOwn s).nv.staged = [] := by
  unfold wipeOwn
  split <;> exact ⟨rfl, rfl, rfl, rfl, rfl, rfl⟩

theorem wipeOwn_retired (h : s.nv.lcy = 4) :
    (wipeOwn s).nv.creds = [] ∧ (wipeOwn s).recNv.records = [] ∧ (wipeOwn s).recNv.exportMark = 0 := by
  unfold wipeOwn
  rw [if_pos h]
  exact ⟨rfl, rfl, rfl⟩

theorem wipeOwn_inUse (h : s.nv.lcy ≠ 4) : (wipeOwn s).nv.creds = s.nv.creds ∧ (wipeOwn s).recNv = s.recNv := by
  unfold wipeOwn
  rw [if_neg h]
  exact ⟨rfl, rfl⟩

/-! ### WIPE_DONE -/

/-- The verified end in the NV and the life cycle: nothing pends, nothing failed. -/
def wipeClosed (s : State) : State :=
  modNv (fun n => { n with wipePending := false, lcyLast := stOk }) (modLcy (fun l => { l with wipeFail := false }) s)

theorem wipeDoneFx_verified (h : s.nv.wipePending = true) : ∃ u, wipeDoneFx true s = lcyDone u ∧
    sansHost (lcyDone u) = wipeClosed (sansHost (wipeSet s)) := by
  refine ⟨raise 0x02 1 (modLcy (fun l => { l with wipeFail := false }) (modNv (fun n => { n with wipePending := false }) (wipeSet s))),
    by simp [wipeDoneFx, h], ?_⟩
  rw [sansHost_lcyDone, sansHost_raise]
  rfl

theorem spcUp_of_running {s : State} (halive : alive s = true) (hup : s.lcy.spcDown = false) : spcUp { s with out := [] } = true := by
  have halive' : alive { s with out := [] } = true := halive
  simp [spcUp, halive', hup]

/-- WIPE_DONE of a running supervisor. -/
theorem wipeDone_of_running {s : State} (halive : alive s = true) (hup : s.lcy.spcDown = false) (v : Bool) :
    ∃ t, exec (.wipeDone v) s = .next t ∧ still t = still (wipeDoneFx v { s with out := [] }) := by
  obtain ⟨t, hexec, hstill⟩ := act_next (fun s => if spcUp s then wipeDoneFx v s else s) s
  have hspc := spcUp_of_running halive hup
  exact ⟨t, hexec, hstill.trans (congrArg still (if_pos hspc))⟩

/-- What a verified end settles whatever the set, and the set of each source state. -/
theorem wipeDone_settles {s t : State} (hpending : s.nv.wipePending = true) (h : still t = still (wipeDoneFx true s)) :
    (∀ c, c < 256 → (t.sess c).opened = false) ∧ sansHost t = wipeClosed (sansHost (wipeSet s)) := by
  obtain ⟨u, hfx, hleft⟩ := wipeDoneFx_verified s hpending
  rw [hfx] at h
  exact ⟨fun c hc => (opened_of_still h c).trans (lcyDone_opened u hc), (sansHost_of_still h).trans hleft⟩

theorem wipeSet_keeps : (wipeSet s).fac = s.fac ∧ (wipeSet s).nv.lcy = s.nv.lcy := by
  by_cases h : s.nv.wipeFrom = 0
  · rw [wipeSet_fromFactory s h]
    exact ⟨rfl, rfl⟩
  · have hrecords := records_wipeSet s h
    obtain ⟨hfac, hlcy⟩ := wipeOwn_keeps s
    generalize wipeOwn s = w at hrecords hfac hlcy
    exact ⟨(congrArg (fun u => u.fac) hrecords).trans hfac, (congrArg (fun u => u.nv.lcy) hrecords).trans hlcy⟩

/-- Without a wipe in course WIPE_DONE does nothing. -/
theorem wipeDone_idle {s : State} (hsettled : settled s) (halive : alive s = true) (hup : s.lcy.spcDown = false)
    (h : s.nv.wipePending = false) (v : Bool) : effect (.wipeDone v) id [] [] s := by
  have hspc := spcUp_of_running halive hup
  have hfx : (fun s => if spcUp s then wipeDoneFx v s else s) { s with out := [] } = { s with out := [] } := by
    simp [hspc, wipeDoneFx, h]
  exact ⟨_, act_eq_next hfx hsettled, rfl, flagged_nil s _ rfl, rfl⟩

/-- An item that fails verification is told, and the wipe goes on. -/
theorem wipeDone_unverified {s : State} (hsettled : settled s) (halive : alive s = true) (hup : s.lcy.spcDown = false)
    (h : s.nv.wipePending = true) :
    effect (.wipeDone false) (fun s => { s with lcy := { s.lcy with wipeFail := true } }) [(2, 9)] [] s := by
  have hspc := spcUp_of_running halive hup
  have hfx : (fun s => if spcUp s then wipeDoneFx false s else s) { s with out := [] } =
      raise 0x02 9 (modLcy (fun l => { l with wipeFail := true }) { s with out := [] }) := by
    simp [hspc, wipeDoneFx, h]
  have hend : settled (raise 0x02 9 (modLcy (fun l => { l with wipeFail := true }) { s with out := [] })) :=
    settled_forAll_raise (s := modLcy (fun l => { l with wipeFail := true }) { s with out := [] }) hsettled 0x02 [9]
  refine ⟨_, act_eq_next hfx hend, (still_transmit _ _).trans (still_raise _ _ _), ?_, raise_out _ _ _⟩
  exact flagged_raise (modLcy (fun l => { l with wipeFail := true }) { s with out := [] }) 2 9 [] _ rfl (flagged_nil _ _ rfl)

/-- A wipe from the factory state erases the credentials but 0x0000 and moves nothing else of the module. -/
theorem wipeDone_fromFactory {s t : State} (hleft : sansHost t = wipeClosed (sansHost (wipeSet s))) (h : s.nv.wipeFrom = 0) :
    t.nv.creds = s.nv.creds.filter (fun c => c.id != 0) ∧ t.cfg = s.cfg ∧ t.nv.active = s.nv.active ∧ t.recNv = s.recNv ∧
      t.pro = s.pro ∧ t.smp = s.smp := by
  rw [wipeSet_fromFactory s h] at hleft
  exact ⟨congrArg (fun u => u.nv.creds) hleft, congrArg (fun u => u.cfg) hleft, congrArg (fun u => u.nv.active) hleft,
    congrArg (fun u => u.recNv) hleft, congrArg (fun u => u.pro) hleft, congrArg (fun u => u.smp) hleft⟩

/-- Any other wipe erases both configuration slots with the learned data and the staging area, and leaves defaults; a retirement erases the
credentials and the records too. -/
theorem wipeDone_ofConfiguration {s t : State} (hleft : sansHost t = wipeClosed (sansHost (wipeSet s))) (h : s.nv.wipeFrom ≠ 0) :
    t.nv.active = none ∧ t.nv.previous = none ∧ t.nv.versionHigh = 0 ∧ t.nv.copyA = {} ∧ t.nv.copyB = {} ∧ t.nv.staged = [] ∧
      t.cfg = defaultCfg ∧ t.lcy.defaultsLocked = true ∧
      (s.nv.lcy = 4 → t.nv.creds = [] ∧ t.recNv.records = [] ∧ t.recNv.exportMark = 0) ∧
      (s.nv.lcy ≠ 4 → t.nv.creds = s.nv.creds ∧ t.recNv = s.recNv) := by
  have hrecords : records t = wipeClosed (records (wipeSet s)) := (congrArg records hleft : _)
  rw [records_wipeSet s h] at hrecords
  obtain ⟨hactive, hprevious, hhigh, hcopyA, hcopyB, hstaged⟩ := wipeOwn_configuration s
  have hretired := wipeOwn_retired s
  have hinUse := wipeOwn_inUse s
  generalize wipeOwn s = w at hrecords hactive hprevious hhigh hcopyA hcopyB hstaged hretired hinUse
  have hcreds : t.nv.creds = w.nv.creds := congrArg (fun u => u.nv.creds) hrecords
  have hrecNv : t.recNv = w.recNv := congrArg (fun u => u.recNv) hrecords
  refine ⟨(congrArg (fun u => u.nv.active) hrecords).trans hactive, (congrArg (fun u => u.nv.previous) hrecords).trans hprevious,
    (congrArg (fun u => u.nv.versionHigh) hrecords).trans hhigh, (congrArg (fun u => u.nv.copyA) hrecords).trans hcopyA,
    (congrArg (fun u => u.nv.copyB) hrecords).trans hcopyB, (congrArg (fun u => u.nv.staged) hrecords).trans hstaged,
    congrArg (fun u => u.cfg) hrecords, congrArg (fun u => u.lcy.defaultsLocked) hrecords, ?_, ?_⟩
  · rw [hcreds, hrecNv]
    exact hretired
  · rw [hcreds, hrecNv]
    exact hinUse

/-! ### The statement -/

/-- Settles O54: the reset settles the supervisor's tables and leaves the rest by `sansHost`; of the restart the firmware alone differs, by the
mark or the fallback; the verified wipe is its set, then the end of the transition. -/
theorem supervisorRestartsFallsBackAndWipes : Obligations.SupervisorRestartsFallsBackAndWipes := by
  intro s halive
  refine ⟨?reset, ?restart, ?wipe⟩
  case reset =>
    intro cause hcause hup
    obtain ⟨t, hexec, hstill⟩ := spcReset_of_running halive hcause hup
    obtain ⟨hdown, hreset, hspc, himage, hdeferred, hready, hclosed, hengine, hhost, hkA, hkB, hfac, hcfg, hnv, hrecNv⟩ :=
      spcResetFx_settles hstill
    refine ⟨t, hexec, hdown, hreset, hspc, himage, hdeferred, hready, hclosed, hengine, hhost, hkA, hkB, hfac, hcfg, hnv, hrecNv, ?_⟩
    intro htarget
    have hleft := (sansHost_of_still hstill).trans (sansHost_spcResetFx { s with out := [] } htarget cause.val)
    exact ⟨congrArg (fun u => u.pro) hleft, congrArg (fun u => u.prt) hleft, congrArg (fun u => u.units) hleft,
      congrArg (fun u => u.smp) hleft, congrArg (fun u => u.ins) hleft, congrArg (fun u => u.est) hleft,
      congrArg (fun u => u.imp) hleft, congrArg (fun u => u.bal) hleft⟩
  case restart =>
    intro c hdown hc
    obtain ⟨t, hexec, hstill⟩ := restart_of_down halive hdown hc
    obtain ⟨hup, hreset, hready, hmark, hnew, hbad, hfac, hrecNv, hcreds, hlcy⟩ := spcStart_settles hstill
    obtain ⟨hrunning, halternate, hlast, hkind, hmin⟩ := spcStart_slots hstill
    refine ⟨t, hexec, hup, hreset, hready, hmark, hnew, hbad, hfac, hrecNv, hcreds, hlcy, ?_, ?_⟩
    · intro hproven
      have hback : fallBack { s with out := [] } = { s with out := [] } := fallBack_of_proven _ hproven
      have hload : spcLoaded { s with out := [] } = carryOut { s with out := [] } := congrArg carryOut hback
      rw [hload] at hrunning halternate hlast hmin
      refine ⟨fun hnone => ?_, fun f hsome himage => ?_⟩
      · have hkept := carryOut_of_unmarked { s with out := [] } hnone
        rw [hkept] at hrunning halternate hmin
        exact ⟨hrunning, halternate, hmin,
          fun hstale => spcStart_undisturbed (s := { s with out := [] }) hstill (hload.trans hkept) ((bootConfig_stale rfl).trans hstale)⟩
      · obtain ⟨hchecked, hpassed, hfailed⟩ := carryOut_of_marked { s with out := [] } hsome himage
        refine ⟨hlast.trans hchecked, fun h => ?_, fun h => ?_⟩
        · exact ⟨hrunning.trans (hpassed h).1, halternate.trans (hpassed h).2⟩
        · exact ⟨hrunning.trans (hfailed h).1, halternate.trans (hfailed h).2⟩
    · intro f hfresh htwice hother hnone
      obtain ⟨-, -, -, -, hmarks⟩ := fallBack_keeps { s with out := [] }
      have hunmarked : (fallBack { s with out := [] }).nv.mark = 0 := hmarks.trans hnone
      have hload : spcLoaded { s with out := [] } = fallBack { s with out := [] } := carryOut_of_unmarked _ hunmarked
      rw [hload] at hrunning halternate hkind
      obtain ⟨hswapped, hold, hfallback⟩ := fallBack_of_failed { s with out := [] } hfresh htwice hother
      exact ⟨hrunning.trans hswapped, halternate.trans hold, hkind.trans hfallback⟩
  case wipe =>
    intro hsettled hup
    refine ⟨fun h v => wipeDone_idle hsettled halive hup h v, fun h => wipeDone_unverified hsettled halive hup h, fun hpending => ?_⟩
    obtain ⟨t, hexec, hstill⟩ := wipeDone_of_running halive hup true
    obtain ⟨hclosed, hleft⟩ := wipeDone_settles (s := { s with out := [] }) hpending hstill
    obtain ⟨hfac, hlcy⟩ := wipeSet_keeps { s with out := [] }
    have hfactory := wipeDone_fromFactory hleft
    have hconfiguration := wipeDone_ofConfiguration hleft
    generalize wipeSet { s with out := [] } = w at hleft hfac hlcy
    exact ⟨t, hexec, congrArg (fun u => u.nv.wipePending) hleft, congrArg (fun u => u.lcy.wipeFail) hleft,
      congrArg (fun u => u.nv.lcyLast) hleft, (congrArg (fun u => u.nv.lcy) hleft).trans hlcy,
      (congrArg (fun u => u.fac) hleft).trans hfac, hclosed, hfactory, hconfiguration⟩

end Sys2Proof.Machine
end

section
/-! The way of a frame over the link (R43 to R46): what a transmitter lays behind its lead-in is what a receiver finds in the window, and
the bytes with their CRC are what it hears. -/

namespace Sys2Proof.Machine

open Sys2Proof

/-! ### The scrambler's state (R44) -/

theorem getLsbD_shiftIn (k : BitVec 11) (o : Bool) {i : Nat} (hi : i < 11) :
    ((k <<< 1) ||| (if o then 1 else 0)).getLsbD i = if i = 0 then o else k.getLsbD (i - 1) := by
  rcases Nat.eq_zero_or_pos i with rfl | hpos
  · cases o <;> simp
  · have hne : i ≠ 0 := by omega
    cases o <;> simp [hi, hne, BitVec.getLsbD_eq_getElem (show i - 1 < 11 by omega)]

theorem getLsbD_scrNext (k : BitVec 11) {i : Nat} (hi : i < 11) :
    (scrNext k).getLsbD i = if i = 0 then scrOut k else k.getLsbD (i - 1) := getLsbD_shiftIn k (scrOut k) hi

/-- No state but zero leads to zero: a scrambler that runs goes on running. -/
theorem scrNext_ne_zero {k : BitVec 11} (h : k ≠ 0) : scrNext k ≠ 0 := by
  intro hz
  have hbit : ∀ i, i < 11 → (if i = 0 then scrOut k else k.getLsbD (i - 1)) = false := by
    intro i hi
    rw [← getLsbD_scrNext k hi, hz]
    exact BitVec.getLsbD_zero
  have hlow : ∀ j, j < 10 → k.getLsbD j = false := fun j hj => by simpa using hbit (j + 1) (by omega)
  have hout : (k.getLsbD 10 ^^ k.getLsbD 8) = false := hbit 0 (by omega)
  have htop : k.getLsbD 10 = false := by rwa [hlow 8 (by omega), Bool.xor_false] at hout
  refine h (BitVec.eq_of_getLsbD_eq fun i hi => Eq.trans ?_ BitVec.getLsbD_zero.symm)
  rcases Nat.lt_or_ge i 10 with hlt | hge
  · exact hlow i hlt
  · rwa [show i = 10 by omega]

theorem iterate_scrNext_ne_zero {k : BitVec 11} (h : k ≠ 0) (n : Nat) : scrNext^[n] k ≠ 0 := by
  induction n generalizing k with
  | zero => exact h
  | succ n ih => exact ih (scrNext_ne_zero h)

/-- One more output of the scrambler on a register that holds its last outputs. -/
def takeIdle (x : BitVec 11) (b : Bool) : BitVec 11 := (x <<< 1) ||| (if b then 0 else 1)

/-- Scrambled idle spells the outputs inverted: each bit brings the register one bit nearer to the scrambler's state. -/
theorem foldl_takeIdle (n m : Nat) (x k : BitVec 11) (h : ∀ i, i < m → x.getLsbD i = k.getLsbD i) :
    ∀ i, i < 11 → i < m + n → ((scramble k (List.replicate n true)).foldl takeIdle x).getLsbD i = (scrNext^[n] k).getLsbD i := by
  induction n generalizing m x k with
  | zero => exact fun i _ hi => h i hi
  | succ n ih =>
    intro i hi hin
    have hstep : takeIdle x (true ^^ scrOut k) = (x <<< 1) ||| (if scrOut k then 1 else 0) := by
      unfold takeIdle
      cases scrOut k <;> rfl
    refine ih (min (m + 1) 11) (takeIdle x (true ^^ scrOut k)) (scrNext k) (fun j hj => ?_) i hi (by omega)
    rw [hstep, getLsbD_shiftIn x _ (by omega), getLsbD_scrNext k (by omega)]
    split
    · rfl
    · exact h (j - 1) (by omega)

theorem take_scramble (k : BitVec 11) (n : Nat) (b : Bits) : (scramble k b).take n = scramble k (b.take n) := by
  induction b generalizing k n with
  | nil => simp [scramble]
  | cons x r ih => cases n with
    | zero => rfl
    | succ n => simp [scramble, ih]

/-- The first eleven bits of idle give the state that the scrambler has after them. -/
theorem idleState_scramble (k : BitVec 11) (d : Bits) :
    idleState (scramble k (List.replicate 120 true ++ d)) = scrNext^[11] k := by
  have htake : (List.replicate 120 true ++ d).take 11 = List.replicate 11 true := rfl
  refine BitVec.eq_of_getLsbD_eq fun i hi => ?_
  rw [idleState, take_scramble, htake]
  exact foldl_takeIdle 11 0 0 k (fun i hi => absurd hi (Nat.not_lt_zero i)) i hi (by omega)

/-- Behind its lead-in a receiver reads what was sent, whatever state the scrambler opened in. -/
theorem descramble_scramble {k : BitVec 11} (h : k ≠ 0) (d : Bits) :
    descramble (scramble k (List.replicate 120 true ++ d)) = some d := by
  have hd : (scramble k (List.replicate 120 true ++ d)).drop 11 = scramble (scrNext^[11] k) (List.replicate 109 true ++ d) :=
    drop_scramble k 11 _
  have htake : (List.replicate 109 true ++ d).take 109 = List.replicate 109 true := rfl
  have hdrop : (List.replicate 109 true ++ d).drop 109 = d := rfl
  unfold descramble
  simp only [idleState_scramble, hd, scramble_scramble, htake, hdrop, length_scramble]
  have hrun : scrNext^[11] k ≠ 0#11 := iterate_scrNext_ne_zero h 11
  generalize scrNext^[11] k = j at hrun
  simp [hrun]

/-! ### Code groups in the stream (R43, R45) -/

theorem groupOf_groupBits (g : Group) (r : Bits) : groupOf (groupBits g ++ r) = g := by
  have htake : (groupBits g ++ r).take 5 = groupBits g := rfl
  have hfold : ∀ g : Group, (groupBits g).foldl (fun (g : Group) x => (g <<< 1) ||| (if x then 1 else 0)) 0 = g := by decide
  rw [groupOf, htake]
  exact hfold g

/-- The groups of a frame end with its first R. -/
theorem takeGroups_upTo_groupR (l : List Group) (r : Bits) (n : Nat) (hl : groupR ∉ l) (hn : l.length < n) :
    takeGroups n (l.flatMap groupBits ++ (groupBits groupR ++ r)) = (l ++ [groupR], r) := by
  induction l generalizing n with
  | nil =>
    obtain ⟨n, rfl⟩ : ∃ m, n = m + 1 := ⟨n - 1, by simp at hn; omega⟩
    have hlen : ¬ (groupBits groupR ++ r).length < 5 := by simp [groupBits]
    simp only [List.flatMap_nil, List.nil_append, takeGroups, hlen, if_false, groupOf_groupBits, if_true]
    rfl
  | cons g l ih =>
    obtain ⟨n, rfl⟩ : ∃ m, n = m + 1 := ⟨n - 1, by simp at hn; omega⟩
    obtain ⟨hg, hl⟩ := not_or.mp (fun h => hl (List.mem_cons.mpr h))
    have hlen (x : Bits) : ¬ (groupBits g ++ x).length < 5 := by simp [groupBits]
    have hdrop (x : Bits) : (groupBits g ++ x).drop 5 = x := rfl
    simp only [List.flatMap_cons, List.append_assoc, takeGroups, hlen, if_false, groupOf_groupBits, Ne.symm hg, hdrop,
      ih n hl (by simpa using hn), List.cons_append]

theorem groupR_notMem_byteGroups (b : Byte) : groupR ∉ byteGroups b := by
  have hdata : ∀ n : Fin 16, groupR ≠ dataGroups.getD n 0 := by decide
  have hlo := hdata ⟨b.toNat % 16, by omega⟩
  have hhi := hdata ⟨b.toNat / 16, by have := b.isLt; omega⟩
  simp only [byteGroups, List.mem_cons, List.not_mem_nil, or_false, not_or]
  exact ⟨hlo, hhi⟩

/-- A frame on the line up to its R. -/
def groupsBeforeR (b : Bytes) : List Group := groupJ :: groupK :: (b.flatMap byteGroups ++ [groupT])

theorem frameGroups_eq (b : Bytes) : frameGroups b = groupsBeforeR b ++ [groupR] := by simp [frameGroups, groupsBeforeR]

theorem groupR_notMem_groupsBeforeR (b : Bytes) : groupR ∉ groupsBeforeR b := by
  have hbytes : groupR ∉ b.flatMap byteGroups := by
    simp only [List.mem_flatMap, not_exists, not_and]
    exact fun x _ => groupR_notMem_byteGroups x
  simp only [groupsBeforeR, List.mem_cons, List.mem_append, List.not_mem_nil, or_false, not_or]
  exact ⟨by decide, by decide, hbytes, by decide⟩

theorem length_flatMap_groupBits (l : List Group) : (l.flatMap groupBits).length = 5 * l.length := by
  induction l with
  | nil => rfl
  | cons g l ih =>
    simp only [List.flatMap_cons, List.length_append, ih, List.length_cons]
    simp [groupBits]
    omega

/-- A stream that holds one frame. -/
theorem findFrames_frameGroups (b : Bytes) (n at_ : Nat) :
    findFrames (n + 1) at_ ((frameGroups b).flatMap groupBits) = [(at_, frameGroups b)] := by
  have hbits : (frameGroups b).flatMap groupBits = (groupsBeforeR b).flatMap groupBits ++ (groupBits groupR ++ []) := by
    simp [frameGroups_eq]
  have hhead : ∃ r, (groupsBeforeR b).flatMap groupBits ++ (groupBits groupR ++ []) = groupBits groupJ ++ r :=
    ⟨(groupK :: (b.flatMap byteGroups ++ [groupT])).flatMap groupBits ++ (groupBits groupR ++ []), by simp [groupsBeforeR]⟩
  have hfive : 5 ≤ ((groupsBeforeR b).flatMap groupBits ++ (groupBits groupR ++ [])).length := by
    obtain ⟨r, hr⟩ := hhead
    rw [hr]
    simp [groupBits]
  have hgroup : groupOf ((groupsBeforeR b).flatMap groupBits ++ (groupBits groupR ++ [])) = groupJ := by
    obtain ⟨r, hr⟩ := hhead
    rw [hr, groupOf_groupBits]
  have hfuel : (groupsBeforeR b).length < ((groupsBeforeR b).flatMap groupBits ++ (groupBits groupR ++ [])).length := by
    rw [List.length_append, length_flatMap_groupBits]
    simp [groupBits]
    omega
  have hsome : ((groupsBeforeR b).flatMap groupBits ++ (groupBits groupR ++ [])).isEmpty = false := by
    rw [List.isEmpty_eq_false_iff, ← List.length_pos_iff]
    omega
  have hend : findFrames n (at_ + 5 * (frameGroups b).length) [] = [] := by cases n <;> rfl
  rw [hbits, findFrames, hsome, hgroup, takeGroups_upTo_groupR _ _ _ (groupR_notMem_groupsBeforeR b) hfuel]
  simp only [Bool.false_eq_true, if_false, decide_eq_true hfive, Bool.and_self, if_true, ← frameGroups_eq, hend,
    decide_true]

/-! ### A frame is heard as it was sent -/

/-- A receiver finds in the bits of a window the frame that a transmitter put there behind its lead-in. -/
theorem windowFrames_frameBits {k : BitVec 11} (h : k ≠ 0) (b : Bytes) : windowFrames (frameBits k b) = [(120, frameGroups b)] := by
  have hwindow : frameBits k b = scramble k (List.replicate 120 true ++ (frameGroups b).flatMap groupBits) := by
    simp [frameBits, windowBits, layGroups]
  obtain ⟨n, hn⟩ : ∃ n, ((frameGroups b).flatMap groupBits).length = n + 1 := by
    refine ⟨((frameGroups b).flatMap groupBits).length - 1, ?_⟩
    rw [length_flatMap_groupBits, frameGroups]
    simp
    omega
  unfold windowFrames
  rw [hwindow, descramble_scramble h]
  simp only [hn, findFrames_frameGroups]

/-- It judges the bytes by CRC, type and length. -/
theorem hearLast_frameBits {k : BitVec 11} (h : k ≠ 0) (b : Bytes) : hearLast (frameBits k b) = some (checkFrame b) := by
  simp [hearLast, windowFrames_frameBits h, hearGroups]

theorem length_leW (w : Word) : (leW w).length = 4 := by simp [leW, le]

theorem ofNat_leNat_leW (w : Word) : BitVec.ofNat 32 (leNat (leW w)) = w := by
  have := w.isLt
  refine BitVec.eq_of_toNat_eq ?_
  simp [leW, le, leNat, List.range_succ]
  omega

/-- Bytes with their CRC, of the length that their type asks for, are a valid frame. -/
theorem checkFrame_withCrc {b : Bytes} (hne : b ≠ []) (h : typeLength (withCrc b) = some (b.length + 4)) :
    checkFrame (withCrc b) = .frame b := by
  have hlen : (withCrc b).length = b.length + 4 := by simp [withCrc, length_leW]
  have hbytes : (withCrc b).take b.length = b := by simp [withCrc]
  have hcrc : (withCrc b).drop b.length = leW (crc32 b) := by simp [withCrc]
  have hpos : 0 < b.length := List.length_pos_iff.mpr hne
  have hlong : ¬ b.length + 4 < 5 := by omega
  unfold checkFrame
  simp [hlen, hbytes, hcrc, ofNat_leNat_leW, h, hlong]

end Sys2Proof.Machine
end

section
/-! UP blocks of service cycles (R60, R61, R114): a position whose unit has been heard takes no second block, whatever it answers. -/

namespace Sys2Proof.Machine

open Sys2Proof

variable (s : State)

/-! ### Ports -/

/-- What an operation on a port keeps of every port. -/
theorem port_modPort_keeps {β : Type} (g : Port → β) {f : Port → Port} (h : ∀ x, g (f x) = g x) (p q : Nat) :
    g ((modPort p f s).port q) = g (s.port q) := by
  simp only [State.port, modPort, List.getD_eq_getElem?_getD, List.getElem?_modify]
  cases s.prt[q]? with
  | none => rfl
  | some x =>
    simp only [Option.map_eq_map, Option.map_some, Option.getD_some]
    split
    · exact h x
    · rfl

/-- A window with a valid frame marks the lane; links, positions and the service of the port stay. -/
theorem hearWindow_frame {p : Nat} {l : Lane} {rx : Bits} {b : Bytes} (hlane : laneOn s p l = true)
    (hrx : hearLast rx = some (.frame b)) :
    ∃ f : Port → Port, (∀ x, (f x).link = x.link ∧ (f x).pos = x.pos ∧ (f x).svc = x.svc) ∧
      hearWindow p l rx s = (modPort p f s, some (.frame b)) := by
  have hlocked : (descramble rx).isSome = true := by
    cases hd : descramble rx with
    | some d => rfl
    | none => simp [hearLast, windowFrames, hd] at hrx
  have hmodify (f g : Port → Port) : modPort p g (modPort p f s) = modPort p (g ∘ f) s := by
    simp [modPort, List.modify_modify_eq]
  simp only [hearWindow, hlane, hlocked, hrx, noteHeard, hmodify, Bool.not_true, Bool.false_eq_true, if_false, if_true]
  refine ⟨_, ?_, rfl⟩
  cases l <;> exact fun x => ⟨rfl, rfl, rfl⟩

/-! ### The second copy of a block -/

theorem svc_secondCopy (p n : Nat) (old b : Bytes) (q : Nat) : ((secondCopy p n old b s).port q).svc = (s.port q).svc := by
  have hcount (k : Nat) (t : State) : ((modPort p (fun x => { x with cnt := bumpAt x.cnt k }) t).port q).svc = (t.port q).svc :=
    port_modPort_keeps t Port.svc (f := fun x => { x with cnt := bumpAt x.cnt k }) (fun _ => rfl) p q
  unfold secondCopy
  dsimp only
  split
  · exact hcount 4 s
  · simp only [State.port, raise_prt]
    exact (hcount 7 _).trans (hcount 4 s)

/-- A block from a position already heard in this service cycle is a second copy: it is compared and counted. -/
theorem svcBlock_of_got {p : Nat} {b old : Bytes} {x : Block} {k : Lane} (l : Lane) (hinstant : leNat (slice b 2 2) = svcIdx s % 65536)
    (hplace : (b.getD 1 0).toNat / 4 = p) (hgot : (s.pos p ((b.getD 1 0).toNat % 4)).got = some (x, old, k)) :
    svcBlock p l b s = (secondCopy p 59 old b s, none) := by
  simp only [svcBlock, hinstant, hplace, hgot, bne_self_eq_false, beq_self_eq_true, Bool.false_eq_true, if_false, if_true]

/-- So the service of its port stays, with the assignment in flight. -/
theorem svc_upBlockFx_of_got {p : Nat} {l k : Lane} {rx : Bits} {b old : Bytes} {x : Block} (hlink : (s.port p).link = 1)
    (hlane : laneOn s p l = true) (hrx : hearLast rx = some (.frame b)) (hinstant : leNat (slice b 2 2) = svcIdx s % 65536)
    (hplace : (b.getD 1 0).toNat / 4 = p) (hgot : (s.pos p ((b.getD 1 0).toNat % 4)).got = some (x, old, k)) :
    ((upBlockFx p l rx s).port p).svc = (s.port p).svc := by
  obtain ⟨f, hf, hwindow⟩ := hearWindow_frame s hlane hrx
  have hpos : ((modPort p f s).port p).pos = (s.port p).pos := port_modPort_keeps s Port.pos (fun x => (hf x).2.1) p p
  have hsvc : ((modPort p f s).port p).svc = (s.port p).svc := port_modPort_keeps s Port.svc (fun x => (hf x).2.2) p p
  have hblock : svcBlock p l b (modPort p f s) = (secondCopy p 59 old b (modPort p f s), none) := by
    refine svcBlock_of_got (x := x) (k := k) (modPort p f s) l hinstant hplace ?_
    rwa [State.pos, hpos]
  unfold upBlockFx
  simp only [hlink, hwindow, hblock]
  simp only [bne_self_eq_false, Bool.false_and, Bool.false_eq_true, if_false, if_true]
  split
  · exact hsvc
  · exact (svc_secondCopy _ _ _ _ _ _).trans hsvc

theorem still_upBlockReceived {s t : State} {p : Fin 48} {l : Lane} {rx : Bits} (halive : alive s = true)
    (hpresent : portPresent s p.val = true) (h : exec (.upBlockReceived p l rx) s = .next t) :
    still t = still (upBlockFx p.val l rx { s with out := [] }) :=
  (still_of_act h).trans (congrArg still (if_pos (Bool.and_eq_true_iff.mpr ⟨halive, hpresent⟩)))

/-! ### The counterexample -/

/-- The answer DONE to the assignment with CSEQ 9, as a unit at address 0 sends it in service cycle 0. -/
def assignDone : Bytes := [0x20, 0x00, 0, 0, 0x80, 0] ++ List.replicate 42 0 ++ [9, 0x01, 0x00] ++ List.replicate 9 0

/-- A module whose port 0 walks: the assignment of address 0 is in flight, and a block from there came in before in this cycle. -/
def heardTwice : State :=
  modPort 0 (fun x => { x with
      link := 1
      svc := { phase := .walk, asg := some { addr := 0x00, cseq := 9 } }
      pos := x.pos.set 0 { got := some ({}, [], .S) } })
    { State.reset with pwr := { state := 2, ready := true }, smp := { started := true } }

theorem hear_assignDone : hearLast (frameBits 1 (withCrc assignDone)) = some (.frame assignDone) := by
  rw [hearLast_frameBits (by decide), checkFrame_withCrc (b := assignDone) (List.cons_ne_nil _ _) rfl]

/-- Refutes O40: on the walk a second block from a position is a second copy, which is only compared; the answer DONE that it carries leaves the
assignment in flight. Its first part holds (`hearLast_frameBits`). -/
theorem not_upBlocksAreCheckedAndTaken : ¬ Obligations.UpBlocksAreCheckedAndTaken := by
  intro h
  obtain ⟨-, hframes⟩ := h
  obtain ⟨-, hblocks⟩ := hframes heardTwice 0 .N (frameBits 1 (withCrc assignDone)) rfl rfl rfl rfl rfl
  obtain ⟨-, hservice⟩ := hblocks assignDone hear_assignDone rfl
  obtain ⟨t, hexec, -, -, hasg, -⟩ := hservice { addr := 0x00, cseq := 9 } rfl rfl (by decide) rfl (by decide) rfl rfl rfl rfl rfl rfl
  have hstill := still_upBlockReceived (s := heardTwice) (p := 0) rfl rfl hexec
  have hkept := svc_upBlockFx_of_got { heardTwice with out := [] } (p := 0) (l := .N) rfl rfl hear_assignDone rfl rfl rfl
  have hsvc : (t.port 0).svc = (heardTwice.port 0).svc := (of_still (fun u => (u.port 0).svc) (fun _ => rfl) hstill).trans hkept
  exact Option.some_ne_none _ ((congrArg Svc.asg hsvc).symm.trans hasg)

end Sys2Proof.Machine
end

section
/-! UNIT_STALE (R64, R230) of a unit whose bleed probe waits for its BLEED_SET: the probe ends, and PRO's record of it goes. -/

namespace Sys2Proof.Machine

open Sys2Proof

variable (s : State)

@[simp] theorem sansXng_pulse (x key : Nat) : sansXng (pulse x key s) = sansXng s := by
  have hput (f : Xrec → List Acc) : sansXng (modX x (fun r => { r with accs := f r }) s) = sansXng s :=
    sansXng_modX s x _ fun _ => rfl
  unfold pulse
  dsimp only
  split
  · rfl
  · split
    · exact sansXng_refuse s x
    · split
      · exact hput _
      · split
        · exact hput _
        · exact (sansXng_raiseXng _ _).trans (sansXng_modX s x _ fun _ => rfl)

theorem pulse_pro (x key : Nat) : (pulse x key s).pro = s.pro := (congrArg State.pro (sansXng_pulse s x key) : _)

/-- A probe of an investigation that ends without samples is no longer in course. -/
theorem probe_probeFailed {u : Nat} {pr : Probe} (hprobe : (s.owU u).probe = some pr) (hwire : pr.wire = none) :
    ((probeFailed u s).owU u).probe = none := by
  unfold probeFailed
  simp only [hprobe, hwire]
  simp only [State.owU, modOw, modSlot, List.getD_eq_getElem?_getD, List.getElem?_modify]
  cases s.pro.units[u]? <;> simp

/-- A unit that goes stale takes its waiting probe with it. -/
theorem probe_staleUnit {p c : Nat} {pr : Probe} (hfresh : (s.pos p c).stale = false) (hmiss : 8 ≤ (s.pos p c).missRun)
    (hwaits : (s.bal.slots.getD (slotOf p c) {}).probe = 1) (hprobe : (s.owU (slotOf p c)).probe = some pr) (hwire : pr.wire = none) :
    ((staleUnit p c s).owU (slotOf p c)).probe = none := by
  have hlate : decide ((s.pos p c).missRun < 8) = false := decide_eq_false (Nat.not_lt.mpr hmiss)
  unfold staleUnit
  simp only [hfresh, hlate, hwaits, Bool.or_self, Bool.false_eq_true, if_false, beq_self_eq_true, Bool.true_or, onlyIf, if_true]
  refine probe_probeFailed _ ?_ hwire
  simpa only [State.owU, withdraw, modBal, modPort_pro, modSlot_pro, portPulse, pulse_pro, modPos_pro] using hprobe

theorem still_unitStale {s t : State} {p : Fin 48} {c : Fin 3} (halive : alive s = true) (hpresent : portPresent s p.val = true)
    (h : exec (.unitStale p c) s = .next t) : still t = still (staleUnit p.val c.val { s with out := [] }) :=
  (still_of_act h).trans (congrArg still (if_pos (Bool.and_eq_true_iff.mpr ⟨halive, hpresent⟩)))

/-- A module whose unit 0 sent no block for 8 instants while the probe of an investigated group waits for its BLEED_SET. -/
def probeWaits : State :=
  modSlot 0 (fun b => { b with probe := 1 }) <| modOw 0 (fun o => { o with probe := some { input := 0, wire := none, base := none } }) <|
    modPos 0 0 (fun x => { x with present := true, missRun := 8 }) { State.reset with pwr := { state := 2, ready := true } }

/-- Refutes O39: where a probe waits for its BLEED_SET, the unit that goes stale ends it, so PRO does not stay as it was (R230, R259). -/
theorem not_portEventsJudgeRingLanesAndUnits : ¬ Obligations.PortEventsJudgeRingLanesAndUnits := by
  intro h
  have hslots : probeWaits.bal.slots.length = 144 := (List.length_modify _ _ _).trans List.length_replicate
  obtain ⟨-, -, -, hunits⟩ := h probeWaits 0 rfl rfl rfl
  obtain ⟨hstale, -⟩ := hunits 0
  obtain ⟨t, hexec, -, -, -, -, -, hpro⟩ := hstale rfl rfl (by decide) rfl (hslots ▸ by decide)
  have hstill := still_unitStale (s := probeWaits) (p := 0) (c := 0) rfl rfl hexec
  have hended : (t.owU 0).probe = none :=
    (of_still (fun u => (u.owU 0).probe) (fun _ => rfl) hstill).trans
      (probe_staleUnit { probeWaits with out := [] } rfl (by decide) rfl rfl rfl)
  have hkept : (t.owU 0).probe = (probeWaits.owU 0).probe := congrArg (fun x : Pro => (x.units.getD 0 {}).probe) hpro
  exact Option.some_ne_none _ (hkept.symm.trans hended)

end Sys2Proof.Machine
end

section
/-! The end of a unit's cycle (R54, R93): every note of the frame in course goes, the one that lets only the units reached transmit too. -/

namespace Sys2Proof.Machine

open Sys2Proof

theorem afterCycle_hush (x : UnitObs) (m : MUnit) : (afterCycle x m).hush = false := by
  unfold afterCycle
  dsimp only
  split <;> rfl

theorem atInstant_st (m : MUnit) : (atInstant m).st = m.st := by
  unfold atInstant
  dsimp only
  repeat' split
  all_goals rfl

/-- After its cycle a unit that is awake has no HUSH. -/
theorem hush_sampleFx {s : State} {p c : Nat} (hawake : (s.unit (slotOf p c)).st ≠ .sleep) (x : UnitObs) :
    ((sampleFx p c x s).unit (slotOf p c)).hush = false := by
  have hst : (atInstant (s.unit (slotOf p c))).st ≠ .sleep := by rwa [atInstant_st]
  have hend (u : Nat) (m : MUnit) (t : State) : ((modUnit u (fun _ => afterCycle x m) t).unit u).hush = false := by
    simp only [State.unit, modUnit, List.getD_eq_getElem?_getD, List.getElem?_modify]
    cases t.units[u]? with
    | none => rfl
    | some y => simp [afterCycle_hush]
  unfold sampleFx
  simp only [hst, if_false]
  exact hend _ _ _

/-- A module with a unit that runs and whose frame in course lets only the units reached transmit. -/
def hushedUnit : State :=
  modUnit 0 (fun m => { m with st := .running, hush := true }) { State.reset with pwr := { state := 2, ready := true } }

/-- Converters that read nothing, up windows that hold nothing. -/
def quietObs : UnitObs := { v := List.replicate 16 0, t := List.replicate 4 .opened, vstk := 0 }

/-- Refutes O60: the unit that the statement gives after UNIT_SAMPLE keeps HUSH, which the end of its cycle clears with the frame's other
notes. -/
theorem not_unitFramesSamplesAndTimeouts : ¬ Obligations.UnitFramesSamplesAndTimeouts := by
  intro h
  obtain ⟨-, hsample, -⟩ := h hushedUnit 0 0 rfl
  obtain ⟨-, -, -, hblock⟩ := hsample quietObs
  obtain ⟨t, k1, k2, l1, l2, hexec, -, -, -, -, -, hunit⟩ := hblock rfl (by decide) rfl rfl rfl (by decide)
  have hcleared : (t.unit 0).hush = false :=
    (of_still (fun u => (u.unit 0).hush) (fun _ => rfl) (still_of_act hexec)).trans
      (hush_sampleFx (s := { hushedUnit with out := [] }) (p := 0) (c := 0) (by decide) quietObs)
  have hkept : (t.unit 0).hush = true := congrArg MUnit.hush hunit
  exact Bool.false_ne_true (hcleared.symm.trans hkept)

end Sys2Proof.Machine
end

section
/-! The command set of a unit (R57, R86, R88): by its slot, its DST and its CSEQ a command is passed over, answered again, judged and executed. -/

namespace Sys2Proof.Machine

open Sys2Proof

/-! ### One unit of the state -/

/-- A unit that becomes what an operation makes of it. -/
theorem modUnit_const (u : Nat) (f : MUnit → MUnit) (s : State) : modUnit u f s = modUnit u (fun _ => f (s.unit u)) s := by
  have hunits : s.units.modify u f = s.units.modify u fun _ => f (s.unit u) := by
    refine List.ext_getElem? fun j => ?_
    rw [List.getElem?_modify, List.getElem?_modify]
    by_cases hj : u = j
    · subst hj
      cases hu : s.units[u]? <;> simp [State.unit, List.getD_eq_getElem?_getD, hu]
    · simp [hj]
  simp only [modUnit, hunits]

/-- The command makes the unit at (p, q) this one and does nothing else. -/
abbrev UnitBecomes (c : Instr) (p : Fin 48) (q : Fin 3) (x : MUnit) (s : State) : Prop :=
  effect c (modUnit (slotOf p q) fun _ => x) [] [] s

/-- The same of a command that takes a free value. -/
abbrev UnitBecomesFree (c : Instr) (p : Fin 48) (q : Fin 3) (x : MUnit) (s : State) : Prop :=
  effect c (fun s => modUnit (slotOf p q) (fun _ => x) { s with fresh := s.fresh + 1 }) [] [] s

section becomes
variable {s : State} {c : Instr} {p : Fin 48} {q i : Fin 3} {opc : Byte}

theorem unitBecomes_of_act {f : MUnit → MUnit} (hs : settled s) (hexec : ∀ s, exec c s = act (modUnit (slotOf p q) f) s) :
    UnitBecomes c p q (f (s.unit (slotOf p q))) s := by
  refine ⟨_, (hexec s).trans (act_eq_next rfl hs), ?_, flagged_nil s _ rfl, rfl⟩
  rw [still_transmit, modUnit_const]
  rfl

/-- A link command, by what its slot makes of the unit. -/
theorem unitBecomes_of_linkAct {f : LinkCmd → MUnit → MUnit} {x : MUnit} (hs : settled s)
    (hexec : ∀ s, exec c s = linkAct p q i opc f s) (hx : onSlot opc i.val f (s.unit (slotOf p q)) = x) : UnitBecomes c p q x s :=
  hx ▸ unitBecomes_of_act hs hexec

theorem unitBecomesFree_of_act {f : Word → LinkCmd → MUnit → MUnit} {x : MUnit} (hs : settled s)
    (hexec : ∀ s, exec c s =
      act (fun s => modUnit (slotOf p q) (onSlot opc i.val (f (Config.freeWord s.fresh))) { s with fresh := s.fresh + 1 }) s)
    (hx : onSlot opc i.val (f (Config.freeWord s.fresh)) (s.unit (slotOf p q)) = x) : UnitBecomesFree c p q x s := by
  subst hx
  refine ⟨_, (hexec s).trans (act_eq_next rfl hs), ?_, flagged_nil s _ rfl, rfl⟩
  rw [still_transmit, modUnit_const]
  rfl

end becomes

/-! ### Slots -/

section slots
variable {m : MUnit} {k : LinkCmd} {opc : Byte} {i : Nat} {f : LinkCmd → MUnit → MUnit}

theorem onSlot_other (h : (m.slots[i]?).map LinkCmd.opc ≠ some opc) : onSlot opc i f m = m := by
  unfold onSlot
  split
  · rename_i k hk
    rw [hk] at h
    exact if_neg fun ho => h (congrArg some ho)
  · rfl

theorem onSlot_held (hslot : m.slots[i]? = some k) (hopc : k.opc = opc) : onSlot opc i f m = f k m := by
  simp [onSlot, hslot, hopc]

/-- A command that leaves the unit, or is not in the slot. -/
theorem onSlot_idle (hslot : m.slots[i]? = some k) (h : f k m = m) : onSlot opc i f m = m := by
  simp [onSlot, hslot, h]

end slots

/-! ### Judgement (R88) -/

theorem LinkJudge.first_of_notLoaded {j : LinkJudge} (h : j.notLoaded = true) : j.first = some rsNotLoaded := if_pos h

section judge
variable {m : MUnit} {k : LinkCmd} {o : LinkOp} {st : Byte}

theorem judgeCmd_badLength (h : k.len ≠ o.len) : judgeCmd o k m = (m, rsBadLength, []) := if_pos h

theorem judgeCmd_refused (hlen : k.len = o.len) (h : (o.judge m).first = some st) : judgeCmd o k m = (m, st, []) := by
  simp [judgeCmd, hlen, h]

theorem judgeCmd_runs (hlen : k.len = o.len) (h : (o.judge m).first = none) : judgeCmd o k m = o.run m := by
  simp [judgeCmd, hlen, h]

end judge

/-! ### By its DST and CSEQ (R57, R71, R84, R86) -/

theorem repeatOwn_of_same {m : MUnit} {k : LinkCmd} {r : Resp} (hlast : m.lastOwn = some r) (hseq : r.cseq = k.cseq) :
    repeatOwn k m = some r := by
  simp [repeatOwn, hlast, hseq]

theorem repeatOwn_of_new {m : MUnit} {k : LinkCmd} (h : m.lastOwn.map Resp.cseq ≠ some k.cseq) : repeatOwn k m = none := by
  cases hl : m.lastOwn with
  | none => simp [repeatOwn, hl]
  | some r =>
    have hne : r.cseq ≠ k.cseq := by simpa [hl] using h
    simp [repeatOwn, hl, hne]

/-- The unit has no address, does not obey its frame, or the command is for others. -/
def passesOver (k : LinkCmd) (m : MUnit) : Prop := addressed m = false ∨ m.obey = false ∨ (k.dst ≠ m.addr ∧ k.dst ≠ 0xFF)

/-- A unit that passes a command over is deaf to its frame, or the DST names neither it nor all units. -/
theorem passesOver_iff {k : LinkCmd} {m : MUnit} :
    passesOver k m ↔ (!addressed m || !m.obey) = true ∨ (k.dst ≠ m.addr ∧ k.dst ≠ 255#8) := by
  simp [passesOver, or_assoc]

section passed
variable {m : MUnit} {k : LinkCmd} (h : passesOver k m)
include h

theorem linkCmd_passed (o : LinkOp) : linkCmd o k m = m := by
  rcases passesOver_iff.mp h with hdeaf | ⟨hown, hall⟩
  · simp [linkCmd, hdeaf]
  · simp [linkCmd, hown, hall]

theorem delayProbeFx_passed : delayProbeFx k m = m := by
  rcases passesOver_iff.mp h with hdeaf | ⟨hown, -⟩
  · simp [delayProbeFx, hdeaf]
  · simp [delayProbeFx, hown]

theorem unitResetFx_passed : unitResetFx k m = m := by
  rcases passesOver_iff.mp h with hdeaf | ⟨hown, hall⟩
  · simp [unitResetFx, hdeaf]
  · simp [unitResetFx, hown, hall]

theorem bleedSetFx_passed : bleedSetFx k m = m := by
  have hcmd := linkCmd_passed h (bleedSetOp k)
  have hopen : (addressed m && m.obey && m.stopFrame && k.dst == m.addr && (repeatOwn k m).isNone) = false := by
    rcases h with ha | ho | ⟨hown, -⟩
    · simp [ha]
    · simp [ho]
    · simp [hown]
  simp [bleedSetFx, hopen, hcmd]

end passed

/-- The unit obeys its frame. -/
structure Obeys (m : MUnit) : Prop where
  holds : addressed m = true
  obey : m.obey = true

theorem Obeys.hears {m : MUnit} (h : Obeys m) : (!addressed m || !m.obey) = false := by simp [h.holds, h.obey]

section repeated
variable {m : MUnit} {k : LinkCmd} {r : Resp} (h : Obeys m) (hdst : k.dst = m.addr) (hr : repeatOwn k m = some r)
include h hdst hr

theorem linkCmd_repeated (o : LinkOp) : linkCmd o k m = answerAgain r m := by simp [linkCmd, h.hears, hdst, hr]

theorem delayProbeFx_repeated : delayProbeFx k m = answerAgain r m := by simp [delayProbeFx, h.hears, hdst, hr]

theorem unitResetFx_repeated : unitResetFx k m = answerAgain r m := by simp [unitResetFx, h.hears, hdst, hr]

theorem bleedSetFx_repeated : bleedSetFx k m = answerAgain r m := by
  have hcmd := linkCmd_repeated h hdst hr (bleedSetOp k)
  simp [bleedSetFx, hr, hcmd]

end repeated

theorem linkCmd_own {m : MUnit} {k : LinkCmd} {o : LinkOp} {x : MUnit} {st : Byte} {d : Bytes} (h : Obeys m) (hdst : k.dst = m.addr)
    (hnew : repeatOwn k m = none) (hj : judgeCmd o k m = (x, st, d)) : linkCmd o k m = answered k st d x := by
  simp [linkCmd, h.hears, hdst, hnew, hj]

section broadcast
variable {m : MUnit} {k : LinkCmd} {o : LinkOp} (hdst : k.dst = 0xFF) (haddr : m.addr ≠ 0xFF)
include haddr

/-- No unit has the DST that names all of them. -/
theorem ne_addr : 255#8 ≠ m.addr := Ne.symm haddr

include hdst

theorem linkCmd_notForAll (hall : o.all = false) : linkCmd o k m = m := by
  simp [linkCmd, hdst, ne_addr haddr, hall]

theorem linkCmd_heardByAll (hlast : m.lastAll = some k.cseq) : linkCmd o k m = m := by
  simp [linkCmd, hdst, ne_addr haddr, hlast]

theorem linkCmd_broadcast {x : MUnit} {st : Byte} {d : Bytes} (h : Obeys m) (hall : o.all = true) (hnew : m.lastAll ≠ some k.cseq)
    (hj : judgeCmd o k m = (x, st, d)) : linkCmd o k m = { x with lastAll := some k.cseq } := by
  simp [linkCmd, h.hears, hdst, ne_addr haddr, hall, hnew, hj]

theorem bleedSetFx_broadcast : bleedSetFx k m = m := by
  have hcmd : linkCmd (bleedSetOp k) k m = m := linkCmd_notForAll hdst haddr rfl
  simp [bleedSetFx, hdst, ne_addr haddr, hcmd]

end broadcast

end Sys2Proof.Machine
end

section
/-! The rows of Table 3.3: what is wrong with a command (R88), what each one answers and does, and what units pass over. -/

namespace Sys2Proof.Machine

open Sys2Proof

/-! ### The first RSTAT that applies (R88) -/

section first
variable {j : LinkJudge} (hloaded : j.notLoaded = false)
include hloaded

theorem LinkJudge.first_of_loadState (h : j.loadState = true) : j.first = some rsLoadState := by simp [LinkJudge.first, hloaded, h]

variable (hload : j.loadState = false)
include hload

theorem LinkJudge.first_of_range (h : j.range = true) : j.first = some rsRange := by simp [LinkJudge.first, hloaded, hload, h]

variable (hrange : j.range = false)
include hrange

theorem LinkJudge.first_of_hot (h : j.hot = true) : j.first = some rsHot := by simp [LinkJudge.first, hloaded, hload, hrange, h]

variable (hcool : j.hot = false)
include hcool

theorem LinkJudge.first_of_adjacent (h : j.adjacent = true) : j.first = some rsAdjacent := by
  simp [LinkJudge.first, hloaded, hload, hrange, hcool, h]

variable (hapart : j.adjacent = false)
include hapart

theorem LinkJudge.first_of_crcFail (h : j.crcFail = true) : j.first = some rsCrcFail := by
  simp [LinkJudge.first, hloaded, hload, hrange, hcool, hapart, h]

theorem LinkJudge.first_eq_none (h : j.crcFail = false) : j.first = none := by
  simp [LinkJudge.first, hloaded, hload, hrange, hcool, hapart, h]

end first

theorem needRunning_of_running {m : MUnit} (h : m.st = .running) : (needRunning m).notLoaded = false := by simp [needRunning, h]

theorem needRunning_of_notRunning {m : MUnit} (h : m.st ≠ .running) : (needRunning m).notLoaded = true := by simp [needRunning, h]

/-! ### Rows -/

/-- The command is a row of Table 3.3 whose slot the unit hears by the common rules. -/
def Row (c : Instr) (p : Fin 48) (q i : Fin 3) (opc : Byte) (o : LinkCmd → LinkOp) : Prop :=
  ∀ s, exec c s = linkAct p q i opc (fun k => linkCmd (o k) k) s

/-- The same of a row whose answer has a free part. -/
def FreeRow (c : Instr) (p : Fin 48) (q i : Fin 3) (opc : Byte) (o : Word → LinkCmd → LinkOp) : Prop :=
  ∀ s, exec c s = act (fun s => modUnit (slotOf p q)
    (onSlot opc i.val (fun k => linkCmd (o (Config.freeWord s.fresh) k) k)) { s with fresh := s.fresh + 1 }) s

section rows
variable (p : Fin 48) (q i : Fin 3)

theorem identRead_row : Row (.identRead p q i) p q i 0x02 identReadOp := fun _ => rfl
theorem corrSet_row : Row (.corrSet p q i) p q i 0x03 corrSetOp := fun _ => rfl
theorem chainSet_row : Row (.chainSet p q i) p q i 0x05 chainSetOp := fun _ => rfl
theorem packIdSet_row : Row (.packIdSet p q i) p q i 0x07 packIdSetOp := fun _ => rfl
theorem loadBegin_row : Row (.loadBegin p q i) p q i 0x10 loadBeginOp := fun _ => rfl
theorem loadStart_row : Row (.loadStart p q i) p q i 0x12 loadStartOp := fun _ => rfl
theorem inputCfg_row : Row (.inputCfg p q i) p q i 0x20 inputCfgOp := fun _ => rfl
theorem tsensCfg_row : Row (.tsensCfg p q i) p q i 0x21 tsensCfgOp := fun _ => rfl
theorem bleedMode_row : Row (.bleedMode p q i) p q i 0x22 bleedModeOp := fun _ => rfl
theorem bleedStop_row : Row (.bleedStop p q i) p q i 0x31 bleedStopOp := fun _ => rfl
theorem owTest_row : Row (.owTest p q i) p q i 0x40 owTestOp := fun _ => rfl
theorem owStop_row : Row (.owStop p q i) p q i 0x41 (fun _ => owStopOp) := fun _ => rfl
theorem loadCheck_row : FreeRow (.loadCheck p q i) p q i 0x11 (fun free _ => loadCheckOp free) := fun _ => rfl
theorem diagRead_row : FreeRow (.diagRead p q i) p q i 0x50 diagReadOp := fun _ => rfl

/-- The rows heard by the common rules, each with its opcode, its payload length, and whether a broadcast may carry it. -/
def commonRows : List (Instr × Byte × Nat × Bool) :=
  [(.identRead p q i, 0x02, 1, false), (.corrSet p q i, 0x03, 8, false), (.chainSet p q i, 0x05, 1, false),
   (.packIdSet p q i, 0x07, 8, false), (.loadBegin p q i, 0x10, 8, true), (.loadStart p q i, 0x12, 4, true),
   (.inputCfg p q i, 0x20, 3, false), (.tsensCfg p q i, 0x21, 5, false), (.bleedMode p q i, 0x22, 1, true),
   (.bleedStop p q i, 0x31, 2, true), (.owTest p q i, 0x40, 5, false), (.owStop p q i, 0x41, 0, true)]

/-- Opcodes that only a running unit executes. -/
def needsFirmware (opc : Byte) : Prop := opc = 0x20 ∨ opc = 0x21 ∨ opc = 0x22 ∨ opc = 0x31 ∨ opc = 0x40 ∨ opc = 0x41

/-- What a row of the list says of its meaning. -/
structure CommonRow (e : Instr × Byte × Nat × Bool) (o : LinkCmd → LinkOp) : Prop where
  row : Row e.1 p q i e.2.1 o
  len : ∀ k, (o k).len = e.2.2.1
  all : ∀ k, (o k).all = e.2.2.2
  notLoaded : needsFirmware e.2.1 → ∀ k m, m.st ≠ .running → ((o k).judge m).notLoaded = true

theorem exists_commonRow {e : Instr × Byte × Nat × Bool} (he : e ∈ commonRows p q i) : ∃ o, CommonRow p q i e o := by
  have boot {x : Instr × Byte × Nat × Bool} {o : LinkCmd → LinkOp} (hrow : Row x.1 p q i x.2.1 o) (hlen : ∀ k, (o k).len = x.2.2.1)
      (hall : ∀ k, (o k).all = x.2.2.2) (hopc : ¬ needsFirmware x.2.1) : ∃ o, CommonRow p q i x o :=
    ⟨o, hrow, hlen, hall, fun h => absurd h hopc⟩
  have firmware {x : Instr × Byte × Nat × Bool} {o : LinkCmd → LinkOp} (hrow : Row x.1 p q i x.2.1 o) (hlen : ∀ k, (o k).len = x.2.2.1)
      (hall : ∀ k, (o k).all = x.2.2.2) (hjudge : ∀ k m, ((o k).judge m).notLoaded = (needRunning m).notLoaded) :
      ∃ o, CommonRow p q i x o :=
    ⟨o, hrow, hlen, hall, fun _ k m h => (hjudge k m).trans (needRunning_of_notRunning h)⟩
  simp only [commonRows, List.mem_cons, List.not_mem_nil, or_false] at he
  rcases he with rfl | rfl | rfl | rfl | rfl | rfl | rfl | rfl | rfl | rfl | rfl | rfl
  · exact boot (identRead_row p q i) (fun _ => rfl) (fun _ => rfl) (by simp [needsFirmware])
  · exact boot (corrSet_row p q i) (fun _ => rfl) (fun _ => rfl) (by simp [needsFirmware])
  · exact boot (chainSet_row p q i) (fun _ => rfl) (fun _ => rfl) (by simp [needsFirmware])
  · exact boot (packIdSet_row p q i) (fun _ => rfl) (fun _ => rfl) (by simp [needsFirmware])
  · exact boot (loadBegin_row p q i) (fun _ => rfl) (fun _ => rfl) (by simp [needsFirmware])
  · exact boot (loadStart_row p q i) (fun _ => rfl) (fun _ => rfl) (by simp [needsFirmware])
  · exact firmware (inputCfg_row p q i) (fun _ => rfl) (fun _ => rfl) (fun _ _ => rfl)
  · exact firmware (tsensCfg_row p q i) (fun _ => rfl) (fun _ => rfl) (fun _ _ => rfl)
  · exact firmware (bleedMode_row p q i) (fun _ => rfl) (fun _ => rfl) (fun _ _ => rfl)
  · exact firmware (bleedStop_row p q i) (fun _ => rfl) (fun _ => rfl) (fun _ _ => rfl)
  · exact firmware (owTest_row p q i) (fun _ => rfl) (fun _ => rfl) (fun _ _ => rfl)
  · exact firmware (owStop_row p q i) (fun _ => rfl) (fun _ => rfl) (fun _ _ => rfl)

end rows

/-! ### A command in a slot -/

/-- The unit at (p, q) is `m`, and slot `i` of its frame holds the command `k`. -/
structure InSlot (s : State) (p : Fin 48) (q i : Fin 3) (m : MUnit) (k : LinkCmd) : Prop where
  reported : settled s
  unit : s.unit (slotOf p q) = m
  slot : m.slots[i.val]? = some k

section inSlot
variable {s : State} {p : Fin 48} {q i : Fin 3} {m : MUnit} {k : LinkCmd} {c : Instr} {opc : Byte} (h : InSlot s p q i m k)
include h

/-- The command makes of the unit what its rule gives. -/
theorem InSlot.becomes {f : LinkCmd → MUnit → MUnit} {x : MUnit} (hexec : ∀ s, exec c s = linkAct p q i opc f s) (hopc : k.opc = opc)
    (hx : f k m = x) : UnitBecomes c p q x s := by
  refine unitBecomes_of_linkAct h.reported hexec ?_
  rw [h.unit, onSlot_held h.slot hopc, hx]

/-- A command that its rule passes over leaves the unit, whatever the slot holds. -/
theorem InSlot.stays {f : LinkCmd → MUnit → MUnit} (hexec : ∀ s, exec c s = linkAct p q i opc f s) (hx : f k m = m) :
    UnitBecomes c p q m s := by
  refine unitBecomes_of_linkAct h.reported hexec ?_
  rw [h.unit, onSlot_idle h.slot hx]

theorem InSlot.staysFree {o : Word → LinkCmd → LinkOp} (hrow : FreeRow c p q i opc o) (hpass : passesOver k m) :
    UnitBecomesFree c p q m s := by
  refine unitBecomesFree_of_act (opc := opc) (i := i) (f := fun free k => linkCmd (o free k) k) h.reported hrow ?_
  rw [h.unit]
  exact onSlot_idle (f := fun k => linkCmd (o (Config.freeWord s.fresh) k) k) h.slot (linkCmd_passed hpass _)

end inSlot

/-! ### Commands addressed to the unit -/

/-- The answer to a command, with the opcode of its row. -/
def tell (k : LinkCmd) (opc st : Byte) (d : Bytes) (x : MUnit) : MUnit := answered { k with opc := opc } st d x

theorem answered_eq_tell {k : LinkCmd} {opc : Byte} (h : k.opc = opc) (st : Byte) (d : Bytes) (x : MUnit) :
    answered k st d x = tell k opc st d x := by
  subst h
  rfl

/-- The command is addressed to the unit, which obeys its frame, and not the one that it executed last. -/
structure HearsOwn (s : State) (p : Fin 48) (q i : Fin 3) (m : MUnit) (k : LinkCmd) : Prop extends InSlot s p q i m k, Obeys m where
  dst : k.dst = m.addr
  new : repeatOwn k m = none

section own
variable {s : State} {p : Fin 48} {q i : Fin 3} {m : MUnit} {k : LinkCmd} {c : Instr} {opc : Byte} (h : HearsOwn s p q i m k)
include h

theorem HearsOwn.answers {o : LinkCmd → LinkOp} {x : MUnit} {st : Byte} {d : Bytes} (hrow : Row c p q i opc o) (hopc : k.opc = opc)
    (hj : judgeCmd (o k) k m = (x, st, d)) : UnitBecomes c p q (tell k opc st d x) s :=
  h.toInSlot.becomes hrow hopc ((linkCmd_own h.toObeys h.dst h.new hj).trans (answered_eq_tell hopc st d x))

theorem HearsOwn.refuses {o : LinkCmd → LinkOp} {st : Byte} (hrow : Row c p q i opc o) (hopc : k.opc = opc) (hlen : k.len = (o k).len)
    (hj : ((o k).judge m).first = some st) : UnitBecomes c p q (tell k opc st [] m) s :=
  h.answers hrow hopc (judgeCmd_refused hlen hj)

theorem HearsOwn.runs {o : LinkCmd → LinkOp} (hrow : Row c p q i opc o) (hopc : k.opc = opc) (hlen : k.len = (o k).len)
    (hj : ((o k).judge m).first = none) :
    UnitBecomes c p q (tell k opc ((o k).run m).2.1 ((o k).run m).2.2 ((o k).run m).1) s :=
  h.answers hrow hopc (judgeCmd_runs hlen hj)

theorem HearsOwn.answersFree {o : Word → LinkCmd → LinkOp} {x : MUnit} {st : Byte} {d : Bytes} (hrow : FreeRow c p q i opc o)
    (hopc : k.opc = opc) (hj : judgeCmd (o (Config.freeWord s.fresh) k) k m = (x, st, d)) :
    UnitBecomesFree c p q (tell k opc st d x) s := by
  refine unitBecomesFree_of_act (opc := opc) (i := i) (f := fun free k => linkCmd (o free k) k) h.reported hrow ?_
  rw [h.unit, onSlot_held h.slot hopc, linkCmd_own h.toObeys h.dst h.new hj, answered_eq_tell hopc]

/-! ### Any unit with an address -/

theorem HearsOwn.identRead (hopc : k.opc = 0x02) (hlen : k.len = 1) :
    UnitBecomes (.identRead p q i) p q (if 4 < (k.data.getD 0 0).toNat then tell k 0x02 0x07 [] m
      else tell k 0x02 0x00 (identPage m (k.data.getD 0 0).toNat) m) s := by
  split
  · rename_i hrange
    exact h.refuses (identRead_row p q i) hopc hlen (LinkJudge.first_of_range rfl rfl (decide_eq_true hrange))
  · rename_i hrange
    exact h.runs (identRead_row p q i) hopc hlen (LinkJudge.first_eq_none rfl rfl (decide_eq_false hrange) rfl rfl rfl)

theorem HearsOwn.corrSet (hopc : k.opc = 0x03) (hlen : k.len = 8) :
    UnitBecomes (.corrSet p q i) p q (tell k 0x03 0x00 [] { m with
      cfgCorrN := (corrOf (slice k.data 0 4)).or m.cfgCorrN, cfgCorrS := (corrOf (slice k.data 4 4)).or m.cfgCorrS }) s :=
  h.runs (corrSet_row p q i) hopc hlen rfl

theorem HearsOwn.chainSet (hopc : k.opc = 0x05) (hlen : k.len = 1) :
    UnitBecomes (.chainSet p q i) p q (if (k.data.getD 0 0).toNat ≤ m.addr.toNat % 4 ∨ 3 < (k.data.getD 0 0).toNat
      then tell k 0x05 0x07 [] m else tell k 0x05 0x00 [] { m with cfgChain := (k.data.getD 0 0).toNat }) s := by
  have hjudge : ((chainSetOp k).judge m).range = decide ((k.data.getD 0 0).toNat ≤ m.addr.toNat % 4 ∨ 3 < (k.data.getD 0 0).toNat) :=
    (Bool.decide_or _ _).symm
  split
  · rename_i hrange
    exact h.refuses (chainSet_row p q i) hopc hlen (LinkJudge.first_of_range rfl rfl (hjudge.trans (decide_eq_true hrange)))
  · rename_i hrange
    exact h.runs (chainSet_row p q i) hopc hlen
      (LinkJudge.first_eq_none rfl rfl (hjudge.trans (decide_eq_false hrange)) rfl rfl rfl)

theorem HearsOwn.packIdSet (hopc : k.opc = 0x07) (hlen : k.len = 8) :
    UnitBecomes (.packIdSet p q i) p q (tell k 0x07 0x00 [] { m with ident := { m.ident with packId := leNat k.data } }) s :=
  h.runs (packIdSet_row p q i) hopc hlen rfl

/-! ### The image load (R105, R106) -/

theorem HearsOwn.loadBegin (hopc : k.opc = 0x10) (hlen : k.len = 8) :
    UnitBecomes (.loadBegin p q i) p q (if m.st = .running then tell k 0x10 0x09 [] m
      else if leNat (slice k.data 0 4) = 0 ∨ 131072 < leNat (slice k.data 0 4) then tell k 0x10 0x07 [] m
      else tell k 0x10 0x00 [] { m with
        st := .loading, loadLen := leNat (slice k.data 0 4), loadCrc := BitVec.ofNat 32 (leNat (slice k.data 4 4)), segs := [],
        starting := false, begun := true }) s := by
  have hstate : ((loadBeginOp k).judge m).loadState = decide (m.st = .running) := beq_eq_decide _ _
  have hjudge : ((loadBeginOp k).judge m).range = decide (leNat (slice k.data 0 4) = 0 ∨ 131072 < leNat (slice k.data 0 4)) := by
    simp [loadBeginOp, Bool.decide_or, beq_eq_decide]
  split
  · rename_i hrun
    exact h.refuses (loadBegin_row p q i) hopc hlen (LinkJudge.first_of_loadState rfl (hstate.trans (decide_eq_true hrun)))
  · rename_i hrun
    have hboot := hstate.trans (decide_eq_false hrun)
    split
    · rename_i hrange
      exact h.refuses (loadBegin_row p q i) hopc hlen (LinkJudge.first_of_range rfl hboot (hjudge.trans (decide_eq_true hrange)))
    · rename_i hrange
      exact h.runs (loadBegin_row p q i) hopc hlen
        (LinkJudge.first_eq_none rfl hboot (hjudge.trans (decide_eq_false hrange)) rfl rfl rfl)

theorem HearsOwn.loadCheck_refused (hopc : k.opc = 0x11) (hlen : k.len = 0) (hst : m.st ≠ .loading) :
    UnitBecomesFree (.loadCheck p q i) p q (tell k 0x11 0x09 [] m) s :=
  h.answersFree (loadCheck_row p q i) hopc
    (judgeCmd_refused hlen (LinkJudge.first_of_loadState rfl (bne_iff_ne.mpr hst)))

/-- LOAD_CHECK counts the missing segments; of the rest of its answer one half is the spec's. -/
theorem HearsOwn.loadCheck (hopc : k.opc = 0x11) (hlen : k.len = 0) (hst : m.st = .loading) :
    ∃ x : Bytes, UnitBecomesFree (.loadCheck p q i) p q (tell k 0x11 0x00 (le 2 (missing m).length ++ x) m) s ∧
      (missing m = [] → x.drop 2 = leW (crc32 (heldImage m))) ∧ ∀ j l, missing m = j :: l → x.take 2 = le 2 j := by
  have hjudge : ((loadCheckOp (Config.freeWord s.fresh)).judge m).first = none := by simp [loadCheckOp, LinkJudge.first, hst]
  refine ⟨_, h.answersFree (loadCheck_row p q i) hopc (judgeCmd_runs hlen hjudge), fun hnone => ?_, fun j l hsome => ?_⟩
  · simp [hnone, le]
  · simp [hsome, le]

theorem HearsOwn.loadStart (hopc : k.opc = 0x12) (hlen : k.len = 4) :
    UnitBecomes (.loadStart p q i) p q (if m.st ≠ .loading ∨ missing m ≠ [] then tell k 0x12 0x09 [] m
      else if BitVec.ofNat 32 (leNat (slice k.data 0 4)) ≠ m.loadCrc ∨ BitVec.ofNat 32 (leNat (slice k.data 0 4)) ≠ crc32 (heldImage m)
      then tell k 0x12 0x0A [] m else tell k 0x12 0x00 [] { m with starting := true }) s := by
  have hstate : ((loadStartOp k).judge m).loadState = decide (m.st ≠ .loading ∨ missing m ≠ []) := by
    rw [Bool.eq_iff_iff]
    simp [loadStartOp]
  have hcrc : ((loadStartOp k).judge m).crcFail = decide (BitVec.ofNat 32 (leNat (slice k.data 0 4)) ≠ m.loadCrc ∨
      BitVec.ofNat 32 (leNat (slice k.data 0 4)) ≠ crc32 (heldImage m)) := by
    rw [Bool.eq_iff_iff]
    simp [loadStartOp]
  split
  · rename_i hwrong
    exact h.refuses (loadStart_row p q i) hopc hlen (LinkJudge.first_of_loadState rfl (hstate.trans (decide_eq_true hwrong)))
  · rename_i hwhole
    have hload := hstate.trans (decide_eq_false hwhole)
    split
    · rename_i hwrong
      exact h.refuses (loadStart_row p q i) hopc hlen
        (LinkJudge.first_of_crcFail rfl hload rfl rfl rfl (hcrc.trans (decide_eq_true hwrong)))
    · rename_i hgood
      exact h.runs (loadStart_row p q i) hopc hlen
        (LinkJudge.first_eq_none rfl hload rfl rfl rfl (hcrc.trans (decide_eq_false hgood)))

/-! ### Diagnosis (Table 3.8) -/

theorem HearsOwn.diagRead_refused (hopc : k.opc = 0x50) (hlen : k.len = 1) (hpage : 1 < (k.data.getD 0 0).toNat) :
    UnitBecomesFree (.diagRead p q i) p q (tell k 0x50 0x07 [] m) s :=
  h.answersFree (diagRead_row p q i) hopc (judgeCmd_refused hlen (LinkJudge.first_of_range rfl rfl (decide_eq_true hpage)))

theorem HearsOwn.diagRead_runs (hopc : k.opc = 0x50) (hlen : k.len = 1) (hpage : ¬ 1 < (k.data.getD 0 0).toNat) :
    UnitBecomesFree (.diagRead p q i) p q (tell k 0x50 0x00 (if k.data.getD 0 0 = 0
      then leW (Config.freeWord s.fresh) ++ leI 2 m.refDev ++ [0, 0]
      else le 2 m.crcRx ++ le 2 m.flyCnt ++ le 2 m.portMis ++ le 2 m.wdog) m) s :=
  h.answersFree (diagRead_row p q i) hopc
    (judgeCmd_runs hlen (LinkJudge.first_eq_none rfl rfl (decide_eq_false hpage) rfl rfl rfl))

theorem HearsOwn.diagRead_counters (hopc : k.opc = 0x50) (hlen : k.len = 1) (hpage : k.data.getD 0 0 = 1) :
    UnitBecomesFree (.diagRead p q i) p q
      (tell k 0x50 0x00 (le 2 m.crcRx ++ le 2 m.flyCnt ++ le 2 m.portMis ++ le 2 m.wdog) m) s := by
  have hruns := h.diagRead_runs hopc hlen (by rw [hpage]; decide)
  rwa [hpage, if_neg (by decide)] at hruns

theorem HearsOwn.diagRead_measured (hopc : k.opc = 0x50) (hlen : k.len = 1) (hpage : k.data.getD 0 0 = 0) :
    ∃ x : Bytes, x.length = 4 ∧
      UnitBecomesFree (.diagRead p q i) p q (tell k 0x50 0x00 (x ++ leI 2 m.refDev ++ [0, 0]) m) s := by
  have hruns := h.diagRead_runs hopc hlen (by rw [hpage]; decide)
  rw [hpage, if_pos rfl] at hruns
  exact ⟨_, length_leW _, hruns⟩

/-! ### Running units -/

variable (hrun : m.st = .running)
include hrun

theorem HearsOwn.inputCfg (hopc : k.opc = 0x20) (hlen : k.len = 3) :
    UnitBecomes (.inputCfg p q i) p q (tell k 0x20 0x00 [] { m with
      cfgIn := BitVec.ofNat 16 (leNat (slice k.data 0 2)), cfgT := (k.data.getD 2 0).truncate 4 }) s :=
  h.runs (inputCfg_row p q i) hopc hlen (LinkJudge.first_eq_none (needRunning_of_running hrun) rfl rfl rfl rfl rfl)

theorem HearsOwn.tsensCfg (hopc : k.opc = 0x21) (hlen : k.len = 5) :
    UnitBecomes (.tsensCfg p q i) p q (tell k 0x21 0x00 [] { m with
      cfgSensor := m.cfgSensor.mapIdx fun j x => if (k.data.getD 0 0).getLsbD j
        then { r26 := 10 * leNat (slice k.data 1 2), b := leNat (slice k.data 3 2) } else x }) s :=
  h.runs (tsensCfg_row p q i) hopc hlen (LinkJudge.first_eq_none (needRunning_of_running hrun) rfl rfl rfl rfl rfl)

theorem HearsOwn.bleedMode (hopc : k.opc = 0x22) (hlen : k.len = 1) :
    UnitBecomes (.bleedMode p q i) p q (if 1 < (k.data.getD 0 0).toNat then tell k 0x22 0x07 [] m
      else tell k 0x22 0x00 [] { m with cfgComp := k.data.getD 0 0 == 1 }) s := by
  have hloaded := needRunning_of_running hrun
  split
  · rename_i hrange
    exact h.refuses (bleedMode_row p q i) hopc hlen (LinkJudge.first_of_range hloaded rfl (decide_eq_true hrange))
  · rename_i hrange
    exact h.runs (bleedMode_row p q i) hopc hlen (LinkJudge.first_eq_none hloaded rfl (decide_eq_false hrange) rfl rfl rfl)

theorem HearsOwn.bleedStop (hopc : k.opc = 0x31) (hlen : k.len = 2) :
    UnitBecomes (.bleedStop p q i) p q (tell k 0x31 0x00
      (le 2 (runMask (stopTimers (BitVec.ofNat 16 (leNat (slice k.data 0 2))) m)).toNat)
      (stopTimers (BitVec.ofNat 16 (leNat (slice k.data 0 2))) m)) s :=
  h.runs (bleedStop_row p q i) hopc hlen (LinkJudge.first_eq_none (needRunning_of_running hrun) rfl rfl rfl rfl rfl)

theorem HearsOwn.owStop (hopc : k.opc = 0x41) (hlen : k.len = 0) :
    UnitBecomes (.owStop p q i) p q (tell k 0x41 0x00 [] (owDone m)) s :=
  h.runs (owStop_row p q i) hopc hlen (LinkJudge.first_eq_none (needRunning_of_running hrun) rfl rfl rfl rfl rfl)

theorem HearsOwn.owTest_refused (hopc : k.opc = 0x40) (hlen : k.len = 5)
    (hrange : m.ident.owCaps.getLsbD ((k.data.getD 3 0).toNat % 4) = false ∨ (k.data.getD 3 0).toNat % 4 = 3 ∨ k.data.getD 4 0 = 0) :
    UnitBecomes (.owTest p q i) p q (tell k 0x40 0x07 [] m) s := by
  have hjudge : ((owTestOp k).judge m).range = true := by
    simp only [owTestOp]
    rcases hrange with hcap | hcode | hcount
    · rw [hcap]; rfl
    · rw [hcode]; simp
    · rw [hcount]; simp
  exact h.refuses (owTest_row p q i) hopc hlen (LinkJudge.first_of_range (needRunning_of_running hrun) rfl hjudge)

theorem HearsOwn.owTest (hopc : k.opc = 0x40) (hlen : k.len = 5) (hcap : m.ident.owCaps.getLsbD ((k.data.getD 3 0).toNat % 4) = true)
    (hcode : (k.data.getD 3 0).toNat % 4 ≠ 3) (hcount : k.data.getD 4 0 ≠ 0) (hidle : m.ow = none) :
    UnitBecomes (.owTest p q i) p q (tell k 0x40 0x01 [] { m with
      ow := some { wires := BitVec.ofNat 24 (leNat (slice k.data 0 3)) &&& 0x1FFFF#24, code := (k.data.getD 3 0).toNat % 4,
                   pol := (k.data.getD 3 0).getLsbD 7, left := (k.data.getD 4 0).toNat, cseq := k.cseq, old := 0 } }) s := by
  have hjudge : ((owTestOp k).judge m).range = false := by
    simp only [owTestOp, hcap, beq_false_of_ne hcode, beq_false_of_ne hcount]
    rfl
  have hruns := h.runs (owTest_row p q i) hopc hlen (LinkJudge.first_eq_none (needRunning_of_running hrun) rfl hjudge rfl rfl rfl)
  simp only [owTestOp, hidle] at hruns
  exact hruns

end own

end Sys2Proof.Machine
end

section
/-! Units obey the link commands: the four rows with rules of their own (R81, R66, R87, R98), repeats, broadcasts, and the statement. -/

namespace Sys2Proof.Machine

open Sys2Proof

/-! ### Slots without the command -/

section absent
variable {s : State} {p : Fin 48} {q i : Fin 3} {c : Instr} {opc : Byte} (hs : settled s)
  (hslot : ((s.unit (slotOf p q)).slots[i.val]?).map LinkCmd.opc ≠ some opc)
include hs hslot

theorem unitBecomes_of_absent {f : LinkCmd → MUnit → MUnit} (hexec : ∀ s, exec c s = linkAct p q i opc f s) :
    UnitBecomes c p q (s.unit (slotOf p q)) s :=
  unitBecomes_of_linkAct hs hexec (onSlot_other hslot)

theorem unitBecomesFree_of_absent {o : Word → LinkCmd → LinkOp} (hrow : FreeRow c p q i opc o) :
    UnitBecomesFree c p q (s.unit (slotOf p q)) s :=
  unitBecomesFree_of_act (opc := opc) (i := i) (f := fun free k => linkCmd (o free k) k) hs hrow (onSlot_other hslot)

end absent

/-! ### Rows with rules of their own -/

section rows
variable (p : Fin 48) (q i : Fin 3) (s : State)

theorem exec_addrAssign : exec (.addrAssign p q i) s = linkAct p q i 0x01 addrAssignFx s := rfl
theorem exec_delayProbe : exec (.delayProbe p q i) s = linkAct p q i 0x04 delayProbeFx s := rfl
theorem exec_unitReset : exec (.unitReset p q i) s = linkAct p q i 0x06 unitResetFx s := rfl
theorem exec_bleedSet : exec (.bleedSet p q i) s = linkAct p q i 0x30 bleedSetFx s := rfl

end rows

section addrAssign
variable {m : MUnit} {k : LinkCmd}

theorem addrAssignFx_passed (h : m.st ≠ .bootUnaddressed ∨ m.obey = false ∨ k.dst ≠ 0xFE) : addrAssignFx k m = m := by
  have hpass : (m.st != .bootUnaddressed || !m.obey || k.dst != 0xFE) = true := by simpa [or_assoc] using h
  exact if_pos hpass

/-- An unaddressed unit takes an address of its frame's port and forgets both of its CSEQ series (R57, R81). -/
theorem addrAssignFx_heard (hst : m.st = .bootUnaddressed) (hobey : m.obey = true) (hdst : k.dst = 0xFE) (hlen : k.len = 1) :
    addrAssignFx k m = if (k.data.getD 0 0).toNat / 4 ≠ m.framePort
      then { m with resp := [{ cseq := k.cseq, opc := 0x01, stat := 0x07 }] }
      else { m with
        st := .bootAddressed, addr := k.data.getD 0 0, lastOwn := none, lastAll := none,
        resp := [{ cseq := k.cseq, opc := 0x01, stat := 0x00, data := le 8 m.ident.serial }] } := by
  have hheard : (m.st != .bootUnaddressed || !m.obey || k.dst != 0xFE) = false := by simp [hst, hobey, hdst]
  have hgood : ¬ k.len ≠ 1 := not_not.mpr hlen
  unfold addrAssignFx
  rw [hheard, if_neg Bool.false_ne_true, if_neg hgood]
  rfl

end addrAssign

theorem delayProbeFx_own {m : MUnit} {k : LinkCmd} (h : Obeys m) (hdst : k.dst = m.addr) (hnew : repeatOwn k m = none) (hlen : k.len = 0) :
    delayProbeFx k m = { m with
      echo := some m.frameLane, lastOwn := some { cseq := k.cseq, opc := 0x04, stat := 0x00 } } := by
  simp [delayProbeFx, h.hears, hdst, hnew, hlen, rsDone]

theorem unitResetFx_own {m : MUnit} {k : LinkCmd} (h : Obeys m) (hdst : k.dst = m.addr) (hnew : repeatOwn k m = none) (hlen : k.len = 0) :
    unitResetFx k m = { m with resetDue := true } := by
  simp [unitResetFx, h.hears, hdst, hnew, hlen]

theorem unitResetFx_broadcast {m : MUnit} {k : LinkCmd} (h : Obeys m) (hdst : k.dst = 0xFF) (haddr : m.addr ≠ 0xFF)
    (hnew : m.lastAll ≠ some k.cseq) (hlen : k.len = 0) : unitResetFx k m = { m with resetDue := true } := by
  simp [unitResetFx, h.hears, hdst, ne_addr haddr, hnew, hlen]

section bleedSet
variable {m : MUnit} {k : LinkCmd}

/-- A frame with BLEED_STOP voids a BLEED_SET before any other check (R88, R98). -/
theorem bleedSetFx_void (h : Obeys m) (hdst : k.dst = m.addr) (hnew : repeatOwn k m = none) (hstop : m.stopFrame = true) :
    bleedSetFx k m = answered k 0x02 [] m := by
  simp [bleedSetFx, h.holds, h.obey, hstop, hdst, hnew, rsRejected]

theorem bleedSetFx_open (hopen : m.stopFrame = false) : bleedSetFx k m = linkCmd (bleedSetOp k) k m := by
  simp [bleedSetFx, hopen]

end bleedSet

/-! ### The same command again (R57) -/

/-- The stored response of DELAY_PROBE is its ECHO; any other is sent once more unless it waits already. -/
theorem answerAgain_eq (r : Resp) (m : MUnit) :
    answerAgain r m = if r.opc = 0x04 ∧ r.stat = 0x00 then { m with echo := some m.frameLane }
      else if (m.resp.any fun e => e.cseq == r.cseq && e.opc == r.opc) = true then m else { m with resp := m.resp ++ [r] } := by
  simp only [answerAgain, Bool.and_eq_true, beq_iff_eq]

/-! ### Commands addressed to the unit -/

section own
variable {s : State} {p : Fin 48} {q i : Fin 3} {m : MUnit} {k : LinkCmd} (h : HearsOwn s p q i m k)
include h

theorem HearsOwn.unitReset (hopc : k.opc = 0x06) (hlen : k.len = 0) :
    UnitBecomes (.unitReset p q i) p q { m with resetDue := true } s :=
  h.becomes (exec_unitReset p q i) hopc (unitResetFx_own h.toObeys h.dst h.new hlen)

theorem HearsOwn.delayProbe (hopc : k.opc = 0x04) (hlen : k.len = 0) :
    UnitBecomes (.delayProbe p q i) p q { m with
      echo := some m.frameLane, lastOwn := some { cseq := k.cseq, opc := 0x04, stat := 0x00 } } s :=
  h.becomes (exec_delayProbe p q i) hopc (delayProbeFx_own h.toObeys h.dst h.new hlen)

/-- A wrong payload length is judged before any other rule (R88). -/
theorem HearsOwn.badLength {e : Instr × Byte × Nat × Bool} (he : e ∈ commonRows p q i) (hopc : k.opc = e.2.1) (hlen : k.len ≠ e.2.2.1) :
    UnitBecomes e.1 p q (tell k e.2.1 0x04 [] m) s := by
  obtain ⟨o, ho⟩ := exists_commonRow p q i he
  exact h.answers ho.row hopc (judgeCmd_badLength (ne_of_ne_of_eq hlen (ho.len k).symm))

/-- A unit without its firmware refuses what only firmware executes (R88). -/
theorem HearsOwn.notLoaded {e : Instr × Byte × Nat × Bool} (he : e ∈ commonRows p q i) (hneeds : needsFirmware e.2.1) (hopc : k.opc = e.2.1)
    (hlen : k.len = e.2.2.1) (hst : m.st ≠ .running) : UnitBecomes e.1 p q (tell k e.2.1 0x06 [] m) s := by
  obtain ⟨o, ho⟩ := exists_commonRow p q i he
  exact h.refuses ho.row hopc (hlen.trans (ho.len k).symm) (LinkJudge.first_of_notLoaded (ho.notLoaded hneeds k m hst))

theorem HearsOwn.bleedSet_void (hopc : k.opc = 0x30) (hstop : m.stopFrame = true) :
    UnitBecomes (.bleedSet p q i) p q (tell k 0x30 0x02 [] m) s :=
  h.becomes (exec_bleedSet p q i) hopc ((bleedSetFx_void h.toObeys h.dst h.new hstop).trans (answered_eq_tell hopc _ _ _))

/-- A BLEED_SET of a frame without BLEED_STOP is judged like any other command. -/
theorem HearsOwn.bleedSet_judged {x : MUnit} {st : Byte} {d : Bytes} (hopc : k.opc = 0x30) (hopen : m.stopFrame = false)
    (hj : judgeCmd (bleedSetOp k) k m = (x, st, d)) : UnitBecomes (.bleedSet p q i) p q (tell k 0x30 st d x) s :=
  h.becomes (exec_bleedSet p q i) hopc
    ((bleedSetFx_open hopen).trans ((linkCmd_own h.toObeys h.dst h.new hj).trans (answered_eq_tell hopc st d x)))

theorem HearsOwn.bleedSet (hopc : k.opc = 0x30) (hopen : m.stopFrame = false) (hlen : k.len = 5) :
    UnitBecomes (.bleedSet p q i) p q (if m.st ≠ .running then tell k 0x30 0x06 [] m
      else if leNat (slice k.data 2 2) = 0 then tell k 0x30 0x07 [] m
      else if m.hot = true then tell k 0x30 0x08 [] m
      else if (k.data.getD 4 0).getLsbD 0 = false ∧ adjacentIn (runMask m ||| BitVec.ofNat 16 (leNat (slice k.data 0 2))) = true
      then tell k 0x30 0x05 [] m
      else tell k 0x30 0x00
        (le 2 (runMask (startTimers (BitVec.ofNat 16 (leNat (slice k.data 0 2))) (leNat (slice k.data 2 2)) m)).toNat ++
          le 2 (longest (startTimers (BitVec.ofNat 16 (leNat (slice k.data 0 2))) (leNat (slice k.data 2 2)) m)))
        (startTimers (BitVec.ofNat 16 (leNat (slice k.data 0 2))) (leNat (slice k.data 2 2)) m)) s := by
  have refuse {st : Byte} (hj : ((bleedSetOp k).judge m).first = some st) : UnitBecomes (.bleedSet p q i) p q (tell k 0x30 st [] m) s :=
    h.bleedSet_judged hopc hopen (judgeCmd_refused hlen hj)
  have hdur : ((bleedSetOp k).judge m).range = decide (leNat (slice k.data 2 2) = 0) := beq_eq_decide _ _
  have hapart : ((bleedSetOp k).judge m).adjacent = decide ((k.data.getD 4 0).getLsbD 0 = false ∧
      adjacentIn (runMask m ||| BitVec.ofNat 16 (leNat (slice k.data 0 2))) = true) := by
    rw [Bool.eq_iff_iff]
    simp [bleedSetOp]
  by_cases hrun : m.st = .running
  · have hloaded := needRunning_of_running hrun
    rw [if_neg (not_not.mpr hrun)]
    split
    · rename_i hrange
      exact refuse (LinkJudge.first_of_range hloaded rfl (hdur.trans (decide_eq_true hrange)))
    · rename_i hrange
      have hlasts := hdur.trans (decide_eq_false hrange)
      split
      · rename_i hhot
        exact refuse (LinkJudge.first_of_hot hloaded rfl hlasts hhot)
      · rename_i hcool
        have hcold : ((bleedSetOp k).judge m).hot = false := Bool.eq_false_of_not_eq_true hcool
        split
        · rename_i hnext
          exact refuse (LinkJudge.first_of_adjacent hloaded rfl hlasts hcold (hapart.trans (decide_eq_true hnext)))
        · rename_i hnext
          exact h.bleedSet_judged hopc hopen (judgeCmd_runs hlen
            (LinkJudge.first_eq_none hloaded rfl hlasts hcold (hapart.trans (decide_eq_false hnext)) rfl))
  · rw [if_pos hrun]
    exact refuse (LinkJudge.first_of_notLoaded (needRunning_of_notRunning hrun))

end own

/-! ### Commands to all units (R84, R86) -/

/-- The command is for every unit, and the unit obeys its frame. -/
structure HearsAll (s : State) (p : Fin 48) (q i : Fin 3) (m : MUnit) (k : LinkCmd) : Prop extends InSlot s p q i m k, Obeys m where
  dst : k.dst = 0xFF
  addr : m.addr ≠ 0xFF

section all
variable {s : State} {p : Fin 48} {q i : Fin 3} {m : MUnit} {k : LinkCmd} (h : HearsAll s p q i m k)
include h

theorem HearsAll.notForAll {e : Instr × Byte × Nat × Bool} (he : e ∈ commonRows p q i) (hall : e.2.2.2 = false) :
    UnitBecomes e.1 p q m s := by
  obtain ⟨o, ho⟩ := exists_commonRow p q i he
  exact h.stays ho.row (linkCmd_notForAll h.dst h.addr ((ho.all k).trans hall))

theorem HearsAll.heardByAll {e : Instr × Byte × Nat × Bool} (he : e ∈ commonRows p q i) (hlast : m.lastAll = some k.cseq) :
    UnitBecomes e.1 p q m s := by
  obtain ⟨o, ho⟩ := exists_commonRow p q i he
  exact h.stays ho.row (linkCmd_heardByAll h.dst h.addr hlast)

theorem HearsAll.bleedSet : UnitBecomes (.bleedSet p q i) p q m s :=
  h.stays (exec_bleedSet p q i) (bleedSetFx_broadcast h.dst h.addr)

variable (hnew : m.lastAll ≠ some k.cseq)
include hnew

theorem HearsAll.unitReset (hopc : k.opc = 0x06) (hlen : k.len = 0) :
    UnitBecomes (.unitReset p q i) p q { m with resetDue := true } s :=
  h.becomes (exec_unitReset p q i) hopc (unitResetFx_broadcast h.toObeys h.dst h.addr hnew hlen)

/-- A row that a broadcast may carry is executed without an answer. -/
theorem HearsAll.runs {c : Instr} {opc : Byte} {o : LinkCmd → LinkOp} (hrow : Row c p q i opc o) (hopc : k.opc = opc) (hall : (o k).all = true)
    (hlen : k.len = (o k).len) (hj : ((o k).judge m).first = none) :
    UnitBecomes c p q { ((o k).run m).1 with lastAll := some k.cseq } s :=
  h.becomes hrow hopc (linkCmd_broadcast h.dst h.addr h.toObeys hall hnew (judgeCmd_runs hlen hj))

variable (hrun : m.st = .running)
include hrun

theorem HearsAll.bleedStop (hopc : k.opc = 0x31) (hlen : k.len = 2) :
    UnitBecomes (.bleedStop p q i) p q
      { stopTimers (BitVec.ofNat 16 (leNat (slice k.data 0 2))) m with lastAll := some k.cseq } s :=
  h.runs hnew (bleedStop_row p q i) hopc rfl hlen (LinkJudge.first_eq_none (needRunning_of_running hrun) rfl rfl rfl rfl rfl)

theorem HearsAll.bleedMode (hopc : k.opc = 0x22) (hlen : k.len = 1) (hmode : (k.data.getD 0 0).toNat ≤ 1) :
    UnitBecomes (.bleedMode p q i) p q { m with cfgComp := k.data.getD 0 0 == 1, lastAll := some k.cseq } s :=
  h.runs hnew (bleedMode_row p q i) hopc rfl hlen
    (LinkJudge.first_eq_none (needRunning_of_running hrun) rfl (decide_eq_false (Nat.not_lt.mpr hmode)) rfl rfl rfl)

theorem HearsAll.owStop (hopc : k.opc = 0x41) (hlen : k.len = 0) :
    UnitBecomes (.owStop p q i) p q { owDone m with lastAll := some k.cseq } s :=
  h.runs hnew (owStop_row p q i) hopc rfl hlen (LinkJudge.first_eq_none (needRunning_of_running hrun) rfl rfl rfl rfl rfl)

end all

/-! ### What units pass over, and repeats -/

section inSlot
variable {s : State} {p : Fin 48} {q i : Fin 3} {m : MUnit} {k : LinkCmd} (h : InSlot s p q i m k)
include h

theorem InSlot.passedOver (hpass : passesOver k m) {e : Instr × Byte × Nat × Bool} (he : e ∈ commonRows p q i) : UnitBecomes e.1 p q m s := by
  obtain ⟨o, ho⟩ := exists_commonRow p q i he
  exact h.stays ho.row (linkCmd_passed hpass _)

theorem InSlot.repeated {r : Resp} (hobeys : Obeys m) (hdst : k.dst = m.addr) (hr : repeatOwn k m = some r)
    {e : Instr × Byte × Nat × Bool} (he : e ∈ commonRows p q i) (hopc : k.opc = e.2.1) : UnitBecomes e.1 p q (answerAgain r m) s := by
  obtain ⟨o, ho⟩ := exists_commonRow p q i he
  exact h.becomes ho.row hopc (linkCmd_repeated hobeys hdst hr _)

theorem InSlot.addrAssign_heard (hopc : k.opc = 0x01) (hst : m.st = .bootUnaddressed) (hobey : m.obey = true) (hdst : k.dst = 0xFE)
    (hlen : k.len = 1) :
    ((k.data.getD 0 0).toNat / 4 ≠ m.framePort →
      UnitBecomes (.addrAssign p q i) p q { m with resp := [{ cseq := k.cseq, opc := 0x01, stat := 0x07 }] } s) ∧
    ((k.data.getD 0 0).toNat / 4 = m.framePort → UnitBecomes (.addrAssign p q i) p q { m with
      st := .bootAddressed, addr := k.data.getD 0 0, lastOwn := none, lastAll := none,
      resp := [{ cseq := k.cseq, opc := 0x01, stat := 0x00, data := le 8 m.ident.serial }] } s) := by
  have hfx := addrAssignFx_heard hst hobey hdst hlen
  exact ⟨fun hport => h.becomes (exec_addrAssign p q i) hopc (hfx.trans (if_pos hport)),
    fun hport => h.becomes (exec_addrAssign p q i) hopc (hfx.trans (if_neg (not_not.mpr hport)))⟩

end inSlot

/-! ### The statement -/

/-- Settles O59: each clause is the rule of its row, judged in the order of R88 for the unit's own slot. -/
theorem unitsObeyTheLinkCommands : Obligations.UnitsObeyTheLinkCommands := by
  unfold Obligations.UnitsObeyTheLinkCommands
  intro s p q i k hs u m
  refine ⟨fun e he hslot => ?_, fun hslot => unitBecomes_of_absent hs hslot (exec_addrAssign p q i),
    fun hslot => unitBecomes_of_absent hs hslot (exec_delayProbe p q i), fun hslot => unitBecomes_of_absent hs hslot (exec_unitReset p q i),
    fun hslot => unitBecomes_of_absent hs hslot (exec_bleedSet p q i), fun hslot => unitBecomesFree_of_absent hs hslot (loadCheck_row p q i),
    fun hslot => unitBecomesFree_of_absent hs hslot (diagRead_row p q i), fun hk => ?_⟩
  · obtain ⟨o, ho⟩ := exists_commonRow p q i he
    exact unitBecomes_of_absent hs hslot ho.row
  have hin : InSlot s p q i m k := ⟨hs, rfl, hk⟩
  refine ⟨fun hpass => ⟨fun e he => hin.passedOver hpass he, hin.stays (exec_delayProbe p q i) (delayProbeFx_passed hpass),
      hin.stays (exec_bleedSet p q i) (bleedSetFx_passed hpass), hin.staysFree (loadCheck_row p q i) hpass,
      hin.staysFree (diagRead_row p q i) hpass, hin.stays (exec_unitReset p q i) (unitResetFx_passed hpass)⟩,
    fun hpass => hin.stays (exec_addrAssign p q i) (addrAssignFx_passed hpass), hin.addrAssign_heard, fun haddressed hobey => ?_⟩
  have hobeys : Obeys m := ⟨haddressed, hobey⟩
  refine ⟨fun hdst r hlast hseq => ?_, fun hopc hlen hdst haddr hnew => HearsAll.unitReset ⟨hin, hobeys, hdst, haddr⟩ hnew hopc hlen,
    fun hdst hnew => ?_, fun hdst haddr => ?_⟩
  · have hr := repeatOwn_of_same hlast hseq
    simp only [← answerAgain_eq]
    exact ⟨fun e he hopc => hin.repeated hobeys hdst hr he hopc,
      fun hopc => hin.becomes (exec_bleedSet p q i) hopc (bleedSetFx_repeated hobeys hdst hr),
      fun hopc => hin.becomes (exec_unitReset p q i) hopc (unitResetFx_repeated hobeys hdst hr),
      fun hopc => hin.becomes (exec_delayProbe p q i) hopc (delayProbeFx_repeated hobeys hdst hr)⟩
  · have h : HearsOwn s p q i m k := ⟨hin, hobeys, hdst, repeatOwn_of_new hnew⟩
    exact ⟨h.unitReset, h.delayProbe, fun e he => h.badLength he, h.identRead, h.corrSet, h.chainSet, h.packIdSet, h.loadBegin,
      fun hopc hlen => ⟨h.loadCheck_refused hopc hlen, h.loadCheck hopc hlen⟩, h.loadStart,
      fun hopc hlen => ⟨h.diagRead_refused hopc hlen, h.diagRead_counters hopc hlen, h.diagRead_measured hopc hlen⟩,
      fun hst e he hneeds hopc hlen => h.notLoaded he hneeds hopc hlen hst,
      fun hrun => ⟨h.inputCfg hrun, h.tsensCfg hrun, h.bleedMode hrun, h.bleedStop hrun, h.owStop hrun,
        fun hopc hlen => ⟨h.owTest_refused hrun hopc hlen, h.owTest hrun hopc hlen⟩⟩,
      fun hopc => ⟨h.bleedSet_void hopc,
        fun hopen hlen => h.bleedSet_judged hopc hopen (judgeCmd_badLength hlen), h.bleedSet hopc⟩⟩
  · have h : HearsAll s p q i m k := ⟨hin, hobeys, hdst, haddr⟩
    exact ⟨fun e he => h.notForAll he, h.bleedSet, fun e he _ => h.heardByAll he,
      fun hnew hrun => ⟨h.bleedStop hnew hrun, h.bleedMode hnew hrun, h.owStop hnew hrun⟩⟩

end Sys2Proof.Machine
end

section
/-! SMP_CTRL over an entry into low-current cadence that waits, and the end of a foreign injector while the network is off: two statements
that fail, each at a state that its hypotheses allow. -/

namespace Sys2Proof.Machine

open Sys2Proof

/-! ### SMP_CTRL (R126, R133) -/

/-- A write of SMP_CTRL meets no objection where it asks for a zero learning in SURVEY or MAINTAIN alone. -/
theorem writeOk_smpCtrl {s : State} {w : Word} (ha : stateOk awake s = true) (hz : w.getLsbD 0 = true → stateOk [2, 4] s = true) :
    WriteOk 0x60004 w s where
  awake := ha
  inside := rfl
  aligned := rfl
  present := rfl
  named := rfl
  judge := by
    have hopen : (ctlBit w 0 && !stateOk [2, 4] s) = false := by
      cases hw : w.getLsbD 0 with
      | false => exact congrArg (· && !stateOk [2, 4] s) hw
      | true => rw [hz hw, Bool.not_true, Bool.and_false]
    simp [writeJudge, hopen]
  notShut := rfl

theorem smp_of_stillFor {c : Byte} {s t : State} (h : stillFor c t = stillFor c s) : t.smp = s.smp := (congrArg State.smp h : _)

/-- What a write of SMP_CTRL leaves of the timebase and the channels. -/
theorem smp_lowcadHold {r : Req} {s t : State} {w : Word} (h : mayWrite r s) (hz : w.getLsbD 0 = true → stateOk [2, 4] s = true)
    (hexec : exec (.lowcadHold r w) s = .next t) : t.smp = (smpCtrlFx w s).smp := by
  obtain ⟨-, hheard, hawake⟩ := h
  have ⟨_, hopened, _⟩ := hheard
  let u := touch r { s with out := [] }
  have hok : WriteOk 0x60004 w u :=
    writeOk_smpCtrl (by rwa [stateOk_touch]) fun h0 => (stateOk_touch _ _ _).trans (hz h0)
  have hwrite : writeRequest r 0x60004 w { s with out := [] } = respond r 0x0D02 stOk [] (smpCtrlFx w u) :=
    writeRequest_heard (s := { s with out := [] }) hheard hok ((touch_opened { s with out := [] } r _).trans hopened)
  have htouch : u.smp = s.smp := smp_of_stillFor (stillFor_touch { s with out := [] } r)
  have hleft : (smpCtrlFx w u).smp = (smpCtrlFx w s).smp := by simp only [smpCtrlFx, modSmp, htouch]
  calc t.smp = (writeRequest r 0x60004 w { s with out := [] }).smp := of_still State.smp (fun _ => rfl) (still_of_act hexec)
    _ = (smpCtrlFx w u).smp := hwrite ▸ smp_of_stillFor (stillFor_respond (smpCtrlFx w u) r 0x0D02 stOk [])
    _ = (smpCtrlFx w s).smp := hleft

/-- A module in SURVEY with an ENGINEER's session, whose entry into low-current cadence waits for its 100 ms. -/
def entryWaits : State :=
  { State.reset with
    pwr := { state := 2, ready := true }
    ses := { ctx := [{ opened := true, role := 2 }] }
    smp := { lowEnter := some 0 } }

/-- Refutes O25: LOWCAD_HOLD also withdraws an entry into low-current cadence that waits for its 100 ms (R133), which the statement leaves
standing. -/
theorem not_portAndSamplingControlWrites : ¬ Obligations.PortAndSamplingControlWrites := by
  intro h
  let r : Req := { ctx := 0, tag := 1, zeros := true }
  have hmay : mayWrite r entryWaits := by decide
  obtain ⟨-, hsmp, -⟩ := h r entryWaits hmay
  obtain ⟨t, hexec, hstill, -⟩ := hsmp 2 (.lowcadHold r 2) (.inr rfl) (by decide)
  have hwithdrawn : t.smp.lowEnter = none := congrArg Smp.lowEnter (smp_lowcadHold hmay (by decide) hexec)
  have hkept : t.smp.lowEnter = some 0 := congrArg (fun u => u.smp.lowEnter) hstill
  exact Option.some_ne_none _ (hkept.symm.trans hwithdrawn)

/-! ### INS_FOREIGN_CLEAR (R138) -/

theorem insPass_ins (s : State) : (insPass s).ins = s.ins := (congrArg State.ins (sansXng_insPass s) : _)

/-- A change that leaves the network off and the injector still drops the pole samples. -/
theorem ins_insChange_off {f : State → State} {s : State} (hoff : insEff (f s) = 0) (hinj : injecting (f s) = injecting s) :
    (insChange f s).ins = { (f s).ins with poles := [] } := by
  unfold insChange
  simp only [hinj, if_true, hoff, beq_self_eq_true, Bool.true_or, onlyIf]
  split
  · rfl
  · exact insPass_ins _

/-- While the network is off the end of a foreign injector forgets the pole samples too. -/
theorem ins_insForeignClear {s t : State} (hruns : recRuns s = true) (hforeign : s.ins.foreign = true)
    (hquiet : ∀ e ∈ s.ins.steps, e + 120000000000 ≤ s.smp.timeNs) (hoff : insEff s = 0) (hexec : exec .insForeignClear s = .next t) :
    t.ins = { s.ins with foreign := false, steps := [], poles := [] } := by
  have hall : (s.ins.foreign && s.ins.steps.all fun e => decide (e + 120000 * ms ≤ s.smp.timeNs)) = true :=
    Bool.and_eq_true_iff.mpr ⟨hforeign, List.all_eq_true.mpr fun e he => decide_eq_true (hquiet e he)⟩
  have hfx : (insForeignClearFx { s with out := [] }).ins = { s.ins with foreign := false, steps := [], poles := [] } := by
    unfold insForeignClearFx
    rw [if_pos hall, ins_insChange_off hoff rfl]
    rfl
  have hstill : still t = still (insForeignClearFx { s with out := [] }) := (still_of_act hexec).trans (congrArg still (if_pos hruns))
  exact (of_still State.ins (fun _ => rfl) hstill).trans hfx

/-- A module in LISTEN that knows of a foreign injector and holds a pole sample. -/
def foreignKnown : State :=
  { State.reset with pwr := { state := 1, ready := true }, ins := { foreign := true, poles := [(0, 0)] } }

/-- Refutes O44: INS_FOREIGN_CLEAR while the network is off also drops the pole samples, which the statement keeps. -/
theorem not_insulationMonitorMeasures : ¬ Obligations.InsulationMonitorMeasures := by
  intro h
  obtain ⟨-, -, hclear⟩ := h foreignKnown rfl rfl
  obtain ⟨t, hexec, -, hins⟩ := hclear rfl (fun e he => absurd he List.not_mem_nil)
  have hdropped : t.ins.poles = [] :=
    congrArg Ins.poles (ins_insForeignClear (s := foreignKnown) rfl rfl (fun e he => absurd he List.not_mem_nil) rfl hexec)
  have hkept : t.ins.poles = [(0, 0)] := congrArg Ins.poles hins
  exact List.cons_ne_nil _ _ (hkept.symm.trans hdropped)

end Sys2Proof.Machine
end

section
/-! Commands that move a part of the state and raise flags: what makes one an `effect`. Zero learning, the way into and out of low-current
cadence, the network's fault (R126, R133, R134, Table 4.17). -/

namespace Sys2Proof.Machine

open Sys2Proof

/-! ### Flags raised in turn -/

/-- The flags of the list are raised in turn. -/
def raiseAll (l : List (Nat × Nat)) (s : State) : State := forAll l (fun f => raise f.1 f.2) s

theorem raiseAll_append (l k : List (Nat × Nat)) (s : State) : raiseAll (l ++ k) s = raiseAll k (raiseAll l s) := List.foldl_append

theorem raiseIf_eq_raiseAll (b : Bool) (e n : Nat) (s : State) : raiseIf b e n s = raiseAll (if b then [(e, n)] else []) s := by
  cases b <;> rfl

theorem still_raiseAll (l : List (Nat × Nat)) (s : State) : still (raiseAll l s) = still s :=
  forAll_keeps s still l _ fun f t => still_raise t f.1 f.2

theorem raiseAll_out (l : List (Nat × Nat)) (s : State) : (raiseAll l s).out = s.out :=
  forAll_keeps s State.out l _ fun f t => raise_out t f.1 f.2

theorem settled_raiseAll {s : State} (h : settled s) (l : List (Nat × Nat)) : settled (raiseAll l s) := by
  have hstill := still_raiseAll l s
  have hpwr : (raiseAll l s).pwr = s.pwr := forAll_keeps s State.pwr l _ fun f t => raise_pwr t f.1 f.2
  exact settled_congr h (of_still (fun u => u.pro.latched) (fun _ => rfl) hstill) (of_still (fun u => u.hkp.throttled) (fun _ => rfl) hstill)
    (of_still (fun u => u.smp.lowCad) (fun _ => rfl) hstill) (of_still (fun u => u.lcy.defaultsLocked) (fun _ => rfl) hstill)
    (congrArg Pwr.conds hpwr)

/-- Flags of present blocks are set and counted in the order of the list. -/
theorem flagged_raiseAll (l : List (Nat × Nat)) {s : State} (h : ∀ f ∈ l, eventPresent s f.1 = true) : flagged l s (raiseAll l s) := by
  induction l generalizing s with
  | nil => exact flagged_nil s _ rfl
  | cons f l ih =>
    refine flagged_raise s f.1 f.2 l _ (h f List.mem_cons_self) (ih fun g hg => ?_)
    rw [eventPresent_congr (raise_fac s f.1 f.2)]
    exact h g (List.mem_cons_of_mem f hg)

/-- Flags are counted on the event blocks alone. -/
theorem flagged_of_ev {l : List (Nat × Nat)} {s u t : State} (hev : u.ev = s.ev) (h : flagged l u t) : flagged l s t := by
  have same (a b : State) (hab : a.ev = b.ev) : (l.foldl (fun u f => setFlag f.1 f.2 u) a).ev = (l.foldl (fun u f => setFlag f.1 f.2 u) b).ev := by
    clear h
    induction l generalizing a b with
    | nil => exact hab
    | cons f l ih => exact ih _ _ (by rw [setFlag_ev, setFlag_ev, hab])
  intro k hk
  rw [h k hk, State.event, State.event, same u s hev]

/-- What a command has to do to be the effect `f` with the flags of the list: `f` itself reports nothing and moves no condition. -/
theorem effect_of_raiseAll {c : Instr} {g f : State → State} {l : List (Nat × Nat)} {s : State} (hexec : exec c s = act g s)
    (hg : g { s with out := [] } = raiseAll l (f { s with out := [] })) (hs : settled (f { s with out := [] }))
    (hf : still (f { s with out := [] }) = still (f s)) (hev : (f { s with out := [] }).ev = s.ev)
    (hout : (f { s with out := [] }).out = []) (hp : ∀ e ∈ l, eventPresent (f { s with out := [] }) e.1 = true) :
    effect c f l [] s := by
  refine ⟨_, hexec.trans (act_eq_next hg (settled_raiseAll hs l)), ?_, flagged_of_ev hev (flagged_raiseAll l hp), ?_⟩
  · rw [still_transmit, still_raiseAll, hf]
  · rw [transmit_out, raiseAll_out, hout]

/-- The effect is a change of the timebase and the channels that keeps the cadence. -/
theorem effect_modSmp {c : Instr} {g : State → State} {f : Smp → Smp} {l : List (Nat × Nat)} {s : State} (hset : settled s)
    (hexec : exec c s = act g s) (hg : g { s with out := [] } = raiseAll l (modSmp f { s with out := [] }))
    (hcad : (f s.smp).lowCad = s.smp.lowCad) (hp : ∀ e ∈ l, eventPresent s e.1 = true) : effect c (modSmp f) l [] s :=
  effect_of_raiseAll hexec hg (settled_congr hset rfl rfl hcad rfl rfl) rfl rfl rfl hp

/-! ### Zero learning (R126) -/

/-- The mean of 16,000 results, and whether a learning stores it. -/
def zeroMean (sum : Int) : Int := roundRat ((sum : Rat) / 16000)
def zeroStores (spoilt : Bool) (sum : Int) (bound : Nat) : Bool := !spoilt && decide ((zeroMean sum).natAbs ≤ bound)

/-- The flags at the end of a learning: each channel's mean rejected, then one for a mean stored. -/
def zeroFlags (hallEn shOk haOk : Bool) : List (Nat × Nat) :=
  (if shOk then [] else [(0x06, 6)]) ++ (if hallEn && !haOk then [(0x06, 6)] else []) ++ (if shOk || (hallEn && haOk) then [(0x06, 5)] else [])

theorem zeroFlags_block {hallEn shOk haOk : Bool} : ∀ f ∈ zeroFlags hallEn shOk haOk, f.1 = 0x06 := by
  revert hallEn shOk haOk
  decide

/-- A complete learning stores what it may, then raises its flags. -/
theorem zeroDoneFx_complete {s : State} {z : ZeroRun} (hrun : s.smp.zeroRun = some z) (hn : 16000 ≤ z.n) :
    zeroDoneFx s =
      let shOk := zeroStores z.spoilSh z.sh 20000
      let haOk := zeroStores z.spoilHall z.hall 100000
      raiseAll (zeroFlags s.cfgSmp.hallEn shOk haOk) (modSmp (fun m => { m with
        zeroRun := none, shuntOfs := if shOk then some (zeroMean z.sh) else m.shuntOfs
        hallOfs := if s.cfgSmp.hallEn && haOk then some (zeroMean z.hall) else m.hallOfs }) s) := by
  have hrejected (b : Bool) : (if b then ([] : List (Nat × Nat)) else [(0x06, 6)]) = if !b then [(0x06, 6)] else [] := by cases b <;> rfl
  unfold zeroDoneFx
  simp only [hrun, Nat.not_lt.mpr hn, if_false, zeroFlags, hrejected, raiseAll_append, ← raiseIf_eq_raiseAll,
    raiseIf_cfgSmp, modSmp_cfgSmp]
  rfl

/-! ### Low-current cadence (R133, R134) -/

theorem le_gridUp {u : Nat} (hu : 0 < u) (t : Nat) : t ≤ gridUp t u := by
  have hdiv := Nat.div_add_mod (t + u - 1) u
  have hmod := Nat.mod_lt (t + u - 1) hu
  unfold gridUp
  rw [Nat.mul_comm]
  omega

theorem gridUp_mod (t u : Nat) : gridUp t u % u = 0 := Nat.mul_mod_left _ _

theorem lowEnterFx_calm {s : State} (hsamples : sampling s = true) (hcad : s.smp.lowCad = false) (hnone : s.smp.lowEnter = none)
    (hcalm : lowCalm s = true) : lowEnterFx s = modSmp (fun m => { m with lowEnter := some (resultTime s + ms) }) s := by
  simp only [lowEnterFx, hsamples, hcad, hnone, hcalm, Option.isNone_none, Bool.not_false, Bool.and_self, if_true]

/-- Before the frame of the latest instant has gone no tick is cut short (Table 4.9). -/
theorem lowExitFx_leaves {s : State} (hsamples : sampling s = true) (hcad : s.smp.lowCad = true) (hnone : s.smp.lowExit = none)
    (hleaves : lowLeaves s = true) (hopen : frameClosed s = false) :
    lowExitFx s = modSmp (fun m => { m with lowExit := some (gridUp (resultTime s + 41000) ms) }) s := by
  have hstill : frameClosed (modSmp (fun m => { m with lowExit := some (gridUp (resultTime s + 41000) ms) }) s) = false := hopen
  simp only [lowExitFx, hsamples, hcad, hnone, hleaves, hstill, Option.isNone_none, Bool.and_self, Bool.false_and, if_true,
    Bool.false_eq_true, if_false]

/-! ### The statement -/

/-- Settles O43: each command is one change of the channels' part with the flags raised in turn. -/
theorem zeroLearningAndLowCurrentCadence : Obligations.ZeroLearningAndLowCurrentCadence := by
  unfold Obligations.ZeroLearningAndLowCurrentCadence
  intro s hset halive
  refine ⟨fun z hrun hn => ?_, fun hsamples hcad hnone hlow hrun hhold htones => ⟨?_, gridUp_mod _ _, le_gridUp (by decide) _⟩,
    fun hsamples hcad hnone hleaves hopen => ?_, ?_⟩
  · refine effect_modSmp hset rfl ((if_pos halive).trans (zeroDoneFx_complete hrun hn)) rfl fun f hf => ?_
    rw [zeroFlags_block f hf]
    rfl
  · have hcalm : lowCalm s = true := by simp [lowCalm, hlow, hrun, hhold, htones]
    exact effect_modSmp (l := []) hset rfl ((if_pos halive).trans (lowEnterFx_calm hsamples hcad hnone hcalm)) rfl (List.forall_mem_nil _)
  · exact effect_modSmp (l := []) hset rfl ((if_pos halive).trans (lowExitFx_leaves hsamples hcad hnone hleaves hopen)) rfl
      (List.forall_mem_nil _)
  · have hruns : recRuns s = true := (Bool.and_eq_true_iff.mp halive).1
    exact effect_of_raiseAll rfl (if_pos hruns) hset rfl rfl rfl fun f hf => List.eq_of_mem_singleton hf ▸ rfl

end Sys2Proof.Machine
end

section
/-! What a current result reaches beyond the channels (R226, R252 to R254, R267): wire learning, PRO and the sequencer, the control engine. They
leave the steady parts and the sampling configuration in force. -/

namespace Sys2Proof.Machine

open Sys2Proof

variable (s : State)

/-! ### The sampling configuration in force -/

theorem cfgSmp_of_sansXng {s t : State} (h : sansXng t = sansXng s) : t.cfgSmp = s.cfgSmp := (congrArg State.cfgSmp h : _)
theorem cfgSmp_of_sansHost {s t : State} (h : sansHost t = sansHost s) : t.cfgSmp = s.cfgSmp := (congrArg State.cfgSmp h : _)

@[simp] theorem cfgSmp_ite {c : Prop} [Decidable c] (a b : State) :
    (if c then a else b).cfgSmp = if c then a.cfgSmp else b.cfgSmp := apply_ite State.cfgSmp c a b

@[simp] theorem offer_cfgSmp (x : Nat) (v : XVal) : (offer x v s).cfgSmp = s.cfgSmp := cfgSmp_of_sansXng (sansXng_offer s x v)
@[simp] theorem tellEst_cfgSmp : (tellEst s).cfgSmp = s.cfgSmp := cfgSmp_of_sansXng (sansXng_tellEst s)
@[simp] theorem completeOp_cfgSmp (op st : Nat) (b : Bytes) : (completeOp op st b s).cfgSmp = s.cfgSmp :=
  cfgSmp_of_sansHost (sansHost_completeOp s op st b)
@[simp] theorem parkEngine_cfgSmp (cause : Nat) : (parkEngine cause s).cfgSmp = s.cfgSmp := cfgSmp_of_sansHost (sansHost_parkEngine s cause)
@[simp] theorem sendPeer_cfgSmp (p : Byte) (b : Bytes) : (sendPeer p b s).cfgSmp = s.cfgSmp := rfl
@[simp] theorem takeWord_cfgSmp : (takeWord s).2.cfgSmp = s.cfgSmp := rfl
@[simp] theorem addReq_cfgSmp (p : Nat) (r : LinkReq) : (addReq p r s).cfgSmp = s.cfgSmp := rfl
@[simp] theorem stopAllPorts_cfgSmp : (stopAllPorts s).cfgSmp = s.cfgSmp := rfl
@[simp] theorem setAct_cfgSmp (code : Nat) (on : Bool) : (setAct code on s).cfgSmp = s.cfgSmp := rfl
@[simp] theorem proRecord_cfgSmp (code idx : Nat) (val thr : Int) (how : Byte) : (proRecord code idx val thr how s).cfgSmp = s.cfgSmp :=
  recordCode_cfgSmp _ _ _ _ _

theorem sameCycle_cfgSmp {b : Bool} {u : State} (h : sameCycle s = (b, u)) : u.cfgSmp = s.cfgSmp :=
  (congrArg (fun p => p.2.cfgSmp) h).symm

/-! #### The control engine, wire learning, power states -/

@[simp] theorem tripEngine_cfgSmp : (tripEngine s).cfgSmp = s.cfgSmp := by
  unfold tripEngine
  split
  · split
    · rename_i h
      exact (modCtl_cfgSmp _ _).trans (sameCycle_cfgSmp s h)
    · rename_i h
      exact sameCycle_cfgSmp s h
  · exact parkEngine_cfgSmp s 2

@[simp] theorem engineOff_cfgSmp : (engineOff s).cfgSmp = s.cfgSmp := by simp [engineOff]

@[simp] theorem sendModes_cfgSmp (m : Bool) : (sendModes m s).cfgSmp = s.cfgSmp := by
  unfold sendModes
  rw [modBal_cfgSmp, forAll_keeps _ State.cfgSmp, forAll_keeps _ State.cfgSmp]
  · exact fun p t => rfl
  · exact fun u t => by simp

@[simp] theorem learnAbort_cfgSmp : (learnAbort s).cfgSmp = s.cfgSmp := by simp [learnAbort]

@[simp] theorem setPower_cfgSmp (st : Nat) : (setPower st s).cfgSmp = s.cfgSmp := by simp [setPower]

@[simp] theorem leaveMaintain_cfgSmp : (leaveMaintain s).cfgSmp = s.cfgSmp := learnAbort_cfgSmp _

theorem enterState_cfgSmp {t : Nat} (ht : t ≠ 1) : (enterState t s).cfgSmp = s.cfgSmp := by
  have hlisten : (t == 1) = false := beq_false_of_ne ht
  simp [enterState, onlyIf, hlisten]

theorem finishTransition_cfgSmp {t : Nat} (ht : t ≠ 1) : (finishTransition t s).cfgSmp = s.cfgSmp := by
  simp [finishTransition, enterState_cfgSmp _ ht]

/-- Out of RUN a transition to LISTEN waits for the ports' last cycle (R362): it does not complete at once. -/
@[simp] theorem continueOut_cfgSmp : (continueOut s).cfgSmp = s.cfgSmp := by
  unfold continueOut
  split
  · rename_i t _
    split
    · rename_i hrun
      have hsampling : sampling s = true := by simp_all [sampling]
      unfold proceedTo
      split
      · rfl
      · rename_i hstop
        exact finishTransition_cfgSmp s fun ht => hstop (by simp [ht, hsampling])
    · rfl
  · rfl

/-! #### Functions, limits and channels -/

@[simp] theorem setDerate_cfgSmp (ch : Rat) (sc : Nat) (dis : Rat) (sd : Nat) : (setDerate ch sc dis sd s).cfgSmp = s.cfgSmp := by
  simp [setDerate]
@[simp] theorem zeroLimits_cfgSmp (code : Nat) : (zeroLimits code s).cfgSmp = s.cfgSmp := setDerate_cfgSmp _ _ _ _ _
@[simp] theorem derateZero_cfgSmp (code : Nat) : (derateZero code s).cfgSmp = s.cfgSmp := by simp [derateZero]
@[simp] theorem note_cfgSmp (code idx : Nat) (val thr : Int) : (note code idx val thr s).cfgSmp = s.cfgSmp := by simp [note]
@[simp] theorem activate_cfgSmp (code idx : Nat) (val thr : Int) : (activate code idx val thr s).cfgSmp = s.cfgSmp := by simp [activate]
@[simp] theorem setConn_cfgSmp (st : Nat) : (setConn st s).cfgSmp = s.cfgSmp := by simp [setConn]
@[simp] theorem setFeedback_cfgSmp (code : Nat) (m : BitVec 4) : (setFeedback code m s).cfgSmp = s.cfgSmp := by simp [setFeedback]
@[simp] theorem feedbackActive_cfgSmp : (feedbackActive s).cfgSmp = s.cfgSmp := by simp [feedbackActive]
@[simp] theorem releaseK_cfgSmp (m : BitVec 4) : (releaseK m s).cfgSmp = s.cfgSmp := by simp [releaseK, brokeAbove]
@[simp] theorem currentCut_cfgSmp (flags : Byte) : (currentCut flags s).cfgSmp = s.cfgSmp := by simp [currentCut]

@[simp] theorem finishOpen_cfgSmp : (finishOpen s).cfgSmp = s.cfgSmp := by
  cases hab : s.pro.aborted <;> simp [finishOpen, hab]

@[simp] theorem openingStep_cfgSmp : (openingStep s).cfgSmp = s.cfgSmp := by simp [openingStep]
@[simp] theorem releasePoint_cfgSmp : (releasePoint s).cfgSmp = s.cfgSmp := by simp [releasePoint]
@[simp] theorem beginOpen_cfgSmp (hw : Bool) : (beginOpen hw s).cfgSmp = s.cfgSmp := by simp [beginOpen]
@[simp] theorem openString_cfgSmp (hw : Bool) : (openString hw s).cfgSmp = s.cfgSmp := by simp [openString, onlyIf]

@[simp] theorem openAct_cfgSmp (code idx : Nat) (val thr : Int) (hw : Bool) : (openAct code idx val thr hw s).cfgSmp = s.cfgSmp := by
  simp [openAct, onlyIf]

@[simp] theorem fire_cfgSmp (code : Nat) (cond : Option (Nat × Int)) (thr : Int) : (fire code cond thr s).cfgSmp = s.cfgSmp := by
  cases cond <;> simp [fire]

/-! ### The steady parts with the sampling configuration -/

/-- The steady parts and the sampling configuration in force. -/
def steadyChannels (s : State) : State := { steady s with cfgSmp := s.cfgSmp }

theorem steadyChannels_congr {s t : State} (h : steady t = steady s) (hcfg : t.cfgSmp = s.cfgSmp) : steadyChannels t = steadyChannels s := by
  simp only [steadyChannels, h, hcfg]

@[simp] theorem steadyChannels_ite {c : Prop} [Decidable c] (a b : State) :
    steadyChannels (if c then a else b) = if c then steadyChannels a else steadyChannels b := apply_ite steadyChannels c a b

@[simp] theorem steadyChannels_modPro (f : Pro → Pro) : steadyChannels (modPro f s) = steadyChannels s := rfl
@[simp] theorem steadyChannels_modCtl (f : Ctl → Ctl) : steadyChannels (modCtl f s) = steadyChannels s := rfl
@[simp] theorem steadyChannels_setAct (code : Nat) (on : Bool) : steadyChannels (setAct code on s) = steadyChannels s := rfl
@[simp] theorem steadyChannels_note (code idx : Nat) (val thr : Int) : steadyChannels (note code idx val thr s) = steadyChannels s :=
  steadyChannels_congr (steady_note ..) (note_cfgSmp ..)
@[simp] theorem steadyChannels_activate (code idx : Nat) (val thr : Int) :
    steadyChannels (activate code idx val thr s) = steadyChannels s := steadyChannels_congr (steady_activate ..) (activate_cfgSmp ..)
@[simp] theorem steadyChannels_derateZero (code : Nat) : steadyChannels (derateZero code s) = steadyChannels s :=
  steadyChannels_congr (steady_derateZero ..) (derateZero_cfgSmp ..)
@[simp] theorem steadyChannels_releasePoint : steadyChannels (releasePoint s) = steadyChannels s :=
  steadyChannels_congr (steady_releasePoint s) (releasePoint_cfgSmp s)
@[simp] theorem steadyChannels_openString (hw : Bool) : steadyChannels (openString hw s) = steadyChannels s :=
  steadyChannels_congr (steady_openString ..) (openString_cfgSmp ..)
@[simp] theorem steadyChannels_openAct (code idx : Nat) (val thr : Int) (hw : Bool) :
    steadyChannels (openAct code idx val thr hw s) = steadyChannels s := steadyChannels_congr (steady_openAct ..) (openAct_cfgSmp ..)
@[simp] theorem steadyChannels_fire (code : Nat) (cond : Option (Nat × Int)) (thr : Int) :
    steadyChannels (fire code cond thr s) = steadyChannels s := steadyChannels_congr (steady_fire ..) (fire_cfgSmp ..)
@[simp] theorem steadyChannels_learnAbort : steadyChannels (learnAbort s) = steadyChannels s :=
  steadyChannels_congr (steady_learnAbort s) (learnAbort_cfgSmp s)

/-! ### PRO on a current result -/

@[simp] theorem steadyChannels_hwOcFx : steadyChannels (hwOcFx s) = steadyChannels s := by
  unfold hwOcFx
  split
  · split
    · rfl
    · dsimp only [takeWord]
      rw [steadyChannels_openAct, steadyChannels_activate]
      rfl
  · exact steadyChannels_setAct s 0x11 false

@[simp] theorem steadyChannels_cmpFx (x : CmpObs) : steadyChannels (cmpFx x s) = steadyChannels s := by
  simp [cmpFx, cmpRelease, cmpTake]

@[simp] theorem steadyChannels_ocFx : steadyChannels (ocFx s) = steadyChannels s := by simp [ocFx]
@[simp] theorem steadyChannels_disagreeFx : steadyChannels (disagreeFx s) = steadyChannels s := rfl
@[simp] theorem steadyChannels_noCurrentFx : steadyChannels (noCurrentFx s) = steadyChannels s := by simp [noCurrentFx]

@[simp] theorem steadyChannels_shuntOtFx : steadyChannels (shuntOtFx s) = steadyChannels s := by
  unfold shuntOtFx
  split
  · rfl
  · split
    · rfl
    · dsimp only
      split <;> rfl

@[simp] theorem steadyChannels_rampStep : steadyChannels (rampStep s) = steadyChannels s := by simp [rampStep]
@[simp] theorem steadyChannels_connectWatch : steadyChannels (connectWatch s) = steadyChannels s := by simp [connectWatch]
@[simp] theorem steadyChannels_proCurrent (x : CmpObs) : steadyChannels (proCurrent x s) = steadyChannels s := by simp [proCurrent]

@[simp] theorem steadyChannels_ctlCurrent : steadyChannels (ctlCurrent s) = steadyChannels s := by
  unfold ctlCurrent
  split
  · simp
  · rfl

/-- Beyond the channels a current result leaves the steady parts. -/
theorem steadyChannels_currentResultFx (x : CurObs) :
    steadyChannels (currentResultFx x s) = steadyChannels (currentFx x { s with cfgSmp := s.cfg }) := by
  simp [currentResultFx]

end Sys2Proof.Machine
end

section
/-! CURRENT_RESULT (R122 to R130): the readings taken, the charges added, and the statement. -/

namespace Sys2Proof.Machine

open Sys2Proof

variable (s : State)

/-! ### What the channels measure -/

/-- Results, validity and charges of the current channels, with the configuration under which they are taken. -/
def ofChannels (s : State) : State :=
  { fac := s.fac, cfg := s.cfg, cfgSmp := s.cfgSmp
    smp := { iShunt := s.smp.iShunt, iHall := s.smp.iHall, resSince := s.smp.resSince, tShunt := s.smp.tShunt, ntcFault := s.smp.ntcFault
             shOvr := s.smp.shOvr, shFault := s.smp.shFault, shHold := s.smp.shHold
             hallOvr := s.smp.hallOvr, hallFault := s.smp.hallFault, hallHold := s.smp.hallHold
             qShunt := s.smp.qShunt, qHall := s.smp.qHall } }

theorem ofChannels_of_steadyChannels {s t : State} (h : steadyChannels t = steadyChannels s) : ofChannels t = ofChannels s := by
  have hs (u : State) : ofChannels (steadyChannels u) = ofChannels u := rfl
  rw [← hs t, h, hs]

theorem ofChannels_of_still {s t : State} (h : still t = still s) : ofChannels t = ofChannels s := by
  have hs (u : State) : ofChannels (still u) = ofChannels u := rfl
  rw [← hs t, h, hs]

@[simp] theorem ofChannels_raise (e n : Nat) : ofChannels (raise e n s) = ofChannels s := ofChannels_of_still (still_raise s e n)
@[simp] theorem ofChannels_raiseIf (b : Bool) (e n : Nat) : ofChannels (raiseIf b e n s) = ofChannels s := ofChannels_of_still (still_raiseIf s b e n)
theorem ofChannels_onlyIf (b : Bool) {f : State → State} (h : ∀ t, ofChannels (f t) = ofChannels t) :
    ofChannels (onlyIf b f s) = ofChannels s := by
  cases b
  · rfl
  · exact h s

/-- Zero learning moves no result (R126). -/
@[simp] theorem ofChannels_zeroLapse : ofChannels (zeroLapse s) = ofChannels s := by
  unfold zeroLapse
  split
  · rfl
  · rw [ofChannels_raise, ofChannels_onlyIf _ _ fun t => ofChannels_raise t 0x06 6]
    rfl

@[simp] theorem ofChannels_zeroStep (x : CurObs) : ofChannels (zeroStep x s) = ofChannels s := by
  unfold zeroStep
  extract_lets u ok
  split
  · split
    · exact ofChannels_zeroLapse u
    · split <;> rfl
  · split <;> rfl

/-! ### One result -/

/-- The code of the shunt's NTC, whether it gives no temperature, and the temperature in use (R125). -/
def ntcReading (x : CurObs) : Half := sensorCode ((Config.freeWord s.fresh).truncate 16) s.cfgSmp.shNtcRes s.cfgSmp.shNtcB x.ntc
def ntcMute (x : CurObs) : Bool := ntcReading s x == 0x8000 || ntcReading s x == 0x7FFF
def ntcTemp (x : CurObs) : Int := if ntcMute s x then s.smp.tShunt.getD 2500 else (ntcReading s x).toInt

/-- An over-range of a channel without a fault, and the fault of an enabled Hall sensor (R127). -/
def shuntOver (x : CurObs) : Bool := !x.shFault && decide (52000000 < x.vSh.natAbs)
def hallFaulty (x : CurObs) : Bool := s.cfgSmp.hallEn && hallBad x
def hallOver (x : CurObs) : Bool := s.cfgSmp.hallEn && !hallBad x && decide (4000000 < (x.vSig - x.vRef).natAbs)

/-- Both channels' readings as the result takes them (R125 to R127). -/
def takeResult (x : CurObs) (s : State) : State :=
  modSmp (fun m => { m with
    ntcFault := ntcMute s x, tShunt := if ntcMute s x then m.tShunt else some (ntcReading s x).toInt
    shOvr := shuntOver x, shFault := x.shFault, shHold := if shuntOver x || x.shFault then 17 else m.shHold - 1
    hallOvr := hallOver s x, hallFault := hallFaulty s x
    hallHold := if hallOver s x || hallFaulty s x || !s.cfgSmp.hallEn then 17 else m.hallHold - 1
    iShunt := shuntResult s x (ntcTemp s x), iHall := hallResult s x, resSince := m.resSince + 1 }) s

/-- The charge of 62.5 µs of each valid channel (R130). -/
def addCharge (s : State) : State :=
  modSmp (fun m => { m with
    qShunt := if shuntValid s then m.qShunt + m.iShunt * 62500 else m.qShunt
    qHall := if hallValid s then m.qHall + m.iHall * 62500 else m.qHall }) s

theorem ofChannels_currentFx (x : CurObs) : ofChannels (currentFx x s) = ofChannels (addCharge (takeResult x s)) := by
  unfold currentFx
  dsimp only
  rw [ofChannels_zeroStep, ofChannels_raiseIf, ofChannels_raiseIf, ofChannels_raiseIf, ofChannels_onlyIf]
  · rfl
  · exact fun _ => rfl

/-! ### Validity (R127) -/

theorem shuntValid_of_held (h : s.smp.shHold = 17) : shuntValid s = false := by simp [shuntValid, h]
theorem hallValid_of_held (h : s.smp.hallHold = 17) : hallValid s = false := by simp [hallValid, h]

theorem shuntHeld_iff (x : CurObs) : (shuntOver x || x.shFault) = true ↔ x.shFault = true ∨ 52000000 < x.vSh.natAbs := by
  cases h : x.shFault <;> simp [shuntOver, h]

theorem hallHeld_iff (x : CurObs) : (hallOver s x || hallFaulty s x || !s.cfgSmp.hallEn) = true ↔
    s.cfgSmp.hallEn = false ∨ hallBad x = true ∨ 4000000 < (x.vSig - x.vRef).natAbs := by
  cases h : s.cfgSmp.hallEn <;> cases h' : hallBad x <;> simp [hallOver, hallFaulty, h, h']

theorem ntcMute_iff (x : CurObs) : ntcMute s x = true ↔ ntcReading s x = 0x8000 ∨ ntcReading s x = 0x7FFF := by
  simp [ntcMute]

/-- An open or shorted NTC gives no temperature. -/
theorem ntcReading_of_broken {x : CurObs} (h : x.ntc = .opened ∨ x.ntc = .shorted) : ntcReading s x = 0x8000 ∨ ntcReading s x = 0x7FFF := by
  rcases h with h | h
  · exact .inl (by rw [ntcReading, h]; rfl)
  · exact .inr (by rw [ntcReading, h]; rfl)

/-- The charges of both channels after a result, by their validity and readings as they then stand. -/
theorem charges_addCharge {t : State} (h : ofChannels t = ofChannels (addCharge s)) :
    t.smp.qShunt = s.smp.qShunt + (if shuntValid t then t.smp.iShunt * 62500 else 0) ∧
      t.smp.qHall = s.smp.qHall + (if hallValid t then t.smp.iHall * 62500 else 0) := by
  have hshunt : shuntValid t = shuntValid s := (congrArg shuntValid h : _)
  have hhall : hallValid t = hallValid s := (congrArg hallValid h : _)
  have hiShunt : t.smp.iShunt = s.smp.iShunt := congrArg (fun v => v.smp.iShunt) h
  have hiHall : t.smp.iHall = s.smp.iHall := congrArg (fun v => v.smp.iHall) h
  simp only [hshunt, hhall, hiShunt, hiHall, add_ite, add_zero]
  exact ⟨congrArg (fun v => v.smp.qShunt) h, congrArg (fun v => v.smp.qHall) h⟩

/-! ### The statement -/

theorem ofChannels_currentResult {s t : State} {x : CurObs} (halive : alive s = true) (hexec : exec (.currentResult x) s = .next t) :
    ofChannels t = ofChannels (addCharge (takeResult x { s with out := [], cfgSmp := s.cfg })) := by
  have hstill : still t = still (currentResultFx x { s with out := [] }) := (still_of_act hexec).trans (congrArg still (if_pos halive))
  exact (ofChannels_of_still hstill).trans
    ((ofChannels_of_steadyChannels (steadyChannels_currentResultFx _ x)).trans (ofChannels_currentFx _ x))

/-- Settles O42: the result is the channels' reading with its charge; what comes after it leaves the channels alone. -/
theorem currentResultsGiveCurrentsAndCharges : Obligations.CurrentResultsGiveCurrentsAndCharges := by
  unfold Obligations.CurrentResultsGiveCurrentsAndCharges
  intro s x halive u code bad temp shBad haBad
  obtain ⟨t, hexec, -⟩ := act_next (fun s => if alive s then currentResultFx x s else s) s
  have hchannels := ofChannels_currentResult halive hexec
  obtain ⟨hqShunt, hqHall⟩ := charges_addCharge _ hchannels
  have hmute : ntcMute { u with out := [] } x = true ↔ bad := ntcMute_iff _ x
  have htemp : ntcTemp { u with out := [] } x = temp := if_congr hmute rfl rfl
  have hshunt : t.smp.iShunt = shuntResult u x temp := htemp ▸ congrArg (fun v => v.smp.iShunt) hchannels
  have hhall : t.smp.iHall = hallResult u x := congrArg (fun v => v.smp.iHall) hchannels
  have hshHold : t.smp.shHold = if shBad then 17 else s.smp.shHold - 1 :=
    (congrArg (fun v => v.smp.shHold) hchannels).trans (if_congr (shuntHeld_iff x) rfl rfl)
  have hhallHold : t.smp.hallHold = if haBad then 17 else s.smp.hallHold - 1 :=
    (congrArg (fun v => v.smp.hallHold) hchannels).trans (if_congr (hallHeld_iff _ x) rfl rfl)
  refine ⟨t, hexec, congrArg State.cfgSmp hchannels, hshunt, hhall, congrArg (fun v => v.smp.resSince) hchannels,
    (congrArg (fun v => v.smp.tShunt) hchannels).trans (if_congr hmute rfl rfl),
    (congrArg (fun v => v.smp.ntcFault) hchannels).trans (Bool.eq_iff_iff.mpr (hmute.trans decide_eq_true_iff.symm)),
    fun h => ntcReading_of_broken { u with out := [] } h, hshHold, hhallHold,
    fun h => shuntValid_of_held t (hshHold.trans (if_pos h)), fun h => hallValid_of_held t (hhallHold.trans (if_pos h)), ?_, ?_,
    congrArg (fun v => v.cfg) hchannels, congrArg (fun v => v.fac) hchannels⟩
  · exact hshunt ▸ hqShunt
  · exact hhall ▸ hqHall

end Sys2Proof.Machine
end

section
/-! EST_CTRL, EST_RETAIN, IMP_CTRL and IMP_GSEL (R145, R169, R170, R198, R208, R209), and EST_SAVE, which also notes that the last save was
no final one. -/

namespace Sys2Proof.Machine

open Sys2Proof

/-! ### A register write that moves a part of the state -/

@[simp] theorem touch_est (s : State) (r : Req) : (touch r s).est = s.est := by unfold touch; split <;> rfl
@[simp] theorem touch_imp (s : State) (r : Req) : (touch r s).imp = s.imp := by unfold touch; split <;> rfl
@[simp] theorem touch_smp (s : State) (r : Req) : (touch r s).smp = s.smp := by unfold touch; split <;> rfl

theorem nPorts_touch (s : State) (r : Req) : nPorts (touch r s) = nPorts s := by simp [nPorts]
theorem nGroups_touch (s : State) (r : Req) : nGroups (touch r s) = nGroups s := by simp [nGroups, nPorts]
theorem hasImp_touch (s : State) (r : Req) : hasImp (touch r s) = hasImp s := by simp [hasImp]
theorem retainAfter_touch (s : State) (r : Req) (hi : Bool) (w : Word) : retainAfter (touch r s) hi w = retainAfter s hi w := by
  simp [retainAfter]

/-- A write that nothing stands against does what its register's effect does, where that neither reports nor sees the receipt of the
request. -/
theorem writes_of_writeFx {c : Instr} {r : Req} {s : State} {a : Nat} {w : Word} {f : State → State} (h : mayWrite r s)
    (hexec : exec c s = act (writeRequest r a w) s) (hok : WriteOk a w (touch r { s with out := [] }))
    (hfx : writeFx a w (touch r { s with out := [] }) = touch r { f s with out := [] })
    (hset : settled (f s)) (hev : (f s).ev = s.ev) (hses : (f s).ses = s.ses) : writes c r f s := by
  obtain ⟨-, hheard, -⟩ := h
  have ⟨_, hopened, _⟩ := hheard
  have hopen : ((touch r { f s with out := [] }).sess r.ctx.toNat).opened = true := by
    rw [touch_opened]
    exact (congrArg (fun x : Ses => (x.ctx.getD r.ctx.toNat {}).opened) hses).trans hopened
  have hwrite : writeRequest r a w { s with out := [] } = respond r 0x0D02 stOk [] (touch r { f s with out := [] }) := by
    rw [writeRequest_heard (s := { s with out := [] }) hheard hok (by rwa [hfx]), hfx]
  refine ⟨_, hexec.trans (act_eq_next hwrite (settled_respond _ _ _ _ _ (settled_touch _ r hset))), ?_, ?_, ?_⟩
  · rw [stillFor_of_still _ (still_transmit _ _), stillFor_respond, stillFor_touch]
    exact stillFor_of_still _ (still_clearOut _)
  · rw [transmit_ev, (respond_frame _ _ _ _ _).1, touch_ev]
    exact hev
  · rw [transmit_out, respond_out, touch_out]
    rfl

theorem touch_modEst (f : Est → Est) (s : State) (r : Req) : modEst f (touch r s) = touch r (modEst f s) :=
  apply_ite (modEst f) _ _ _

theorem touch_modImp (f : Imp → Imp) (s : State) (r : Req) : modImp f (touch r s) = touch r (modImp f s) :=
  apply_ite (modImp f) _ _ _

/-- The write changes the estimator alone. -/
theorem writes_modEst {c : Instr} {r : Req} {s : State} {a : Nat} {w : Word} {f : Est → Est} (h : mayWrite r s)
    (hexec : exec c s = act (writeRequest r a w) s) (hok : WriteOk a w (touch r { s with out := [] }))
    (hfx : writeFx a w (touch r { s with out := [] }) = modEst f (touch r { s with out := [] })) : writes c r (modEst f) s :=
  writes_of_writeFx h hexec hok (hfx.trans (touch_modEst f _ r)) (settled_congr h.1 rfl rfl rfl rfl rfl) rfl rfl

/-- The write changes the impedance engine alone. -/
theorem writes_modImp {c : Instr} {r : Req} {s : State} {a : Nat} {w : Word} {f : Imp → Imp} (h : mayWrite r s)
    (hexec : exec c s = act (writeRequest r a w) s) (hok : WriteOk a w (touch r { s with out := [] }))
    (hfx : writeFx a w (touch r { s with out := [] }) = modImp f (touch r { s with out := [] })) : writes c r (modImp f) s :=
  writes_of_writeFx h hexec hok (hfx.trans (touch_modImp f _ r)) (settled_congr h.1 rfl rfl rfl rfl rfl) rfl rfl

/-! ### EST_RETAIN (R170) -/

theorem getLsbD_lowHalf : ∀ p < 48, (0xFFFFFFFF#48).getLsbD p = decide (p < 32) := by decide

/-- RETAIN after a write: the bits of the half written are those of the word, the others stay. -/
theorem getLsbD_retainAfter (s : State) (hi : Bool) (w : Word) {p : Nat} (hp : p < 48) :
    (retainAfter s hi w).getLsbD p = if hi = decide (32 ≤ p) then w.getLsbD (p % 32) else s.est.retain.getLsbD p := by
  have hbit : (retainAfter s hi w).getLsbD p =
      if hi then s.est.retain.getLsbD p && decide (p < 32) || !decide (p < 32) && w.getLsbD (p - 32)
      else s.est.retain.getLsbD p && !decide (p < 32) || w.getLsbD p := by
    have hhigh : decide (p - 32 < 16) = true := decide_eq_true (by omega)
    have hhigh48 : decide (p - 32 < 48) = true := decide_eq_true (by omega)
    cases hi <;>
      simp only [retainAfter, BitVec.getLsbD_or, BitVec.getLsbD_and, BitVec.getLsbD_not, BitVec.getLsbD_shiftLeft, BitVec.getLsbD_setWidth,
        getLsbD_lowHalf p hp, hp, hhigh, hhigh48, decide_true, Bool.true_and, Bool.false_eq_true, if_true, if_false]
  rw [hbit]
  rcases Nat.lt_or_ge p 32 with hlow | hhigh
  · cases hi <;> simp [hlow, Nat.mod_eq_of_lt hlow]
  · have hmod : p % 32 = p - 32 := by omega
    cases hi <;> simp [hhigh, hmod, Nat.not_lt.mpr hhigh]

/-- On a module of 24 ports no bit of another port is set. -/
theorem retainAfter_absent {s : State} {hi : Bool} {w : Word} (h : ∀ p, nPorts s ≤ p → (retainAfter s hi w).getLsbD p = false) :
    (nPorts s == 24 && retainAfter s hi w &&& 0xFFFFFF000000#48 != 0) = false := by
  by_cases h24 : nPorts s = 24
  · have hmask : ∀ p < 48, p < 24 → (0xFFFFFF000000#48).getLsbD p = false := by decide
    have hnone : retainAfter s hi w &&& 0xFFFFFF000000#48 = 0 := by
      refine BitVec.eq_of_getLsbD_eq fun p hp => ?_
      rw [BitVec.getLsbD_and]
      rcases Nat.lt_or_ge p 24 with hlow | hhigh
      · simp [hmask p hp hlow]
      · simp [h p (h24 ▸ hhigh)]
    simp [hnone]
  · simp [h24]

/-- The address of the half of EST_RETAIN. -/
def retainAddr (hi : Bool) : Nat := if hi then 0x8004C else 0x80048

theorem writeOk_estRetain {s : State} {hi : Bool} {w : Word} (ha : stateOk awake s = true) (hcount : popCount (retainAfter s hi w) ≤ 8)
    (hports : ∀ p, nPorts s ≤ p → (retainAfter s hi w).getLsbD p = false) : WriteOk (retainAddr hi) w s where
  awake := ha
  inside := by cases hi <;> rfl
  aligned := by cases hi <;> rfl
  present := by cases hi <;> rfl
  named := by cases hi <;> rfl
  judge := by
    have habsent := retainAfter_absent hports
    have hrange : decide (8 < popCount (retainAfter s hi w)) = false := decide_eq_false (Nat.not_lt.mpr hcount)
    cases hi <;> exact congrArg₂ (fun a b => ({ absent := a, range := b } : WriteJudge)) habsent hrange
  notShut := by cases hi <;> rfl

theorem writeFx_estRetain (hi : Bool) (w : Word) (s : State) :
    writeFx (retainAddr hi) w s = modEst (fun e => { e with retain := retainAfter s hi w }) s := by
  cases hi <;> rfl

/-! ### EST_CTRL, IMP_CTRL, IMP_GSEL -/

theorem writeOk_estCtrl {s : State} (ha : stateOk awake s = true) (w : Word) : WriteOk 0x80004 w s where
  awake := ha
  inside := rfl
  aligned := rfl
  present := rfl
  named := rfl
  judge := rfl
  notShut := rfl

theorem absentAt_imp {s : State} (himp : hasImp s = true) {a : Nat} (h9 : a / 65536 = 9) : absentAt s a = false := by
  simp [absentAt, blockPresent, h9, himp]

theorem writeOk_impCtrl {s : State} (ha : stateOk awake s = true) (himp : hasImp s = true) (w : Word) : WriteOk 0x90004 w s where
  awake := ha
  inside := rfl
  aligned := rfl
  present := absentAt_imp himp rfl
  named := rfl
  judge := rfl
  notShut := rfl

theorem writeOk_impGsel {s : State} {w : Word} (ha : stateOk awake s = true) (himp : hasImp s = true)
    (hg : (w.extractLsb' 0 10).toNat < nGroups s) : WriteOk 0x9002C w s where
  awake := ha
  inside := rfl
  aligned := rfl
  present := absentAt_imp himp rfl
  named := rfl
  judge := congrArg (fun b => ({ range := b } : WriteJudge)) (decide_eq_false (Nat.not_le.mpr hg))
  notShut := rfl

/-- IMP_CTRL on the engine at module time `now`. -/
def impCtrl (w : Word) (now : Nat) (m : Imp) : Imp :=
  { m with
    stepInhibit := w.getLsbD 1, bins := if w.getLsbD 0 then List.replicate 8 {} else m.bins
    step := if w.getLsbD 0 || w.getLsbD 1 then none else m.step
    stepFrom := if w.getLsbD 0 || w.getLsbD 1 || m.stepInhibit then now + 1 else m.stepFrom
    lineLost := !w.getLsbD 0 && m.lineLost
    pend := m.pend.map fun x => { x with stale := w.getLsbD 0 || x.stale }
    groups := if w.getLsbD 0 then m.groups.map (fun x => { x with bins := List.replicate 8 (0x80000000, 0x80000000, 0) }) else m.groups }

theorem impCtrlFx_eq (w : Word) (s : State) : impCtrlFx w s = modImp (impCtrl w s.smp.timeNs) s := by
  have hpend (m : Imp) : (m.pend.map fun x => ({ x with stale := x.stale } : WinRun)) = m.pend := Option.map_id'
  unfold impCtrlFx stepInhibitFx winRestartFx dropHold freshRun onlyIf ctlBit modImp impCtrl
  cases hrestart : w.getLsbD 0 with
  | true => cases w.getLsbD 1 <;> cases s.imp.stepInhibit <;> rfl
  | false => cases w.getLsbD 1 <;> cases s.imp.stepInhibit <;> simp [hpend]

/-! ### The statement on control writes -/

/-- Settles O26: each write meets no objection, and its effect is one change of the estimator or the impedance engine. -/
theorem estimatorAndImpedanceControlWrites : Obligations.EstimatorAndImpedanceControlWrites := by
  unfold Obligations.EstimatorAndImpedanceControlWrites
  intro r s h
  let u := touch r { s with out := [] }
  have ha : stateOk awake u = true := (stateOk_touch { s with out := [] } _ r).trans h.2.2
  have htime : u.smp.timeNs = s.smp.timeNs := congrArg Smp.timeNs (touch_smp { s with out := [] } r)
  refine ⟨fun w c hc => ?_, fun hi w hcount hports => ⟨?_, fun p => getLsbD_retainAfter s hi w⟩, fun himp => ?_⟩
  · have hexec : exec c s = act (writeRequest r 0x80004 w) s := by rcases hc with rfl | rfl <;> rfl
    exact writes_modEst h hexec (writeOk_estCtrl ha w) rfl
  · have hsame : retainAfter u hi w = retainAfter s hi w := retainAfter_touch { s with out := [] } r hi w
    have hn : nPorts u = nPorts s := nPorts_touch { s with out := [] } r
    exact writes_modEst (a := retainAddr hi) h rfl (writeOk_estRetain ha (hsame ▸ hcount) (by rwa [hsame, hn]))
      ((writeFx_estRetain hi w u).trans (by rw [hsame]))
  · have himpU : hasImp u = true := (hasImp_touch { s with out := [] } r).trans himp
    refine ⟨fun w c hc => ?_, fun w hg => ?_⟩
    · have hexec : exec c s = act (writeRequest r 0x90004 w) s := by rcases hc with rfl | rfl <;> rfl
      exact writes_modImp (f := impCtrl w s.smp.timeNs) h hexec (writeOk_impCtrl ha himpU w) ((impCtrlFx_eq w u).trans (by rw [htime]))
    · have himpSame : u.imp = s.imp := touch_imp { s with out := [] } r
      have hwindow (g : Nat) : impWindow u g = impWindow s g := by simp only [impWindow, himpSame]
      refine writes_modImp h rfl (writeOk_impGsel ha himpU (hg.trans_eq (nGroups_touch { s with out := [] } r).symm)) ?_
      change gselFx _ u = _
      rw [gselFx, hwindow, ctlField, BitVec.ofNat_toNat, BitVec.setWidth_eq]

/-! ### EST_SAVE (R169, R170) -/

/-- A save notes whether it was a final one, made on a command to LISTEN or DORMANT. -/
theorem lastFinal_saveLearned (whole final ok : Bool) (s : State) : (saveLearned whole final ok s).nv.lastFinal = (final && ok) := by
  unfold saveLearned
  dsimp only
  rw [modEst_nv, raiseIf_nv]
  exact (apply_ite Nv.lastFinal _ _ _).trans (ite_self _)

theorem nv_completeOp (s : State) (op st : Nat) (b : Bytes) : (completeOp op st b s).nv = s.nv :=
  (congrArg State.nv (steady_completeOp s op st b) : _)

theorem deferredBusy_touch (s : State) (r : Req) (op : Nat) : deferredBusy op (touch r s) = deferredBusy op s := by
  unfold touch
  split <;> rfl

/-- After EST_SAVE the last save is no final one. -/
theorem lastFinal_estSave {r : Req} {s t : State} (h : heard r 0x0505 2 s) (hstate : stateOk measuring s = true)
    (hbusy : deferredBusy 0x0505 s = false) (hexec : exec (.estSave r true) s = .next t) :
    t.nv.lastFinal = false := by
  have hstate' : stateOk measuring (touch r { s with out := [] }) = true := (stateOk_touch { s with out := [] } _ r).trans hstate
  have hbusy' : deferredBusy 0x0505 (touch r { s with out := [] }) = false := (deferredBusy_touch { s with out := [] } r _).trans hbusy
  have hnv := of_still State.nv (fun _ => rfl) (still_of_act hexec)
  rw [request_heard (s := { s with out := [] }) (least := engineer) h _ _ (by simp [Judge.first, hstate', hbusy'])] at hnv
  rw [hnv, if_pos rfl, nv_completeOp, lastFinal_saveLearned]
  rfl

/-- A module in SURVEY with an ENGINEER's session, whose last save was the one on its way to LISTEN. -/
def finalSaved : State :=
  { State.reset with
    pwr := { state := 2, ready := true }
    ses := { ctx := [{ opened := true, role := 2 }] }
    nv := { copyA := { ok := true, final := true }, lastFinal := true } }

/-- Refutes O18: EST_SAVE does not leave the rest of NV standing: where the last save was a final one, it is noted that this one is not. -/
theorem not_learnedDataCommandsSaveAndLearn : ¬ Obligations.LearnedDataCommandsSaveAndLearn := by
  intro h
  let r : Req := { ctx := 0, tag := 1, zeros := true }
  have hheard : heard r 0x0505 2 finalSaved := by decide
  obtain ⟨hsave, -⟩ := h r finalSaved (by decide)
  obtain ⟨t, c, hexec, -, -, -, -, -, -, hnv, -⟩ := hsave hheard rfl rfl
  have hnoted : t.nv.lastFinal = false := lastFinal_estSave hheard rfl rfl hexec
  have hkept : t.nv.lastFinal = true := by
    rcases hnv with hnv | hnv <;> exact congrArg Nv.lastFinal hnv
  exact Bool.false_ne_true (hnoted.symm.trans hkept)

end Sys2Proof.Machine
end

section
/-! IMP_FRAME and the cadence that the impedance engine keeps (R190): a frame without TIME_STEP, while frames flow, leaves it. -/

namespace Sys2Proof.Machine

open Sys2Proof

variable (s : State)

/-! ### What a frame does in the engine leaves the cadence -/

/-- The run that a frame opens where frames flow already. -/
theorem lastCad_openRun {s : State} {f : Frame} (hflow : s.imp.last.isSome = true) : (openRun f s).imp.lastCad = s.imp.lastCad := by
  have hbegins : s.imp.last.isNone = false := by simpa using hflow
  simp only [openRun, hbegins, Bool.false_eq_true, if_false, Bool.false_or]
  split <;> split <;> rfl

@[simp] theorem lastCad_binFrame (b : Nat) (x : SegFrame) : (binFrame b x s).imp.lastCad = s.imp.lastCad := by
  unfold binFrame
  dsimp only
  split
  · rfl
  · split
    · rfl
    · split
      · rfl
      · rw [raiseIf_imp, raiseIf_imp, modImp_imp]

@[simp] theorem lastCad_endStep (t : Nat) : (endStep t s).imp.lastCad = s.imp.lastCad := by
  unfold endStep
  split <;> rfl

@[simp] theorem lastCad_stepMs (m : MsMean) : (stepMs m s).imp.lastCad = s.imp.lastCad := by
  unfold stepMs
  dsimp only
  split <;> split <;> simp [apply_ite State.imp, apply_ite Imp.lastCad]

@[simp] theorem lastCad_msFrame (f : Frame) (lost : Bool) : (msFrame f lost s).imp.lastCad = s.imp.lastCad := by
  simp only [msFrame, apply_ite State.imp, apply_ite Imp.lastCad, lastCad_stepMs, modImp_imp, ite_self]

theorem lastCad_forAll {α : Type} (l : List α) (f : α → State → State) (h : ∀ a t, (f a t).imp.lastCad = t.imp.lastCad) :
    (forAll l f s).imp.lastCad = s.imp.lastCad :=
  forAll_keeps s (fun t => t.imp.lastCad) l f h

/-- A processed frame without TIME_STEP, while frames flow. -/
theorem lastCad_takeFrame {s : State} {f : Frame} (hflow : s.imp.last.isSome = true) (hstep : f.flags.getLsbD 3 = false) :
    (takeFrame f s).imp.lastCad = s.imp.lastCad := by
  simp only [takeFrame, lastCad_msFrame, hstep, Bool.false_eq_true, if_false]
  rw [lastCad_forAll _ _ _ fun b t => lastCad_binFrame t b _, modImp_imp, lastCad_openRun hflow]

/-- IMP_FRAME on such a frame in a window that the throttle does not skip. -/
theorem lastCad_impFrame {s t : State} {f : Frame} {rest : List Frame} (hruns : impRuns s = true) (hwait : s.smp.impFrames = f :: rest)
    (hskip : skippedWindow s f.time = false) (hflow : s.imp.last.isSome = true) (hstep : f.flags.getLsbD 3 = false)
    (hexec : exec .impFrame s = .next t) : t.imp.lastCad = s.imp.lastCad := by
  have hfx : impFrameFx { s with out := [] } = takeFrame f (modSmp (fun m => { m with impFrames := rest }) { s with out := [] }) := by
    simp only [impFrameFx, hwait]
    exact if_neg (Bool.eq_false_iff.mp hskip)
  have himp : t.imp = (if impRuns s then impFrameFx { s with out := [] } else { s with out := [] }).imp :=
    of_still State.imp (fun _ => rfl) (still_of_act hexec)
  rw [himp, if_pos hruns, hfx]
  exact lastCad_takeFrame hflow hstep

/-! ### A change of cadence whose frame was refused -/

/-- The second frame at 4 kS/s, without TIME_STEP: the first one had it. -/
def secondAt4k : Frame := { instant := 5, time := 1250000, flags := 1 }

/-- A module in SURVEY that went from 16 kS/s to 4 kS/s at 1 ms. Its impedance engine saw the last frame at 16 kS/s, not the first one at
4 kS/s, as where crossing 0x0D refused it; the second one waits. -/
def staleCadence : State :=
  { State.reset with
    pwr := { state := 2, ready := true }
    smp := { started := true, timeNs := 1250000, instant := 5, cad := 1, impFrames := [secondAt4k] }
    imp := { last := some 15 } }

/-- Refutes O46: IMP_FRAME takes the cadence of a frame only where frames begin to flow or the frame has TIME_STEP. The second frame at
4 kS/s after a first one that the engine never saw leaves it at 16 kS/s. -/
theorem not_impedanceRunsFramesStepsAndWindows : ¬ Obligations.ImpedanceRunsFramesStepsAndWindows := by
  intro h
  obtain ⟨frames, -⟩ := h staleCadence rfl rfl
  obtain ⟨t, hexec, -, -, -, hframe, -⟩ := frames secondAt4k [] rfl
  have hkept : t.imp.lastCad = 0 := lastCad_impFrame rfl rfl rfl rfl rfl hexec
  have hflags : (secondAt4k.flags &&& 3).toNat = 1 := by decide
  exact absurd (hkept.symm.trans (hframe.trans hflags)) (by decide)

end Sys2Proof.Machine
end

section
/-! CTL_AO (R303) and the start of sense-wire tests (R255, R258): two statements that fail, each at a state that its hypotheses allow. -/

namespace Sys2Proof.Machine

open Sys2Proof

/-! ### CTL_AO (R303) -/

theorem absentAt_ctl {s : State} (hctl : hasCtl s = true) {a : Nat} (hblock : a / 65536 = 12) : absentAt s a = false := by
  simp [absentAt, blockPresent, hblock, hctl]

theorem hasCtl_touch (s : State) (r : Req) : hasCtl (touch r s) = hasCtl s := by simp [hasCtl]

theorem touch_modCtl (f : Ctl → Ctl) (s : State) (r : Req) : modCtl f (touch r s) = touch r (modCtl f s) :=
  apply_ite (modCtl f) _ _ _

/-- The write changes the control engine alone. -/
theorem writes_modCtl {c : Instr} {r : Req} {s : State} {a : Nat} {w : Word} {f : Ctl → Ctl} (h : mayWrite r s)
    (hexec : exec c s = act (writeRequest r a w) s) (hok : WriteOk a w (touch r { s with out := [] }))
    (hfx : writeFx a w (touch r { s with out := [] }) = modCtl f (touch r { s with out := [] })) : writes c r (modCtl f) s :=
  writes_of_writeFx h hexec hok (hfx.trans (touch_modCtl f _ r)) (settled_congr h.1 rfl rfl rfl rfl rfl) rfl rfl

theorem writeOk_ctlAo {s : State} {w : Word} (ha : stateOk awake s = true) (hctl : hasCtl s = true)
    (hw : (w.extractLsb' 0 16).toNat ≤ 10000) : WriteOk 0xC0070 w s where
  awake := ha
  inside := rfl
  aligned := rfl
  present := absentAt_ctl hctl rfl
  named := rfl
  judge := congrArg (fun b => ({ range := b } : WriteJudge)) (decide_eq_false (Nat.not_lt.mpr hw))
  notShut := rfl

/-- A write of CTL_AO within the range sets the host value and nothing else. -/
theorem writes_ctlAo {r : Req} {s : State} {w : Word} (h : mayWrite r s) (hctl : hasCtl s = true)
    (hw : (w.extractLsb' 0 16).toNat ≤ 10000) :
    writes (.aoHostWrite r w) r (modCtl fun c => { c with aoHost := (w.extractLsb' 0 16).toNat }) s := by
  have ha : stateOk awake (touch r { s with out := [] }) = true := (stateOk_touch { s with out := [] } _ r).trans h.2.2
  have hctl' : hasCtl (touch r { s with out := [] }) = true := (hasCtl_touch { s with out := [] } r).trans hctl
  exact writes_modCtl h rfl (writeOk_ctlAo ha hctl' hw) rfl

/-- The output follows CTL_AO at the next housekeeping round only. -/
theorem aoOut_ctlAo {r : Req} {s t : State} {w : Word} (h : mayWrite r s) (hctl : hasCtl s = true)
    (hw : (w.extractLsb' 0 16).toNat ≤ 10000) (hexec : exec (.aoHostWrite r w) s = .next t) : t.ctl.aoOut = s.ctl.aoOut := by
  obtain ⟨u, hu, hstill, -, -⟩ := writes_ctlAo h hctl hw
  obtain rfl : u = t := Host.Outcome.next.inj (hu.symm.trans hexec)
  exact (congrArg (fun v : State => v.ctl.aoOut) hstill :)

/-- An image with AO_MODE 1. -/
def hostAoCfg : Cfg := { ctl := List.replicate 45 none ++ [some 1] }

/-- A module in SURVEY with an ENGINEER's session, on that image; AO0 is at 0 V. -/
def hostAoModule : State :=
  { State.reset with
    pwr := { state := 2, ready := true }
    ses := { ctx := [{ opened := true, role := 2 }] }
    cfg := hostAoCfg
    cfgCtl := hostAoCfg }

/-- Refutes O27: AO0 is updated every housekeeping round (R303), so at AO_MODE 1 a write of 10 V to CTL_AO leaves the output at 0 V. -/
theorem not_engineControlWrites : ¬ Obligations.EngineControlWrites := by
  intro h
  let r : Req := { ctx := 0, tag := 1, zeros := true }
  have hmay : mayWrite r hostAoModule := by decide
  have hrange : ((10000 : Word).extractLsb' 0 16).toNat ≤ 10000 := by decide
  obtain ⟨-, -, control⟩ := h r hostAoModule hmay
  obtain ⟨-, -, ao⟩ := control rfl
  obtain ⟨t, hexec, -, -, -, hhost, -⟩ := ao 10000 hrange
  have hkept : t.ctl.aoOut = 0 := aoOut_ctlAo hmay rfl hrange hexec
  have hwritten : t.ctl.aoOut = 10000 := hhost rfl
  exact absurd (hkept.symm.trans hwritten) (by decide)

/-! ### OW_PERIOD_START while an investigation waits (R255, R258) -/

theorem owU_owStart_ne {u v : Nat} (h : v ≠ u) (s : State) : (owStart v s).owU u = s.owU u := by
  unfold owStart
  dsimp only
  split
  · simp [State.owU, modOw, h]
  · rfl

/-- A test starts on a unit with no pass and no probe, whether or not an investigation or a suspect wire waits for its probe. -/
theorem owU_owStart {u : Nat} {s : State} (hu : u < s.pro.units.length) (helig : owEligible s u = true)
    (hprobe : (s.owU u).probe = none) (hpass : (s.owU u).pass = none) (hpasses : (s.owU u).passes = []) :
    (owStart u s).owU u = { s.owU u with passes := owPasses s u } := by
  have hstart : owStart u s = modOw u (fun o => { o with passes := owPasses s u }) s := by
    simp [owStart, helig, hprobe, hpass, hpasses]
  rw [hstart]
  simp [State.owU, modOw, hu]

/-- OW_PERIOD_START of position 0 reaches unit 0 by its own start alone. -/
theorem owU_owPeriodFx_zero {s : State} (hpause : s.pro.owPause = false) : (owPeriodFx 0 s).owU 0 = (owStart 0 s).owU 0 := by
  have hothers (l : List Nat) (t : State) : (forAll (l.map Nat.succ) (fun p s => owStart (slotOf p 0) s) t).owU 0 = t.owU 0 := by
    induction l generalizing t with
    | nil => rfl
    | cons p l ih =>
      have hne : slotOf (p + 1) 0 ≠ 0 := by simp [slotOf]
      exact (ih _).trans (owU_owStart_ne hne t)
  have hports : List.range 48 = 0 :: (List.range 47).map Nat.succ := List.range_succ_eq_map
  unfold owPeriodFx
  rw [if_neg (Bool.eq_false_iff.mp hpause), hports, forAll, List.foldl_cons]
  exact hothers (List.range 47) _

theorem owU_owPeriodStart_zero {s t : State} (hruns : proRuns s = true) (hpause : s.pro.owPause = false)
    (hexec : exec (.owPeriodStart 0) s = .next t) : t.owU 0 = (owStart 0 { s with out := [] }).owU 0 := by
  have hfx := of_still (fun u => u.owU 0) (fun _ => rfl) (still_of_act hexec)
  exact hfx.trans ((congrArg (State.owU · 0) (if_pos hruns)).trans (owU_owPeriodFx_zero hpause))

/-- A module in SURVEY whose first unit samples and has a group at input 0. The investigation of that group has run its passes and waits for
its probe. -/
def investigatingModule : State :=
  { State.reset with
    pwr := { state := 2, ready := true }
    prt := [{ link := 2, pos := [{ present := true, loaded := true }, {}, {}] }]
    cfgPro := { groups := [{ slot := some 0 }] }
    pro := { armed := true, units := [{ dev := some 0 }] } }

/-- Refutes O47: an investigation that only waits for its probe does not skip the period's test of its unit (R255). Passes A and B of the
first unit become due, where the statement leaves the unit as it was. -/
theorem not_balancingRoundsEndAndTestsStart : ¬ Obligations.BalancingRoundsEndAndTestsStart := by
  intro h
  obtain ⟨-, -, periods⟩ := h investigatingModule rfl rfl rfl
  obtain ⟨t, hexec, -, -, -, -, -, hunit⟩ := periods 0 rfl rfl
  have hleft : t.owU 0 = investigatingModule.owU 0 := by
    refine (hunit 0 (by decide)).trans (if_neg ?_)
    rintro ⟨-, -, -, hidle⟩
    exact Bool.false_ne_true hidle
  have hstarted : t.owU 0 = { investigatingModule.owU 0 with passes := owPasses investigatingModule 0 } :=
    (owU_owPeriodStart_zero rfl rfl hexec).trans (owU_owStart (s := { investigatingModule with out := [] }) (by decide) rfl rfl rfl rfl)
  have hpasses : owPasses investigatingModule 0 = [] := congrArg OwUnit.passes (hstarted.symm.trans hleft)
  exact absurd hpasses (by decide)

end Sys2Proof.Machine
end

section
/-! The reset state (R271, R358), and the protection requests (R242, R262, R264 to R270): PRO_DISCONNECT on a standby, PRO_TRIP_RESET,
PRO_CLASS_CLEAR. -/

namespace Sys2Proof.Machine

open Sys2Proof

/-! ### Reset -/

theorem event_reset (e : Nat) : State.reset.event e = {} := List.getElem?_getD_replicate_default_eq ({} : Ev) 68 e

/-- Settles O4: each part is read off the reset state; every event block is one of 68 empty ones, or none. -/
theorem resetIsSettledAndSafe : Obligations.ResetIsSettledAndSafe := by
  refine ⟨by decide, by decide, rfl, List.length_replicate, fun e => ?_⟩
  rw [event_reset]
  exact ⟨rfl, rfl⟩

/-! ### Requests that are refused (R340) -/

/-- A request whose turn it is and in which the command finds something wrong is answered with the first status that applies. -/
theorem request_refused {s : State} {r : Req} {op least : Nat} (h : heard r op least s) (j : State → Judge) (run : State → State)
    {st : Nat} {b : Bytes} (hj : (j (touch r s)).first false = some (st, b)) :
    request r op least j run s = respond r op st b (touch r s) := by
  obtain ⟨hup, hopen, hstore, hzeros, hrole, hwipe, hnext, hun⟩ := h
  have free : ((touch r s).nv.wipePending && (running 0x0B02 (touch r s)).isNone && !duringWipe.contains op) = false := by
    rw [touch_nv]
    cases hw : s.nv.wipePending with
    | false => rfl
    | true => simp only [hwipe hw, Bool.not_true, Bool.and_false]
  have auth : decide ((s.sess r.ctx.toNat).role < least) = false := decide_eq_false (Nat.not_lt.mpr hrole)
  unfold request requestNoting
  simp only [hup, hopen, hnext, Bool.not_true, Bool.or_false, Bool.false_eq_true, if_false, hstore, unanswered_touch, hun, hzeros,
    auth, free]
  change (match (j (touch r s)).first false with
    | some (st, body) => respond r op st body (touch r s)
    | none => run (touch r s)) = _
  rw [hj]

@[simp] theorem touch_pro (s : State) (r : Req) : (touch r s).pro = s.pro := by unfold touch; split <;> rfl
@[simp] theorem touch_cfg (s : State) (r : Req) : (touch r s).cfg = s.cfg := by unfold touch; split <;> rfl
@[simp] theorem touch_pai (s : State) (r : Req) : (touch r s).pai = s.pai := by unfold touch; split <;> rfl

theorem respond_pro (s : State) (r : Req) (op st : Nat) (b : Bytes) : (respond r op st b s).pro = s.pro :=
  (congrArg State.pro (sansHost_respond s r op st b) :)

/-! ### PRO_DISCONNECT on a standby (R270) -/

theorem commands_touch (s : State) (r : Req) : commands (touch r s) = commands s := by simp [commands, inPair, hasPai]

/-- A standby in RUN that mirrors the connected string refuses PRO_DISCONNECT: nothing of PRO moves. -/
theorem pro_proDisconnect_standby {r : Req} {s t : State} (h : heard r 0x0702 1 s) (hstate : stateOk [3] s = true)
    (hstandby : commands s = false) (hconn : s.pro.conn = 5) (hexec : exec (.proDisconnect r) s = .next t) : t.pro = s.pro := by
  have hheard : heard r 0x0702 1 { s with out := [] } := h
  have hstate' : stateOk [3] (touch r { s with out := [] }) = true := (stateOk_touch { s with out := [] } _ r).trans hstate
  have hstandby' : commands (touch r { s with out := [] }) = false := (commands_touch { s with out := [] } r).trans hstandby
  have hrefused := request_refused hheard
    (fun s => { forbidden := !stateOk [3] s || (!commands s && s.pro.conn == 5), busy := deferredBusy 0x0702 s })
    (fun s =>
      let s := defer r 0x0702 s
      if s.pro.conn = 0 then completeOp 0x0702 stOk [] s else disconnectFx s)
    (st := stForbidden) (b := []) (by simp [Judge.first, hstate', hstandby', hconn])
  have hpro := of_still State.pro (fun _ => rfl) (still_of_act hexec)
  rw [hpro]
  exact (congrArg State.pro hrefused).trans ((respond_pro ..).trans (touch_pro ..))

/-- Module B of a pair in RUN without SELECT, with an OPERATOR's session. The string is connected. -/
def standbyOfConnected : State :=
  { State.reset with
    pwr := { state := 3, ready := true }
    ses := { ctx := [{ opened := true, role := 1 }] }
    cfg := { pair := some ⟨2, 0, 0, 0⟩ }
    pro := { conn := 5 } }

/-- Refutes O19: on a standby PRO_DISCONNECT starts no sequence (R270). It is refused and CONNECT_STATE stays CONNECTED. -/
theorem not_connectAndDisconnectBegin : ¬ Obligations.ConnectAndDisconnectBegin := by
  intro h
  let r : Req := { ctx := 0, tag := 1, zeros := true }
  have hheard : heard r 0x0702 1 standbyOfConnected := by decide
  obtain ⟨-, disconnects, -⟩ := h r standbyOfConnected rfl rfl
  obtain ⟨t, hexec, -, hramp, -⟩ := disconnects hheard rfl rfl
  have hstays : t.pro = standbyOfConnected.pro := pro_proDisconnect_standby hheard rfl rfl rfl hexec
  exact absurd ((congrArg Pro.conn hstays).symm.trans hramp) (by decide)

/-! ### What answers and conditions leave -/

theorem sansHost_of_sansXng {s t : State} (h : sansXng t = sansXng s) : sansHost t = sansHost s :=
  (congrArg (fun u : State => { u with ses := {}, que := [], ctl := {}, recd := {}, pai := {}, xng := {} }) h :)

theorem sansHost_touch (s : State) (r : Req) : sansHost (touch r s) = sansHost s := by unfold touch; split <;> rfl

theorem sameStores_of_sansHost {s t : State} (h : sansHost t = sansHost s) : sameStores s t :=
  ⟨(congrArg State.fac h :), (congrArg State.nv h :), (congrArg State.recNv h :), (congrArg State.cfg h :), (congrArg State.net h :),
    (congrArg State.cfgPro h :), (congrArg State.cfgEst h :), (congrArg State.cfgImp h :), (congrArg State.cfgCtl h :),
    (congrArg State.cfgSmp h :), (congrArg State.image h :)⟩

theorem sameMeasuring_of_sansHost {s t : State} (h : sansHost t = sansHost s) : sameMeasuring s t :=
  ⟨(congrArg State.prt h :), (congrArg State.units h :), (congrArg State.smp h :), (congrArg State.ins h :), (congrArg State.est h :),
    (congrArg State.imp h :), (congrArg State.bal h :)⟩

@[simp] theorem touch_ctl (s : State) (r : Req) : (touch r s).ctl = s.ctl := by unfold touch; split <;> rfl
@[simp] theorem touch_prt (s : State) (r : Req) : (touch r s).prt = s.prt := by unfold touch; split <;> rfl

@[simp] theorem respond_ctl (s : State) (r : Req) (op st : Nat) (b : Bytes) : (respond r op st b s).ctl = s.ctl :=
  (congrArg State.ctl (stillFor_respond s r op st b) :)

@[simp] theorem offer_pro (s : State) (x : Nat) (v : XVal) : (offer x v s).pro = s.pro := (congrArg State.pro (sansXng_offer s x v) :)
@[simp] theorem tellEst_pro (s : State) : (tellEst s).pro = s.pro := (congrArg State.pro (sansXng_tellEst s) :)
@[simp] theorem tellEst_ctl (s : State) : (tellEst s).ctl = s.ctl := (congrArg State.ctl (sansXng_tellEst s) :)

theorem out_prefix_forAll {α : Type} (l : List α) (f : α → State → State) (h : ∀ a s, s.out <+: (f a s).out) (s : State) :
    s.out <+: (forAll l f s).out := by
  induction l generalizing s with
  | nil => exact List.prefix_rfl
  | cons a l ih => exact (h a s).trans (ih (f a s))

/-- Notices go out behind what was sent before. -/
theorem out_prefix_notice (s : State) (cls typ : Nat) (b : Bytes) : s.out <+: (notice cls typ b s).out := by
  refine out_prefix_forAll _ _ ?_ s
  intro c t
  unfold noticeTo
  dsimp only
  split
  · exact List.prefix_append _ _
  · exact List.prefix_rfl

theorem out_prefix_condCheck (s : State) : s.out <+: (condCheck s).out := by
  unfold condCheck
  split
  · exact List.prefix_rfl
  · dsimp only
    refine List.IsPrefix.trans (l₂ := (raise 0x01 1 { s with pwr := { s.pwr with conds := conditions s } }).out) ?_ (out_prefix_notice _ _ _ _)
    rw [raise_out]

/-! ### PRO_TRIP_RESET (R242) -/

/-- The latches that PRO_TRIP_RESET leaves. -/
def latchesHeld (p : Pro) : BitVec 29 := p.latched &&& (p.active ||| (if (p.welded &&& p.kf) != 0 then 1#29 <<< 0x18 else 0))

/-- PRO after PRO_TRIP_RESET. -/
def latchesReset (p : Pro) : Pro :=
  { p with latched := latchesHeld p, welded := if (latchesHeld p).getLsbD 0x18 then p.welded else 0 }

theorem tripResetFx_keeps (s : State) : (tripResetFx s).pro = latchesReset s.pro ∧ (tripResetFx s).ctl = s.ctl ∧
    sansHost (tripResetFx s) = sansHost (modPro latchesReset s) := by
  have hreset : tripResetFx s = raiseIf (latchesHeld s.pro != s.pro.latched) 0x0B 15 (tellEst (modPro latchesReset s)) := rfl
  rw [hreset]
  refine ⟨?_, ?_, ?_⟩
  · rw [raiseIf_pro, tellEst_pro, modPro_pro]
  · rw [raiseIf_ctl, tellEst_ctl, modPro_ctl]
  · rw [sansHost_raiseIf, sansHost_of_sansXng (sansXng_tellEst _)]

@[simp] theorem transmit_pro (a s : State) : (transmit a s).pro = s.pro := rfl
@[simp] theorem transmit_ctl (a s : State) : (transmit a s).ctl = s.ctl := rfl
@[simp] theorem transmit_xng (a s : State) : (transmit a s).xng = s.xng := rfl

/-- A request in which the command finds nothing wrong does what the command does. -/
theorem act_request_heard {r : Req} {op least : Nat} {s : State} (h : heard r op least s) (j : State → Judge) (run : State → State)
    (hj : (j (touch r { s with out := [] })).first false = none) :
    act (request r op least j run) s = .next (transmit s (condCheck (run (touch r { s with out := [] })))) := by
  have hheard : heard r op least { s with out := [] } := h
  unfold act
  rw [request_heard hheard j run hj]

theorem exec_proTripReset {r : Req} {s : State} (h : heard r 0x0703 1 s) (hstate : stateOk measuring s = true) :
    ∃ t, exec (.proTripReset r) s = .next t ∧ t.pro = latchesReset s.pro ∧
      (Out.response r.ctx r.tag 0x0703 stOk (le 4 (latchesHeld s.pro).toNat)) ∈ t.out ∧ t.ctl = s.ctl ∧
      sansHost t = sansHost (modPro latchesReset s) := by
  have hstate' : stateOk measuring (touch r { s with out := [] }) = true := (stateOk_touch { s with out := [] } _ r).trans hstate
  refine ⟨_, act_request_heard h (fun s => { forbidden := !stateOk measuring s })
    (fun s =>
      let s := tripResetFx s
      respond r 0x0703 stOk (le 4 s.pro.latched.toNat) s) (by simp [Judge.first, hstate']), ?_, ?_, ?_, ?_⟩
  all_goals generalize hu : touch r { s with out := [] } = u
  all_goals
    have hpro : u.pro = s.pro := by rw [← hu, touch_pro]
    obtain ⟨hreset, hctl, hrest⟩ := tripResetFx_keeps u
    dsimp only
  · rw [transmit_pro, condCheck_pro, respond_pro, hreset, hpro]
  · refine (out_prefix_condCheck _).mem ?_
    rw [respond_out, hreset, hpro]
    exact List.mem_append_right _ (List.mem_singleton.mpr rfl)
  · rw [transmit_ctl, condCheck_ctl, respond_ctl, hctl, ← hu, touch_ctl]
  · rw [sansHost_of_still (still_transmit _ _), sansHost_of_still (still_condCheck _), sansHost_respond, hrest]
    rw [← hu]
    exact congrArg (fun v : State => modPro latchesReset v) (sansHost_touch _ r)

/-! ### PRO_CLASS_CLEAR (R262) -/

/-- PRO offers EST its value as it is now over crossing 0x13, and nothing else moves: PRO's own reset is the crossing's source (R441). -/
theorem tellEst_offers {s : State} (h : 0x13 < s.xng.xrec.length) :
    ∃ x : Xng, tellEst s = { s with xng := x } ∧ (x.xrec.getD 0x13 {}).cur = some (.prot (proView s)) := by
  have hx : s.xng.xrec[19]? = some s.xng.xrec[19] := List.getElem?_eq_getElem h
  unfold tellEst offer
  split
  · exact ⟨s.xng, rfl, ‹_›⟩
  · dsimp only
    split
    · exact ⟨_, rfl, by simp [hx]⟩
    · split
      · exact ⟨_, rfl, by simp [hx]⟩
      · split
        · exact ⟨_, rfl, by simp [hx]⟩
        · exact ⟨_, rfl, by simp [hx]⟩

/-- The classifications and counts of a slot cleared. -/
def unclassified (o : OwUnit) : OwUnit := { o with openMask := 0, incon := false, fault := 0, inconCnt := List.replicate 17 0 }

theorem proView_congr {s t : State} (hpro : t.pro = s.pro) (hcfg : t.cfgPro = s.cfgPro) : proView t = proView s := by
  have hview (u : State) : proView u = proView { pro := u.pro, cfgPro := u.cfgPro } := rfl
  rw [hview t, hview s, hpro, hcfg]

theorem classClear_offers {s : State} (h : 0x13 < s.xng.xrec.length) (u : Nat) : ∃ x : Xng,
    classClear u s = { modOw u unclassified s with xng := x } ∧
      (x.xrec.getD 0x13 {}).cur = some (.prot (proView (modOw u unclassified s))) := tellEst_offers (s := modOw u unclassified s) h

theorem respond_withXng (s : State) (r : Req) (op st : Nat) (b : Bytes) (x : Xng) :
    { respond r op st b s with xng := x } = respond r op st b { s with xng := x } := by
  unfold respond
  dsimp only
  split <;> rfl

@[simp] theorem respond_cfgPro (s : State) (r : Req) (op st : Nat) (b : Bytes) : (respond r op st b s).cfgPro = s.cfgPro :=
  (congrArg State.cfgPro (sansHost_respond s r op st b) :)

theorem exec_proClassClear {r : Req} {s : State} {slot : Byte} (hs : settled s) (h : heard r 0x0704 2 s) (hstate : stateOk measuring s = true)
    (hslot : slot.toNat < 144) (hport : portPresent s (slot.toNat / 3) = true) (hunit : (s.posU slot.toNat).present = true)
    (hx : 0x13 < s.xng.xrec.length) :
    ∃ t, exec (.proClassClear r slot) s = .next t ∧ t.ev = s.ev ∧ t.out = [.response r.ctx r.tag 0x0704 stOk []] ∧
      (t.xr 0x13).cur = some (.prot (proView t)) ∧
      stillFor r.ctx { t with xng := s.xng } = stillFor r.ctx (modOw slot.toNat unclassified s) := by
  have hheard := act_request_heard h
    (fun s => {
      absent := decide (slot.toNat < 144) && !portPresent s (slot.toNat / 3)
      forbidden := !stateOk measuring s
      range := decide (144 ≤ slot.toNat) || !(s.posU slot.toNat).present })
    (fun s => respond r 0x0704 stOk [] (classClear slot.toNat s))
    (by
      have hport' : portPresent (touch r { s with out := [] }) (slot.toNat / 3) = true := by simpa [portPresent, nPorts] using hport
      have hunit' : ((touch r { s with out := [] }).posU slot.toNat).present = true := by
        simpa [State.posU, State.pos, State.port] using hunit
      have hstate' : stateOk measuring (touch r { s with out := [] }) = true := (stateOk_touch { s with out := [] } _ r).trans hstate
      simp [Judge.first, hstate', hport', hunit', Nat.not_le.mpr hslot])
  obtain ⟨x, hclear, hoffered⟩ := classClear_offers (s := touch r { s with out := [] }) (by rw [touch_xng]; exact hx) slot.toNat
  have hsettled : settled (respond r 0x0704 stOk [] { modOw slot.toNat unclassified (touch r { s with out := [] }) with xng := x }) :=
    settled_respond _ _ _ _ _ (settled_touch s r hs)
  rw [hclear, condCheck_of_settled _ hsettled] at hheard
  refine ⟨_, hheard, ?_, ?_, ?_, ?_⟩
  · exact (respond_frame ..).1.trans (touch_ev _ r)
  · rw [transmit_out, respond_out]
    exact congrArg (· ++ _) (touch_out _ r)
  · have hview := proView_congr (t := transmit s (respond r 0x0704 stOk []
      { modOw slot.toNat unclassified (touch r { s with out := [] }) with xng := x }))
      (s := modOw slot.toNat unclassified (touch r { s with out := [] })) (respond_pro ..) (respond_cfgPro ..)
    rw [hview, ← hoffered, State.xr, transmit_xng, (respond_frame ..).2.2.2]
  · generalize htouched : touch r { s with out := [] } = u at *
    have hxng : u.xng = s.xng := by rw [← htouched, touch_xng]
    have hkept : stillFor r.ctx u = stillFor r.ctx s := by rw [← htouched, stillFor_touch]; rfl
    calc stillFor r.ctx { respond r 0x0704 stOk [] { modOw slot.toNat unclassified u with xng := x } with xng := s.xng }
      _ = stillFor r.ctx (modOw slot.toNat unclassified u) := by rw [respond_withXng, stillFor_respond, ← hxng]; rfl
      _ = modOw slot.toNat unclassified (stillFor r.ctx u) := rfl
      _ = stillFor r.ctx (modOw slot.toNat unclassified s) := by rw [hkept]; rfl

/-- Settles O20: the latches left are those of `latchesHeld`; the classification cleared is what crossing 0x13 offers. -/
theorem tripResetKeepsWhatStillHolds : Obligations.TripResetKeepsWhatStillHolds := by
  intro r s hstate
  refine ⟨fun h => ?_, fun slot hs h hslot hport hunit hx => ?_⟩
  · obtain ⟨t, hexec, hpro, hanswer, hctl, hrest⟩ := exec_proTripReset h hstate
    exact ⟨t, hexec, (congrArg Pro.latched hpro :), hanswer, (congrArg Pro.active hpro :), (congrArg Pro.kA hpro :),
      (congrArg Pro.kB hpro :), (congrArg Pro.conn hpro :), (congrArg Pro.iCh hpro :), (congrArg Pro.iDis hpro :),
      (sameStores_of_sansHost hrest :), (sameMeasuring_of_sansHost hrest :), hctl⟩
  · obtain ⟨t, hexec, hev, hout, hoffered, hstill⟩ := exec_proClassClear hs h hstate hslot hport hunit hx
    exact ⟨t, hexec, flagged_nil s t hev, hout, hoffered, hstill⟩

end Sys2Proof.Machine
end

section
/-! What the operations of the contactor sequences leave (R239, R254, R264 to R268): the parts beside the sequence, channel by channel and
CONNECT_STATE, and an engine that does not run. -/

namespace Sys2Proof.Machine

open Sys2Proof

variable (s : State)

/-! ### PRO through what it reports -/

@[simp] theorem completeOp_pro (op st : Nat) (b : Bytes) : (completeOp op st b s).pro = s.pro :=
  (congrArg State.pro (sansHost_completeOp s op st b) :)
@[simp] theorem parkEngine_pro (cause : Nat) : (parkEngine cause s).pro = s.pro := (congrArg State.pro (sansHost_parkEngine s cause) :)
@[simp] theorem proRecord_pro (code idx : Nat) (val thr : Int) (how : Byte) : (proRecord code idx val thr how s).pro = s.pro :=
  recordCode_pro _ _ _ _ _
@[simp] theorem proRecord_ctl (code idx : Nat) (val thr : Int) (how : Byte) : (proRecord code idx val thr how s).ctl = s.ctl :=
  recordCode_ctl _ _ _ _ _
@[simp] theorem sendPeer_pro (p : Byte) (b : Bytes) : (sendPeer p b s).pro = s.pro := rfl

@[simp] theorem offer_ctl (x : Nat) (v : XVal) : (offer x v s).ctl = s.ctl := (congrArg State.ctl (sansXng_offer s x v) :)

@[simp] theorem pro_ite {c : Prop} [Decidable c] (a b : State) : (if c then a else b).pro = if c then a.pro else b.pro :=
  apply_ite State.pro c a b
@[simp] theorem ctl_ite {c : Prop} [Decidable c] (a b : State) : (if c then a else b).ctl = if c then a.ctl else b.ctl :=
  apply_ite State.ctl c a b

@[simp] theorem currentCut_ctl (flags : Byte) : (currentCut flags s).ctl = s.ctl := by
  unfold currentCut
  rw [notice_ctl, ctl_ite]
  exact ite_self _

@[simp] theorem completeOp_ctl (op st : Nat) (b : Bytes) : (completeOp op st b s).ctl = s.ctl := by
  unfold completeOp
  split
  · unfold complete
    dsimp only
    split <;> rfl
  · rfl

/-! ### Transitions out of RUN -/

/-- What PRO reads: its configuration, the debounced inputs, its own state. -/
def proSide (s : State) : State := { cfgPro := s.cfgPro, cap := s.cap, pro := s.pro }

theorem proSide_of_sansHost {s t : State} (h : sansHost t = sansHost s) : proSide t = proSide s := (congrArg proSide h :)

theorem proSide_of_still {s t : State} (h : still t = still s) : proSide t = proSide s := (congrArg proSide h :)

@[simp] theorem proSide_ite {c : Prop} [Decidable c] (a b : State) : proSide (if c then a else b) = if c then proSide a else proSide b :=
  apply_ite proSide c a b
@[simp] theorem proSide_modCtl (f : Ctl → Ctl) : proSide (modCtl f s) = proSide s := rfl
@[simp] theorem proSide_modSmp (f : Smp → Smp) : proSide (modSmp f s) = proSide s := rfl
@[simp] theorem proSide_modPwr (f : Pwr → Pwr) : proSide (modPwr f s) = proSide s := rfl
@[simp] theorem proSide_completeOp (op st : Nat) (b : Bytes) : proSide (completeOp op st b s) = proSide s :=
  proSide_of_sansHost (sansHost_completeOp s op st b)

@[simp] theorem proSide_engineOff : proSide (engineOff s) = proSide s := proSide_of_sansHost (sansHost_parkEngine s 7)

@[simp] theorem proSide_setPower (st : Nat) : proSide (setPower st s) = proSide s := by
  unfold setPower
  split
  · rfl
  · exact (proSide_of_still ((still_noticeState _ _).trans (still_raise _ _ _))).trans rfl

theorem proSide_enterState {t : Nat} (ht : t ≠ 1) (hrun : s.pwr.state = 3) : proSide (enterState t s) = proSide s := by
  simp [enterState, onlyIf, ht, hrun]

/-- A transition that a sequence completes leads out of RUN, and to LISTEN only after the ports' last cycle (R362). -/
theorem continueOut_cases : continueOut s = s ∨ continueOut s = modPwr (fun p => { p with leaving := true }) s ∨
    ∃ t, t ≠ 1 ∧ s.pwr.state = 3 ∧ continueOut s = finishTransition t s := by
  unfold continueOut
  split
  · rename_i t _
    split
    · rename_i hrun
      have hrun : s.pwr.state = 3 := by simp_all
      have hsampling : sampling s = true := by simp [sampling, hrun]
      unfold proceedTo
      split
      · exact .inr (.inl rfl)
      · rename_i hlisten
        exact .inr (.inr ⟨t, fun ht => hlisten (by simp [ht, hsampling]), hrun, rfl⟩)
    · exact .inl rfl
  · exact .inl rfl

/-- PRO is not disarmed on the way. -/
@[simp] theorem proSide_continueOut : proSide (continueOut s) = proSide s := by
  obtain h | h | ⟨t, ht, hrun, h⟩ := continueOut_cases s <;> rw [h]
  · rfl
  · simp [finishTransition, proSide_enterState _ ht hrun]

@[simp] theorem continueOut_pro : (continueOut s).pro = s.pro := (congrArg State.pro (proSide_continueOut s) :)

/-! ### CONNECT_STATE -/

theorem setConn_pro (st : Nat) : (setConn st s).pro = { s.pro with conn := st } := by
  unfold setConn
  dsimp only
  split
  · rename_i h
    rw [← h]
  · simp

@[simp] theorem setConn_conn (st : Nat) : (setConn st s).pro.conn = st := congrArg Pro.conn (setConn_pro s st)
@[simp] theorem setConn_kA (st : Nat) : (setConn st s).pro.kA = s.pro.kA := (congrArg Pro.kA (setConn_pro s st) :)
@[simp] theorem setConn_kB (st : Nat) : (setConn st s).pro.kB = s.pro.kB := (congrArg Pro.kB (setConn_pro s st) :)

/-! ### Channels and their feedback -/

/-- PRO less the active functions. -/
def sansActive (p : Pro) : Pro := { p with active := 0 }

@[simp] theorem sansActive_activate (code idx : Nat) (val thr : Int) : sansActive (activate code idx val thr s).pro = sansActive s.pro := by
  unfold activate
  split
  · rfl
  · dsimp only
    split
    · rw [proRecord_pro]; rfl
    · rfl

@[simp] theorem sansActive_setFeedback (code : Nat) (m : BitVec 4) : sansActive (setFeedback code m s).pro = sansActive s.pro := by
  unfold setFeedback
  split
  · rfl
  · exact sansActive_activate ..

@[simp] theorem sansActive_feedbackActive : sansActive (feedbackActive s).pro = sansActive s.pro :=
  (sansActive_setFeedback _ _ _).trans (sansActive_setFeedback _ _ _)

@[simp] theorem feedbackActive_kA : (feedbackActive s).pro.kA = s.pro.kA := (congrArg Pro.kA (sansActive_feedbackActive s) :)
@[simp] theorem feedbackActive_kB : (feedbackActive s).pro.kB = s.pro.kB := (congrArg Pro.kB (sansActive_feedbackActive s) :)
@[simp] theorem feedbackActive_kf : (feedbackActive s).pro.kf = s.pro.kf := (congrArg Pro.kf (sansActive_feedbackActive s) :)
@[simp] theorem feedbackActive_conn : (feedbackActive s).pro.conn = s.pro.conn := (congrArg Pro.conn (sansActive_feedbackActive s) :)
@[simp] theorem feedbackActive_tP : (feedbackActive s).pro.tP = s.pro.tP := (congrArg Pro.tP (sansActive_feedbackActive s) :)
@[simp] theorem feedbackActive_closing : (feedbackActive s).pro.closing = s.pro.closing :=
  (congrArg Pro.closing (sansActive_feedbackActive s) :)

@[simp] theorem activate_ctl (code idx : Nat) (val thr : Int) : (activate code idx val thr s).ctl = s.ctl := by
  unfold activate
  split
  · rfl
  · dsimp only
    split
    · rw [proRecord_ctl]; rfl
    · rfl

@[simp] theorem setFeedback_ctl (code : Nat) (m : BitVec 4) : (setFeedback code m s).ctl = s.ctl := by
  unfold setFeedback
  split
  · rfl
  · exact activate_ctl ..

@[simp] theorem feedbackActive_ctl : (feedbackActive s).ctl = s.ctl := (setFeedback_ctl _ _ _).trans (setFeedback_ctl _ _ _)

@[simp] theorem brokeAbove_pro (m : BitVec 4) : (brokeAbove m s).pro = s.pro := raiseIf_pro ..

@[simp] theorem assertK_kA (m : BitVec 4) : (assertK m s).pro.kA = s.pro.kA ||| m := feedbackActive_kA _
@[simp] theorem assertK_kB (m : BitVec 4) : (assertK m s).pro.kB = s.pro.kB ||| m := feedbackActive_kB _

@[simp] theorem releaseK_kA (m : BitVec 4) : (releaseK m s).pro.kA = s.pro.kA &&& ~~~m :=
  (feedbackActive_kA _).trans (congrArg (fun p : Pro => p.kA &&& ~~~m) (brokeAbove_pro s m))
@[simp] theorem releaseK_kB (m : BitVec 4) : (releaseK m s).pro.kB = s.pro.kB &&& ~~~m :=
  (feedbackActive_kB _).trans (congrArg (fun p : Pro => p.kB &&& ~~~m) (brokeAbove_pro s m))
@[simp] theorem releaseK_kf (m : BitVec 4) : (releaseK m s).pro.kf = s.pro.kf :=
  (feedbackActive_kf _).trans (congrArg Pro.kf (brokeAbove_pro s m) :)
@[simp] theorem releaseK_conn (m : BitVec 4) : (releaseK m s).pro.conn = s.pro.conn :=
  (feedbackActive_conn _).trans (congrArg Pro.conn (brokeAbove_pro s m) :)
@[simp] theorem releaseK_ctl (m : BitVec 4) : (releaseK m s).ctl = s.ctl := (feedbackActive_ctl _).trans (raiseIf_ctl ..)

/-! ### The end of an opening (R268, step 4) -/

theorem finishOpen_pro : (finishOpen s).pro =
    { s.pro with conn := 0, leftFuse := false, guardWait := false, hostDisc := false, aborted := none } := by
  cases hab : s.pro.aborted <;> simp [finishOpen, hab, setConn_pro]

theorem released_congr {s t : State} (hA : t.pro.kA = s.pro.kA) (hB : t.pro.kB = s.pro.kB) : released t = released s := by
  simp only [released, hA, hB]

@[simp] theorem released_setConn (st : Nat) : released (setConn st s) = released s := released_congr (setConn_kA s st) (setConn_kB s st)

@[simp] theorem released_openingStep : released (openingStep s) = released s := by
  unfold openingStep
  split
  · exact released_congr (congrArg Pro.kA (finishOpen_pro s) :) (congrArg Pro.kB (finishOpen_pro s) :)
  · rfl

theorem released_releaseK_all : released (releaseK 0xF s) = true := by
  simp [released, releaseK_kA, releaseK_kB]

theorem openingStep_conn : (openingStep s).pro.conn = 0 ∨ (openingStep s).pro.conn = s.pro.conn := by
  unfold openingStep
  split
  · exact .inl (congrArg Pro.conn (finishOpen_pro s))
  · exact .inr rfl

theorem openingStep_of_ne (h : s.pro.conn ≠ 9) : openingStep s = s := by
  simp [openingStep, h]

/-- A string that R254 does not hold is released, and its opening begins or has ended. -/
theorem releasePoint_opens (h : s.pro.aboveNever = false) :
    released (releasePoint s) = true ∧ ((releasePoint s).pro.conn = 9 ∨ (releasePoint s).pro.conn = 0) := by
  unfold releasePoint
  rw [if_neg (by simp [h])]
  refine ⟨?_, ?_⟩
  · rw [released_openingStep, released_setConn, released_releaseK_all]
  · rcases openingStep_conn (setConn 9 (releaseK 0xF (modPro (fun p => { p with leftFuse := false, guardWait := false }) s))) with h | h
    · exact .inr h
    · exact .inl (h.trans (setConn_conn ..))

/-! ### The parts beside the sequence -/

/-- The functions K_FEEDBACK and K_WELD, active as the contactors' feedback has it (Table 8.3, codes 0x17 and 0x18). -/
def feedbackBits : BitVec 29 := 0x1800000#29

/-- PRO less what the sequences of R254 and R264 to R268 move. -/
def sansSequence (p : Pro) : Pro :=
  { p with
    conn := 0, kA := 0, kB := 0, closing := 0, released := 0, dropRun := 0, misA := 0, misB := 0, active := p.active &&& ~~~feedbackBits
    leftFuse := false, guardWait := false, guardCnt := 0, hostDisc := false, aborted := none, overlap := false, okRun := 0, tP := 0
    farAtTp := false }

/-- The parts of the state that no contactor sequence moves. -/
def besideSequence (s : State) : State := { steady s with cfgPro := s.cfgPro, cap := s.cap, pro := sansSequence s.pro }

theorem besideSequence_congr {s t : State} (h : steady t = steady s) (hside : proSide t = proSide s) :
    besideSequence t = besideSequence s := by
  have hcfg : t.cfgPro = s.cfgPro := (congrArg State.cfgPro hside :)
  have hcap : t.cap = s.cap := (congrArg State.cap hside :)
  have hpro : t.pro = s.pro := (congrArg State.pro hside :)
  simp only [besideSequence, h, hcfg, hcap, hpro]

@[simp] theorem besideSequence_ite {c : Prop} [Decidable c] (a b : State) :
    besideSequence (if c then a else b) = if c then besideSequence a else besideSequence b := apply_ite besideSequence c a b

theorem besideSequence_modPro {f : Pro → Pro} (h : sansSequence (f s.pro) = sansSequence s.pro) :
    besideSequence (modPro f s) = besideSequence s :=
  (congrArg (fun p => { steady s with cfgPro := s.cfgPro, cap := s.cap, pro := p }) h :)

@[simp] theorem besideSequence_raise (e n : Nat) : besideSequence (raise e n s) = besideSequence s :=
  besideSequence_congr (steady_raise s e n) (proSide_of_still (still_raise s e n))
@[simp] theorem besideSequence_raiseIf (b : Bool) (e n : Nat) : besideSequence (raiseIf b e n s) = besideSequence s :=
  besideSequence_congr (steady_raiseIf s b e n) (proSide_of_still (still_raiseIf s b e n))
@[simp] theorem besideSequence_notice (cls typ : Nat) (b : Bytes) : besideSequence (notice cls typ b s) = besideSequence s :=
  besideSequence_congr (steady_notice s cls typ b) (proSide_of_still (still_notice s cls typ b))
@[simp] theorem besideSequence_proRecord (code idx : Nat) (val thr : Int) (how : Byte) :
    besideSequence (proRecord code idx val thr how s) = besideSequence s :=
  besideSequence_congr (steady_proRecord ..) (proSide_of_still (still_recordCode ..))
@[simp] theorem besideSequence_completeOp (op st : Nat) (b : Bytes) : besideSequence (completeOp op st b s) = besideSequence s :=
  besideSequence_congr (steady_completeOp s op st b) (proSide_completeOp s op st b)
@[simp] theorem besideSequence_parkEngine (cause : Nat) : besideSequence (parkEngine cause s) = besideSequence s :=
  besideSequence_congr (steady_parkEngine s cause) (proSide_of_sansHost (sansHost_parkEngine s cause))
@[simp] theorem besideSequence_continueOut : besideSequence (continueOut s) = besideSequence s :=
  besideSequence_congr (steady_continueOut s) (proSide_continueOut s)

@[simp] theorem besideSequence_setConn (st : Nat) : besideSequence (setConn st s) = besideSequence s := by
  have hconn (u : State) : besideSequence (modPro (fun p => { p with conn := st }) u) = besideSequence u := rfl
  simp [setConn, hconn]

/-- K_FEEDBACK or K_WELD becomes active, or ends. -/
theorem besideSequence_setFeedback {code : Nat} (hcode : code = 0x17 ∨ code = 0x18) (m : BitVec 4) :
    besideSequence (setFeedback code m s) = besideSequence s := by
  have hset (on : Bool) (u : State) : besideSequence (setAct code on u) = besideSequence u := by
    refine besideSequence_modPro u ?_
    have hbits : (if on then u.pro.active ||| (1#29 <<< code) else u.pro.active &&& ~~~(1#29 <<< code)) &&& ~~~feedbackBits =
        u.pro.active &&& ~~~feedbackBits := by
      rcases hcode with rfl | rfl <;> cases on <;> ext i hi <;> interval_cases i <;> simp [feedbackBits]
    simp only [sansSequence, hbits]
  unfold setFeedback activate
  simp [hset]

@[simp] theorem besideSequence_feedbackActive : besideSequence (feedbackActive s) = besideSequence s :=
  (besideSequence_setFeedback _ (.inl rfl) _).trans (besideSequence_setFeedback _ (.inr rfl) _)

@[simp] theorem besideSequence_assertK (m : BitVec 4) : besideSequence (assertK m s) = besideSequence s :=
  besideSequence_feedbackActive _

@[simp] theorem besideSequence_releaseK (m : BitVec 4) : besideSequence (releaseK m s) = besideSequence s :=
  (besideSequence_feedbackActive _).trans (besideSequence_raiseIf s _ _ _)

@[simp] theorem besideSequence_currentCut (flags : Byte) : besideSequence (currentCut flags s) = besideSequence s := by
  have hfree : besideSequence (takeWord s).2 = besideSequence s := rfl
  simp [currentCut, hfree]

@[simp] theorem besideSequence_finishOpen : besideSequence (finishOpen s) = besideSequence s := by
  have hended : besideSequence (modPro (fun p => { p with leftFuse := false, guardWait := false, hostDisc := false, aborted := none }) s) =
    besideSequence s := rfl
  cases hab : s.pro.aborted <;> simp [finishOpen, hab, hended]

@[simp] theorem besideSequence_openingStep : besideSequence (openingStep s) = besideSequence s := by simp [openingStep]

@[simp] theorem besideSequence_releasePoint : besideSequence (releasePoint s) = besideSequence s := by
  have hleft (b : Bool) : besideSequence (modPro (fun p => { p with leftFuse := b, guardWait := false }) s) = besideSequence s := rfl
  simp [releasePoint, hleft]

@[simp] theorem besideSequence_beginOpen (hw : Bool) : besideSequence (beginOpen hw s) = besideSequence s := by
  have hwait (u : State) : besideSequence (modPro (fun p => { p with guardWait := true, guardCnt := satAdd p.guardCnt 1 }) u) =
    besideSequence u := rfl
  simp [beginOpen, hwait]

@[simp] theorem besideSequence_openString (hw : Bool) : besideSequence (openString hw s) = besideSequence s := by
  have habort (c : Nat) (u : State) : besideSequence (modPro (fun p =>
    { p with aborted := some (c, if p.latched != 0 then p.firstCode else 0), overlap := false }) u) = besideSequence u := rfl
  simp only [openString, onlyIf, besideSequence_ite, besideSequence_releasePoint, besideSequence_beginOpen, habort, besideSequence_raiseIf,
    ite_self]

@[simp] theorem besideSequence_closeNeg : besideSequence (closeNeg s) = besideSequence s := by simp [closeNeg]

@[simp] theorem besideSequence_startPrecharge : besideSequence (startPrecharge s) = besideSequence s := by
  have hbegun (t : Nat) (far : Bool) : besideSequence (modPro (fun p => { p with tP := t, farAtTp := far, okRun := 0 }) s) =
    besideSequence s := rfl
  simp [startPrecharge, hbegun]

@[simp] theorem besideSequence_seqStep : besideSequence (seqStep s) = besideSequence s := by
  have hover : besideSequence (modPro (fun p => { p with overlap := true }) s) = besideSequence s := rfl
  simp [seqStep, hover]

/-! ### The engine over an opening (R278) -/

theorem engineRuns_of_ctl {s t : State} (h : t.ctl = s.ctl) : engineRuns t = engineRuns s := by simp only [engineRuns, h]

@[simp] theorem engineRuns_modPro (f : Pro → Pro) : engineRuns (modPro f s) = engineRuns s := rfl
@[simp] theorem engineRuns_raise (e n : Nat) : engineRuns (raise e n s) = engineRuns s := engineRuns_of_ctl (raise_ctl ..)
@[simp] theorem engineRuns_raiseIf (b : Bool) (e n : Nat) : engineRuns (raiseIf b e n s) = engineRuns s := engineRuns_of_ctl (raiseIf_ctl ..)
@[simp] theorem engineRuns_notice (cls typ : Nat) (b : Bytes) : engineRuns (notice cls typ b s) = engineRuns s :=
  engineRuns_of_ctl (notice_ctl ..)
@[simp] theorem engineRuns_completeOp (op st : Nat) (b : Bytes) : engineRuns (completeOp op st b s) = engineRuns s :=
  engineRuns_of_ctl (completeOp_ctl ..)
@[simp] theorem engineRuns_currentCut (flags : Byte) : engineRuns (currentCut flags s) = engineRuns s := engineRuns_of_ctl (currentCut_ctl ..)
@[simp] theorem engineRuns_releaseK (m : BitVec 4) : engineRuns (releaseK m s) = engineRuns s := engineRuns_of_ctl (releaseK_ctl ..)
@[simp] theorem engineRuns_ite {c : Prop} [Decidable c] (a b : State) :
    engineRuns (if c then a else b) = if c then engineRuns a else engineRuns b := apply_ite engineRuns c a b

theorem state_backFx : (backFx s).ctl.state = s.ctl.state := by
  unfold backFx
  split
  · rw [raise_ctl]; rfl
  · rfl

theorem state_srcTaken (n : Nat) : (srcTaken n s).ctl.state = s.ctl.state := by
  simp only [srcTaken, ctl_ite, apply_ite Ctl.state, state_backFx]
  simp

theorem state_haltEngine (st cause fault : Nat) : (haltEngine st cause fault s).ctl.state = st := by
  unfold haltEngine srcWatch
  split
  · rfl
  · exact state_srcTaken _ _

@[simp] theorem answerStart_ctl (st : Nat) (b : Bytes) : (answerStart st b s).ctl = s.ctl := by
  unfold answerStart
  split
  · rfl
  · dsimp only
    split
    · exact respond_ctl ..
    · rfl

theorem engineRuns_haltEngine {st : Nat} (h : st = 0 ∨ st = 1) (cause fault : Nat) : engineRuns (haltEngine st cause fault s) = false := by
  rcases h with rfl | rfl <;> simp [engineRuns, state_haltEngine]

@[simp] theorem engineRuns_parkEngine (cause : Nat) : engineRuns (parkEngine cause s) = false := by
  have hhalt := engineRuns_haltEngine s (.inr rfl) cause 0
  unfold parkEngine parkEngineWith
  split
  · dsimp only
    rw [engineRuns_completeOp, engineRuns_of_ctl (answerStart_ctl ..), engineRuns_raiseIf, hhalt]
  · split
    · exact hhalt
    · exact eq_false_of_ne_true ‹_›

/-- A trip stops the engine; in FAULT it does not run. -/
@[simp] theorem engineRuns_tripEngine : engineRuns (tripEngine s) = false := by
  unfold tripEngine
  split
  · rename_i h
    have hfault : s.ctl.state = 6 := by simp_all
    split <;> rename_i hcycle
    all_goals
      have hctl := congrArg (fun e => e.2.ctl) hcycle
      simp only [sameCycle, takeWord] at hctl
      simp [engineRuns, ← hctl, hfault]
  · exact engineRuns_parkEngine s 2

section stopped
variable {s} (h : engineRuns s = false)
include h

theorem engineRuns_setConn (st : Nat) : engineRuns (setConn st s) = false := by
  simp [setConn, h]

/-- On its way out of RUN the engine goes OFF; in RUN it is PARKED. -/
theorem engineRuns_enterState {t : Nat} (hrun : s.pwr.state = 3) (ht : t ≠ 1) : engineRuns (enterState t s) = false := by
  have hsmp (f : Smp → Smp) (u : State) : engineRuns (modSmp f u) = engineRuns u := rfl
  have hoff : engineRuns (engineOff s) = false := rfl
  have hparked (f : Ctl → Ctl) (hf : ∀ c, (f c).state = 1) (u : State) : engineRuns (modCtl f u) = false := by simp [engineRuns, hf]
  simp [enterState, onlyIf, hrun, ht, hsmp, hparked, h, hoff]

theorem engineRuns_continueOut : engineRuns (continueOut s) = false := by
  have hpower (st : Nat) (u : State) : engineRuns (setPower st u) = engineRuns u := by
    refine engineRuns_of_ctl ?_
    unfold setPower
    split
    · rfl
    · dsimp only
      rw [noticeState_ctl, raise_ctl]
  have hpwr (f : Pwr → Pwr) (u : State) : engineRuns (modPwr f u) = engineRuns u := rfl
  obtain hc | hc | ⟨t, ht, hrun, hc⟩ := continueOut_cases s <;> rw [hc]
  · exact h
  · exact h
  · rw [finishTransition, engineRuns_completeOp, hpwr, hpower, engineRuns_enterState h hrun ht]

theorem engineRuns_finishOpen : engineRuns (finishOpen s) = false := by
  cases hab : s.pro.aborted <;> simp [finishOpen, hab, engineRuns_continueOut, engineRuns_setConn, h]

theorem engineRuns_openingStep : engineRuns (openingStep s) = false := by simp [openingStep, engineRuns_finishOpen, h]

theorem engineRuns_releasePoint : engineRuns (releasePoint s) = false := by
  simp [releasePoint, engineRuns_openingStep, engineRuns_setConn, h]

theorem engineRuns_beginOpen (hw : Bool) : engineRuns (beginOpen hw s) = false := by
  simp [beginOpen, engineRuns_releasePoint, engineRuns_setConn, h]

theorem engineRuns_openString (hw : Bool) : engineRuns (openString hw s) = false := by
  simp [openString, onlyIf, engineRuns_releasePoint, engineRuns_beginOpen, h]

end stopped

end Sys2Proof.Machine
end

section
/-! OPEN actions (Table 8.2, R241 to R243): every cause that trips reaches one lemma on `openAct`. -/

namespace Sys2Proof.Machine

open Sys2Proof

/-! ### Reading the parts beside a sequence -/

/-- The functions beside the contactors' own. -/
theorem active_of_masked {a b : BitVec 29} (h : a &&& ~~~feedbackBits = b &&& ~~~feedbackBits) {n : Nat}
    (hn : (~~~feedbackBits).getLsbD n = true) : a.getLsbD n = b.getLsbD n := by
  simpa only [BitVec.getLsbD_and, hn, Bool.and_true] using congrArg (BitVec.getLsbD · n) h

section beside
variable {s t : State} (h : besideSequence t = besideSequence s)
include h

theorem aboveNever_of_beside : t.pro.aboveNever = s.pro.aboveNever := (congrArg (fun u => u.pro.aboveNever) h :)
theorem aboveBreak_of_beside : t.pro.aboveBreak = s.pro.aboveBreak := (congrArg (fun u => u.pro.aboveBreak) h :)
theorem latched_of_beside : t.pro.latched = s.pro.latched := (congrArg (fun u => u.pro.latched) h :)
theorem cfg_of_beside : t.cfg = s.cfg := (congrArg State.cfg h :)
theorem fac_of_beside : t.fac = s.fac := (congrArg State.fac h :)

theorem active_of_beside {n : Nat} (hn : (~~~feedbackBits).getLsbD n = true) : t.pro.active.getLsbD n = s.pro.active.getLsbD n :=
  active_of_masked (congrArg (fun u => u.pro.active) h :) hn

end beside

/-! ### The string opens (R254) -/

theorem beginOpen_opens {s : State} {hw : Bool} (hnever : s.pro.aboveNever = false) (hguard : hw = true ∨ s.pro.aboveBreak = false) :
    released (beginOpen hw s) = true ∧ ((beginOpen hw s).pro.conn = 9 ∨ (beginOpen hw s).pro.conn = 0) := by
  have hkept := besideSequence_releaseK s 0x4
  have hgo : (!hw && (releaseK 0x4 s).pro.aboveBreak) = false := by
    rw [aboveBreak_of_beside hkept]
    rcases hguard with h | h <;> simp [h]
  unfold beginOpen
  dsimp only
  rw [if_neg (Bool.eq_false_iff.mp hgo)]
  exact releasePoint_opens _ ((aboveNever_of_beside hkept).trans hnever)

theorem openString_releases {s : State} {hw : Bool} (hnever : s.pro.aboveNever = false) (hguard : hw = true ∨ s.pro.aboveBreak = false)
    (hconn : s.pro.conn < 7) : released (openString hw s) = true := by
  unfold openString
  dsimp only
  rw [if_neg (by omega), if_neg (by simp; omega)]
  split
  · rename_i hopen
    simp only [Bool.and_eq_true, beq_iff_eq] at hopen
    simpa [released] using BitVec.or_eq_zero_iff.mp hopen.2
  · refine (beginOpen_opens ?_ ?_).1
    · rw [← hnever]
      unfold onlyIf
      split <;> simp
    · refine hguard.imp_right fun h => ?_
      rw [← h]
      unfold onlyIf
      split <;> simp

/-! ### The latch and its report -/

/-- A function latches; the first one is the trip reported (R242). -/
def latchTrip (code idx : Nat) (val : Int) (s : State) : State :=
  let u := modPro (fun p => { p with latched := p.latched ||| (1#29 <<< code) }) s
  if tripped s then u
  else modPro (fun p => { p with
    firstCode := code, firstIdx := idx, firstVal := val, firstInst := BitVec.ofNat 32 s.smp.instant, tripCnt := satAdd p.tripCnt 1 }) u

/-- What an OPEN action tells of a latch: its record, the notice of the first one, the peer. -/
def tellTrip (first : Bool) (code idx : Nat) (val thr : Int) (inst : Word) (s : State) : State :=
  let s := proRecord code idx val thr 2 s
  let s := onlyIf first (fun s =>
    notice 1 0x10 ([BitVec.ofNat 8 code, 0] ++ le 2 idx ++ leW (s32 val) ++ leW inst) (raise 0x0B 0 s)) s
  onlyIf (inPair s && s.pwr.state != 0) (sendPeer 0xC0 ([BitVec.ofNat 8 code] ++ leW inst)) s

/-- The engine stops, and an armed PRO's limits go to 0. -/
def stopCurrent (s : State) : State :=
  let s := tripEngine s
  onlyIf s.pro.armed (zeroLimits s.pro.firstCode) s

/-- An OPEN action up to the opening of the string. -/
def tripFx (code idx : Nat) (val thr : Int) (s : State) : State :=
  stopCurrent (tellTrip (!tripped s) code idx val thr (BitVec.ofNat 32 s.smp.instant) (latchTrip code idx val s))

theorem openAct_eq {code : Nat} {s : State} (h : s.pro.latched.getLsbD code = false) (idx : Nat) (val thr : Int) (hw : Bool) :
    openAct code idx val thr hw s = openString hw (tripFx code idx val thr s) := if_neg (Bool.eq_false_iff.mp h)

@[simp] theorem tellTrip_pro (first : Bool) (code idx : Nat) (val thr : Int) (inst : Word) (s : State) :
    (tellTrip first code idx val thr inst s).pro = s.pro := by
  simp [tellTrip, onlyIf]

theorem tripEngine_pro (s : State) : (tripEngine s).pro = s.pro := by
  unfold tripEngine
  split
  · split <;> rename_i hcycle <;> exact (congrArg (fun e => e.2.pro) hcycle).symm
  · exact parkEngine_pro s 2

/-- PRO with both limits at 0 for a cause. -/
def limitsZero (c : Nat) (p : Pro) : Pro := { p with iCh := 0, iDis := 0, srcCh := c, srcDis := c }

theorem zeroLimits_pro (code : Nat) (s : State) : ∃ c, (zeroLimits code s).pro = limitsZero c s.pro :=
  ⟨_, by simp only [zeroLimits, setDerate, tellEst_pro, offer_pro, modPro_pro, raiseIf_pro]; rfl⟩

theorem stopCurrent_pro (s : State) : ∃ c, (stopCurrent s).pro = if s.pro.armed then limitsZero c s.pro else s.pro := by
  obtain ⟨c, hc⟩ := zeroLimits_pro s.pro.firstCode (tripEngine s)
  exact ⟨c, by simp only [stopCurrent, onlyIf, pro_ite, tripEngine_pro, hc]⟩

theorem stopCurrent_limits {s : State} (h : s.pro.armed = true) : (stopCurrent s).pro.iCh = 0 ∧ (stopCurrent s).pro.iDis = 0 := by
  obtain ⟨c, hc⟩ := stopCurrent_pro s
  rw [hc, if_pos h]
  exact ⟨rfl, rfl⟩

/-- Of PRO only the limits move. -/
theorem limitsZero_stopCurrent (s : State) : limitsZero 0 (stopCurrent s).pro = limitsZero 0 s.pro := by
  obtain ⟨c, hc⟩ := stopCurrent_pro s
  rw [hc]
  split <;> rfl

@[simp] theorem engineRuns_stopCurrent (s : State) : engineRuns (stopCurrent s) = false := by
  have hlimits (u : State) (c : Nat) : engineRuns (zeroLimits c u) = engineRuns u := engineRuns_of_ctl (by simp [zeroLimits, setDerate])
  simp [stopCurrent, onlyIf, hlimits]

/-- PRO less what a trip moves up to the opening of the string. -/
def sansLatch (p : Pro) : Pro :=
  { p with
    latched := 0, firstCode := 0, firstIdx := 0, firstVal := 0, firstInst := 0, tripCnt := 0, iCh := 0, iDis := 0, srcCh := 0, srcDis := 0 }

@[simp] theorem sansLatch_stopCurrent (s : State) : sansLatch (stopCurrent s).pro = sansLatch s.pro :=
  (congrArg sansLatch (limitsZero_stopCurrent s) :)

@[simp] theorem sansLatch_latchTrip (code idx : Nat) (val : Int) (s : State) : sansLatch (latchTrip code idx val s).pro = sansLatch s.pro := by
  unfold latchTrip
  split <;> rfl

@[simp] theorem sansLatch_tripFx (code idx : Nat) (val thr : Int) (s : State) : sansLatch (tripFx code idx val thr s).pro = sansLatch s.pro := by
  simp [tripFx]

theorem latchTrip_latched (code idx : Nat) (val : Int) (s : State) :
    (latchTrip code idx val s).pro.latched = s.pro.latched ||| (1#29 <<< code) := by
  unfold latchTrip
  split <;> rfl

theorem latchTrip_first {s : State} (h : tripped s = false) (code idx : Nat) (val : Int) :
    (latchTrip code idx val s).pro.firstCode = code ∧ (latchTrip code idx val s).pro.tripCnt = satAdd s.pro.tripCnt 1 := by
  unfold latchTrip
  rw [if_neg (by simp [h])]
  exact ⟨rfl, rfl⟩

theorem tripped_of_latched {code : Nat} (hcode : code < 29) {l : BitVec 29} {s : State} (h : s.pro.latched = l ||| (1#29 <<< code)) :
    tripped s = true := by
  have hbit : l ||| (1#29 <<< code) ≠ 0 := fun hnone => by simpa [hcode] using congrArg (BitVec.getLsbD · code) hnone
  simpa [tripped, h] using hbit

/-! ### A trip as a whole -/

/-- What a trip is told from, of PRO before it. -/
def tripBase (p : Pro) : Pro := { latched := p.latched, tripCnt := p.tripCnt, armed := p.armed, conn := p.conn }

theorem tripsWith_congr {code : Nat} {free : Bool} {u s t : State} (hpro : tripBase u.pro = tripBase s.pro) (hcfg : u.cfg = s.cfg)
    (hfac : u.fac = s.fac) (h : tripsWith code free u t) : tripsWith code free s t := by
  have hlatched : u.pro.latched = s.pro.latched := (congrArg Pro.latched hpro :)
  have hcnt : u.pro.tripCnt = s.pro.tripCnt := (congrArg Pro.tripCnt hpro :)
  have harmed : u.pro.armed = s.pro.armed := (congrArg Pro.armed hpro :)
  have hconn : u.pro.conn = s.pro.conn := (congrArg Pro.conn hpro :)
  simpa only [tripsWith, tripped, hlatched, hcnt, harmed, hconn, hcfg, hfac] using h

theorem tripsWith_apartChannels {code : Nat} {free : Bool} {s t : State} (h : tripsWith code free s t) : tripsWith code false s t := by
  obtain ⟨hlatched, htripped, hfirst, hstop, hlimits, -, hcfg, hfac⟩ := h
  exact ⟨hlatched, htripped, hfirst, hstop, hlimits, nofun, hcfg, hfac⟩

theorem tripsWith_of_still {code : Nat} {free : Bool} {s t u : State} (h : still t = still u) (hu : tripsWith code free s u) :
    tripsWith code free s t := by
  have hpro : t.pro = u.pro := (congrArg State.pro h :)
  have hctl : t.ctl = u.ctl := (congrArg State.ctl h :)
  have hcfg : t.cfg = u.cfg := (congrArg State.cfg h :)
  have hfac : t.fac = u.fac := (congrArg State.fac h :)
  simpa only [tripsWith, tripped, engineRuns, released, hpro, hctl, hcfg, hfac] using hu

/-- What the sequences move after a trip leaves it one, while the engine stays off; the channels are a claim of their own. -/
theorem tripsWith_beside {code : Nat} {free : Bool} {s t u : State} (h : tripsWith code false s t) (hkept : besideSequence u = besideSequence t)
    (hstop : engineRuns u = false) (hfree : free = true → s.pro.conn < 7 → released u = true) : tripsWith code free s u := by
  obtain ⟨hlatched, htripped, hfirst, -, hlimits, -, hcfg, hfac⟩ := h
  have hlatch := latched_of_beside hkept
  have hcode : u.pro.firstCode = t.pro.firstCode := (congrArg (fun v => v.pro.firstCode) hkept :)
  have hcnt : u.pro.tripCnt = t.pro.tripCnt := (congrArg (fun v => v.pro.tripCnt) hkept :)
  have hch : u.pro.iCh = t.pro.iCh := (congrArg (fun v => v.pro.iCh) hkept :)
  have hdis : u.pro.iDis = t.pro.iDis := (congrArg (fun v => v.pro.iDis) hkept :)
  refine ⟨hlatch.trans hlatched, ?_, ?_, hstop, ?_, hfree, (cfg_of_beside hkept).trans hcfg, (fac_of_beside hkept).trans hfac⟩
  · rw [tripped, hlatch]
    exact htripped
  · rw [hcode, hcnt]
    exact hfirst
  · rw [hch, hdis]
    exact hlimits

/-- Up to the opening of the string the trip is whole, the channels apart. -/
theorem tripFx_trips {code : Nat} (hcode : code < 29) (idx : Nat) (val thr : Int) (s : State) :
    tripsWith code false s (tripFx code idx val thr s) := by
  have hsteady : steady (tripFx code idx val thr s) = steady s := by simp [tripFx, stopCurrent, tellTrip, latchTrip, onlyIf]
  have hlatch : limitsZero 0 (tripFx code idx val thr s).pro = limitsZero 0 (latchTrip code idx val s).pro :=
    (limitsZero_stopCurrent _).trans (congrArg (limitsZero 0) (tellTrip_pro ..))
  have hlatched : (tripFx code idx val thr s).pro.latched = s.pro.latched ||| (1#29 <<< code) :=
    (congrArg Pro.latched hlatch :).trans (latchTrip_latched code idx val s)
  have hlimits : s.pro.armed = true → (tripFx code idx val thr s).pro.iCh = 0 ∧ (tripFx code idx val thr s).pro.iDis = 0 := by
    refine fun harmed => stopCurrent_limits ?_
    rw [tellTrip_pro, ← harmed]
    exact (congrArg Pro.armed (sansLatch_latchTrip code idx val s) :)
  refine ⟨hlatched, tripped_of_latched hcode hlatched, fun hfirst => ?_, engineRuns_stopCurrent _, hlimits, nofun,
    (congrArg State.cfg hsteady :), (congrArg State.fac hsteady :)⟩
  obtain ⟨hcode, hcnt⟩ := latchTrip_first hfirst code idx val
  exact ⟨(congrArg Pro.firstCode hlatch :).trans hcode, (congrArg Pro.tripCnt hlatch :).trans hcnt⟩

theorem openAct_trips {code : Nat} (hcode : code < 29) {s : State} (h : s.pro.latched.getLsbD code = false) (idx : Nat) (val thr : Int)
    (hw : Bool) : tripsWith code (!s.pro.aboveNever && (hw || !s.pro.aboveBreak)) s (openAct code idx val thr hw s) := by
  have hkept := sansLatch_tripFx code idx val thr s
  have htrip := tripFx_trips hcode idx val thr s
  rw [openAct_eq h]
  refine tripsWith_beside htrip (besideSequence_openString _ hw) (engineRuns_openString htrip.2.2.2.1 hw) fun hfree hconn => ?_
  simp only [Bool.and_eq_true, Bool.or_eq_true, Bool.not_eq_true'] at hfree
  have hnever : (tripFx code idx val thr s).pro.aboveNever = s.pro.aboveNever := (congrArg Pro.aboveNever hkept :)
  have hbreak : (tripFx code idx val thr s).pro.aboveBreak = s.pro.aboveBreak := (congrArg Pro.aboveBreak hkept :)
  have hseq : (tripFx code idx val thr s).pro.conn = s.pro.conn := (congrArg Pro.conn hkept :)
  exact openString_releases (hnever.trans hfree.1) (hfree.2.imp_right hbreak.trans) (hseq ▸ hconn)

/-! ### What a trip leaves of PRO -/

/-- PRO less what an OPEN action moves. -/
def sansTrip (p : Pro) : Pro := sansLatch (sansSequence p)

theorem sansTrip_openAct {code : Nat} {s : State} (h : s.pro.latched.getLsbD code = false) (idx : Nat) (val thr : Int) (hw : Bool) :
    sansTrip (openAct code idx val thr hw s).pro = sansTrip s.pro := by
  have hopened : sansSequence (openString hw (tripFx code idx val thr s)).pro = sansSequence (tripFx code idx val thr s).pro :=
    (congrArg State.pro (besideSequence_openString _ hw) :)
  rw [openAct_eq h, sansTrip, hopened]
  exact (congrArg sansSequence (sansLatch_tripFx code idx val thr s) :)

theorem active_of_sansTrip {s t : State} (h : sansTrip t.pro = sansTrip s.pro) {n : Nat} (hn : (~~~feedbackBits).getLsbD n = true) :
    t.pro.active.getLsbD n = s.pro.active.getLsbD n := active_of_masked (congrArg Pro.active h :) hn

/-! ### Causes -/

theorem active_activate {code : Nat} (hcode : code < 29) (idx : Nat) (val thr : Int) (s : State) :
    (activate code idx val thr s).pro.active.getLsbD code = true := by
  unfold activate
  split
  · assumption
  · have hset : (setAct code true s).pro.active.getLsbD code = true := by simp [setAct, hcode]
    dsimp only
    rw [pro_ite, proRecord_pro, ite_self]
    exact hset

/-- An OPEN action that waits for the guard where the current is above BREAK_I. -/
theorem openAct_guarded {code : Nat} (hcode : code < 29) {u s : State} (hpro : tripBase u.pro = tripBase s.pro) (hcfg : u.cfg = s.cfg)
    (hfac : u.fac = s.fac) (h : s.pro.latched.getLsbD code = false) (idx : Nat) (val thr : Int) :
    tripsWith code (!u.pro.aboveBreak && !u.pro.aboveNever) s (openAct code idx val thr false u) := by
  have hlatched : u.pro.latched = s.pro.latched := (congrArg Pro.latched hpro :)
  have htrips := openAct_trips hcode (s := u) (by rw [hlatched]; exact h) idx val thr false
  rw [Bool.false_or, Bool.and_comm] at htrips
  exact tripsWith_congr hpro hcfg hfac htrips

theorem fire_trips {code : Nat} (hcode : code < 29) {s : State} (h : s.pro.latched.getLsbD code = false) (idx : Nat) (val thr : Int) :
    tripsWith code (!s.pro.aboveBreak && !s.pro.aboveNever) s (fire code (some (idx, val)) thr s) := by
  have hpro := sansActive_activate s code idx val thr
  have hnever : (activate code idx val thr s).pro.aboveNever = s.pro.aboveNever := (congrArg Pro.aboveNever hpro :)
  have hbreak : (activate code idx val thr s).pro.aboveBreak = s.pro.aboveBreak := (congrArg Pro.aboveBreak hpro :)
  have htrips := openAct_guarded hcode (congrArg tripBase hpro :) (congrArg State.cfg (steady_activate s code idx val thr) :)
    (congrArg State.fac (steady_activate s code idx val thr) :) h idx val thr
  rwa [hnever, hbreak] at htrips

/-- What fires is active, and of the rest of PRO an OPEN action moves nothing. -/
theorem fire_keeps {code : Nat} (hcode : code < 29) (hown : (~~~feedbackBits).getLsbD code = true) {s : State}
    (h : s.pro.latched.getLsbD code = false) (idx : Nat) (val thr : Int) :
    (fire code (some (idx, val)) thr s).pro.active.getLsbD code = true ∧
      sansActive (sansTrip (fire code (some (idx, val)) thr s).pro) = sansActive (sansTrip s.pro) := by
  have hpro := sansActive_activate s code idx val thr
  have hlatched : (activate code idx val thr s).pro.latched = s.pro.latched := (congrArg Pro.latched hpro :)
  have hkept := sansTrip_openAct (s := activate code idx val thr s) (by rw [hlatched]; exact h) idx val thr false
  refine ⟨(active_of_sansTrip hkept hown).trans (active_activate hcode ..), ?_⟩
  exact (congrArg sansActive hkept).trans (congrArg (fun p => sansActive (sansTrip p)) hpro :)

end Sys2Proof.Machine
end

section
/-! The causes of Table 8.3 that open the string: comparators, reference, time persistences, feedback, read-back, precharge (R237 to R243,
R252, R254). -/

namespace Sys2Proof.Machine

open Sys2Proof

/-! ### From the effect to the command -/

section command
variable {c : Instr} {g : State → State} {s u : State} (hexec : exec c s = act g s) (hg : g { s with out := [] } = u)
include hexec hg

theorem next_of_act : ∃ t, exec c s = .next t ∧ still t = still u := by
  obtain ⟨t, ht, hstill⟩ := act_next g s
  exact ⟨t, hexec.trans ht, hg ▸ hstill⟩

theorem trips_of_act {code : Nat} {free : Bool} (h : tripsWith code free s u) :
    ∃ t, exec c s = .next t ∧ tripsWith code free s t ∧ t.pro = u.pro := by
  obtain ⟨t, ht, hstill⟩ := next_of_act hexec hg
  exact ⟨t, ht, tripsWith_of_still hstill h, (congrArg State.pro hstill :)⟩

end command

/-! ### Comparators (R252, R254) -/

/-- HW_OC opens without the guard wait. -/
theorem hwOcFx_trips {s : State} (harmed : s.pro.armed = true) (habove : s.pro.aboveHw = true) (hidle : s.pro.active.getLsbD 0x11 = false)
    (hlatch : s.pro.latched.getLsbD 0x11 = false) :
    tripsWith 0x11 (!s.pro.aboveNever) s (hwOcFx s) ∧ sansTrip (hwOcFx s).pro = sansTrip (setAct 0x11 true s).pro := by
  have hfx : hwOcFx s = openAct 0x11 0 (takeWord s).1.toInt (s.cfgPro.hwOcLevel.getD 0 / 1000000) true (setAct 0x11 true (takeWord s).2) := by
    simp only [hwOcFx, harmed, habove, hidle, activate, takeWord, hlatch]
    rfl
  have hlatch' : (setAct 0x11 true (takeWord s).2).pro.latched.getLsbD 0x11 = false := hlatch
  rw [hfx]
  refine ⟨?_, sansTrip_openAct hlatch' ..⟩
  have htrips := openAct_trips (by decide) hlatch' 0 (takeWord s).1.toInt (s.cfgPro.hwOcLevel.getD 0 / 1000000) true
  rw [Bool.true_or, Bool.and_true] at htrips
  exact tripsWith_congr rfl rfl rfl htrips

theorem besideSequence_cmpRelease (s : State) : besideSequence (cmpRelease s) = besideSequence s := by simp [cmpRelease]

/-- What the comparators release of a string that a trip held (R254, steps 2 and 3) is part of the trip. -/
theorem cmpRelease_trips {code : Nat} {free : Bool} {s t : State} (h : tripsWith code free s t) (hnever : free = true → t.pro.aboveNever = false) :
    tripsWith code free s (cmpRelease t) := by
  obtain ⟨-, -, -, hstop, -, hfree, -⟩ := id h
  unfold cmpRelease
  split
  · exact tripsWith_beside (tripsWith_apartChannels h) (besideSequence_releasePoint t) (engineRuns_releasePoint hstop) fun hf _ =>
      (releasePoint_opens t (hnever hf)).1
  · exact h

section comparators
variable {s : State} {x : CmpObs}

theorem cmpFx_trips (harmed : s.pro.armed = true) (hhw : x.aboveHw = true) (hlevel : s.cfgPro.hwOcLevel.isSome = true)
    (hidle : s.pro.active.getLsbD 0x11 = false) (hlatch : s.pro.latched.getLsbD 0x11 = false) :
    tripsWith 0x11 (!(x.aboveNever && s.cfgPro.neverBreak.isSome)) s (cmpFx x s) ∧ (cmpFx x s).pro.active.getLsbD 0x11 = true := by
  have habove : (cmpTake x s).pro.aboveHw = true := by simp [cmpTake, hhw, hlevel]
  obtain ⟨htrips, hkept⟩ := hwOcFx_trips (s := cmpTake x s) harmed habove hidle hlatch
  have hnever : (hwOcFx (cmpTake x s)).pro.aboveNever = (x.aboveNever && s.cfgPro.neverBreak.isSome) := (congrArg Pro.aboveNever hkept :)
  have hset : (setAct 0x11 true (cmpTake x s)).pro.active.getLsbD 0x11 = true := by simp [setAct]
  refine ⟨tripsWith_congr (u := cmpTake x s) rfl rfl rfl (cmpRelease_trips htrips fun hfree => ?_), ?_⟩
  · rw [hnever]
    exact (Bool.not_eq_true' _).mp hfree
  · rw [cmpFx, active_of_beside (besideSequence_cmpRelease _) rfl, active_of_sansTrip hkept rfl, hset]

/-- The current is back below its limits: the guard wait ends and the string is released. -/
theorem cmpFx_endsGuard (hhw : x.aboveHw = false) (hconn : s.pro.conn = 7) (hbreak : (x.aboveBreak && s.cfgPro.breakI.isSome) = false)
    (hnever : (x.aboveNever && s.cfgPro.neverBreak.isSome) = false) : released (cmpFx x s) = true ∧
      besideSequence (cmpFx x s) = besideSequence (setAct 0x11 false (cmpTake x s)) := by
  have hfx : cmpFx x s = releasePoint (setAct 0x11 false (cmpTake x s)) := by
    simp [cmpFx, hwOcFx, cmpTake, hhw, cmpRelease, setAct, hconn, hbreak]
  rw [hfx]
  exact ⟨(releasePoint_opens _ hnever).1, besideSequence_releasePoint _⟩

end comparators

/-! ### The reference (R241) -/

theorem refCheckFx_trips {s : State} {ppm : Nat} (harmed : s.pro.armed = true) (hppm : 5000 < ppm) (hbad : 1 ≤ s.pro.refBad)
    (hlatch : s.pro.latched.getLsbD 0x1A = false) :
    tripsWith 0x1A (!s.pro.aboveBreak && !s.pro.aboveNever) s (refCheckFx ppm s) ∧
      (refCheckFx ppm s).pro.active.getLsbD 0x1A = true ∧ (refCheckFx ppm s).pro.refOk = false := by
  have hfx : refCheckFx ppm s = fire 0x1A (some (0, (ppm : Int))) 5000
      (modPro (fun p => { p with refOk := false, refBad := p.refBad + 1 }) s) := by
    have hsecond : 2 ≤ s.pro.refBad + 1 := by omega
    simp [refCheckFx, hppm, harmed, hsecond]
  have hlatch' : (modPro (fun p => { p with refOk := false, refBad := p.refBad + 1 }) s).pro.latched.getLsbD 0x1A = false := hlatch
  obtain ⟨hactive, hkept⟩ := fire_keeps (by decide) rfl hlatch' 0 (ppm : Int) 5000
  rw [hfx]
  exact ⟨tripsWith_congr rfl rfl rfl (fire_trips (by decide) hlatch' 0 (ppm : Int) 5000), hactive, (congrArg Pro.refOk hkept :)⟩

/-! ### Time persistences (Table 8.3) -/

theorem persistFx_trips {s : State} {code : Fin 29} (idx : Nat) (hlatch : s.pro.latched.getLsbD code.val = false)
    (hruns : (code.val = 0x07 ∧ s.pro.otRun = true) ∨ (code.val = 0x0C ∧ s.pro.graceRun = true) ∨ (code.val = 0x13 ∧ s.pro.lossRun = true)) :
    tripsWith code.val (!s.pro.aboveBreak && !s.pro.aboveNever) s (persistFx code.val idx s) := by
  obtain ⟨hcode, hrun⟩ | ⟨hcode, hrun⟩ | ⟨hcode, hrun⟩ := hruns <;> rw [hcode] at hlatch ⊢
  · have hfx : persistFx 0x07 idx s = fire 0x07 (some (s.pro.tMaxSlot, s.pro.tMax.toInt)) (s.cfgPro.tOtTrip / 10000000 - 27315) s := by
      simp only [persistFx, hrun, if_true]
    rw [hfx]
    exact fire_trips (by decide) hlatch ..
  · have hfx : persistFx 0x0C idx s = openAct 0x0C s.pro.staleG 0 0 false (modPro (fun p => { p with graceRun := false }) s) := by
      simp only [persistFx, hrun, if_true]
    rw [hfx]
    exact openAct_guarded (u := modPro (fun p => { p with graceRun := false }) s) (by decide) rfl rfl rfl hlatch ..
  · have hfx : persistFx 0x13 idx s = openAct 0x13 0 0 0 false (modPro (fun p => { p with lossRun := false }) s) := by
      simp only [persistFx, hrun, if_true]
    rw [hfx]
    exact openAct_guarded (u := modPro (fun p => { p with lossRun := false }) s) (by decide) rfl rfl rfl hlatch ..

/-! ### Contactors (R239, R240) -/

/-- The contactors' functions are judged and K_FEEDBACK opens the string. -/
theorem kFeedback_trips {s : State} (hlatch : s.pro.latched.getLsbD 0x17 = false) (k : Nat) {f : Pro → Pro}
    (hf : ∀ p, tripBase (f p) = tripBase p) (habove : ∀ p, (f p).aboveBreak = p.aboveBreak ∧ (f p).aboveNever = p.aboveNever) :
    tripsWith 0x17 (!s.pro.aboveBreak && !s.pro.aboveNever) s (kFeedback k (feedbackActive (modPro f s))) := by
  have hpro := sansActive_feedbackActive (modPro f s)
  have hbreak : (feedbackActive (modPro f s)).pro.aboveBreak = s.pro.aboveBreak := (congrArg Pro.aboveBreak hpro :).trans (habove _).1
  have hnever : (feedbackActive (modPro f s)).pro.aboveNever = s.pro.aboveNever := (congrArg Pro.aboveNever hpro :).trans (habove _).2
  have hkept := besideSequence_feedbackActive (modPro f s)
  have htrips := openAct_guarded (u := feedbackActive (modPro f s)) (by decide) ((congrArg tripBase hpro :).trans (hf s.pro))
    (cfg_of_beside hkept :) (fac_of_beside hkept :) hlatch (k + 1) 0 0
  rwa [hbreak, hnever] at htrips

theorem kfWindowFx_trips {s : State} {k : Nat} (hlatch : s.pro.latched.getLsbD 0x17 = false) (hclosing : s.pro.closing.getLsbD k = true)
    (hopen : s.pro.kf.getLsbD k = false) : tripsWith 0x17 (!s.pro.aboveBreak && !s.pro.aboveNever) s (kfWindowFx k s) := by
  have hfx : kfWindowFx k s = kFeedback k (feedbackActive (modPro (fun p => { p with closing := p.closing &&& ~~~(1#4 <<< k) }) s)) := by
    simp [kfWindowFx, hclosing, hopen]
  rw [hfx]
  exact kFeedback_trips hlatch k (fun _ => rfl) fun _ => ⟨rfl, rfl⟩

theorem kfWindowFx_closed {s : State} {k : Nat} (hclosing : s.pro.closing.getLsbD k = true) (hclosed : s.pro.kf.getLsbD k = true) :
    kfWindowFx k s = feedbackActive (modPro (fun p => { p with closing := p.closing &&& ~~~(1#4 <<< k) }) s) := by
  simp [kfWindowFx, hclosing, hclosed]

/-- PRO with the mismatch of a channel of contactor `k` noted, or ended. -/
def readbackNoted (k : Nat) (x : Readback) (p : Pro) : Pro :=
  let put (m : BitVec 4) : BitVec 4 := if x.differs then m ||| (1#4 <<< k) else m &&& ~~~(1#4 <<< k)
  if x.chB then { p with misB := put p.misB } else { p with misA := put p.misA }

theorem readbackFx_eq (k : Nat) (x : Readback) (s : State) : readbackFx k x s =
    if x.differs then kFeedback k (feedbackActive (modPro (readbackNoted k x) s)) else feedbackActive (modPro (readbackNoted k x) s) := rfl

theorem readbackFx_trips {s : State} (hlatch : s.pro.latched.getLsbD 0x17 = false) (k : Nat) (b : Bool) :
    tripsWith 0x17 (!s.pro.aboveBreak && !s.pro.aboveNever) s (readbackFx k ⟨b, true⟩ s) := by
  rw [readbackFx_eq, if_pos rfl]
  cases b <;> exact kFeedback_trips hlatch k (fun _ => rfl) fun _ => ⟨rfl, rfl⟩

/-- The judgement of the contactors' functions latches nothing and moves no channel. -/
theorem judged_latchesNothing {s t : State} {f : Pro → Pro} (h : still t = still (feedbackActive (modPro f s)))
    (hf : ∀ p, (f p).latched = p.latched ∧ (f p).kA = p.kA ∧ (f p).kB = p.kB) :
    t.pro.latched = s.pro.latched ∧ t.pro.kA = s.pro.kA ∧ t.pro.kB = s.pro.kB ∧ t.ctl = s.ctl ∧ t.cfg = s.cfg ∧ t.fac = s.fac := by
  have hpro : sansActive t.pro = sansActive (f s.pro) :=
    (congrArg (fun u => sansActive u.pro) h :).trans (sansActive_feedbackActive (modPro f s))
  have hkept := besideSequence_feedbackActive (modPro f s)
  obtain ⟨hlatched, hA, hB⟩ := hf s.pro
  exact ⟨(congrArg Pro.latched hpro :).trans hlatched, (congrArg Pro.kA hpro :).trans hA, (congrArg Pro.kB hpro :).trans hB,
    (congrArg State.ctl h :).trans (feedbackActive_ctl _), (congrArg State.cfg h :).trans (cfg_of_beside hkept :),
    (congrArg State.fac h :).trans (fac_of_beside hkept :)⟩

/-! ### Precharge (R266) -/

theorem prechgFail_trips {s : State} (hlatch : s.pro.latched.getLsbD 0x19 = false) :
    tripsWith 0x19 (!s.pro.aboveBreak && !s.pro.aboveNever) s (prechgFail s) ∧ (prechgFail s).pro.cool = true := by
  have hkept := sansTrip_openAct (s := modPro (fun p => { p with cool := true }) s) hlatch 0 ((s.smp.vStr - s.smp.vLnk).natAbs : Int)
    (s.cfgPro.prechgDv * s.smp.vStr.natAbs / 1000000000) false
  exact ⟨openAct_guarded (u := modPro (fun p => { p with cool := true }) s) (by decide) rfl rfl rfl hlatch .., (congrArg Pro.cool hkept :)⟩

/-! ### The statement -/

section clauses
variable {s : State} (hruns : proRuns s = true)
include hruns

theorem comparator_trips {x : CmpObs} {c : Instr} (hc : c = .hwOc x ∨ c = .comparatorBelowLevel x) (harmed : s.pro.armed = true)
    (hhw : x.aboveHw = true) (hlevel : s.cfgPro.hwOcLevel.isSome = true) (hidle : s.pro.active.getLsbD 0x11 = false)
    (hlatch : s.pro.latched.getLsbD 0x11 = false) :
    ∃ t, exec c s = .next t ∧ tripsWith 0x11 (!(x.aboveNever && s.cfgPro.neverBreak.isSome)) s t ∧ t.pro.active.getLsbD 0x11 = true := by
  have hexec : exec c s = act (fun s => if proRuns s then cmpFx x s else s) s := by rcases hc with rfl | rfl <;> rfl
  obtain ⟨htrips, hactive⟩ := cmpFx_trips (s := { s with out := [] }) harmed hhw hlevel hidle hlatch
  obtain ⟨t, ht, hlater, hpro⟩ := trips_of_act (s := s) hexec (if_pos hruns) htrips
  exact ⟨t, ht, hlater, by rw [hpro]; exact hactive⟩

theorem comparator_endsGuard {x : CmpObs} {c : Instr} (hc : c = .hwOc x ∨ c = .comparatorBelowLevel x) (hhw : x.aboveHw = false)
    (hconn : s.pro.conn = 7) (hbreak : (x.aboveBreak && s.cfgPro.breakI.isSome) = false)
    (hnever : (x.aboveNever && s.cfgPro.neverBreak.isSome) = false) :
    ∃ t, exec c s = .next t ∧ released t = true ∧ t.pro.active.getLsbD 0x11 = false ∧ t.pro.latched = s.pro.latched ∧ t.cfg = s.cfg ∧
      t.fac = s.fac := by
  have hexec : exec c s = act (fun s => if proRuns s then cmpFx x s else s) s := by rcases hc with rfl | rfl <;> rfl
  obtain ⟨hreleased, hkept⟩ := cmpFx_endsGuard (s := { s with out := [] }) hhw hconn hbreak hnever
  obtain ⟨t, ht, hstill⟩ := next_of_act (s := s) hexec (if_pos hruns)
  have hpro := of_still State.pro (fun _ => rfl) hstill
  have hended : (setAct 0x11 false (cmpTake x { s with out := [] })).pro.active.getLsbD 0x11 = false := by simp [setAct]
  refine ⟨t, ht, (released_congr (congrArg Pro.kA hpro) (congrArg Pro.kB hpro)).trans hreleased, ?_, ?_, ?_, ?_⟩
  · rw [hpro, active_of_beside hkept rfl, hended]
  · exact (congrArg Pro.latched hpro).trans (latched_of_beside hkept :)
  · exact (congrArg State.cfg hstill :).trans (cfg_of_beside hkept :)
  · exact (congrArg State.fac hstill :).trans (fac_of_beside hkept :)

theorem refCheck_trips {ppm : Nat} (harmed : s.pro.armed = true) (hppm : 5000 < ppm) (hbad : 1 ≤ s.pro.refBad)
    (hlatch : s.pro.latched.getLsbD 0x1A = false) :
    ∃ t, exec (.refCheck ppm) s = .next t ∧ tripsWith 0x1A (!s.pro.aboveBreak && !s.pro.aboveNever) s t ∧
      t.pro.active.getLsbD 0x1A = true ∧ t.pro.refOk = false := by
  obtain ⟨htrips, hactive, hok⟩ := refCheckFx_trips (s := { s with out := [] }) harmed hppm hbad hlatch
  obtain ⟨t, ht, hlater, hpro⟩ := trips_of_act (s := s) (c := .refCheck ppm) rfl (if_pos hruns) htrips
  exact ⟨t, ht, hlater, by rw [hpro]; exact hactive, by rw [hpro]; exact hok⟩

theorem persistenceExpiry_trips {code : Fin 29} (idx : Nat) (harmed : s.pro.armed = true) (hlatch : s.pro.latched.getLsbD code.val = false)
    (hruns' : (code.val = 0x07 ∧ s.pro.otRun = true) ∨ (code.val = 0x0C ∧ s.pro.graceRun = true) ∨ (code.val = 0x13 ∧ s.pro.lossRun = true)) :
    ∃ t, exec (.persistenceExpiry code idx) s = .next t ∧ tripsWith code.val (!s.pro.aboveBreak && !s.pro.aboveNever) s t := by
  obtain ⟨t, ht, htrips, -⟩ := trips_of_act (s := s) (c := .persistenceExpiry code idx) rfl
    (if_pos (Bool.and_eq_true_iff.mpr ⟨hruns, harmed⟩))
    (persistFx_trips (s := { s with out := [] }) idx hlatch hruns')
  exact ⟨t, ht, htrips⟩

end clauses

/-- Settles O48: each cause reaches `openAct`, and what the sequences move afterwards leaves the trip whole. -/
theorem openFunctionsTripAndRelease : Obligations.OpenFunctionsTripAndRelease := by
  intro s _ hruns
  refine ⟨fun x c hc => ⟨?_, ?_⟩, ?_, ?_, fun k hlatch => ⟨?_, ?_, fun b => ⟨?_, ?_⟩⟩, ?_⟩
  · exact comparator_trips hruns hc
  · exact comparator_endsGuard hruns hc
  · exact fun ppm => refCheck_trips hruns
  · exact fun code idx => persistenceExpiry_trips hruns idx
  · intro hclosing hopen
    obtain ⟨t, ht, htrips, -⟩ := trips_of_act (s := s) (c := .kfWindowExpiry k) rfl (if_pos hruns)
      (kfWindowFx_trips (s := { s with out := [] }) hlatch hclosing hopen)
    exact ⟨t, ht, htrips⟩
  · intro hclosing hclosed
    obtain ⟨t, ht, hstill⟩ := next_of_act (s := s) (c := .kfWindowExpiry k) rfl
      ((if_pos hruns).trans (kfWindowFx_closed (s := { s with out := [] }) hclosing hclosed))
    refine ⟨t, ht, ?_, judged_latchesNothing (s := { s with out := [] }) hstill fun _ => ⟨rfl, rfl, rfl⟩⟩
    have hwindow : t.pro.closing = s.pro.closing &&& ~~~(1#4 <<< k.val) :=
      (congrArg (fun u => u.pro.closing) hstill :).trans (feedbackActive_closing _)
    simp [hwindow]
  · obtain ⟨t, ht, htrips, -⟩ := trips_of_act (s := s) (c := .readbackMismatch k ⟨b, true⟩) rfl (if_pos hruns)
      (readbackFx_trips (s := { s with out := [] }) hlatch k.val b)
    exact ⟨t, ht, htrips⟩
  · obtain ⟨t, ht, hstill⟩ := next_of_act (s := s) (c := .readbackMismatch k ⟨b, false⟩) rfl (if_pos hruns)
    refine ⟨t, ht, judged_latchesNothing (s := { s with out := [] }) (f := readbackNoted k.val ⟨b, false⟩) hstill ?_⟩
    cases b <;> exact fun _ => ⟨rfl, rfl, rfl⟩
  · intro hconn hlatch
    obtain ⟨htrips, hcool⟩ := prechgFail_trips (s := { s with out := [] }) hlatch
    obtain ⟨t, ht, hlater, hpro⟩ := trips_of_act (s := s) (c := .prechgTmaxExpiry) rfl
      (if_pos (Bool.and_eq_true_iff.mpr ⟨hruns, decide_eq_true hconn⟩)) htrips
    exact ⟨t, ht, hlater, by rw [hpro]; exact hcool⟩

end Sys2Proof.Machine
end

section
/-! The timers and the feedback that move the contactor sequences (R240, R254, R264 to R268). -/

namespace Sys2Proof.Machine

open Sys2Proof

/-! ### Opening (R254, R268) -/

/-- The string that no limit of R254 holds: RAMP_DOWN ends with every channel released. -/
theorem openString_ofRampDown {s : State} (hconn : s.pro.conn = 6) (hnever : s.pro.aboveNever = false) (hbreak : s.pro.aboveBreak = false) :
    released (openString false s) = true ∧ ((openString false s).pro.conn = 9 ∨ (openString false s).pro.conn = 0) := by
  have hopen : openString false s = beginOpen false s := by simp [openString, hconn, onlyIf, raiseIf]
  rw [hopen]
  exact beginOpen_opens hnever (.inr hbreak)

/-! ### Steps of the sequence (Table 8.5) -/

section steps
variable {s : State}

/-- Step 3: K3 reports open, the negative pole closes. -/
theorem seqStep_closesNegative (hconn : s.pro.conn = 1) (hK3 : s.pro.kA.getLsbD 2 = false) (hfb : s.pro.kf.getLsbD 2 = false) :
    seqStep s = closeNeg s := by
  simp only [seqStep, hconn, hK3, hfb]
  simp

/-- Step 5: the negative pole reports closed, the precharge begins. -/
theorem seqStep_precharges (hconn : s.pro.conn = 2) (hK2 : s.pro.kf.getLsbD 1 = true)
    (hK4 : s.cfgPro.k4En = true → s.pro.kf.getLsbD 3 = true) : seqStep s = startPrecharge s := by
  have hpoles : (!s.cfgPro.k4En || s.pro.kf.getLsbD 3) = true := by
    cases h : s.cfgPro.k4En with
    | false => rfl
    | true => exact hK4 h
  simp only [seqStep, hconn, hK2, hpoles]
  simp

/-- Step 9: K3 reports open, the string is connected. -/
theorem seqStep_connects (hconn : s.pro.conn = 4) (hK3 : s.pro.kA.getLsbD 2 = false) (hfb : s.pro.kf.getLsbD 2 = false) :
    seqStep s = completeOp 0x0701 stOk [] (raise 0x0B 2 (setConn 5 s)) := by
  simp only [seqStep, hconn, hK3, hfb]
  simp

/-- While K3 still reports closed the sequence waits for it. -/
theorem seqStep_waits (hconn : s.pro.conn = 1 ∨ s.pro.conn = 4) (hK3 : s.pro.kA.getLsbD 2 = false) (hfb : s.pro.kf.getLsbD 2 = true) :
    seqStep s = s := by
  have hopening : openingStep s = s := openingStep_of_ne s (by omega)
  rcases hconn with h | h <;> simp only [seqStep, h, hK3, hfb, hopening] <;> simp

end steps

/-- The contactors of the negative pole: K2, and K4 where it is used. -/
theorem closeNeg_channels (s : State) : (closeNeg s).pro.conn = 2 ∧
    (closeNeg s).pro.kA = s.pro.kA ||| (if s.cfgPro.k4En then 0xA else 0x2) ∧
      (closeNeg s).pro.kB = s.pro.kB ||| (if s.cfgPro.k4En then 0xA else 0x2) := by
  simp [closeNeg]

theorem startPrecharge_channels (s : State) : (startPrecharge s).pro.conn = 3 ∧ (startPrecharge s).pro.kA = s.pro.kA ||| 0x4 ∧
    (startPrecharge s).pro.kB = s.pro.kB ||| 0x4 ∧ (startPrecharge s).pro.tP = s.smp.timeNs := by
  have htime : (startPrecharge s).pro.tP = s.smp.timeNs := (congrArg Pro.tP (setConn_pro ..) :).trans (feedbackActive_tP _)
  refine ⟨setConn_conn _ _, ?_, ?_, htime⟩ <;> simp [startPrecharge]

/-! ### K3 released (steps 2, 3, 8 and 9) -/

/-- Neither channel of K3 is asserted. -/
def k3Released (s : State) : Prop := s.pro.kA.getLsbD 2 = false ∧ s.pro.kB.getLsbD 2 = false

theorem k3Released_releaseK (s : State) : k3Released (releaseK 0x4 s) := by simp [k3Released]

theorem k3Released_closeNeg {s : State} (h : k3Released s) : k3Released (closeNeg s) := by
  obtain ⟨hA, hB⟩ := h
  obtain ⟨-, hkA, hkB⟩ := closeNeg_channels s
  unfold k3Released
  rw [hkA, hkB, BitVec.getLsbD_or, BitVec.getLsbD_or, hA, hB]
  cases s.cfgPro.k4En <;> decide

/-- K3 released in the weld test: with K3 reported open the negative pole closes. -/
theorem seqStep_afterWeldTest {s : State} (hconn : s.pro.conn = 1) (hK3 : k3Released s) : k3Released (seqStep s) ∧
    (s.pro.kf.getLsbD 2 = false →
      (seqStep s).pro.conn = 2 ∧ (seqStep s).pro.kA.getLsbD 1 = true ∧ (seqStep s).pro.kB.getLsbD 1 = true) := by
  cases hfb : s.pro.kf.getLsbD 2 with
  | false =>
    obtain ⟨hneg, hkA, hkB⟩ := closeNeg_channels s
    rw [seqStep_closesNegative hconn hK3.1 hfb]
    refine ⟨k3Released_closeNeg hK3, fun _ => ⟨hneg, ?_, ?_⟩⟩
    · rw [hkA, BitVec.getLsbD_or]
      cases s.cfgPro.k4En <;> exact Bool.or_true _
    · rw [hkB, BitVec.getLsbD_or]
      cases s.cfgPro.k4En <;> exact Bool.or_true _
  | true =>
    rw [seqStep_waits (.inl hconn) hK3.1 hfb]
    exact ⟨hK3, nofun⟩

/-- K3 released after the overlap: with K3 reported open the string is connected. -/
theorem seqStep_afterOverlap {s : State} (hconn : s.pro.conn = 4) (hK3 : k3Released s) : k3Released (seqStep s) ∧
    (s.pro.kf.getLsbD 2 = false → (seqStep s).pro.conn = 5) := by
  cases hfb : s.pro.kf.getLsbD 2 with
  | false =>
    rw [seqStep_connects hconn hK3.1 hfb]
    simpa [k3Released] using hK3
  | true =>
    rw [seqStep_waits (.inr hconn) hK3.1 hfb]
    exact ⟨hK3, nofun⟩

/-- The link voltage of the weld test stood still (R265): K3 is released. -/
theorem weldTestFx_still {s : State} (hconn : s.pro.conn = 1) (hK3 : s.pro.kA.getLsbD 2 = true) (hweld : s.pro.weldOk = true)
    (hvolts : voltsOk s = true)
    (hquiet : ((s.smp.vLnk - s.pro.weldV).natAbs : Int) * 1000000000 ≤ s.cfgPro.weldDv * s.smp.vStr.natAbs) :
    weldTestFx s = seqStep (releaseK 0x4 s) := by
  simp only [weldTestFx, hconn, hK3, hweld, hvolts, if_neg (not_lt.mpr hquiet)]
  simp

/-! ### Contactor feedback (R240) -/

@[simp] theorem proSide_insModeSettle (s : State) : proSide (insModeSettle s) = proSide s := by
  unfold insModeSettle
  split <;> rfl

theorem proSide_insChange (f : State → State) (s : State) : proSide (insChange f s) = proSide (f s) := by
  have hpass (u : State) : proSide (insPass u) = proSide u := (congrArg proSide (sansXng_insPass u) :)
  have hins (g : Ins → Ins) (u : State) : proSide (modIns g u) = proSide u := rfl
  simp [insChange, onlyIf, hpass, hins]

/-- The debounced feedback taken, before the functions and the sequence judge it. -/
def kfNoted (s : State) : State :=
  modPro (fun p => { p with
    kf := kfNow s
    dropRun := (p.dropRun &&& ~~~kfNow s) ||| (p.kf &&& ~~~kfNow s &&& p.kA &&& p.kB &&& ~~~p.closing) }) s

theorem proSide_kfTake (s : State) : proSide (kfTake s) = proSide (seqStep (feedbackActive (kfNoted s))) := by
  unfold kfTake
  rw [proSide_insChange]
  exact proSide_insModeSettle (seqStep (feedbackActive (kfNoted s)))

theorem kfTake_pro (s : State) : (kfTake s).pro = (seqStep (feedbackActive (kfNoted s))).pro := (congrArg State.pro (proSide_kfTake s) :)

theorem besideSequence_kfStep (s : State) : besideSequence (seqStep (feedbackActive (kfNoted s))) = besideSequence (kfNoted s) :=
  (besideSequence_seqStep _).trans (besideSequence_feedbackActive _)

theorem kfTake_kf (s : State) : (kfTake s).pro.kf = kfNow s :=
  (congrArg Pro.kf (kfTake_pro s)).trans (congrArg (fun u => u.pro.kf) (besideSequence_kfStep s) :)

theorem kfTake_latched (s : State) : (kfTake s).pro.latched = s.pro.latched :=
  (congrArg Pro.latched (kfTake_pro s)).trans (latched_of_beside (besideSequence_kfStep s) :)

theorem kfTake_cap (s : State) : (kfTake s).cap = s.cap :=
  (congrArg State.cap (proSide_kfTake s) :).trans (congrArg State.cap (besideSequence_kfStep s) :)

/-- In step 4 the closed negative pole begins the precharge. -/
theorem kfTake_precharges {s : State} (hconn : s.pro.conn = 2) (hK2 : (kfNow s).getLsbD 1 = true)
    (hK4 : s.cfgPro.k4En = true → (kfNow s).getLsbD 3 = true) : (kfTake s).pro.conn = 3 ∧ (kfTake s).pro.kA = s.pro.kA ||| 0x4 ∧
      (kfTake s).pro.kB = s.pro.kB ||| 0x4 ∧ (kfTake s).pro.tP = s.smp.timeNs := by
  have hkept := besideSequence_feedbackActive (kfNoted s)
  have hkf : (feedbackActive (kfNoted s)).pro.kf = kfNow s := feedbackActive_kf _
  have hcfg : (feedbackActive (kfNoted s)).cfgPro = s.cfgPro := (congrArg State.cfgPro hkept :)
  have htime : (feedbackActive (kfNoted s)).smp.timeNs = s.smp.timeNs := (congrArg (fun u => u.smp.timeNs) hkept :)
  have hstep : seqStep (feedbackActive (kfNoted s)) = startPrecharge (feedbackActive (kfNoted s)) :=
    seqStep_precharges ((feedbackActive_conn _).trans hconn) (by rw [hkf]; exact hK2) (by rw [hkf, hcfg]; exact hK4)
  obtain ⟨hpre, hkA, hkB, htP⟩ := startPrecharge_channels (feedbackActive (kfNoted s))
  rw [kfTake_pro, hstep]
  exact ⟨hpre, hkA.trans (congrArg (· ||| 0x4) (feedbackActive_kA _)), hkB.trans (congrArg (· ||| 0x4) (feedbackActive_kB _)), htP.trans htime⟩

/-! ### The statement -/

theorem pro_of_still {t u : State} (h : still t = still u) : t.pro = u.pro := (congrArg State.pro h :)

/-- What every clause leaves: latches, configuration and factory data. -/
theorem sequenceKeeps {s t u : State} (hstill : still t = still u) (hkept : besideSequence u = besideSequence s) :
    t.pro.latched = s.pro.latched ∧ t.cfg = s.cfg ∧ t.fac = s.fac := by
  have hcfg : t.cfg = u.cfg := (congrArg State.cfg hstill :)
  have hfac : t.fac = u.fac := (congrArg State.fac hstill :)
  exact ⟨(congrArg Pro.latched (pro_of_still hstill)).trans (latched_of_beside hkept), hcfg.trans (cfg_of_beside hkept),
    hfac.trans (fac_of_beside hkept)⟩

/-- A command that opens a string that no limit of R254 holds. -/
theorem opens_of_act {c : Instr} {g : State → State} {s u : State} (hexec : exec c s = act g s) (hg : g { s with out := [] } = u)
    (hkept : besideSequence u = besideSequence s) (hopens : released u = true ∧ (u.pro.conn = 9 ∨ u.pro.conn = 0)) :
    ∃ t, exec c s = .next t ∧ released t = true ∧ (t.pro.latched = s.pro.latched ∧ t.cfg = s.cfg ∧ t.fac = s.fac) ∧
      (t.pro.conn = 9 ∨ t.pro.conn = 0) := by
  obtain ⟨t, ht, hstill⟩ := next_of_act hexec hg
  have hpro := pro_of_still hstill
  exact ⟨t, ht, (released_congr (congrArg Pro.kA hpro) (congrArg Pro.kB hpro)).trans hopens.1, sequenceKeeps hstill hkept, hpro ▸ hopens.2⟩

section clauses
variable {s : State} (hruns : proRuns s = true)
include hruns

theorem kfInputChange_steps (levels : BitVec 4) : ∃ t, exec (.kfInputChange levels) s = .next t ∧ t.cap.kfRaw = levels ∧
    (t.pro.latched = s.pro.latched ∧ t.cfg = s.cfg ∧ t.fac = s.fac) ∧ t.pro.kf = ~~~(levels ^^^ s.cfgPro.kfPol) ∧
      (s.pro.conn = 2 → t.pro.kf.getLsbD 1 = true → (s.cfgPro.k4En = true → t.pro.kf.getLsbD 3 = true) →
        t.pro.conn = 3 ∧ t.pro.kA = s.pro.kA ||| 0x4 ∧ t.pro.kB = s.pro.kB ||| 0x4 ∧ t.pro.tP = s.smp.timeNs) := by
  obtain ⟨t, ht, hstill⟩ := next_of_act (u := kfChangeFx levels { s with out := [] }) (c := .kfInputChange levels)
    (g := fun s => if proRuns s then kfChangeFx levels s else { s with cap := { s.cap with kfRaw := levels } }) rfl (if_pos hruns)
  have hcap : t.cap = (kfChangeFx levels { s with out := [] }).cap := (congrArg State.cap hstill :)
  have hcfg : t.cfg = (kfChangeFx levels { s with out := [] }).cfg := (congrArg State.cfg hstill :)
  have hfac : t.fac = (kfChangeFx levels { s with out := [] }).fac := (congrArg State.fac hstill :)
  have hpro := pro_of_still hstill
  have hsteady : steady (kfChangeFx levels { s with out := [] }) = steady s := steady_kfTake _
  have hkf := (congrArg Pro.kf hpro).trans (kfTake_kf _)
  refine ⟨t, ht, ?_, ⟨?_, ?_, ?_⟩, hkf, fun hconn hK2 hK4 => ?_⟩
  · rw [hcap, kfChangeFx, kfTake_cap]
  · exact (congrArg Pro.latched hpro).trans (kfTake_latched _)
  · exact hcfg.trans (congrArg State.cfg hsteady :)
  · exact hfac.trans (congrArg State.fac hsteady :)
  · rw [hkf] at hK2 hK4
    rw [hpro]
    exact kfTake_precharges hconn hK2 hK4

theorem weldTestTimer_steps (hconn : s.pro.conn = 1) (hK3 : s.pro.kA.getLsbD 2 = true) (hweld : s.pro.weldOk = true)
    (hvolts : voltsOk s = true)
    (hquiet : ((s.smp.vLnk - s.pro.weldV).natAbs : Int) * 1000000000 ≤ s.cfgPro.weldDv * s.smp.vStr.natAbs) :
    ∃ t, exec .weldTestTimer s = .next t ∧ (t.pro.latched = s.pro.latched ∧ t.cfg = s.cfg ∧ t.fac = s.fac) ∧
      t.pro.kA.getLsbD 2 = false ∧ t.pro.kB.getLsbD 2 = false ∧
      (s.pro.kf.getLsbD 2 = false → t.pro.conn = 2 ∧ t.pro.kA.getLsbD 1 = true ∧ t.pro.kB.getLsbD 1 = true) := by
  obtain ⟨t, ht, hstill⟩ := next_of_act (s := s) (c := .weldTestTimer) rfl
    ((if_pos hruns).trans (weldTestFx_still (s := { s with out := [] }) hconn hK3 hweld hvolts hquiet))
  obtain ⟨⟨hA, hB⟩, hneg⟩ := seqStep_afterWeldTest (s := releaseK 0x4 { s with out := [] }) ((releaseK_conn _ _).trans hconn)
    (k3Released_releaseK _)
  rw [releaseK_kf] at hneg
  refine ⟨t, ht, sequenceKeeps hstill ((besideSequence_seqStep _).trans (besideSequence_releaseK _ _)), ?_⟩
  rw [pro_of_still hstill]
  exact ⟨hA, hB, hneg⟩

theorem k3OverlapExpiry_steps (hconn : s.pro.conn = 4) (hover : s.pro.overlap = true) :
    ∃ t, exec .k3OverlapExpiry s = .next t ∧ (t.pro.latched = s.pro.latched ∧ t.cfg = s.cfg ∧ t.fac = s.fac) ∧
      t.pro.kA.getLsbD 2 = false ∧ t.pro.kB.getLsbD 2 = false ∧ (s.pro.kf.getLsbD 2 = false → t.pro.conn = 5) := by
  obtain ⟨t, ht, hstill⟩ := next_of_act (s := s) (c := .k3OverlapExpiry) rfl
    (if_pos (by simp only [Bool.and_eq_true, decide_eq_true_eq]; exact ⟨⟨hruns, hconn⟩, hover⟩))
  obtain ⟨⟨hA, hB⟩, hends⟩ := seqStep_afterOverlap (s := releaseK 0x4 (modPro (fun p => { p with overlap := false }) { s with out := [] }))
    ((releaseK_conn _ _).trans hconn) (k3Released_releaseK _)
  rw [releaseK_kf] at hends
  refine ⟨t, ht, sequenceKeeps hstill ((besideSequence_seqStep _).trans (besideSequence_releaseK _ _)), ?_⟩
  rw [pro_of_still hstill]
  exact ⟨hA, hB, hends⟩

end clauses

/-- Settles O49: a command of the sequence is one step of the sequencer, or the opening itself, and moves nothing beside it. -/
theorem sequencerStepsOnItsTimers : Obligations.SequencerStepsOnItsTimers := by
  intro s hset hruns
  refine ⟨fun hconn hnever => ?_, fun hconn hbreak hnever => ?_, kfInputChange_steps hruns, weldTestTimer_steps hruns,
    k3OverlapExpiry_steps hruns, ?_⟩
  · exact opens_of_act (c := .breakWaitExpiry) rfl (if_pos (Bool.and_eq_true_iff.mpr ⟨hruns, decide_eq_true hconn⟩))
      (besideSequence_releasePoint _) (releasePoint_opens { s with out := [] } hnever)
  · exact opens_of_act (c := .discRampMaxExpiry) rfl (if_pos (Bool.and_eq_true_iff.mpr ⟨hruns, decide_eq_true hconn⟩))
      (besideSequence_openString _ _) (openString_ofRampDown (s := { s with out := [] }) hconn hnever hbreak)
  · exact effect_of_raiseAll rfl (if_pos hruns) (settled_congr hset rfl rfl rfl rfl rfl) rfl rfl rfl (List.forall_mem_nil _)

end Sys2Proof.Machine
end

section
/-! CTL_START, CTL_STOP, CTL_TONE, CTL_FAULT_CLEAR, CTL_SETPOINT and ATB_SET (R275 to R277, R281, R294, R300, R481): what a request does that
is heard and not refused. -/

namespace Sys2Proof.Machine

open Sys2Proof

/-! ### What a request leaves -/

/-- The state at the judgement of a request: what the command before sent is dropped, the receipt is noted. -/
abbrev received (r : Req) (s : State) : State := touch r { s with out := [] }

/-- The receipt of a request moves the sessions alone; which commands are deferred stays. -/
theorem received_cases (r : Req) (s : State) :
    ∃ x : Ses, received r s = { s with out := [], ses := x } ∧ x.deferred = s.ses.deferred := by
  unfold received touch
  split
  · exact ⟨_, rfl, rfl⟩
  · exact ⟨_, rfl, rfl⟩

/-- A request that is heard and not refused, and that leaves the conditions as last reported. -/
theorem exec_heard {c : Instr} {r : Req} {op least : Nat} {s : State} {j : State → Judge} {run : State → State}
    (hexec : exec c s = act (request r op least j run) s) (h : heard r op least s)
    (hj : (j (received r s)).first false = none) (hset : settled (run (received r s))) :
    exec c s = .next (transmit s (run (received r s))) := by
  rw [hexec, act_request_heard h j run hj, condCheck_of_settled _ hset]

theorem sansHost_received (r : Req) (s : State) : sansHost (received r s) = sansHost s := sansHost_touch { s with out := [] } r

/-- A request that answers and has an effect beside the sessions. -/
theorem answersDoing_of_received {c : Instr} {r : Req} {op least : Nat} {s : State} {j : State → Judge} {run f : State → State}
    {body : Bytes} (hexec : exec c s = act (request r op least j run) s) (h : heard r op least s)
    (hj : (j (received r s)).first false = none) (hrun : run (received r s) = respond r op stOk body (f (received r s)))
    (hset : settled (f (received r s))) (hf : f (received r s) = received r (f s)) (hev : (f s).ev = s.ev) :
    answersDoing c r op body f s := by
  unfold answersDoing
  rw [hexec]
  refine act_answersDoing h j run f body hj hrun hset ?_ ?_ ?_
  · exact (congrArg (stillFor r.ctx) hf).trans ((stillFor_touch { f s with out := [] } r).trans rfl)
  · exact (congrArg State.ev hf).trans ((touch_ev { f s with out := [] } r).trans hev)
  · exact (congrArg State.out hf).trans (touch_out { f s with out := [] } r)

/-- A request that answers and changes the control engine alone. -/
theorem answersDoing_modCtl {c : Instr} {r : Req} {op least : Nat} {s : State} {j : State → Judge} {run : State → State} {body : Bytes}
    {f : Ctl → Ctl} (hset : settled s) (hexec : exec c s = act (request r op least j run) s) (h : heard r op least s)
    (hj : (j (received r s)).first false = none) (hrun : run (received r s) = respond r op stOk body (modCtl f (received r s))) :
    answersDoing c r op body (modCtl f) s :=
  answersDoing_of_received hexec h hj hrun (settled_congr (settled_touch s r hset) rfl rfl rfl rfl rfl) (touch_modCtl f _ r) rfl

theorem modCtl_where (p : Ctl → Prop) [DecidablePred p] (f : Ctl → Ctl) (s : State) :
    modCtl (fun c => if p c then f c else c) s = if p s.ctl then modCtl f s else s := by
  unfold modCtl
  dsimp only
  split <;> rfl

/-! ### CTL_FAULT_CLEAR, CTL_SETPOINT, ATB_SET -/

theorem ctlFaultClear_clears {r : Req} {s : State} (hset : settled s) (h : heard r 0x0803 1 s) (hctl : hasCtl s = true)
    (hstate : stateOk [3] s = true) (hgone : s.ctl.state = 6 → faultGone s = true) :
    answersDoing (.ctlFaultClear r) r 0x0803 []
      (fun s => if s.ctl.state = 6 then modCtl (fun c => { c with state := 1, fault := 0 }) s else s) s := by
  have hwhere : (fun s => if s.ctl.state = 6 then modCtl (fun c => { c with state := 1, fault := 0 }) s else s) =
      modCtl fun c => if c.state = 6 then { c with state := 1, fault := 0 } else c :=
    funext fun u => (modCtl_where (fun c => c.state = 6) (fun c => { c with state := 1, fault := 0 }) u).symm
  rw [hwhere]
  obtain ⟨x, hx, -⟩ := received_cases r s
  refine answersDoing_modCtl hset rfl h ?_ ?_
  · rw [hx]
    have hctl' : hasCtl { s with out := [], ses := x } = true := hctl
    have hstate' : stateOk [3] { s with out := [], ses := x } = true := hstate
    have hgone' : s.ctl.state = 6 → faultGone { s with out := [], ses := x } = true := hgone
    simpa [Judge.first, hctl', hstate'] using hgone'
  · rw [modCtl_where (fun c => c.state = 6)]

theorem ctlSetpoint_host {r : Req} {s : State} (sp : Word) (hset : settled s) (h : heard r 0x0805 1 s) (hctl : hasCtl s = true)
    (hstate : stateOk [3] s = true) (hstandby : standby s = false) :
    answersDoing (.ctlSetpoint r sp 0xFF) r 0x0805 []
      (modCtl fun c => { c with spHost := sp.toInt, hostStale := false, spRun := true }) s := by
  obtain ⟨x, hx, -⟩ := received_cases r s
  refine answersDoing_modCtl hset rfl h ?_ rfl
  rw [hx]
  have hctl' : hasCtl { s with out := [], ses := x } = true := hctl
  have hstate' : stateOk [3] { s with out := [], ses := x } = true := hstate
  have hstandby' : standby { s with out := [], ses := x } = false := hstandby
  simp [Judge.first, hctl', hstate', hstandby']

/-- CAP with a bus of the test multiplexer on a node. -/
def busOn (bus : Byte) (node : Half) (c : Cap) : Cap := if bus = 0 then { c with atb0 := node } else { c with atb1 := node }

/-- The module with a bus of the test multiplexer on a node (R481). -/
def atbOn (bus : Byte) (node : Half) (s : State) : State := { s with cap := busOn bus node s.cap }

theorem atbOn_received (bus : Byte) (node : Half) (r : Req) (s : State) :
    atbOn bus node (received r s) = received r (atbOn bus node s) := apply_ite (atbOn bus node) _ _ _

theorem atbSet_connects {r : Req} {s : State} {bus : Byte} {node : Half} (hset : settled s) (h : heard r 0x0E03 3 s)
    (hstate : stateOk [4] s = true) (hbus : bus.toNat ≤ 1) (hnode : atbNodes.contains node.toNat = true)
    (hctl : atbNeedsCtl node.toNat = true → hasCtl s = true) :
    answersDoing (.atbSet r bus node) r 0x0E03 (le 2 (busOn bus node s.cap).atb0.toNat ++ le 2 (busOn bus node s.cap).atb1.toNat)
      (atbOn bus node) s := by
  obtain ⟨x, hx, -⟩ := received_cases r s
  refine answersDoing_of_received rfl h ?_ ?_ (settled_congr (settled_touch s r hset) rfl rfl rfl rfl rfl) (atbOn_received bus node r s) rfl
  · have hpresent : ¬ (atbNeedsCtl node.toNat = true ∧ hasCtl { s with out := [], ses := x } = false) :=
      fun ⟨hneeds, hnone⟩ => Bool.noConfusion ((hctl hneeds).symm.trans hnone)
    have hstate' : stateOk [4] { s with out := [], ses := x } = true := hstate
    have hnode' : node.toNat ∈ atbNodes := List.contains_iff_mem.mp hnode
    rw [hx]
    simp [Judge.first, hpresent, hstate', hnode', Nat.not_lt.mpr hbus]
  · rw [hx]
    rfl

/-- Settles O13: each request changes the engine, or the test multiplexer, alone. -/
theorem engineWritesAndTestBuses : Obligations.EngineWritesAndTestBuses := by
  intro r s hset
  refine ⟨ctlFaultClear_clears hset, fun sp => ctlSetpoint_host sp hset, fun bus node h hstate hbus hnode hctl => ?_⟩
  exact atbSet_connects hset h hstate hbus hnode hctl

/-! ### CTL_START (R275, R276) -/

theorem ctlStart_starts {r : Req} {s : State} (hset : settled s) (hctl : hasCtl s = true) (h : heard r 0x0801 1 s)
    (hok : startOk s = true) (hparked : s.ctl.state = 1) :
    ∃ t, exec (.ctlStart r) s = .next t ∧ t.out = [] ∧ t.ev = s.ev ∧ t.ctl.state = 2 ∧ t.ctl.enable = true ∧ t.ctl.out = 0 ∧
      t.ctl.tZero = s.cfgCtl.tZero ∧ t.ctl.src = s.ctl.src ∧ t.ctl.spHost = s.ctl.spHost ∧ t.ctl.pwm0 = s.ctl.pwm0 ∧
      t.ctl.pwm1 = s.ctl.pwm1 ∧ (running 0x0801 t).isSome = true ∧ sameStores s t ∧ sameMeasuring s t ∧ t.pro = s.pro := by
  obtain ⟨x, hx, -⟩ := received_cases r s
  have hfree : ({ absent := !hasCtl (received r s), forbidden := !startOk (received r s), busy := (received r s).ctl.state != 1 } :
      Judge).first false = none := by
    have hctl' : hasCtl { s with out := [], ses := x } = true := hctl
    have hok' : startOk { s with out := [], ses := x } = true := hok
    rw [hx]
    simp [Judge.first, hctl', hok', hparked]
  have hexec := exec_heard (c := .ctlStart r) (s := s) rfl h hfree (settled_congr (settled_touch s r hset) rfl rfl rfl rfl rfl)
  rw [hx] at hexec
  refine ⟨_, hexec, rfl, rfl, rfl, rfl, rfl, rfl, rfl, rfl, rfl, rfl, ?_, ⟨rfl, rfl, rfl, rfl, rfl, rfl, rfl, rfl, rfl, rfl, rfl⟩,
    ⟨rfl, rfl, rfl, rfl, rfl, rfl, rfl⟩, rfl⟩
  simp [running, transmit, startEngine]

/-! ### CTL_STOP (R277) -/

theorem defer_frame (r : Req) (op : Nat) (s : State) : (defer r op s).ev = s.ev ∧ (defer r op s).ctl = s.ctl ∧
    (defer r op s).out = s.out ++ [.response r.ctx r.tag op stOk []] ∧ sansHost (defer r op s) = sansHost s :=
  ⟨(respond_frame ..).1, respond_ctl .., respond_out .., sansHost_respond ..⟩

theorem settled_defer {s : State} (h : settled s) (r : Req) (op : Nat) : settled (defer r op s) :=
  settled_congr (settled_respond s r op stOk [] h) rfl rfl rfl rfl rfl

/-- Nothing stands against a CTL_STOP of a fitted engine in RUN, PARKED or RUNNING. -/
theorem exec_ctlStop {r : Req} {s u : State} (hstate : stateOk [3] s = true) (hctl : hasCtl s = true) (h : heard r 0x0802 1 s)
    (hfree : deferredBusy 0x0802 s = false) (hengine : s.ctl.state = 1 ∨ s.ctl.state = 3) (hstop : stopEngine r (received r s) = u)
    (hset : settled u) : exec (.ctlStop r) s = .next (transmit s u) := by
  subst hstop
  obtain ⟨x, hx, hdeferred⟩ := received_cases r s
  refine exec_heard rfl h ?_ hset
  have hctl' : hasCtl { s with out := [], ses := x } = true := hctl
  have hstate' : stateOk [3] { s with out := [], ses := x } = true := hstate
  have hfree' : deferredBusy 0x0802 { s with out := [], ses := x } = false := by
    rw [← hfree]
    simp only [deferredBusy, hdeferred]
  rw [hx]
  rcases hengine with he | he <;> simp [Judge.first, hctl', hstate', hfree', he]

/-- The engine as CTL_STOP in RUNNING leaves it. -/
def engineStopping (c : Ctl) : Ctl := { c with state := 4, tones := [], tonesNext := none, quietRun := 0 }

theorem ctlStop_running {r : Req} {s : State} (hset : settled s) (hstate : stateOk [3] s = true) (hctl : hasCtl s = true)
    (h : heard r 0x0802 1 s) (hfree : deferredBusy 0x0802 s = false) (hruns : s.ctl.state = 3) :
    ∃ t, exec (.ctlStop r) s = .next t ∧ t.out = [.response r.ctx r.tag 0x0802 stOk []] ∧ t.ev = s.ev ∧ t.ctl = engineStopping s.ctl ∧
      sameStores s t ∧ sameMeasuring s t ∧ t.pro = s.pro := by
  have hstop : stopEngine r (received r s) = modCtl engineStopping (defer r 0x0802 (received r s)) := by
    simp only [stopEngine, touch_ctl, hruns]
    rfl
  obtain ⟨hev, hkept, hout, hrest⟩ := defer_frame r 0x0802 (received r s)
  have hset' : settled (modCtl engineStopping (defer r 0x0802 (received r s))) :=
    settled_congr (settled_defer (settled_touch s r hset) r 0x0802) rfl rfl rfl rfl rfl
  have hsans : sansHost (modCtl engineStopping (defer r 0x0802 (received r s))) = sansHost s :=
    (sansHost_modCtl _ _).trans (hrest.trans (sansHost_received r s))
  refine ⟨_, exec_ctlStop hstate hctl h hfree (.inr hruns) hstop hset', hout.trans ?_, hev.trans (touch_ev _ r), ?_,
    sameStores_of_sansHost hsans, sameMeasuring_of_sansHost hsans, (congrArg State.pro hsans :)⟩
  · rw [touch_out]
    rfl
  · rw [transmit_ctl, modCtl_ctl, hkept, touch_ctl]

/-- No CTL_STOP is deferred where no command of its group runs (R341). -/
theorem running_of_deferredBusy {s : State} (h : deferredBusy 0x0802 s = false) : running 0x0802 s = none := by
  refine List.find?_eq_none.mpr fun d hd hop => ?_
  have hfree := List.any_eq_false.mp h d hd
  rw [beq_iff_eq.mp hop] at hfree
  exact hfree rfl

/-- Who a session belongs to is no matter of receipts, answers and sequence numbers. -/
theorem owner_modSess (c : Nat) (f : Sess → Sess) (h : ∀ x, (f x).opened = x.opened ∧ (f x).gen = x.gen) (k : Nat) (s : State) :
    ((modSess c f s).sess k).opened = (s.sess k).opened ∧ ((modSess c f s).sess k).gen = (s.sess k).gen := by
  simp only [State.sess, modSess, List.getD_eq_getElem?_getD, List.getElem?_modify]
  cases s.ses.ctx[k]? with
  | none => exact ⟨rfl, rfl⟩
  | some x =>
    simp only [Option.getD_some]
    split
    · exact h x
    · exact ⟨rfl, rfl⟩

theorem owner_respond (r : Req) (op st : Nat) (b : Bytes) (k : Nat) (s : State) :
    ((respond r op st b s).sess k).opened = (s.sess k).opened ∧ ((respond r op st b s).sess k).gen = (s.sess k).gen := by
  have hsent : ((sendResponse r op st b s).sess k).opened = (s.sess k).opened ∧ ((sendResponse r op st b s).sess k).gen = (s.sess k).gen :=
    owner_modSess r.ctx.toNat (fun x => { x with txSeq := x.txSeq + 1 }) (fun _ => ⟨rfl, rfl⟩) k s
  unfold respond
  dsimp only
  split
  · exact hsent
  · obtain ⟨hopened, hgen⟩ := owner_modSess r.ctx.toNat (fun x =>
      { x with store := ({ tag := r.tag, op := op, status := st, body := b } :: x.store).take 16 }) (fun _ => ⟨rfl, rfl⟩) k (sendResponse r op st b s)
    exact ⟨hopened.trans hsent.1, hgen.trans hsent.2⟩

theorem respond_deferred (r : Req) (op st : Nat) (b : Bytes) (s : State) : (respond r op st b s).ses.deferred = s.ses.deferred := by
  unfold respond
  dsimp only
  split <;> rfl

/-- The state with other commands deferred. -/
def withDeferred (l : List Deferred) (s : State) : State := { s with ses := { s.ses with deferred := l } }

/-- A command that ends at once in a session that is still open: it is deferred no more, its COMPLETION goes out. -/
theorem completeOp_last {s : State} {d : Deferred} {op : Nat} {l : List Deferred} (hl : s.ses.deferred = l ++ [d]) (hd : d.op = op)
    (hnone : l.find? (fun e => e.op == op) = none) (hopen : (s.sess d.ctx.toNat).opened = true) (hgen : (s.sess d.ctx.toNat).gen = d.gen)
    (st : Nat) (b : Bytes) : completeOp op st b s = send (.completion d.ctx d.tag d.op st b)
      (modSess d.ctx.toNat (fun x => { x with txSeq := x.txSeq + 1 }) (withDeferred l s)) := by
  have hnot : d ∉ l := fun hmem => List.find?_eq_none.mp hnone d hmem (beq_iff_eq.mpr hd)
  have hrun : running op s = some d := by
    unfold running
    rw [hl, List.find?_append, hnone]
    simp [hd]
  have hrest : s.ses.deferred.erase d = l := by
    rw [hl, List.erase_append_right _ hnot]
    simp
  unfold completeOp
  rw [hrun]
  unfold complete
  dsimp only
  rw [hrest]
  refine if_pos ?_
  change ((s.sess d.ctx.toNat).opened && (s.sess d.ctx.toNat).gen == d.gen) = true
  rw [hopen, hgen, beq_self_eq_true, Bool.and_self]

/-- A command deferred and completed at once: RESPONSE and COMPLETION go out, and nothing of the command stays. -/
theorem completeOp_defer {s : State} {r : Req} {op : Nat} (hnone : running op s = none) (hopen : (s.sess r.ctx.toNat).opened = true)
    (st : Nat) (b : Bytes) : (completeOp op st b (defer r op s)).ev = s.ev ∧
      (completeOp op st b (defer r op s)).out = s.out ++ [.response r.ctx r.tag op stOk [], .completion r.ctx r.tag op st b] ∧
      stillFor r.ctx (completeOp op st b (defer r op s)) = stillFor r.ctx s := by
  have hopen' : ((defer r op s).sess r.ctx.toNat).opened = true := (owner_respond r op stOk [] r.ctx.toNat s).1.trans hopen
  have hlast : completeOp op st b (defer r op s) = send (.completion r.ctx r.tag op st b)
      (modSess r.ctx.toNat (fun x => { x with txSeq := x.txSeq + 1 }) (withDeferred s.ses.deferred (defer r op s))) :=
    completeOp_last (d := { op := op, ctx := r.ctx, gen := ((respond r op stOk [] s).sess r.ctx.toNat).gen, tag := r.tag, at_ := _ })
      (congrArg (· ++ _) (respond_deferred r op stOk [] s)) rfl hnone hopen' rfl st b
  have hkept : withDeferred s.ses.deferred (defer r op s) = respond r op stOk [] s :=
    congrArg (fun l => withDeferred l (respond r op stOk [] s)) (respond_deferred r op stOk [] s).symm
  rw [hlast, hkept]
  refine ⟨(respond_frame ..).1, ?_, ?_⟩
  · rw [send_out, modSess_out, respond_out, List.append_assoc]
    rfl
  · rw [← stillFor_respond s r op stOk []]
    refine stillFor_of_still r.ctx ((still_send _ _).trans (still_modSess _ _ _ ?_))
    exact fun _ => rfl

theorem settled_completeOp {s : State} (h : settled s) (op st : Nat) (b : Bytes) : settled (completeOp op st b s) := by
  unfold completeOp
  split
  · unfold complete
    dsimp only
    split <;> exact settled_congr h rfl rfl rfl rfl rfl
  · exact h

theorem ctlStop_parked {r : Req} {s : State} (hset : settled s) (hstate : stateOk [3] s = true) (hctl : hasCtl s = true)
    (h : heard r 0x0802 1 s) (hfree : deferredBusy 0x0802 s = false) (hparked : s.ctl.state = 1) :
    ∃ t, exec (.ctlStop r) s = .next t ∧ t.ev = s.ev ∧ stillFor r.ctx t = stillFor r.ctx s ∧
      t.out = [.response r.ctx r.tag 0x0802 stOk [], .completion r.ctx r.tag 0x0802 stOk []] := by
  have hstop : stopEngine r (received r s) = completeOp 0x0802 stOk [] (defer r 0x0802 (received r s)) := by
    simp only [stopEngine, touch_ctl, hparked, if_true]
  obtain ⟨x, hx, hdeferred⟩ := received_cases r s
  have hnone : running 0x0802 (received r s) = none := by
    rw [← running_of_deferredBusy hfree, hx]
    simp only [running, hdeferred]
  have hopen : ((received r s).sess r.ctx.toNat).opened = true := (touch_opened { s with out := [] } r _).trans h.2.1
  obtain ⟨hev, hout, hstill⟩ := completeOp_defer hnone hopen stOk []
  refine ⟨_, exec_ctlStop hstate hctl h hfree (.inl hparked) hstop (settled_completeOp (settled_defer (settled_touch s r hset) r _) ..),
    hev.trans (touch_ev _ r), ?_, hout.trans ?_⟩
  · exact hstill.trans ((stillFor_touch { s with out := [] } r).trans rfl)
  · rw [touch_out]
    rfl

/-! ### CTL_TONE (R300, R301) -/

/-- Nothing stands against a set of tones in range in RUNNING on a module that is no standby. -/
theorem ctlTone_free {r : Req} {s : State} (hstate : stateOk [3] s = true) (hctl : hasCtl s = true) (hruns : s.ctl.state = 3)
    (hstandby : standby s = false) {tones : List (Nat × Nat)} (hrange : toneRange s tones = true) :
    ({ absent := !hasCtl (received r s)
       forbidden := !stateOk [3] (received r s) || (received r s).ctl.state != 3 || standby (received r s)
       range := !toneRange (received r s) tones } : Judge).first false = none := by
  obtain ⟨x, hx, -⟩ := received_cases r s
  have hctl' : hasCtl { s with out := [], ses := x } = true := hctl
  have hstate' : stateOk [3] { s with out := [], ses := x } = true := hstate
  have hstandby' : standby { s with out := [], ses := x } = false := hstandby
  have hrange' : toneRange { s with out := [], ses := x } tones = true := hrange
  rw [hx]
  simp [Judge.first, hctl', hstate', hstandby', hrange', hruns]

theorem ctlTone_waits {r : Req} {s : State} (hset : settled s) (hstate : stateOk [3] s = true) (hctl : hasCtl s = true)
    {tones : List (Nat × Nat)} (h : heard r 0x0804 1 s) (hruns : s.ctl.state = 3) (hstandby : standby s = false) (hsome : tones ≠ [])
    (hrange : toneRange s tones = true) :
    answersDoing (.ctlTone r tones) r 0x0804 (le 8 (gridUp (max s.smp.timeNs s.ctl.time + 1) 1000000))
      (modCtl fun c => { c with
        tonesNext := some (tones.map fun e => { freq := s.cfgCtl.toneF e.1, amp := e.2 })
        toneNextAt := gridUp (max s.smp.timeNs s.ctl.time + 1) 1000000 }) s := by
  obtain ⟨x, hx, -⟩ := received_cases r s
  refine answersDoing_modCtl hset rfl h (ctlTone_free hstate hctl hruns hstandby hrange) ?_
  rw [hx]
  exact if_neg (by simp [hsome])

/-- The engine as an empty set of tones at time `now` leaves it. -/
def tonesStopped (now : Nat) (c : Ctl) : Ctl :=
  { c with tonesNext := none, tones := c.tones.map fun x => { x with stopping := x.stopping.or (some now) } }

theorem ctlTone_stops {r : Req} {s : State} (hset : settled s) (hstate : stateOk [3] s = true) (hctl : hasCtl s = true)
    (h : heard r 0x0804 1 s) (hruns : s.ctl.state = 3) (hstandby : standby s = false) (hrange : toneRange s [] = true) :
    ∃ t b, exec (.ctlTone r []) s = .next t ∧ t.out = [.response r.ctx r.tag 0x0804 stOk b] ∧ t.ev = s.ev ∧
      t.ctl = tonesStopped (max s.smp.timeNs s.ctl.time) s.ctl ∧ sameStores s t ∧ sameMeasuring s t ∧ t.pro = s.pro := by
  obtain ⟨x, hx, -⟩ := received_cases r s
  have hrun : toneRun r [] (received r s) = respond r 0x0804 stOk (takeBytes 8 s).1
      (modCtl (tonesStopped (max s.smp.timeNs s.ctl.time)) { s with out := [], ses := x, fresh := s.fresh + 8 }) := by
    rw [hx]
    simp only [toneRun, List.isEmpty_nil, if_true, takeBytes]
    rfl
  have hexec := exec_heard (c := .ctlTone r []) (s := s) rfl h (ctlTone_free hstate hctl hruns hstandby hrange)
  rw [hrun] at hexec
  have hsans := sansHost_respond (modCtl (tonesStopped (max s.smp.timeNs s.ctl.time)) { s with out := [], ses := x, fresh := s.fresh + 8 })
    r 0x0804 stOk (takeBytes 8 s).1
  exact ⟨_, (takeBytes 8 s).1, hexec (settled_respond _ _ _ _ _ (settled_congr hset rfl rfl rfl rfl rfl)), respond_out .., (respond_frame ..).1,
    respond_ctl .., (sameStores_of_sansHost hsans :), (sameMeasuring_of_sansHost hsans :), (congrArg State.pro hsans :)⟩

/-- Settles O21: CTL_START waits deferred; the others answer and change the engine alone, a stop at rest nothing. -/
theorem engineCommandsStartStopAndTone : Obligations.EngineCommandsStartStopAndTone := by
  intro r s hset hstate hctl
  exact ⟨ctlStart_starts hset hctl, ctlStop_running hset hstate hctl, ctlStop_parked hset hstate hctl,
    fun _ => ctlTone_waits hset hstate hctl, ctlTone_stops hset hstate hctl⟩

end Sys2Proof.Machine
end

section
/-! CHANTER edges, loss and return, the start of a tone set, and the valleys of the carriers (R284, R295 to R298, R301). -/

namespace Sys2Proof.Machine

open Sys2Proof

/-! ### Commands that change the engine and raise flags -/

theorem eventPresent_ctl {s : State} (h : hasCtl s = true) : eventPresent s 0x0C = true := h

theorem hasCtl_of_ctlRuns {s : State} (h : ctlRuns s = true) : hasCtl s = true := by
  simp only [ctlRuns, Bool.and_eq_true] at h
  exact h.1.1

theorem settled_modCtl {s : State} (h : settled s) (f : Ctl → Ctl) : settled (modCtl f s) := settled_congr h rfl rfl rfl rfl rfl

theorem settled_raise {s : State} (h : settled s) (e n : Nat) : settled (raise e n s) := settled_raiseAll h [(e, n)]

/-- A command whose effect is a change of the engine alone, with flags of CTL raised in turn. -/
theorem effect_modCtl {c : Instr} {g : State → State} {f : Ctl → Ctl} {l : List Nat} {s : State} (hset : settled s)
    (hruns : ctlRuns s = true) (hexec : exec c s = act (fun s => if ctlRuns s then g s else s) s)
    (hg : g { s with out := [] } = raiseAll (l.map (0x0C, ·)) (modCtl f { s with out := [] })) :
    effect c (modCtl f) (l.map (0x0C, ·)) [] s := by
  refine effect_of_raiseAll hexec ((if_pos hruns).trans hg) (settled_congr hset rfl rfl rfl rfl rfl) rfl rfl rfl fun e he => ?_
  obtain ⟨n, -, rfl⟩ := List.mem_map.mp he
  exact eventPresent_ctl (hasCtl_of_ctlRuns hruns)

/-! ### CHANTER_EDGE (R295) -/

/-- The engine after an edge at time `now`. -/
def edgeNoted (now : Nat) (c : Ctl) : Ctl := { c with edgeOk := true, edgeAt := now }

section edges
variable {s : State} (hpulse : srcAnalog (srcNow s) = false)
include hpulse

theorem srcAnalog_noted :
    srcAnalog (srcNow (modCtl (fun c => { c with edgeOk := true, edgeAt := ctlNow s }) s)) = false := hpulse

theorem edgeFx_falling (ps : Nat) : edgeFx false ps s = modCtl (edgeNoted (ctlNow s)) s := by
  simp only [edgeFx, hpulse, srcAnalog_noted hpulse, Bool.false_or, Bool.not_false, Bool.false_eq_true, if_true, if_false]
  rfl

/-- The first rising edge only arms. -/
theorem edgeFx_arms (ps : Nat) (hseen : s.ctl.edgeSeen = false) :
    edgeFx true ps s = modCtl (fun c => { edgeNoted (ctlNow s) c with edgeSeen := true }) s := by
  simp only [edgeFx, hpulse, srcAnalog_noted hpulse, modCtl_ctl, hseen, Bool.false_or, Bool.not_true, Bool.not_false, Bool.false_eq_true, if_true, if_false]
  rfl

/-- A period from 4.5 to 95.5 kHz joins the mean. -/
theorem edgeFx_valid {ps : Nat} (hseen : s.ctl.edgeSeen = true) (hlow : 10 ^ 12 ≤ ps * 95500) (hhigh : ps * 4500 ≤ 10 ^ 12) :
    ∃ freq v, edgeFx true ps s = modCtl (fun c => { edgeNoted (ctlNow s) c with
      periods := (ps :: c.periods).take (max 1 s.cfgCtl.chAvg), chFreq := freq, sCh := clampI (-(ctlRated s)) (ctlRated s) v
      validRun := c.validRun + 1, perOk := true, perAt := ctlNow s }) s := by
  simp only [edgeFx, hpulse, srcAnalog_noted hpulse, modCtl_ctl, hseen, Bool.false_or, Bool.not_true, Bool.false_eq_true, if_false, hlow, hhigh,
    decide_true, Bool.and_self, if_true]
  exact ⟨_, _, rfl⟩

/-- Any other period is counted and flagged. -/
theorem edgeFx_bad {ps : Nat} (hseen : s.ctl.edgeSeen = true) (hbad : ps * 95500 < 10 ^ 12 ∨ 10 ^ 12 < ps * 4500) :
    edgeFx true ps s = raise 0x0C 15 (modCtl (fun c => { edgeNoted (ctlNow s) c with chBad := satAdd c.chBad 1, validRun := 0 }) s) := by
  have hout : (decide (10 ^ 12 ≤ ps * 95500) && decide (ps * 4500 ≤ 10 ^ 12)) = false := by
    simp only [Bool.and_eq_false_iff, decide_eq_false_iff_not]
    omega
  simp only [edgeFx, hpulse, srcAnalog_noted hpulse, modCtl_ctl, hseen, Bool.false_or, Bool.not_true, Bool.false_eq_true, if_false, hout]
  rfl

end edges

theorem srcAnalog_of_srcPulse {n : Nat} (h : srcPulse n = true) : srcAnalog n = false := by
  rcases (by simpa [srcPulse] using h : n = 1 ∨ n = 3) with rfl | rfl <;> rfl

theorem natAbs_clampI {r : Int} (h : 0 ≤ r) (v : Int) : (clampI (-r) r v).natAbs ≤ r.natAbs := by
  unfold clampI
  omega

/-- The engine in fallback with the value held (R297). -/
def valueHeld (v : Int) (c : Ctl) : Ctl := { c with fallback := true, heldCh := v, validRun := 0 }

/-- The engine without an edge, or without a valid period (R297). -/
def pulseLapsed (noEdge noPeriod : Bool) (c : Ctl) : Ctl :=
  { c with edgeOk := c.edgeOk && !noEdge, perOk := c.perOk && !noPeriod, validRun := 0 }

theorem chanterLostFx_pulse {s : State} (hsrc : srcPulse (srcNow s) = true) (hfresh : s.ctl.fallback = false) :
    chanterLostFx s = modCtl (pulseLapsed (chanterSilent s) (!chanterSilent s || decide (s.ctl.perAt + 500000 ≤ ctlNow s + s.cfgCtl.tUpd)))
      (raise 0x0C 7 (modCtl (valueHeld s.ctl.sCh) s)) := by
  simp only [chanterLostFx, srcAnalog_of_srcPulse hsrc, hsrc, fallbackFx, hfresh, chanterValue, Bool.false_eq_true, if_false, if_true]
  rfl

theorem chanterBackFx_returns {s : State} (hfall : s.ctl.fallback = true) (hauto : s.cfgCtl.chReturn = 1)
    (hsrc : srcPulse (srcNow s) = true) (hvalid : 16 ≤ s.ctl.validRun) :
    chanterBackFx s = raise 0x0C 8 (modCtl (fun c => { c with fallback := false }) s) := by
  simp [chanterBackFx, backFx, hfall, hauto, hsrc, hvalid]

theorem toneStartFx_starts {s : State} {l : List CtlTone} (h : s.ctl.tonesNext = some l) :
    toneStartFx s = modCtl (fun c => { c with tones := l, tonesNext := none, toneStart := c.toneNextAt, clipAt := none }) s := by
  simp [toneStartFx, h]

/-! ### PHASE_VALLEY (R284, R290) -/

/-- The engine at the valley at `v` of a phase. -/
def valleyAt (k v : Nat) (c : Ctl) : Ctl := if k = 0 then { c with v0 := v } else { c with v1 := v }

/-- A phase with its pattern latched. -/
def phaseLatched (k : Nat) (e : PwmEdges) (d : Int) (c : Ctl) : Ctl :=
  if k = 0 then { c with lat0 := d, pwm0 := some e, begun0 := true } else { c with lat1 := d, pwm1 := some e, begun1 := true }

/-- The duty that a phase latches from the last update. -/
def lastDuty (k : Nat) (c : Ctl) : Int := if k = 0 then c.d0 else c.d1

/-- Both phases of a start have begun. -/
def bothBegun (c : Ctl) : Bool := c.state = 2 && c.begun0 && c.begun1

/-- The engine once both phases of a start have begun. -/
def startEnded (c : Ctl) : Ctl := { c with state := if bothBegun c then 3 else c.state }

/-- Pulses that are too short are skipped one by one (R291). -/
def skipPulses (n : Nat) (s : State) : State :=
  forAll (List.range n) (fun _ s => raise 0x0C 11 (modCtl (fun c => { c with pulseSkip := satAdd c.pulseSkip 1 }) s)) s

/-- The start ends with its second phase. -/
def endStart (s : State) : State :=
  if bothBegun s.ctl then answerStart stOk [] (raise 0x0C 0 (modCtl (fun c => { c with state := 3 }) s)) else s

/-- A valley of a driving engine whose last update is old enough. -/
theorem valleyFx_late {k : Nat} {s : State} (hstarted : s.ctl.started = true) (hlate : s.ctl.time + 2000 ≤ valleyTime s k) :
    ∃ n, valleyFx k s = endStart (modCtl (phaseLatched k (edgesOf s (lastDuty k s.ctl)).1 (lastDuty k s.ctl))
      (skipPulses n (modCtl (valleyAt k (valleyTime s k)) s))) := by
  refine ⟨if s.ctl.state = 5 then 0 else (edgesOf s (lastDuty k s.ctl)).2, ?_⟩
  unfold valleyFx
  cases k with
  | zero =>
    simp only [hlate, decide_true, if_true, modCtl_ctl, hstarted]
    rfl
  | succ k =>
    simp only [hlate, decide_true, if_true, if_neg (Nat.succ_ne_zero k), modCtl_ctl, hstarted]
    rfl

/-- The engine less its count of skipped pulses. -/
def sansSkips (c : Ctl) : Ctl := { c with pulseSkip := 0 }

theorem sansSkips_skipPulses (n : Nat) (s : State) : sansSkips (skipPulses n s).ctl = sansSkips s.ctl :=
  forAll_keeps s (fun t => sansSkips t.ctl) _ _ fun _ t => by rw [raise_ctl]; rfl

theorem sansHost_skipPulses (n : Nat) (s : State) : sansHost (skipPulses n s) = sansHost s :=
  forAll_keeps s sansHost _ _ fun _ t => by rw [sansHost_raise, sansHost_modCtl]

theorem endStart_ctl (s : State) : (endStart s).ctl = startEnded s.ctl := by
  unfold endStart startEnded
  split
  · rw [answerStart_ctl, raise_ctl]
    rfl
  · rfl

theorem sansSkips_phaseLatched (k : Nat) (e : PwmEdges) (d : Int) (c : Ctl) : sansSkips (phaseLatched k e d c) = phaseLatched k e d (sansSkips c) := by
  unfold phaseLatched
  split <;> rfl

theorem sansHost_endStart (s : State) : sansHost (endStart s) = sansHost s := by
  unfold endStart
  split
  · rw [sansHost_answerStart, sansHost_raise, sansHost_modCtl]
  · rfl

/-- A valley latches the last duty that is old enough, and ends a start with the second phase; beside that skipped pulses are counted. -/
theorem valleyFx_latches {k : Nat} {s : State} (hstarted : s.ctl.started = true) (hlate : s.ctl.time + 2000 ≤ valleyTime s k) :
    sansSkips (valleyFx k s).ctl = sansSkips (startEnded (phaseLatched k (edgesOf s (lastDuty k s.ctl)).1 (lastDuty k s.ctl)
      (valleyAt k (valleyTime s k) s.ctl))) ∧ sansHost (valleyFx k s) = sansHost s := by
  obtain ⟨n, hfx⟩ := valleyFx_late hstarted hlate
  rw [hfx]
  refine ⟨?_, ?_⟩
  · have hended (c : Ctl) : sansSkips (startEnded c) = startEnded (sansSkips c) := rfl
    rw [endStart_ctl, modCtl_ctl, hended, hended, sansSkips_phaseLatched, sansSkips_phaseLatched, sansSkips_skipPulses, modCtl_ctl]
  · rw [sansHost_endStart, sansHost_modCtl, sansHost_skipPulses, sansHost_modCtl]

section clauses
variable {s : State} (hset : settled s) (hruns : ctlRuns s = true)
include hset hruns

theorem chanterEdge_valid (ps : Nat) (hpulse : srcAnalog (srcNow s) = false) (hseen : s.ctl.edgeSeen = true)
    (hlow : 10 ^ 12 ≤ ps * 95500) (hhigh : ps * 4500 ≤ 10 ^ 12) :
    ∃ t, exec (.chanterEdge true ps) s = .next t ∧ t.ev = s.ev ∧ t.out = [] ∧
      t.ctl.periods = (ps :: s.ctl.periods).take (max 1 s.cfgCtl.chAvg) ∧ t.ctl.validRun = s.ctl.validRun + 1 ∧ t.ctl.edgeOk = true ∧
        t.ctl.perOk = true ∧
      t.ctl.edgeAt = max s.smp.timeNs s.ctl.time ∧
      (0 ≤ ctlRated s → t.ctl.sCh.natAbs ≤ (ctlRated s).natAbs) ∧
      still t = still { s with ctl := { s.ctl with
        periods := t.ctl.periods, chFreq := t.ctl.chFreq, sCh := t.ctl.sCh, validRun := t.ctl.validRun
        edgeOk := true, perOk := true, edgeAt := t.ctl.edgeAt, perAt := t.ctl.perAt } } := by
  obtain ⟨freq, v, hfx⟩ := edgeFx_valid (s := { s with out := [] }) hpulse hseen hlow hhigh
  have hexec : exec (.chanterEdge true ps) s = .next (transmit s _) :=
    act_eq_next ((if_pos hruns).trans hfx) (settled_congr hset rfl rfl rfl rfl rfl)
  exact ⟨_, hexec, rfl, rfl, rfl, rfl, rfl, rfl, rfl, fun h => natAbs_clampI h v, rfl⟩

/-- CHANTER_LOST on a pulse source holds the last value (R297). -/
theorem chanterLost_holds (hsrc : srcPulse (srcNow s) = true) (hfresh : s.ctl.fallback = false) :
    effect .chanterLost (modCtl fun c => pulseLapsed (chanterSilent s) (!chanterSilent s ||
      decide (s.ctl.perAt + 500000 ≤ ctlNow s + s.cfgCtl.tUpd)) (valueHeld c.sCh c)) [(0x0C, 7)] [] s := by
  have hctl : hasCtl s = true := hasCtl_of_ctlRuns hruns
  have hout : settled { s with out := [] } := hset
  refine ⟨_, act_eq_next ((if_pos hruns).trans (chanterLostFx_pulse (s := { s with out := [] }) hsrc hfresh))
    (settled_modCtl (settled_raise (settled_modCtl hout _) _ _) _), ?_, ?_, ?_⟩
  · rw [still_transmit, still_modCtl, still_raise]
    rfl
  · exact flagged_of_ev (u := modCtl (valueHeld s.ctl.sCh) { s with out := [] }) rfl (flagged_raise _ 0x0C 7 [] _ hctl (flagged_nil _ _ rfl))
  · rw [transmit_out, modCtl_out, raise_out, modCtl_out]

end clauses

theorem phaseValley_latches {s : State} (hruns : ctlRuns s = true) (k : Fin 2) (hcfg : loopCfg s = true) (hengine : engineRuns s = true)
    (hstarted : s.ctl.started = true) (hlate : s.ctl.time + 2000 ≤ valleyTime s k.val) :
    ∃ t, exec (.phaseValley k) s = .next t ∧ t.ctl.enable = s.ctl.enable ∧ t.ctl.out = s.ctl.out ∧ t.ctl.updCnt = s.ctl.updCnt ∧
      t.pro = s.pro ∧ sameStores s t ∧ t.smp = s.smp ∧
      (k.val = 0 → t.ctl.lat0 = s.ctl.d0 ∧ t.ctl.pwm0 = some (edgesOf s s.ctl.d0).1 ∧ t.ctl.begun0 = true ∧ t.ctl.v0 = valleyTime s 0 ∧
        t.ctl.pwm1 = s.ctl.pwm1) ∧
      (k.val = 1 → t.ctl.lat1 = s.ctl.d1 ∧ t.ctl.pwm1 = some (edgesOf s s.ctl.d1).1 ∧ t.ctl.begun1 = true ∧ t.ctl.v1 = valleyTime s 1 ∧
        t.ctl.pwm0 = s.ctl.pwm0) ∧
      t.ctl.state = (if s.ctl.state = 2 ∧ ((k.val = 0 ∧ s.ctl.begun1 = true) ∨ (k.val = 1 ∧ s.ctl.begun0 = true)) then 3 else s.ctl.state) := by
  obtain ⟨t, hexec, hstill⟩ := next_of_act (s := s) (c := .phaseValley k) rfl (if_pos (by
    simp only [Bool.and_eq_true, Bool.or_eq_true]
    exact ⟨⟨hruns, hcfg⟩, .inl hengine⟩))
  obtain ⟨hctl, hsans⟩ := valleyFx_latches (s := { s with out := [] }) hstarted hlate
  have hkept := (sansHost_of_still hstill).trans hsans
  have hctl := (congrArg (fun u : State => sansSkips u.ctl) hstill : _).trans hctl
  have kept {α : Type} (f : Ctl → α) (hf : ∀ c, f (sansSkips c) = f c := by exact fun _ => rfl) :=
    (hf t.ctl).symm.trans ((congrArg f hctl).trans (hf _))
  have hpro : t.pro = s.pro := (congrArg State.pro hkept :)
  have hsmp : t.smp = s.smp := (congrArg State.smp hkept :)
  match k with
  | 0 =>
    refine ⟨t, hexec, kept Ctl.enable, kept Ctl.out, kept Ctl.updCnt, hpro, sameStores_of_sansHost hkept, hsmp, fun _ =>
      ⟨kept Ctl.lat0, kept Ctl.pwm0, kept Ctl.begun0, kept Ctl.v0, kept Ctl.pwm1⟩, fun h => absurd h (by decide), (kept Ctl.state).trans ?_⟩
    change (if (decide (s.ctl.state = 2) && true && s.ctl.begun1) = true then 3 else s.ctl.state) = _
    simp
  | 1 =>
    refine ⟨t, hexec, kept Ctl.enable, kept Ctl.out, kept Ctl.updCnt, hpro, sameStores_of_sansHost hkept, hsmp, fun h => absurd h (by decide),
      fun _ => ⟨kept Ctl.lat1, kept Ctl.pwm1, kept Ctl.begun1, kept Ctl.v1, kept Ctl.pwm0⟩, (kept Ctl.state).trans ?_⟩
    change (if (decide (s.ctl.state = 2) && s.ctl.begun0 && true) = true then 3 else s.ctl.state) = _
    simp

/-- Settles O53: edges, loss, return and tones change the engine alone, with the flags raised in turn; a valley is `valleyFx_latches`. -/
theorem chanterTonesAndValleys : Obligations.ChanterTonesAndValleys := by
  intro s hset hruns
  refine ⟨fun ps hpulse => ⟨fun hseen => ?_, chanterEdge_valid hset hruns ps hpulse, fun hseen hbad => ?_, ?_⟩, chanterLost_holds hset hruns,
    fun hfall hauto hsrc hvalid => ?_, fun l hwaits => ?_, phaseValley_latches hruns⟩
  · exact effect_modCtl (l := []) (f := fun c => { edgeNoted (ctlNow s) c with edgeSeen := true }) hset hruns rfl
      (edgeFx_arms (s := { s with out := [] }) hpulse ps hseen)
  · exact effect_modCtl (l := [15]) (f := fun c => { edgeNoted (ctlNow s) c with chBad := satAdd c.chBad 1, validRun := 0 }) hset hruns rfl
      (edgeFx_bad (s := { s with out := [] }) hpulse hseen hbad)
  · exact effect_modCtl (l := []) (f := edgeNoted (ctlNow s)) hset hruns rfl (edgeFx_falling (s := { s with out := [] }) hpulse ps)
  · exact effect_modCtl (l := [8]) (f := fun c => { c with fallback := false }) hset hruns rfl
      (chanterBackFx_returns (s := { s with out := [] }) hfall hauto hsrc hvalid)
  · exact effect_modCtl (l := []) (f := fun c => { c with tones := l, tonesNext := none, toneStart := c.toneNextAt, clipAt := none }) hset hruns rfl
      (toneStartFx_starts (s := { s with out := [] }) hwaits)

end Sys2Proof.Machine
end

section
/-! Faults of an engine that a trip parked at the same module time (R281), and SELECT gained by a module whose engine is parked (R298, R426):
two statements that fail, each at a state that its hypotheses allow. -/

namespace Sys2Proof.Machine

open Sys2Proof

/-! ### GD_FAULT at the time of a trip (R281) -/

theorem fresh_of_sansHost {s t : State} (h : sansHost t = sansHost s) : t.fresh = s.fresh := (congrArg State.fresh h :)

theorem enterFault_fresh (s : State) (code flag cause : Nat) : (enterFault code flag cause s).fresh = s.fresh :=
  fresh_of_sansHost (by simp [enterFault])

/-- Whether a fault falls in the clock cycle of a trip of the same module time is a free value: one is taken, whatever it says. -/
theorem faultEngine_takes {s : State} (hparked : s.ctl.state = 1) (htrip : s.ctl.stopCause = 2) (hend : s.ctl.endAt = ctlNow s)
    (code flag : Nat) : (faultEngine code flag s).fresh = s.fresh + 1 := by
  unfold faultEngine
  rw [if_neg (by simp [engineRuns, hparked]), if_pos (by simp [hparked, htrip, hend])]
  split <;> rename_i hcycle <;> have htaken : _ = State.fresh _ := congrArg (fun e => e.2.fresh) hcycle
  · rw [enterFault_fresh, ← htaken]
    rfl
  · rw [← htaken]
    rfl

/-- A module in RUN whose engine a trip has parked at the present module time. -/
def parkedByTrip : State :=
  { State.reset with
    pwr := { state := 3, ready := true }
    ctl := { state := 1, stopCause := 2, gdN := true } }

/-- Refutes O52: a GD_FAULT at the module time of the trip that parked the engine (R281) does more than note the input. It takes a free value, by
which the engine enters FAULT or stays parked. -/
theorem not_engineFaultsAndStopsEndTheDrive : ¬ Obligations.EngineFaultsAndStopsEndTheDrive := by
  intro h
  obtain ⟨-, atRest, -⟩ := h parkedByTrip rfl rfl (by decide)
  obtain ⟨⟨t, hexec, hnoted, -⟩, -⟩ := atRest rfl (by decide)
  have hfault : still t = still (faultEngine 1 3 (modCtl (fun c => { c with gdN := false }) parkedByTrip)) := still_of_act hexec
  have htaken : t.fresh = 1 := (congrArg State.fresh hfault :).trans (faultEngine_takes rfl rfl rfl 1 3)
  have hkept : t.fresh = 0 := (congrArg State.fresh hnoted :)
  exact absurd (htaken.symm.trans hkept) (by decide)

/-! ### SELECT gained while the engine is parked (R298, R426) -/

theorem notice_ev (cls typ : Nat) (b : Bytes) (s : State) : (notice cls typ b s).ev = s.ev :=
  forAll_keeps s State.ev _ _ fun _ t => by unfold noticeTo; dsimp only; split <;> rfl

theorem pairChange_ev (how : Nat) (s : State) : (pairChange how s).ev = s.ev := notice_ev ..

/-- Flags of other blocks do not touch a block. -/
theorem event_raise_ne {e k : Nat} (hk : k ≠ e) (hx : k ≠ 0x13) (n : Nat) (s : State) : (raise e n s).event k = s.event k := by
  by_cases hp : eventPresent s e = true
  · rw [event_raise s e n k hx hp, event_setFlag_ne s e n k hk]
  · unfold raise
    rw [if_pos (by simpa using hp)]

/-- The check of the conditions at the end of a command reports in PWR alone. -/
theorem event_of_act {f : State → State} {s t : State} (h : act f s = .next t) {k : Nat} (hk : k ≠ 0x01) (hx : k ≠ 0x13) :
    t.event k = (f { s with out := [] }).event k := by
  obtain rfl := Host.Outcome.next.inj h
  change (condCheck (f { s with out := [] })).event k = _
  unfold condCheck
  split
  · rfl
  · rw [noticeState, State.event, notice_ev]
    exact event_raise_ne hk hx 1 _

/-- A raised flag of a present block stands in its block. -/
theorem flag_raise {s : State} {e n : Nat} (hx : e ≠ 0x13) (hlen : e < s.ev.length) (hp : eventPresent s e = true) (hn : n < 16) :
    ((raise e n s).event e).flags.getLsbD n = true := by
  rw [event_raise s e n e hx hp, event_setFlag_self hlen, Ev.mark_flags _ hn]
  simp

/-- The module has SELECT; the engine, the host's values and the sequence are still to be taken over. -/
def selectTaken (s : State) : State :=
  insChange (modPai fun p => { p with
    select := true, selectValid := true, everSelect := true, follower := false, takeEpoch := true, selectCnt := satAdd p.selectCnt 1 })
    (modArb (fun a => { a with holder := role s, next := 0 }) s)

/-- What the module takes over from the holder's last STATUS (R426). -/
def takeOver (s : State) : State :=
  match s.pai.peer with
  | some f => takeSequence f (takeEngine (takeHost f s))
  | none => takeEngine s

/-- The planner and the commands to units as SELECT gained leaves them. -/
def unitsAsked (s : State) : State :=
  let s := modBal (fun b => { b with planNow := true, sent := [] }) (stopAllPorts s)
  { s with prt := s.prt.map fun x => { x with pos := x.pos.map fun y => { y with cmd := none } } }

theorem selectGainedFx_eq {s : State} (h : s.pai.select = false) : selectGainedFx s =
    pairChange (if s.pai.everSelect then 1 else 0) (raise 0x10 0 (unitsAsked (takeOver (selectTaken s)))) :=
  if_neg (Bool.eq_false_iff.mp h)

theorem takeEngine_of_ne {s : State} (h : s.ctl.state ≠ 5) : takeEngine s = s := if_pos (bne_iff_ne.mpr h)

/-- A CONNECT_STATE that is the holder's already moves nothing. -/
theorem takeSequence_same {f : PeerStatus} {s : State} (h : f.connect = s.pro.conn) : takeSequence f s = s := by
  have hconn : setConn f.connect s = s := if_pos h.symm
  unfold takeSequence
  split
  · rfl
  · rename_i hown
    obtain ⟨-, hrest⟩ : tripped s = false ∧ (¬s.pro.conn = 0 → s.pro.conn = 5) := by simpa using hown
    dsimp only
    rw [hconn, h, if_pos (by simpa using or_iff_not_imp_left.mpr hrest)]

/-- A last STATUS with SRC 0 and the string open. -/
def openHostStatus : PeerStatus :=
  { instant := 0, role := 1, select := true, health := true, power := 3, tripped := false, connect := 0, openActive := false, locked := false
    channels := 0, ctlState := 0, src := 0, bankReq := 0, why := 0, spHost := 0, upd := 0, out := 0, lastDir := 0, tZero := 0, u1 := 0
    u2 := 0, u3 := 0, bal := 0, d := 0, iSel := 0, rxStamp := 0, need := 0, firstInstant := 0, epochOk := 0, mapCrc := 0, ring := 0 }

/-- Module B of a pair in RUN without SELECT, its engine parked on a pulse source in fallback. -/
def standbyInFallback : State :=
  { State.reset with
    pwr := { state := 3, ready := true }
    cfg := { pair := some ⟨2, 0, 0, 0⟩ }
    ctl := { state := 1, src := 1, fallback := true }
    pai := { peer := some openHostStatus } }

/-- SRC 0 leaves fallback (R298): the host's values are taken over with CHANTER_BACK. -/
theorem takeHost_leavesFallback : takeHost openHostStatus (selectTaken standbyInFallback) =
    raise 0x0C 8 (modCtl (fun c => { c with spHost := 0, spRun := true, src := 0, fallback := false }) (selectTaken standbyInFallback)) := rfl

theorem selectGained_raisesChanterBack {t : State} (h : exec .selectGained standbyInFallback = .next t) :
    (t.event 0x0C).flags.getLsbD 8 = true := by
  have hover : takeOver (selectTaken standbyInFallback) = takeHost openHostStatus (selectTaken standbyInFallback) := by
    change takeSequence openHostStatus (takeEngine (takeHost openHostStatus (selectTaken standbyInFallback))) = _
    rw [takeHost_leavesFallback, takeEngine_of_ne (by rw [raise_ctl]; decide), takeSequence_same (by rw [raise_pro]; rfl)]
  have hgained : t.event 0x0C = (raise 0x10 0 (unitsAsked (takeOver (selectTaken standbyInFallback)))).event 0x0C := by
    have hact : act (fun s => if peerRuns s then selectGainedFx s else s) standbyInFallback = .next t := h
    have hruns : peerRuns { standbyInFallback with out := [] } = true := rfl
    rw [event_of_act hact (by decide) (by decide), hruns, if_pos rfl, selectGainedFx_eq rfl, State.event, pairChange_ev]
    rfl
  have hev : (selectTaken standbyInFallback).ev = List.replicate 68 {} := rfl
  rw [hgained, event_raise_ne (by decide) (by decide), hover, takeHost_leavesFallback]
  exact flag_raise (e := 0x0C) (n := 8) (by decide) (by rw [modCtl_ev, hev, List.length_replicate]; decide) rfl (by decide)

/-- Refutes O56: a module whose engine is parked in fallback takes over SRC 0 and leaves fallback with CHANTER_BACK (R298), so SELECT_GAINED is not
its one flag. -/
theorem not_selectMovesThePair : ¬ Obligations.SelectMovesThePair := by
  intro h
  obtain ⟨-, -, moves⟩ := h standbyInFallback
  obtain ⟨-, gained, -⟩ := moves rfl rfl
  obtain ⟨t, hexec, -, -, -, -, -, -, -, -, -, -, -, -, same, -⟩ := gained rfl
  obtain ⟨-, -, hone, -⟩ := same fun f hf => .inr (Option.some.inj hf ▸ rfl)
  have hflag := selectGained_raisesChanterBack hexec
  rw [hone 0x0C (by decide)] at hflag
  exact absurd hflag (by decide)

end Sys2Proof.Machine
end

section
/-! LOOP_UPDATE (R274, R280, R283 to R302): what an update measures, limits and faults, and the free value that the statement about it
turns on (R281). -/

namespace Sys2Proof.Machine

open Sys2Proof

/-! ### What stays beside the loop -/

/-- The parts that an update reads or leaves: NV, factory data, the configurations, PRO, the timebase and channels. -/
def besideLoop (s : State) : State := { nv := s.nv, fac := s.fac, cfg := s.cfg, cfgCtl := s.cfgCtl, pro := s.pro, smp := s.smp }

theorem besideLoop_of_still {s t : State} (h : still t = still s) : besideLoop t = besideLoop s := (congrArg besideLoop h :)
theorem besideLoop_of_sansHost {s t : State} (h : sansHost t = sansHost s) : besideLoop t = besideLoop s := (congrArg besideLoop h :)

theorem besideLoop_modCtl (f : Ctl → Ctl) (s : State) : besideLoop (modCtl f s) = besideLoop s := rfl
theorem pro_of_besideLoop {s t : State} (h : besideLoop t = besideLoop s) : t.pro = s.pro := (congrArg State.pro h :)
theorem smp_of_besideLoop {s t : State} (h : besideLoop t = besideLoop s) : t.smp = s.smp := (congrArg State.smp h :)
theorem cfgCtl_of_besideLoop {s t : State} (h : besideLoop t = besideLoop s) : t.cfgCtl = s.cfgCtl := (congrArg State.cfgCtl h :)

/-! ### The sums of the period (R274, R296) -/

/-- The engine less what the analogue input moves. -/
def sansAnalog (c : Ctl) : Ctl := { c with fallback := false, heldCh := 0, validRun := 0, chVolt := 0, analogOk := false, sAna := 0 }

/-- The results of an update period. -/
def periodResults (c : Ctl) : Ctl :=
  { time := c.time, gdN := c.gdN, i0 := c.i0, i1 := c.i1, vBus := c.vBus, vStr := c.vStr, meas := c.meas }

/-- The state less what the analogue input and reporting move. -/
def besideAnalog (s : State) : State := { still s with ctl := sansAnalog s.ctl }

theorem besideAnalog_of_still {s t : State} (h : still t = still s) : besideAnalog t = besideAnalog s :=
  congrArg (fun u => { u with ctl := sansAnalog u.ctl }) h

theorem besideAnalog_fallbackFx (s : State) : besideAnalog (fallbackFx s) = besideAnalog s := by
  unfold fallbackFx
  split
  · rfl
  · exact (besideAnalog_of_still (still_raise _ _ _)).trans rfl

theorem besideAnalog_analogFx (x : LoopObs) (s : State) : besideAnalog (analogFx x s) = besideAnalog s := by
  have hconverts (c : Bool) : besideAnalog (if c then fallbackFx s else s) = besideAnalog s := by
    cases c
    · rfl
    · exact besideAnalog_fallbackFx s
  unfold analogFx
  split
  · rfl
  · exact (rfl : besideAnalog _ = besideAnalog (if x.chOver && srcAnalog (srcNow s) then fallbackFx s else s)).trans (hconverts _)

/-- The state once the results of the period are taken. -/
def periodTaken (x : LoopObs) (s : State) : State := analogFx x (measureFx x (updateTime s) s)

/-- The engine with the results of the period. -/
def measuredCtl (x : LoopObs) (s : State) : Ctl := (measureFx x (updateTime s) s).ctl

theorem loopUpdateFx_eq {s : State} (h : s.ctl.cfgDue = false) (x : LoopObs) : loopUpdateFx x s =
    if 3 ≤ (shadowCheck (periodTaken x s)).ctl.busRun then faultEngine 4 5 (shadowCheck (periodTaken x s))
    else if loopDue (updateTime s) (shadowCheck (periodTaken x s)) then
      loopStep s.ctl.time (updateTime s) (bankOf s.cfgCtl s.ctl.bank) (shadowCheck (periodTaken x s))
    else shadowCheck (periodTaken x s) := by
  have htake : takeCtlCfg s = s := by
    unfold takeCtlCfg
    rw [h]
    rfl
  unfold loopUpdateFx
  dsimp only
  rw [htake]
  rfl

/-- Neither PARKED with no shadow to enter nor a driving engine is the shadow loop's matter. -/
theorem shadowCheck_apart {s : State} (h : s.ctl.state = 1 ∧ standby s = false ∨ s.ctl.state = 3) : shadowCheck s = s := by
  unfold shadowCheck
  rcases h with ⟨hstate, hstandby⟩ | hstate
  · have hnot : shadowOk s = false := by
      unfold shadowOk
      unfold standby at hstandby
      simp only [hstandby, Bool.false_and]
    simp [hstate, hnot]
  · simp [hstate]

/-! ### The steps of one update -/

theorem limitsFx_ctl (s : State) : ∃ a b c d, (limitsFx s).ctl = { s.ctl with limCh := a, limSrcCh := b, limDis := c, limSrcDis := d } :=
  ⟨_, _, _, _, rfl⟩

theorem resync_of_ne {s : State} (h : s.ctl.state ≠ 5) : resync s = s := by
  unfold resync
  split
  · rw [if_pos (by simp [h])]
  · rfl

/-- A step of the limiter from `a`: the distance `d` is not negative, the step is `m` at most. -/
theorem natAbs_signI_mul_min {d m : Int} (hd : 0 ≤ d) (g : Int) : (signI g * min d m).natAbs ≤ m.natAbs := by
  unfold signI
  split
  · omega
  · split <;> omega

/-- The limiter from `a` towards `g`, by at most `rise` or `fall` (R299). -/
def slewed (rise fall a g : Int) : Int :=
  if a.natAbs < g.natAbs then a + signI g * min ((g.natAbs : Int) - a.natAbs) rise
  else a - signI a * min ((a.natAbs : Int) - g.natAbs) fall

theorem natAbs_slewed_sub (rise fall a g : Int) : (slewed rise fall a g - a).natAbs ≤ max rise.natAbs fall.natAbs := by
  unfold slewed
  split
  · rw [add_sub_cancel_left]
    exact le_max_of_le_left (natAbs_signI_mul_min (by omega) g)
  · rw [sub_sub_cancel_left, Int.natAbs_neg]
    exact le_max_of_le_right (natAbs_signI_mul_min (by omega) a)

/-- The limiter moves at most one slew step. -/
theorem limiterFx_ctl (s : State) : ∃ v dir tz out, (limiterFx s).ctl = { s.ctl with srcVal := v, lastDir := dir, tZero := tz, out := out } ∧
    (out - s.ctl.out).natAbs ≤ max (stepRise s).natAbs (stepFall s).natAbs :=
  ⟨_, _, _, _, rfl, natAbs_slewed_sub (stepRise s) (stepFall s) s.ctl.out _⟩

theorem tonesFx_ctl (prev now : Nat) (s : State) : ∃ l, (tonesFx prev now s).1 = modCtl (fun c => { c with tones := l }) s := by
  unfold tonesFx
  dsimp only
  split
  · exact ⟨s.ctl.tones, rfl⟩
  · exact ⟨_, rfl⟩

theorem swapFx_ctl (old new : Bank) (b : Nat) (seed : Bool) (s : State) :
    (∃ u1 u2 u3, (swapFx old new b seed s).ctl = { s.ctl with u1 := u1, u2 := u2, u3 := u3, bank := b }) ∧
      besideLoop (swapFx old new b seed s) = besideLoop s := by
  unfold swapFx
  split
  · rename_i hsame
    have hb : b = s.ctl.bank := by simp_all
    exact ⟨⟨s.ctl.u1, s.ctl.u2, s.ctl.u3, by rw [hb]⟩, rfl⟩
  · dsimp only
    rw [raise_ctl, besideLoop_of_still (still_raise _ _ _)]
    cases seed
    · exact ⟨⟨_, _, _, rfl⟩, rfl⟩
    · simp only [if_true]
      rw [modCtl_ctl, raiseIf_ctl]
      exact ⟨⟨_, _, _, rfl⟩, (besideLoop_of_still (still_raiseIf _ _ _ _) :)⟩

/-- The output of the compensator lies within its bank's bounds (R286). -/
theorem compensate_ctl (k : Bank) (r : Int) (s : State) : ∃ e1 e2 e3 u1 u2 u3 lo hi u, compensate k r s = modCtl (fun c => { c with
    e1 := e1, e2 := e2, e3 := e3, u1 := u1, u2 := u2, u3 := u3, clampLo := lo, clampHi := hi, u := u }) s ∧
    (k.uMin ≤ k.uMax → k.uMin ≤ u ∧ u ≤ k.uMax) := by
  refine ⟨_, _, _, _, _, _, _, _, _, rfl, fun h => ?_⟩
  omega

/-- The duties lie within DMIN and DMAX (R287). -/
theorem dutiesFx_ctl (first : Bool) (r : Int) (s : State) :
    (∃ r1 d bal p0 p1 d0 d1, (dutiesFx first r s).ctl = { s.ctl with
      ref := r, r1 := r1, duty := d, bal := bal, p0 := p0, p1 := p1, d0 := d0, d1 := d1, started := true, updCnt := satAdd s.ctl.updCnt 1 } ∧
      (s.cfgCtl.dMin ≤ s.cfgCtl.dMax → s.cfgCtl.dMin ≤ d0 ∧ d0 ≤ s.cfgCtl.dMax ∧ s.cfgCtl.dMin ≤ d1 ∧ d1 ≤ s.cfgCtl.dMax)) ∧
      besideLoop (dutiesFx first r s) = besideLoop s := by
  have hquot (num : Int) (u : State) : ∃ q n, ffQuot num u = (q, { u with fresh := n }) := by
    unfold ffQuot
    split
    · exact ⟨_, _, rfl⟩
    · exact ⟨_, u.fresh, rfl⟩
  unfold dutiesFx
  dsimp only
  obtain ⟨q0, n, hq0⟩ := hquot (s.ctl.vStr * 16777216) s
  rw [hq0]
  dsimp only
  obtain ⟨q1, m, hq1⟩ := hquot ((r - s.ctl.r1) * s.cfgCtl.ffSlewK * 256) { s with fresh := n }
  rw [hq1]
  refine ⟨⟨_, _, _, _, _, _, _, rfl, fun h => ?_⟩, rfl⟩
  unfold clampI
  omega

theorem keepOwn_of_ne {s : State} (h : s.ctl.state ≠ 5) : keepOwn s = s := if_pos (bne_iff_ne.mpr h)

theorem produce_keeps (itype occ : Nat) (content : Queue → List Quad) (s : State) :
    (produce itype occ content s).ctl = s.ctl ∧ besideLoop (produce itype occ content s) = besideLoop s := by
  have hitem (i : Nat) (l : List Quad) (t : State) : (appendItem i l t).ctl = t.ctl ∧ besideLoop (appendItem i l t) = besideLoop t :=
    ⟨raiseIf_ctl .., (besideLoop_of_still (still_raiseIf _ _ _ _)).trans rfl⟩
  refine ⟨forAll_keeps s State.ctl _ _ fun i t => ?_, forAll_keeps s besideLoop _ _ fun i t => ?_⟩ <;> dsimp only <;> split
  · exact (hitem ..).1
  · rfl
  · exact (hitem ..).2
  · rfl

/-- Neither the park rule of STOPPING nor that of RAMP_DOWN judges an engine in RUNNING. -/
theorem parkRule_running {s : State} (hstate : s.ctl.state = 3) (hconn : s.pro.conn ≠ 6) :
    parkRule s = modCtl (fun c => { c with quietRun := 0 }) s := by
  unfold parkRule
  simp [hstate, hconn]

/-! ### One update of a driving engine (R283) -/

/-- The limiter has moved and the tones are summed: the state and the sum. -/
def aimed (prev t : Nat) (s : State) : State × Int := tonesFx prev t (limiterFx (resync (limitsFx s)))

/-- The reference of the update within its limits (R299, R302). -/
def referenceAt (prev t : Nat) (s : State) : Int :=
  min (max ((aimed prev t s).1.ctl.out + (aimed prev t s).2) (-((aimed prev t s).1.ctl.limDis : Int))) (aimed prev t s).1.ctl.limCh

/-- The state once the reference is set and a clipped tone is marked. -/
def referred (prev t : Nat) (s : State) : State :=
  if referenceAt prev t s = (aimed prev t s).1.ctl.out + (aimed prev t s).2 then (aimed prev t s).1
  else modCtl (fun c => { c with clipAt := if (aimed prev t s).1.ctl.tones.isEmpty then none else some t }) (aimed prev t s).1

/-- Bank, compensator and duties of an update at reference `r`. -/
def driveStep (old : Bank) (r : Int) (s : State) : State :=
  let b := bankWanted s
  let s := swapFx old (bankOf s.cfgCtl b) b (s.ctl.state != 2) s
  let k := bankOf s.cfgCtl b
  let first := s.ctl.state == 2 && !s.ctl.started
  keepOwn (dutiesFx first r (if first then firstUpdate k s else compensate k r s))

/-- The end of an update: its trace and the park rule. -/
def concluded (t : Nat) (s : State) : State := parkRule (produce 0x08 s.ctl.updCnt.toNat (fun _ => traceWords t s) s)

theorem loopStep_eq (prev t : Nat) (old : Bank) (s : State) :
    loopStep prev t old s = concluded t (driveStep old (referenceAt prev t s) (referred prev t s)) := by
  unfold loopStep concluded driveStep referred referenceAt aimed
  rfl

/-- Up to the reference an update moves the limits, the limiter and the tones. -/
theorem referred_ctl {s : State} (hstate : s.ctl.state = 3) (prev t : Nat) :
    (∃ a b c d v dir tz out l clip, (referred prev t s).ctl = { s.ctl with
      limCh := a, limSrcCh := b, limDis := c, limSrcDis := d, srcVal := v, lastDir := dir, tZero := tz, out := out, tones := l, clipAt := clip } ∧
      (out - s.ctl.out).natAbs ≤ max (stepRise s).natAbs (stepFall s).natAbs ∧
      -(c : Int) ≤ referenceAt prev t s ∧ referenceAt prev t s ≤ a) ∧ besideLoop (referred prev t s) = besideLoop s := by
  have hresync : resync (limitsFx s) = limitsFx s := resync_of_ne (by rw [show (limitsFx s).ctl.state = s.ctl.state from rfl, hstate]; decide)
  obtain ⟨v, dir, tz, out, hout, hslew⟩ := limiterFx_ctl (limitsFx s)
  obtain ⟨l, htones⟩ := tonesFx_ctl prev t (limiterFx (limitsFx s))
  have haimed : (aimed prev t s).1 = modCtl (fun c => { c with tones := l }) (limiterFx (limitsFx s)) := by rw [← htones, ← hresync]; rfl
  obtain ⟨a, b, c, d, hlim⟩ := limitsFx_ctl s
  have hctl : (aimed prev t s).1.ctl = { s.ctl with
      limCh := a, limSrcCh := b, limDis := c, limSrcDis := d, srcVal := v, lastDir := dir, tZero := tz, out := out, tones := l } := by
    rw [haimed, modCtl_ctl, hout, hlim]
  have hbeside : besideLoop (aimed prev t s).1 = besideLoop s := by rw [haimed]; rfl
  have hslew : (out - s.ctl.out).natAbs ≤ max (stepRise s).natAbs (stepFall s).natAbs := hslew
  have hbounds : -(c : Int) ≤ referenceAt prev t s ∧ referenceAt prev t s ≤ a := by
    unfold referenceAt
    rw [hctl]
    dsimp only
    omega
  unfold referred
  split
  · exact ⟨⟨a, b, c, d, v, dir, tz, out, l, s.ctl.clipAt, hctl, hslew, hbounds⟩, hbeside⟩
  · exact ⟨⟨a, b, c, d, v, dir, tz, out, l, _, by rw [modCtl_ctl, hctl], hslew, hbounds⟩, hbeside⟩

/-- From the reference on an update moves bank, compensator and duties; the bank is the one asked for. -/
theorem driven_ctl {s : State} (hstate : s.ctl.state = 3) (old : Bank) (r : Int) :
    (∃ e1 e2 e3 u1 u2 u3 lo hi u r1 d bal p0 p1 d0 d1, (driveStep old r s).ctl = { s.ctl with
      bank := s.ctl.bankReq, e1 := e1, e2 := e2, e3 := e3, u1 := u1, u2 := u2, u3 := u3, clampLo := lo, clampHi := hi, u := u
      ref := r, r1 := r1, duty := d, bal := bal, p0 := p0, p1 := p1, d0 := d0, d1 := d1, started := true, updCnt := satAdd s.ctl.updCnt 1 } ∧
      ((bankOf s.cfgCtl s.ctl.bankReq).uMin ≤ (bankOf s.cfgCtl s.ctl.bankReq).uMax →
        (bankOf s.cfgCtl s.ctl.bankReq).uMin ≤ u ∧ u ≤ (bankOf s.cfgCtl s.ctl.bankReq).uMax) ∧
      (s.cfgCtl.dMin ≤ s.cfgCtl.dMax → s.cfgCtl.dMin ≤ d0 ∧ d0 ≤ s.cfgCtl.dMax ∧ s.cfgCtl.dMin ≤ d1 ∧ d1 ≤ s.cfgCtl.dMax)) ∧
      besideLoop (driveStep old r s) = besideLoop s := by
  have hwanted : bankWanted s = s.ctl.bankReq := by
    unfold bankWanted shadowOf
    simp [hstate]
  obtain ⟨⟨w1, w2, w3, hswap⟩, hswapBeside⟩ := swapFx_ctl old (bankOf s.cfgCtl s.ctl.bankReq) s.ctl.bankReq (s.ctl.state != 2) s
  unfold driveStep
  dsimp only
  rw [hwanted]
  set v := swapFx old (bankOf s.cfgCtl s.ctl.bankReq) s.ctl.bankReq (s.ctl.state != 2) s
  have hcfg : v.cfgCtl = s.cfgCtl := cfgCtl_of_besideLoop hswapBeside
  have hfirst : (v.ctl.state == 2 && !v.ctl.started) = false := by rw [hswap]; simp [hstate]
  rw [hfirst, hcfg]
  obtain ⟨e1, e2, e3, u1, u2, u3, lo, hi, u, hcomp, hout⟩ := compensate_ctl (bankOf s.cfgCtl s.ctl.bankReq) r v
  rw [if_neg (by decide), hcomp]
  set w := modCtl (fun c => { c with
    e1 := e1, e2 := e2, e3 := e3, u1 := u1, u2 := u2, u3 := u3, clampLo := lo, clampHi := hi, u := u }) v with hw
  obtain ⟨⟨r1, d, bal, p0, p1, d0, d1, hduties, hrange⟩, hdutiesBeside⟩ := dutiesFx_ctl false r w
  have hwctl : w.ctl = { s.ctl with
      bank := s.ctl.bankReq, e1 := e1, e2 := e2, e3 := e3, u1 := u1, u2 := u2, u3 := u3, clampLo := lo, clampHi := hi, u := u } := by
    rw [hw, modCtl_ctl, hswap]
  have hwcfg : w.cfgCtl = s.cfgCtl := hcfg
  rw [hwctl] at hduties
  rw [hwcfg] at hrange
  have hdrives : (dutiesFx false r w).ctl.state = 3 := (congrArg Ctl.state hduties).trans hstate
  rw [keepOwn_of_ne (by rw [hdrives]; decide)]
  exact ⟨⟨e1, e2, e3, u1, u2, u3, lo, hi, u, r1, d, bal, p0, p1, d0, d1, hduties, hout, hrange⟩, hdutiesBeside.trans hswapBeside⟩

theorem concluded_running {s : State} (hstate : s.ctl.state = 3) (hconn : s.pro.conn ≠ 6) (t : Nat) :
    (concluded t s).ctl = { s.ctl with quietRun := 0 } ∧ besideLoop (concluded t s) = besideLoop s := by
  obtain ⟨hctl, hbeside⟩ := produce_keeps 0x08 s.ctl.updCnt.toNat (fun _ => traceWords t s) s
  have hpro : (produce 0x08 s.ctl.updCnt.toNat (fun _ => traceWords t s) s).pro = s.pro := pro_of_besideLoop hbeside
  unfold concluded
  rw [parkRule_running ((congrArg Ctl.state hctl).trans hstate) (by rwa [hpro]), modCtl_ctl, hctl]
  exact ⟨rfl, (besideLoop_modCtl _ _).trans hbeside⟩

/-- What an update in RUNNING brings (R283, R286, R287, R299): the parts that the loop moves, and their limits. -/
structure Updated (s t : State) : Prop where
  state : t.ctl.state = s.ctl.state
  enable : t.ctl.enable = s.ctl.enable
  results : periodResults t.ctl = periodResults s.ctl
  count : t.ctl.updCnt = satAdd s.ctl.updCnt 1
  bank : t.ctl.bank = s.ctl.bankReq
  refLow : -(t.ctl.limDis : Int) ≤ t.ctl.ref
  refHigh : t.ctl.ref ≤ t.ctl.limCh
  slew : (t.ctl.out - s.ctl.out).natAbs ≤ max (stepRise s).natAbs (stepFall s).natAbs
  output : (bankOf s.cfgCtl s.ctl.bankReq).uMin ≤ (bankOf s.cfgCtl s.ctl.bankReq).uMax →
    (bankOf s.cfgCtl s.ctl.bankReq).uMin ≤ t.ctl.u ∧ t.ctl.u ≤ (bankOf s.cfgCtl s.ctl.bankReq).uMax
  duties : s.cfgCtl.dMin ≤ s.cfgCtl.dMax → s.cfgCtl.dMin ≤ t.ctl.d0 ∧ t.ctl.d0 ≤ s.cfgCtl.dMax ∧ s.cfgCtl.dMin ≤ t.ctl.d1 ∧
    t.ctl.d1 ≤ s.cfgCtl.dMax
  beside : besideLoop t = besideLoop s

theorem loopStep_running {s : State} (hstate : s.ctl.state = 3) (hconn : s.pro.conn ≠ 6) (prev t : Nat) (old : Bank) :
    Updated s (loopStep prev t old s) := by
  rw [loopStep_eq]
  obtain ⟨⟨a, b, c, d, v, dir, tz, out, l, clip, href, hslew, hlow, hhigh⟩, hrefBeside⟩ := referred_ctl hstate prev t
  set u := referred prev t s
  set r := referenceAt prev t s
  obtain ⟨⟨e1, e2, e3, u1, u2, u3, lo, hi, y, r1, duty, bal, p0, p1, d0, d1, hdrive, hout, hduties⟩, hdriveBeside⟩ :=
    driven_ctl (s := u) (by rw [href]; exact hstate) old r
  have hcfg : u.cfgCtl = s.cfgCtl := cfgCtl_of_besideLoop hrefBeside
  have hpro : (driveStep old r u).pro = s.pro := pro_of_besideLoop (hdriveBeside.trans hrefBeside)
  rw [href, hcfg] at hout
  rw [hcfg] at hduties
  rw [href] at hdrive
  obtain ⟨hend, hendBeside⟩ := concluded_running (s := driveStep old r u) ((congrArg Ctl.state hdrive).trans hstate) (by rwa [hpro]) t
  rw [hdrive] at hend
  set w := concluded t (driveStep old r u)
  have hbeside : besideLoop w = besideLoop s := hendBeside.trans (hdriveBeside.trans hrefBeside)
  exact {
    state := (congrArg Ctl.state hend :), enable := (congrArg Ctl.enable hend :), results := (congrArg periodResults hend :)
    count := (congrArg Ctl.updCnt hend :)
    bank := (congrArg Ctl.bank hend :), refLow := by rw [hend]; exact hlow, refHigh := by rw [hend]; exact hhigh
    slew := by rw [hend]; exact hslew, output := by rw [hend]; exact hout, duties := by rw [hend]; exact hduties
    beside := hbeside }

/-! ### What an update leaves of the period -/

theorem besideAnalog_periodTaken (x : LoopObs) (s : State) : besideAnalog (periodTaken x s) = besideAnalog (measureFx x (updateTime s) s) :=
  besideAnalog_analogFx x _

/-- The engine takes the results and keeps the rest, the analogue input apart. -/
theorem sansAnalog_periodTaken (x : LoopObs) (s : State) : sansAnalog (periodTaken x s).ctl = sansAnalog (measuredCtl x s) :=
  (congrArg State.ctl (besideAnalog_periodTaken x s) :)

theorem besideLoop_periodTaken (x : LoopObs) (s : State) : besideLoop (periodTaken x s) = besideLoop s :=
  (congrArg besideLoop (besideAnalog_periodTaken x s) :)

theorem pai_periodTaken (x : LoopObs) (s : State) : (periodTaken x s).pai = s.pai := (congrArg State.pai (besideAnalog_periodTaken x s) :)

theorem fresh_periodTaken (x : LoopObs) (s : State) : (periodTaken x s).fresh = s.fresh :=
  (congrArg State.fresh (besideAnalog_periodTaken x s) :)

theorem kept_of_sansAnalog {α : Type} (f : Ctl → α) (hf : ∀ c, f (sansAnalog c) = f c) (x : LoopObs) (s : State) :
    f (periodTaken x s).ctl = f (measuredCtl x s) := by
  rw [← hf, sansAnalog_periodTaken, hf]

/-- An update ends as its effect left the state, but for what reporting moves. -/
theorem loopUpdate_next {s : State} (hruns : ctlRuns s = true) (hdue : s.ctl.cfgDue = false) (hcfg : loopCfg s = true) (x : LoopObs) :
    ∃ t, exec (.loopUpdate x) s = .next t ∧ t.ctl = (loopUpdateFx x { s with out := [] }).ctl ∧
      besideLoop t = besideLoop (loopUpdateFx x { s with out := [] }) := by
  obtain ⟨t, hexec, hstill⟩ := act_next
    (fun s => if ctlRuns s && loopCfg { s with cfgCtl := if s.ctl.cfgDue then s.cfg else s.cfgCtl } then loopUpdateFx x s else s) s
  suffices hfx : still t = still (loopUpdateFx x { s with out := [] }) from
    ⟨t, hexec, of_still State.ctl (fun _ => rfl) hfx, besideLoop_of_still hfx⟩
  refine hstill.trans (congrArg still (if_pos ?_))
  have htaken : loopCfg { s with cfgCtl := if s.ctl.cfgDue then s.cfg else s.cfgCtl } = true := by rw [hdue]; exact hcfg
  exact Bool.and_eq_true_iff.mpr ⟨hruns, htaken⟩

/-- The results in the words of the obligation. -/
theorem measured_of {s t : State} {x : LoopObs} (hresults : periodResults t.ctl = periodResults (measuredCtl x s))
    (hbeside : besideLoop t = besideLoop s) :
    t.ctl.time = updateTime s ∧ t.ctl.gdN = x.gdN ∧ t.ctl.i0 = fastValue s x.ci0 11 13 ∧ t.ctl.i1 = fastValue s x.ci1 12 14 ∧
      t.ctl.vBus = fastValue s x.cv0 15 17 ∧ t.ctl.vStr = fastValue s x.cv1 16 18 ∧
      t.ctl.meas = fastValue s x.ci0 11 13 + fastValue s x.ci1 12 14 ∧ t.nv = s.nv ∧ t.fac = s.fac ∧ t.cfg = s.cfg ∧ t.pro = s.pro ∧
      t.smp = s.smp :=
  ⟨(congrArg Ctl.time hresults :), (congrArg Ctl.gdN hresults :), (congrArg Ctl.i0 hresults :), (congrArg Ctl.i1 hresults :),
    (congrArg Ctl.vBus hresults :), (congrArg Ctl.vStr hresults :), (congrArg Ctl.meas hresults :), (congrArg State.nv hbeside :),
    (congrArg State.fac hbeside :), (congrArg State.cfg hbeside :), pro_of_besideLoop hbeside, (congrArg State.smp hbeside :)⟩

/-! ### The third bad bus voltage (R280, R281) -/

theorem haltEngine_apart {s : State} (hstate : s.ctl.state ≠ 5) {st : Nat} (hst : st ≠ 5) (cause fault : Nat) :
    ∃ c, haltEngine st cause fault s = modCtl (fun _ => c) s ∧ periodResults c = periodResults s.ctl ∧ c.state = st ∧ c.stopCause = cause ∧
      c.fault = fault ∧ c.enable = false ∧ c.pwm0 = none ∧ c.pwm1 = none := by
  unfold haltEngine srcWatch
  have hsame (f : Ctl → Ctl) (hf : (f s.ctl).state = st) (hsrc : (f s.ctl).src = s.ctl.src) : srcNow (modCtl f s) = srcNow s := by
    unfold srcNow shadowOf
    simp [hf, hst, hstate, hsrc]
  rw [if_pos (hsame _ rfl rfl)]
  exact ⟨_, rfl, rfl, rfl, rfl, rfl, rfl, rfl, rfl⟩

theorem besideLoop_enterFault (s : State) (code flag cause : Nat) : besideLoop (enterFault code flag cause s) = besideLoop s :=
  besideLoop_of_sansHost (by simp [enterFault])

theorem enterFault_ctl (s : State) (code flag cause : Nat) : (enterFault code flag cause s).ctl = (haltEngine 6 cause code s).ctl := by
  simp [enterFault]

theorem stageOff_congr {s t : State} (h : t.ctl = s.ctl) : stageOff t = stageOff s := by
  unfold stageOff
  rw [h]

/-- In FAULT with the stage off, the results of the period kept. -/
theorem enterFault_faults {s : State} (hstate : s.ctl.state ≠ 5) (code flag cause : Nat) :
    periodResults (enterFault code flag cause s).ctl = periodResults s.ctl ∧ (enterFault code flag cause s).ctl.state = 6 ∧
      (enterFault code flag cause s).ctl.fault = code ∧ (enterFault code flag cause s).ctl.stopCause = cause ∧
      stageOff (enterFault code flag cause s) = true := by
  obtain ⟨c, hhalt, hresults, hst, hcause, hfault, henable, hpwm0, hpwm1⟩ := haltEngine_apart hstate (show 6 ≠ 5 by decide) cause code
  have hctl : (enterFault code flag cause s).ctl = c := by rw [enterFault_ctl, hhalt, modCtl_ctl]
  unfold stageOff
  rw [hctl]
  exact ⟨hresults, hst, hfault, hcause, by rw [henable, hpwm0, hpwm1]; rfl⟩

/-- A parked engine takes a fault only in the clock cycle of the trip that parked it, which a free value tells: with the value 0 it stays. -/
theorem faultEngine_parked {s : State} (hstate : s.ctl.state = 1) (hfree : (Config.freeWord s.fresh).getLsbD 0 = false) (code flag : Nat) :
    (faultEngine code flag s).ctl = s.ctl ∧ besideLoop (faultEngine code flag s) = besideLoop s := by
  have htold : sameCycle s = (false, { s with fresh := s.fresh + 1 }) := Prod.ext hfree rfl
  unfold faultEngine
  rw [if_neg (by simp [engineRuns, hstate])]
  split
  · rw [htold]
    exact ⟨rfl, rfl⟩
  · exact ⟨rfl, rfl⟩

theorem faultEngine_ofTrip {s : State} (hstate : s.ctl.state = 1) (hcause : s.ctl.stopCause = 2) (hend : s.ctl.endAt = ctlNow s)
    (hfree : (Config.freeWord s.fresh).getLsbD 0 = true) (code flag : Nat) : (faultEngine code flag s).ctl.state = 6 := by
  have htold : sameCycle s = (true, { s with fresh := s.fresh + 1 }) := Prod.ext hfree rfl
  unfold faultEngine
  rw [if_neg (by simp [engineRuns, hstate]), if_pos (by simp [hstate, hcause, hend]), htold]
  exact (enterFault_faults (s := { s with fresh := s.fresh + 1 }) (by simp [hstate]) code flag 2).2.1

theorem faultEngine_running {s : State} (hstate : s.ctl.state = 3) (code flag : Nat) : faultEngine code flag s = enterFault code flag 5 s :=
  if_pos (by simp [engineRuns, hstate])

/-! ### The update by its case -/

theorem state_periodTaken (x : LoopObs) (s : State) : (periodTaken x s).ctl.state = s.ctl.state := kept_of_sansAnalog Ctl.state (fun _ => rfl) x s

theorem busRun_periodTaken (x : LoopObs) (s : State) :
    (periodTaken x s).ctl.busRun = if busOkAt s (fastValue s x.cv0 15 17) then 0 else s.ctl.busRun + 1 :=
  kept_of_sansAnalog Ctl.busRun (fun _ => rfl) x s

theorem results_periodTaken (x : LoopObs) (s : State) : periodResults (periodTaken x s).ctl = periodResults (measuredCtl x s) :=
  kept_of_sansAnalog periodResults (fun _ => rfl) x s

theorem standby_congr {s t : State} (hbeside : besideLoop t = besideLoop s) (hpai : t.pai = s.pai) : standby t = standby s := by
  have hfac : t.fac = s.fac := (congrArg State.fac hbeside :)
  have hcfg : t.cfg = s.cfg := (congrArg State.cfg hbeside :)
  unfold standby inPair hasPai
  rw [hfac, hcfg, hpai]

/-- The slew steps are the configuration's. -/
theorem steps_congr {s t : State} (h : t.cfgCtl = s.cfgCtl) : stepRise t = stepRise s ∧ stepFall t = stepFall s := by
  unfold stepRise stepFall stepOf ctlRated
  rw [h]
  exact ⟨rfl, rfl⟩

/-- Neither PARKED on a module that is no standby nor a driving engine comes near the shadow loop. -/
theorem shadowCheck_periodTaken {s : State} (h : s.ctl.state = 1 ∧ standby s = false ∨ s.ctl.state = 3) (x : LoopObs) :
    shadowCheck (periodTaken x s) = periodTaken x s := by
  have hstandby : standby (periodTaken x s) = standby s := standby_congr (besideLoop_periodTaken x s) (pai_periodTaken x s)
  exact shadowCheck_apart (by rwa [state_periodTaken, hstandby])

theorem loopUpdateFx_third {s : State} (hdue : s.ctl.cfgDue = false) {x : LoopObs} (h : s.ctl.state = 1 ∧ standby s = false ∨ s.ctl.state = 3)
    (hbad : busOkAt s (fastValue s x.cv0 15 17) = false) (hrun : s.ctl.busRun = 2) :
    loopUpdateFx x s = faultEngine 4 5 (periodTaken x s) := by
  rw [loopUpdateFx_eq hdue, shadowCheck_periodTaken h, if_pos (by rw [busRun_periodTaken, hbad, hrun]; decide)]

theorem loopUpdateFx_running {s : State} (hdue : s.ctl.cfgDue = false) {x : LoopObs} (hstate : s.ctl.state = 3)
    (hok : busOkAt s (fastValue s x.cv0 15 17) = true) :
    loopUpdateFx x s = loopStep s.ctl.time (updateTime s) (bankOf s.cfgCtl s.ctl.bank) (periodTaken x s) := by
  rw [loopUpdateFx_eq hdue, shadowCheck_periodTaken (.inr hstate), if_neg (by simp [busRun_periodTaken, hok]),
    if_pos (by simp [loopDue, state_periodTaken, hstate])]

theorem loopUpdateFx_parked {s : State} (hdue : s.ctl.cfgDue = false) {x : LoopObs} (hstate : s.ctl.state = 1) (hstandby : standby s = false)
    (hfree : ∀ n, (Config.freeWord n).getLsbD 0 = false) : 
    (loopUpdateFx x s).ctl = (periodTaken x s).ctl ∧ besideLoop (loopUpdateFx x s) = besideLoop s := by
  have hparked : (periodTaken x s).ctl.state = 1 := (state_periodTaken x s).trans hstate
  rw [loopUpdateFx_eq hdue, shadowCheck_periodTaken (.inl ⟨hstate, hstandby⟩)]
  split
  · obtain ⟨hctl, hbeside⟩ := faultEngine_parked hparked (hfree _) 4 5
    exact ⟨hctl, hbeside.trans (besideLoop_periodTaken x s)⟩
  · rw [if_neg (by simp [loopDue, hparked])]
    exact ⟨rfl, besideLoop_periodTaken x s⟩

/-! ### The three clauses, and the free value -/

/-- With bit 0 of the free values at 0, a parked engine takes the results and nothing else. -/
theorem loopUpdate_parked {s : State} (hruns : ctlRuns s = true) (hdue : s.ctl.cfgDue = false) (hcfg : loopCfg s = true) (x : LoopObs)
    (hstate : s.ctl.state = 1) (hstandby : standby s = false) (hfree : ∀ n, (Config.freeWord n).getLsbD 0 = false) :
    ∃ t, exec (.loopUpdate x) s = .next t ∧ besideLoop t = besideLoop s ∧ sansAnalog t.ctl = sansAnalog (measuredCtl x s) := by
  obtain ⟨t, hexec, hctl, hbeside⟩ := loopUpdate_next hruns hdue hcfg x
  obtain ⟨hfxCtl, hfxBeside⟩ := loopUpdateFx_parked (s := { s with out := [] }) (x := x) hdue hstate hstandby hfree
  exact ⟨t, hexec, hbeside.trans hfxBeside, (congrArg sansAnalog (hctl.trans hfxCtl)).trans (sansAnalog_periodTaken x _)⟩

theorem loopUpdateFx_updates {s : State} (hdue : s.ctl.cfgDue = false) {x : LoopObs} (hstate : s.ctl.state = 3) (hconn : s.pro.conn ≠ 6)
    (hok : busOkAt s (fastValue s x.cv0 15 17) = true) : Updated (periodTaken x s) (loopUpdateFx x s) := by
  rw [loopUpdateFx_running hdue hstate hok]
  exact loopStep_running ((state_periodTaken x s).trans hstate) (by rwa [pro_of_besideLoop (besideLoop_periodTaken x s)]) _ _ _

theorem loopUpdate_running {s : State} (hruns : ctlRuns s = true) (hdue : s.ctl.cfgDue = false) (hcfg : loopCfg s = true) {x : LoopObs}
    (hstate : s.ctl.state = 3) (hconn : s.pro.conn ≠ 6) (hok : busOkAt s (fastValue s x.cv0 15 17) = true) :
    ∃ u v t, exec (.loopUpdate x) s = .next t ∧ sansAnalog u.ctl = sansAnalog (measuredCtl x s) ∧ besideLoop u = besideLoop s ∧
      Updated u v ∧ t.ctl = v.ctl ∧ besideLoop t = besideLoop s := by
  obtain ⟨t, hexec, hctl, hbeside⟩ := loopUpdate_next hruns hdue hcfg x
  have hupdated : Updated (periodTaken x { s with out := [] }) (loopUpdateFx x { s with out := [] }) :=
    loopUpdateFx_updates (s := { s with out := [] }) hdue hstate hconn hok
  have htaken : besideLoop (periodTaken x { s with out := [] }) = besideLoop s := besideLoop_periodTaken x { s with out := [] }
  exact ⟨periodTaken x { s with out := [] }, _, t, hexec, sansAnalog_periodTaken x { s with out := [] }, htaken, hupdated, hctl,
    hbeside.trans (hupdated.beside.trans htaken)⟩

theorem loopUpdate_third {s : State} (hruns : ctlRuns s = true) (hdue : s.ctl.cfgDue = false) (hcfg : loopCfg s = true) {x : LoopObs}
    (hstate : s.ctl.state = 3) (hbad : busOkAt s (fastValue s x.cv0 15 17) = false) (hrun : s.ctl.busRun = 2) :
    ∃ t, exec (.loopUpdate x) s = .next t ∧ periodResults t.ctl = periodResults (measuredCtl x s) ∧ besideLoop t = besideLoop s ∧
      t.ctl.state = 6 ∧ t.ctl.fault = 4 ∧ t.ctl.stopCause = 5 ∧ stageOff t = true := by
  obtain ⟨t, hexec, hctl, hbeside⟩ := loopUpdate_next hruns hdue hcfg x
  have hdrives : (periodTaken x { s with out := [] }).ctl.state = 3 := (state_periodTaken x _).trans hstate
  rw [loopUpdateFx_third (s := { s with out := [] }) hdue (.inr hstate) hbad hrun, faultEngine_running hdrives] at hctl hbeside
  obtain ⟨hresults, hst, hfault, hcause, hoff⟩ := enterFault_faults (s := periodTaken x { s with out := [] }) (by rw [hdrives]; decide) 4 5 5
  rw [stageOff_congr hctl.symm] at hoff
  rw [← hctl] at hresults hst hfault hcause
  exact ⟨t, hexec, hresults.trans (results_periodTaken x _), hbeside.trans ((besideLoop_enterFault ..).trans (besideLoop_periodTaken x _)),
    hst, hfault, hcause, hoff⟩

/-- A CONTROL section with its offsets and gains, and bus limits of 100 V and 2.6 kV. -/
def loopItems : List (Option Int) :=
  some 50000000000000 :: List.replicate 10 none ++ [some 0, some 0, some 1000, some 1000] ++ [some 0, some 0, some 1000, some 1000] ++
    [some 100000000000, some 2600000000000]

/-- An engine that a trip has parked at the time of its next update, after two bad bus voltages; `n` numbers the next free value. -/
def parkedByTripAt (n : Nat) : State :=
  { State.reset with
    fresh := n
    cfgCtl := { hasCtl := true, ctl := loopItems }
    pwr := { state := 3, ready := true }
    smp := { State.reset.smp with timeNs := 10000 }
    ctl := { state := 1, stopCause := 2, endAt := 10000, busRun := 2 } }

/-- Results of 0 in every channel. -/
def noResults : LoopObs :=
  { ci0 := 0, ci1 := 0, cv0 := 0, cv1 := 0, chUv := 0, chOver := false, chIn := true, gdN := true, ciOut := false }

theorem loopCfg_parkedByTripAt (n : Nat) : loopCfg (parkedByTripAt n) = true :=
  (by decide +kernel : loopCfg (parkedByTripAt 0) = true)

theorem updateTime_parkedByTripAt (n : Nat) : updateTime (parkedByTripAt n) = 10000 :=
  (by decide +kernel : updateTime (parkedByTripAt 0) = 10000)

theorem busOkAt_parkedByTripAt (n : Nat) : busOkAt (parkedByTripAt n) (fastValue (parkedByTripAt n) noResults.cv0 15 17) = false :=
  (by decide +kernel : busOkAt (parkedByTripAt 0) (fastValue (parkedByTripAt 0) noResults.cv0 15 17) = false)

/-- The third bad bus voltage comes at the time of the trip: with the value 1 the parked engine enters FAULT. -/
theorem loopUpdateFx_parkedByTripAt {n : Nat} (hfree : (Config.freeWord n).getLsbD 0 = true) :
    (loopUpdateFx noResults (parkedByTripAt n)).ctl.state = 6 := by
  rw [loopUpdateFx_third (s := parkedByTripAt n) (x := noResults) rfl (.inl ⟨rfl, rfl⟩) (busOkAt_parkedByTripAt n) rfl]
  have hfresh : (periodTaken noResults (parkedByTripAt n)).fresh = n := fresh_periodTaken ..
  refine faultEngine_ofTrip (state_periodTaken _ _) (kept_of_sansAnalog Ctl.stopCause (fun _ => rfl) ..) ?_ (by rwa [hfresh]) 4 5
  have hend : (periodTaken noResults (parkedByTripAt n)).ctl.endAt = 10000 := kept_of_sansAnalog Ctl.endAt (fun _ => rfl) ..
  have htime : (periodTaken noResults (parkedByTripAt n)).ctl.time = updateTime (parkedByTripAt n) :=
    kept_of_sansAnalog Ctl.time (fun _ => rfl) ..
  have hnow : (periodTaken noResults (parkedByTripAt n)).smp = (parkedByTripAt n).smp := smp_of_besideLoop (besideLoop_periodTaken ..)
  unfold ctlNow
  rw [hend, htime, hnow, updateTime_parkedByTripAt]
  rfl

/-- O51 stays unsettled: it says that bit 0 of every free value is 0. That bit tells whether a third bad bus voltage at the module time of the
trip that parked the engine falls in the trip's clock cycle (R281), and `Config.freeWord` has no body. All else that O51 says holds. -/
theorem loopUpdatesMeasureLimitAndFault_iff :
    Obligations.LoopUpdatesMeasureLimitAndFault ↔ ∀ n, (Config.freeWord n).getLsbD 0 = false := by
  constructor
  · intro h n
    by_contra hfree
    have hruns : ctlRuns (parkedByTripAt n) = true := rfl
    obtain ⟨hclause, -⟩ := h (parkedByTripAt n) noResults hruns rfl (loopCfg_parkedByTripAt n)
    obtain ⟨t, hexec, -, hparked, -⟩ := hclause rfl rfl
    obtain ⟨u, hnext, hctl, -⟩ := loopUpdate_next hruns rfl (loopCfg_parkedByTripAt n) noResults
    obtain rfl := Host.Outcome.next.inj (hexec.symm.trans hnext)
    have hsame : ({ parkedByTripAt n with out := [] } : State) = parkedByTripAt n := rfl
    rw [hctl, hsame, loopUpdateFx_parkedByTripAt (by simpa using hfree)] at hparked
    exact absurd hparked (by decide)
  · intro hfree s x hruns hdue hcfg
    refine ⟨fun hstate hstandby => ?_, fun hstate hconn hok => ?_, fun hstate hbad hrun => ?_⟩
    · obtain ⟨t, hexec, hbeside, hctl⟩ := loopUpdate_parked hruns hdue hcfg x hstate hstandby hfree
      exact ⟨t, hexec, measured_of (congrArg periodResults hctl :) hbeside, (congrArg Ctl.state hctl).trans hstate, (congrArg Ctl.out hctl :),
        (congrArg Ctl.enable hctl :), (congrArg Ctl.pwm0 hctl :), (congrArg Ctl.pwm1 hctl :), (congrArg Ctl.updCnt hctl :)⟩
    · obtain ⟨u, v, t, hexec, htaken, hbeside, hupdated, hctl, hend⟩ := loopUpdate_running hruns hdue hcfg hstate hconn hok
      have hcfgCtl : u.cfgCtl = s.cfgCtl := cfgCtl_of_besideLoop hbeside
      have hbank : u.ctl.bankReq = s.ctl.bankReq := (congrArg Ctl.bankReq htaken :)
      have hout : u.ctl.out = s.ctl.out := (congrArg Ctl.out htaken :)
      obtain ⟨hrise, hfall⟩ := steps_congr hcfgCtl
      obtain ⟨hst, henable, hresults, hcount, hbankNew, hlow, hhigh, hslew, hcomp, hduties, -⟩ := hupdated
      rw [hbank, hcfgCtl] at hcomp
      rw [hcfgCtl] at hduties
      rw [hout, hrise, hfall] at hslew
      refine ⟨t, hexec, measured_of (by rw [hctl, hresults]; exact (congrArg periodResults htaken :)) hend, ?_⟩
      rw [hctl]
      exact ⟨hst.trans ((congrArg Ctl.state htaken :).trans hstate), hcount.trans (congrArg (fun c => satAdd c.updCnt 1) htaken :),
        hbankNew.trans hbank, hlow, hhigh, hslew, hcomp, hduties, henable.trans (congrArg Ctl.enable htaken :)⟩
    · obtain ⟨t, hexec, hresults, hbeside, hst, hfault, hcause, hoff⟩ := loopUpdate_third hruns hdue hcfg hstate hbad hrun
      exact ⟨t, hexec, measured_of hresults hbeside, hst, hfault, hcause, hoff⟩

end Sys2Proof.Machine
end

section
/-! Commands that are no requests: what makes one an `effect` that sends. The handshake (R322, R323, R385). -/

namespace Sys2Proof.Machine

open Sys2Proof

/-! ### From what a command leaves to its effect -/

theorem settled_of_still {s t : State} (hs : settled s) (h : still t = still s) (hconds : t.pwr.conds = s.pwr.conds) : settled t :=
  settled_congr hs (of_still (fun u => u.pro.latched) (fun _ => rfl) h) (of_still (fun u => u.hkp.throttled) (fun _ => rfl) h)
    (of_still (fun u => u.smp.lowCad) (fun _ => rfl) h) (of_still (fun u => u.lcy.defaultsLocked) (fun _ => rfl) h) hconds

/-- What a command has to leave to be the effect `f` with the flags of the list and the messages `o`. -/
theorem effect_of_act {c : Instr} {g f : State → State} {l : List (Nat × Nat)} {o : List Out} {s v : State} (hexec : exec c s = act g s)
    (hg : g { s with out := [] } = v) (hset : settled v) (hstill : still v = still (f s)) (hflags : flagged l s v) (hout : v.out = o) :
    effect c f l o s :=
  ⟨_, hexec.trans (act_eq_next hg hset), (still_transmit v s).trans hstill, hflags, hout⟩

/-- An effect without flags. -/
theorem effect_of_silent {c : Instr} {g f : State → State} {o : List Out} {s v : State} (hexec : exec c s = act g s)
    (hg : g { s with out := [] } = v) (hset : settled v) (hstill : still v = still (f s)) (hev : v.ev = s.ev) (hout : v.out = o) :
    effect c f [] o s :=
  effect_of_act hexec hg hset hstill (flagged_nil s v hev) hout

/-- A flag of a present block, set on the way from `s` to `v`. -/
theorem flagged_one {e n : Nat} {s u v : State} (hp : eventPresent u e = true) (hu : u.ev = s.ev) (hv : v.ev = (raise e n u).ev) :
    flagged [(e, n)] s v :=
  flagged_of_ev hu (flagged_raise u e n [] v hp (flagged_nil _ v hv))

/-- An effect with one flag, raised last. -/
theorem effect_of_raise {c : Instr} {g f : State → State} {e n : Nat} {o : List Out} {s u : State} (hexec : exec c s = act g s)
    (hg : g { s with out := [] } = raise e n u) (hset : settled u) (hstill : still u = still (f s)) (hev : u.ev = s.ev) (hout : u.out = o)
    (hp : eventPresent u e = true) : effect c f [(e, n)] o s :=
  effect_of_act hexec hg (settled_raiseAll hset [(e, n)]) ((still_raise u e n).trans hstill) (flagged_one hp hev rfl)
    ((raise_out u e n).trans hout)

/-- Changes of a session that differ in its sequence numbers alone. -/
theorem still_modSess_congr {f g : Sess → Sess} (s : State) (c : Nat)
    (h : ∀ x, ({ f x with nseq := 0, txSeq := 0 } : Sess) = { g x with nseq := 0, txSeq := 0 }) : still (modSess c f s) = still (modSess c g s) := by
  have hctx (l : List Sess) (i : Nat) : (l.modify i f).map (fun x => { x with nseq := 0, txSeq := 0 }) =
      (l.modify i g).map fun x => { x with nseq := 0, txSeq := 0 } := by
    induction l generalizing i with
    | nil => cases i <;> rfl
    | cons a l ih => cases i with
      | zero => exact congrArg (· :: _) (h a)
      | succ i => exact congrArg (_ :: ·) (ih i)
  simp only [still, modSess, hctx]

/-! ### HELLO (R322, R323) -/

/-- The HELLO is noted: whom a REJECT answers, and the HELLOs of the second. -/
def helloNoted (h : HelloRec) (s : State) : State :=
  { s with ses := { s.ses with
      src := h.src, helloSec := s.smp.timeNs / 1000000000
      helloN := (if s.ses.helloSec = s.smp.timeNs / 1000000000 then s.ses.helloN else 0) + 1 } }

theorem helloCount_lt {s : State} (h : s.ses.helloSec = s.smp.timeNs / 1000000000 → s.ses.helloN < 16) :
    (if s.ses.helloSec = s.smp.timeNs / 1000000000 then s.ses.helloN else 0) < 16 := by
  split
  · exact h ‹_›
  · decide

/-- Below 16 HELLOs in the second, one of wrong form is rejected. -/
theorem helloFx_malformed {h : HelloRec} {s : State} (hup : spcUp s = true)
    (hrate : s.ses.helloSec = s.smp.timeNs / 1000000000 → s.ses.helloN < 16) (hform : h.wellFormed = false) :
    helloFx h s = send (.reject 0 0 stFormat) (helloNoted h s) := by
  simp only [helloFx, hup, hform, Nat.not_le.mpr (helloCount_lt hrate), Bool.not_true, Bool.not_false, Bool.false_eq_true, if_false, if_true]
  rfl

/-- One of the right form that nothing stands against reserves the context. -/
theorem helloFx_reserves {h : HelloRec} {s : State} {c : Nat} (hup : spcUp s = true)
    (hrate : s.ses.helloSec = s.smp.timeNs / 1000000000 → s.ses.helloN < 16) (hform : h.wellFormed = true)
    (hrole : admitsRole s h.role.toNat = true) (hfree : freeCtx s = some c) (hhalf : halfCount s < 32)
    (hservice : h.role = 3 → ∀ x ∈ s.ses.ctx, x.opened = true → x.role ≠ 3)
    (hnew : ∀ i, i < 256 → (s.sess i).half = true → (s.sess i).cred = h.credId → (s.sess i).ri ≠ h.ri) :
    helloFx h s = reserve h c (helloNoted h s) := by
  have hn := helloCount_lt hrate
  have hone : (h.role == 3 && s.ses.ctx.any fun x => x.opened && x.role == 3) = false := by
    by_cases hr : h.role = 3
    · simpa [hr] using hservice hr
    · simp only [beq_false_of_ne hr, Bool.false_and]
  have hbusy : (decide (32 ≤ halfCount s) || (h.role == 3 && s.ses.ctx.any fun x => x.opened && x.role == 3)) = false := by
    rw [hone, decide_eq_false (Nat.not_le.mpr hhalf), Bool.or_self]
  unfold helloFx
  simp only [hup, hform, Nat.not_le.mpr hn, Bool.not_true, Bool.false_eq_true, if_false]
  split
  next i hi =>
    have hsame := List.find?_some hi
    simp only [Bool.and_eq_true, beq_iff_eq] at hsame
    exact absurd hsame.2 (hnew i (List.mem_range.mp (List.mem_of_find?_eq_some hi)) hsame.1.1 hsame.1.2)
  next =>
    refine (if_neg (Bool.eq_false_iff.mp (congrArg (!·) hrole))).trans ?_
    have hfree' : freeCtx (helloNoted h s) = some c := hfree
    unfold helloNoted at hfree'
    rw [hfree']
    exact if_neg (Bool.eq_false_iff.mp hbusy)

/-- The reservation: one context is half-open and is challenged; values are drawn for it, and nothing else moves. -/
theorem reserve_eq (h : HelloRec) (c : Nat) (s : State) : ∃ x : Sess, ∃ n : Nat,
    reserve h c s = send (.challenge (BitVec.ofNat 8 c) ((s.sess c).gen + 1) x.challenge) (modSess c (fun _ => x) { s with fresh := n }) ∧
      x.half = true ∧ x.opened = false ∧ x.gen = (s.sess c).gen + 1 ∧ x.cred = h.credId ∧ x.role ≤ h.role.toNat :=
  ⟨_, _, rfl, rfl, rfl, rfl, rfl, Nat.min_le_left _ _⟩

/-! ### Contexts -/

theorem sess_modSess_same {s : State} {c : Nat} (h : c < s.ses.ctx.length) (f : Sess → Sess) : (modSess c f s).sess c = f (s.sess c) := by
  simp [State.sess, h]

theorem sess_modSess_ne {s : State} {c i : Nat} (h : i ≠ c) (f : Sess → Sess) : (modSess c f s).sess i = s.sess i := by
  simp [State.sess, List.getD_eq_getElem?_getD, Ne.symm h]

theorem lt_of_opened {s : State} {c : Nat} (h : (s.sess c).opened = true) : c < s.ses.ctx.length := by
  by_contra hout
  simp [State.sess, List.getD_eq_getElem?_getD, List.getElem?_eq_none (Nat.not_lt.mp hout)] at h

/-! ### The statement -/

theorem alive_of_spcUp {s : State} (hup : spcUp s = true) : alive s = true := (Bool.and_eq_true_iff.mp hup).1

/-- A CONFIRM of a half-open context under its GEN is judged by its MAC. -/
theorem confirm_judged {s : State} {c gen : Byte} (hup : spcUp s = true) (hhalf : (s.sess c.toNat).half = true)
    (hgen : (s.sess c.toNat).gen = gen) : (!spcUp s || !(s.sess c.toNat).half || (s.sess c.toNat).gen != gen) = false := by
  simp [hup, hhalf, hgen]

section clauses
variable {s : State} (hset : settled s) (hup : spcUp s = true)
include hset hup

theorem hello_rejects {h : HelloRec} (hrate : s.ses.helloSec = s.smp.timeNs / 1000000000 → s.ses.helloN < 16) (hform : h.wellFormed = false) :
    effect (.hello h) (helloNoted h) [] [.reject 0 0 stFormat] s :=
  effect_of_silent (g := helloFx h) rfl (helloFx_malformed hup hrate hform) (settled_congr hset rfl rfl rfl rfl rfl) rfl rfl rfl

theorem hello_challenges {h : HelloRec} {c : Nat} (hrate : s.ses.helloSec = s.smp.timeNs / 1000000000 → s.ses.helloN < 16)
    (hform : h.wellFormed = true) (hrole : admitsRole s h.role.toNat = true) (hfree : freeCtx s = some c) (hlt : c < s.ses.ctx.length)
    (hhalf : halfCount s < 32) (hservice : h.role = 3 → ∀ x ∈ s.ses.ctx, x.opened = true → x.role ≠ 3)
    (hnew : ∀ i, i < 256 → (s.sess i).half = true → (s.sess i).cred = h.credId → (s.sess i).ri ≠ h.ri) :
    ∃ t b, exec (.hello h) s = .next t ∧ t.out = [.challenge (BitVec.ofNat 8 c) ((s.sess c).gen + 1) b] ∧ t.ev = s.ev ∧
      (t.sess c).half = true ∧ (t.sess c).opened = false ∧ (t.sess c).gen = (s.sess c).gen + 1 ∧ (t.sess c).cred = h.credId ∧
      (t.sess c).role ≤ h.role.toNat ∧ (t.sess c).challenge = b ∧ (∀ i, i ≠ c → t.sess i = s.sess i) ∧
      sameStores s t ∧ sameMeasuring s t ∧ t.pro = s.pro ∧ t.ctl = s.ctl ∧ t.que = s.que := by
  obtain ⟨x, n, hreserved, hx⟩ := reserve_eq h c (helloNoted h { s with out := [] })
  let u : State := { helloNoted h { s with out := [] } with fresh := n }
  let v : State := send (.challenge (BitVec.ofNat 8 c) ((s.sess c).gen + 1) x.challenge) (modSess c (fun _ => x) u)
  have hfx : helloFx h { s with out := [] } = v :=
    (helloFx_reserves (s := { s with out := [] }) hup hrate hform hrole hfree hhalf hservice hnew).trans hreserved
  have hsame : (transmit s v).sess c = x := sess_modSess_same (s := u) hlt _
  have hother (i : Nat) (hi : i ≠ c) : (transmit s v).sess i = s.sess i := sess_modSess_ne (s := u) hi _
  obtain ⟨hxhalf, hxopened, hxgen, hxcred, hxrole⟩ := hx
  refine ⟨_, x.challenge, act_eq_next hfx (settled_congr hset rfl rfl rfl rfl rfl), rfl, rfl, ?_⟩
  rw [hsame]
  exact ⟨hxhalf, hxopened, hxgen, hxcred, hxrole, rfl, hother, ⟨rfl, rfl, rfl, rfl, rfl, rfl, rfl, rfl, rfl, rfl, rfl⟩,
    ⟨rfl, rfl, rfl, rfl, rfl, rfl, rfl⟩, rfl, rfl, rfl⟩

/-- The right MAC_I opens the context. -/
theorem confirm_opens {c gen : Byte} {mac : Bytes} {a : HostAddr} (hhalf : (s.sess c.toNat).half = true) (hgen : (s.sess c.toNat).gen = gen)
    (hknown : (s.sess c.toNat).known = true) (hzero : (s.sess c.toNat).dhZero = false)
    (hmac : mac = Config.hmacSha256 (s.sess c.toNat).kmI ((s.sess c.toNat).th ++ (s.sess c.toNat).macM)) :
    effect (.confirm c gen ⟨mac, a⟩) (fun s => modSess c.toNat
      (fun x => { x with opened := true, half := false, lastRx := s.smp.timeNs, addr := a })
      { s with ses := { s.ses with src := a, cnt := bumpAt s.ses.cnt 0 } }) [(0x0E, 0)]
      [.accept c (acceptBody s (s.sess c.toNat).role)] s := by
  let v : State := modSess c.toNat (fun x => { x with opened := true, half := false, lastRx := s.smp.timeNs, txSeq := 1, addr := a })
    { s with out := [.accept c (acceptBody s (s.sess c.toNat).role)], ses := { s.ses with src := a, cnt := bumpAt s.ses.cnt 0 } }
  have hright : ((s.sess c.toNat).known && !(s.sess c.toNat).dhZero &&
      mac == Config.hmacSha256 (s.sess c.toNat).kmI ((s.sess c.toNat).th ++ (s.sess c.toNat).macM)) = true := by
    simp [hknown, hzero, hmac]
  have hfx : confirmFx c gen ⟨mac, a⟩ { s with out := [] } = raise 0x0E 0 v :=
    (if_neg (Bool.eq_false_iff.mp (confirm_judged hup hhalf hgen))).trans (if_pos hright)
  exact effect_of_raise rfl hfx (settled_congr hset rfl rfl rfl rfl rfl) (still_modSess_congr _ _ fun _ => rfl) rfl rfl rfl

/-- Any other MAC_I, and an unknown credential, free it. -/
theorem confirm_fails {c gen : Byte} {mac : Bytes} {a : HostAddr} (hhalf : (s.sess c.toNat).half = true) (hgen : (s.sess c.toNat).gen = gen)
    (hwrong : (s.sess c.toNat).known = false ∨ (s.sess c.toNat).dhZero = true ∨
      mac ≠ Config.hmacSha256 (s.sess c.toNat).kmI ((s.sess c.toNat).th ++ (s.sess c.toNat).macM)) :
    effect (.confirm c gen ⟨mac, a⟩) (fun s => modSess c.toNat (fun x => { gen := x.gen })
      { s with ses := { s.ses with src := a, cnt := bumpAt s.ses.cnt 1 } }) [(0x0E, 2)] [.reject c gen stAuth] s := by
  let v : State := modSess c.toNat (fun x => { gen := x.gen })
    { s with out := [.reject c gen stAuth], ses := { s.ses with src := a, cnt := bumpAt s.ses.cnt 1 } }
  have hbad : ((s.sess c.toNat).known && !(s.sess c.toNat).dhZero &&
      mac == Config.hmacSha256 (s.sess c.toNat).kmI ((s.sess c.toNat).th ++ (s.sess c.toNat).macM)) = false := by
    rcases hwrong with h | h | h
    · simp [h]
    · simp [h]
    · simp [h]
  have hfx : confirmFx c gen ⟨mac, a⟩ { s with out := [] } = raise 0x0E 2 v :=
    (if_neg (Bool.eq_false_iff.mp (confirm_judged hup hhalf hgen))).trans (if_neg (Bool.eq_false_iff.mp hbad))
  exact effect_of_raise rfl hfx (settled_congr hset rfl rfl rfl rfl rfl) rfl rfl rfl rfl

theorem hsTimeout_frees {c : Byte} (hhalf : (s.sess c.toNat).half = true) :
    effect (.hsTimeout c) (modSess c.toNat fun x => { gen := x.gen }) [(0x0E, 3)] [] s :=
  effect_of_raise rfl (if_pos (Bool.and_eq_true_iff.mpr ⟨alive_of_spcUp hup, hhalf⟩)) (settled_congr hset rfl rfl rfl rfl rfl) rfl rfl rfl rfl

end clauses

/-- Settles O31: a HELLO is noted and rejected or reserves the lowest free context; CONFIRM opens that context or frees it. -/
theorem handshakeOpensOneContext : Obligations.HandshakeOpensOneContext := by
  unfold Obligations.HandshakeOpensOneContext
  intro s hset hup
  refine ⟨fun h hrate => ⟨hello_rejects hset hup hrate, fun c => hello_challenges hset hup hrate⟩, ?_, fun c => hsTimeout_frees hset hup⟩
  intro c gen mac a hhalf hgen _
  exact ⟨confirm_opens hset hup hhalf hgen, confirm_fails hset hup hhalf hgen⟩

end Sys2Proof.Machine
end

section
/-! Sessions end (R324, R326, R332): which queues a freed context gives up, and the checks of a protected record. -/

namespace Sys2Proof.Machine

open Sys2Proof

/-! ### Queues -/

theorem queue_modQ_same {s : State} {i : Nat} (h : i < s.que.length) (f : Queue → Queue) : (modQ i f s).queue i = f (s.queue i) := by
  simp [State.queue, modQ, h]

theorem queue_modQ_ne {s : State} {i j : Nat} (h : j ≠ i) (f : Queue → Queue) : (modQ i f s).queue j = s.queue j := by
  simp [State.queue, modQ, List.getD_eq_getElem?_getD, Ne.symm h]

theorem queue_of_que {s t : State} (h : t.que = s.que) (i : Nat) : t.queue i = s.queue i := congrArg (·.getD i {}) h

theorem lt_of_bound {s : State} {i : Nat} (h : (s.queue i).bound = true) : i < s.que.length := by
  by_contra hout
  simp [State.queue, List.getD_eq_getElem?_getD, List.getElem?_eq_none (Nat.not_lt.mp hout)] at h

/-- A queue that was flushed and unbound (R332). -/
def Queue.freed (q : Queue) : Queue := { Queue.flush q with bound := false, stalled := false }

/-- The queue belongs to the context. -/
def Queue.ownedBy (q : Queue) (c : Nat) : Bool := q.bound && q.ctx.toNat == c

theorem Queue.ownedBy_iff {q : Queue} {c : Byte} : q.ownedBy c.toNat = true ↔ q.bound = true ∧ q.ctx = c := by
  simp [Queue.ownedBy, BitVec.toNat_inj]

theorem Queue.lt_of_ownedBy {s : State} {i c : Nat} (h : (s.queue i).ownedBy c = true) : i < s.que.length :=
  lt_of_bound (Bool.and_eq_true_iff.mp h).1

theorem queue_unbindQueue_same {s : State} {i : Nat} (h : i < s.que.length) : (unbindQueue i s).queue i = (s.queue i).freed := by
  have hflushed : (flushQueue i s).queue i = (s.queue i).flush :=
    (queue_of_que (raise_que _ 0x0F 3) i).trans (queue_modQ_same h _)
  have hlen : i < (flushQueue i s).que.length := by simpa [flushQueue, modQ] using h
  unfold unbindQueue Queue.freed
  rw [queue_modQ_same hlen, hflushed]

theorem queue_unbindQueue_ne {s : State} {i j : Nat} (h : j ≠ i) : (unbindQueue i s).queue j = s.queue j :=
  (queue_modQ_ne h _).trans ((queue_of_que (raise_que _ 0x0F 3) j).trans (queue_modQ_ne h _))

/-- The context gives up queue `i`, where it owns it. -/
def giveUp (c i : Nat) (s : State) : State := if (s.queue i).ownedBy c then unbindQueue i s else s

theorem queue_giveUp (c i j : Nat) (s : State) :
    (giveUp c i s).queue j = if j = i ∧ (s.queue j).ownedBy c = true then (s.queue j).freed else s.queue j := by
  unfold giveUp
  by_cases hji : j = i
  · subst hji
    by_cases h : (s.queue j).ownedBy c = true
    · rw [if_pos h, if_pos ⟨rfl, h⟩, queue_unbindQueue_same (Queue.lt_of_ownedBy h)]
    · rw [if_neg h, if_neg fun both => h both.2]
  · have hnot : ¬ (j = i ∧ (s.queue j).ownedBy c = true) := fun both => hji both.1
    rw [if_neg hnot, apply_ite (State.queue · j), queue_unbindQueue_ne hji, ite_self]

theorem queue_giveUpBelow (c n j : Nat) (s : State) : (forAll (List.range n) (giveUp c) s).queue j =
    if j < n ∧ (s.queue j).ownedBy c = true then (s.queue j).freed else s.queue j := by
  induction n with
  | zero => simp [forAll]
  | succ n ih =>
    rw [List.range_succ, forAll, List.foldl_append]
    change (giveUp c n (forAll (List.range n) (giveUp c) s)).queue j = _
    rw [queue_giveUp, ih]
    by_cases hown : (s.queue j).ownedBy c = true
    · rcases Nat.lt_trichotomy j n with h | rfl | h
      · rw [if_neg (fun hand => (Nat.ne_of_lt h) hand.1), if_pos ⟨h, hown⟩, if_pos ⟨Nat.lt_succ_of_lt h, hown⟩]
      · have hbelow : ¬ (j < j ∧ (s.queue j).ownedBy c = true) := fun hand => Nat.lt_irrefl j hand.1
        rw [if_neg hbelow, if_pos ⟨rfl, hown⟩, if_pos ⟨Nat.lt_succ_self j, hown⟩]
      · rw [if_neg (fun hand => (Nat.ne_of_gt h) hand.1), if_neg (fun hand => Nat.lt_asymm h hand.1),
          if_neg (fun hand => Nat.not_lt.mpr h hand.1)]
    · simp only [hown, Bool.false_eq_true, and_false, if_false]

/-! ### The context is freed -/

/-- What a context that gives up its queues leaves: sessions and their flags, the engine, the power state, the messages. -/
def besideQueues (s : State) : Ses × Ctl × Pwr × List Out × Ev × Nat :=
  (s.ses, s.ctl, s.pwr, s.out, s.event 0x0E, s.ev.length)

theorem besideQueues_giveUp (c i : Nat) (s : State) : besideQueues (giveUp c i s) = besideQueues s := by
  have hraised : besideQueues (unbindQueue i s) = besideQueues s := by
    let u : State := raise 0x0F 3 (modQ i Queue.flush s)
    change (u.ses, u.ctl, u.pwr, u.out, u.event 0x0E, u.ev.length) = _
    rw [raise_ses, raise_ctl, raise_pwr, raise_out, event_raise_ne (by decide) (by decide), raise_ev_length]
    rfl
  unfold giveUp
  rw [apply_ite besideQueues, hraised, ite_self]

/-- The queues of the context are given up. -/
@[irreducible] def giveUpAll (c : Nat) (s : State) : State := forAll (List.range 64) (giveUp c) s

theorem besideQueues_giveUpAll (c : Nat) (s : State) : besideQueues (giveUpAll c s) = besideQueues s := by
  unfold giveUpAll
  exact forAll_keeps s besideQueues _ _ fun i t => besideQueues_giveUp c i t

theorem queue_giveUpAll (c j : Nat) (s : State) : (giveUpAll c s).queue j =
    if j < 64 ∧ (s.queue j).ownedBy c = true then (s.queue j).freed else s.queue j := by
  unfold giveUpAll
  exact queue_giveUpBelow c 64 j s

/-- The requests of the context that wait go, and its session ends. -/
def dropSession (c : Nat) (s : State) : State :=
  modSess c (fun x => { gen := x.gen, addr := x.addr }) { s with ses := { s.ses with waiting := s.ses.waiting.filter fun e => e.1.toNat != c } }

theorem freeContext_eq (c : Nat) (s : State) : freeContext c s = dropSession c (giveUpAll c s) := by
  have hone : (fun i t => let q := State.queue t i; if q.bound && q.ctx.toNat == c then unbindQueue i t else t) = giveUp c := rfl
  unfold freeContext dropSession giveUpAll
  rw [hone]

section freed
variable (c : Nat) (s : State)

theorem giveUpAll_ses : (giveUpAll c s).ses = s.ses := (congrArg Prod.fst (besideQueues_giveUpAll c s) :)

theorem freeContext_ctl : (freeContext c s).ctl = s.ctl := by
  rw [freeContext_eq]
  exact (congrArg (·.2.1) (besideQueues_giveUpAll c s) :)
theorem freeContext_pwr : (freeContext c s).pwr = s.pwr := by
  rw [freeContext_eq]
  exact (congrArg (·.2.2.1) (besideQueues_giveUpAll c s) :)
theorem freeContext_out : (freeContext c s).out = s.out := by
  rw [freeContext_eq]
  exact (congrArg (·.2.2.2.1) (besideQueues_giveUpAll c s) :)
theorem freeContext_event : (freeContext c s).event 0x0E = s.event 0x0E := by
  rw [freeContext_eq]
  exact (congrArg (·.2.2.2.2.1) (besideQueues_giveUpAll c s) :)
theorem freeContext_ev_length : (freeContext c s).ev.length = s.ev.length := by
  rw [freeContext_eq]
  exact (congrArg (·.2.2.2.2.2) (besideQueues_giveUpAll c s) :)

theorem freeContext_ses : (freeContext c s).ses = { s.ses with
    waiting := s.ses.waiting.filter fun e => e.1.toNat != c, ctx := s.ses.ctx.modify c fun x => { gen := x.gen, addr := x.addr } } := by
  rw [freeContext_eq, ← giveUpAll_ses c s]
  rfl

theorem freeContext_sess_same (h : c < s.ses.ctx.length) : (freeContext c s).sess c = { gen := (s.sess c).gen, addr := (s.sess c).addr } := by
  rw [State.sess, freeContext_ses]
  exact sess_modSess_same h _

theorem freeContext_sess_ne {i : Nat} (h : i ≠ c) : (freeContext c s).sess i = s.sess i := by
  rw [State.sess, freeContext_ses]
  exact sess_modSess_ne h _

theorem freeContext_queue (j : Nat) : (freeContext c s).queue j =
    if j < 64 ∧ (s.queue j).ownedBy c = true then (s.queue j).freed else s.queue j := by
  rw [freeContext_eq]
  exact queue_giveUpAll c j s

theorem freeContext_waiting (c : Byte) : ∀ e ∈ (freeContext c.toNat s).ses.waiting, e.1 ≠ c := by
  intro e he
  rw [freeContext_ses] at he
  have hne := (List.mem_filter.mp he).2
  rintro rfl
  simp at hne

end freed

/-! ### A session is closed -/

/-- What closing context `c` of `s`, whose host answers at `a`, leaves in `t` (R326, R332). -/
structure ClosedTo (s : State) (c : Byte) (a : HostAddr) (t : State) : Prop where
  session : t.sess c.toNat = { gen := (s.sess c.toNat).gen, addr := a }
  waiting : ∀ e ∈ t.ses.waiting, e.1 ≠ c
  queues : ∀ i, i < 64 → (s.queue i).bound = true → (s.queue i).ctx = c → t.queue i = { Queue.flush (s.queue i) with bound := false, stalled := false }
  others : ∀ i, ((s.queue i).bound = false ∨ (s.queue i).ctx ≠ c) → t.queue i = s.queue i
  sessions : ∀ i, i ≠ c.toNat → t.sess i = s.sess i
  flag : t.event 0x0E = (setFlag 0x0E 1 s).event 0x0E
  rest : sansHost t = sansHost s
  ctl : t.ctl = s.ctl
  pwr : t.pwr = s.pwr

/-- An open context of `u` is closed, with a CLOSE or without; `u` is the session's last word on `s`. -/
theorem closedTo_of_close {s u : State} {c : Byte} {a : HostAddr} {cause : Nat} {tell : Bool}
    (hopen : (u.sess c.toNat).opened = true) (hgen : (u.sess c.toNat).gen = (s.sess c.toNat).gen) (haddr : (u.sess c.toNat).addr = a)
    (hque : u.que = s.que) (hsess : ∀ i, i ≠ c.toNat → u.sess i = s.sess i) (hev : u.ev = s.ev) (hrest : sansHost u = sansHost s)
    (hctl : u.ctl = s.ctl) (hpwr : u.pwr = s.pwr) : ClosedTo s c a (closeSession c.toNat cause tell u) := by
  obtain ⟨v, hclosed, hv⟩ : ∃ v, closeSession c.toNat cause tell u = raise 0x0E 1 (freeContext c.toNat v) ∧ v = { u with out := v.out } :=
    ⟨if tell then send (.close (BitVec.ofNat 8 c.toNat) cause) u else u, if_pos hopen, by cases tell <;> rfl⟩
  rw [hclosed]
  have hsame (i : Nat) : v.sess i = u.sess i := by rw [hv]; rfl
  have hctx : v.ses = u.ses := by rw [hv]
  have hqueue (i : Nat) : v.queue i = s.queue i := by rw [hv]; exact queue_of_que hque i
  have hevv : v.ev = s.ev := by rw [hv]; exact hev
  have hlt : c.toNat < v.ses.ctx.length := hctx ▸ lt_of_opened hopen
  have hses := raise_ses (freeContext c.toNat v) 0x0E 1
  have hqueues (i : Nat) : (raise 0x0E 1 (freeContext c.toNat v)).queue i =
      if i < 64 ∧ (s.queue i).ownedBy c.toNat = true then (s.queue i).freed else s.queue i := by
    rw [queue_of_que (raise_que _ 0x0E 1), freeContext_queue, hqueue]
  constructor
  case session =>
    rw [State.sess, hses]
    exact (freeContext_sess_same _ v hlt).trans (by rw [hsame, hgen, haddr])
  case waiting =>
    rw [hses]
    exact freeContext_waiting v c
  case queues =>
    intro i hi hbound hctx
    rw [hqueues, if_pos ⟨hi, Queue.ownedBy_iff.mpr ⟨hbound, hctx⟩⟩]
    rfl
  case others =>
    intro i hnot
    rw [hqueues, if_neg]
    rintro ⟨-, hown⟩
    obtain ⟨hbound, hctx⟩ := Queue.ownedBy_iff.mp hown
    rcases hnot with h | h
    · exact absurd (hbound.symm.trans h) (by decide)
    · exact h hctx
  case sessions =>
    intro i hi
    rw [State.sess, hses]
    exact (freeContext_sess_ne _ v hi).trans ((hsame i).trans (hsess i hi))
  case flag =>
    rw [event_raise _ 0x0E 1 0x0E (by decide) rfl]
    exact event_setFlag_congr _ _ _ ((freeContext_event _ v).trans (congrArg (·.getD 0x0E {}) hevv))
      ((freeContext_ev_length _ v).trans (congrArg List.length hevv))
  case rest =>
    rw [sansHost_raise, sansHost_freeContext, ← hrest, hv]
    rfl
  case ctl => rw [raise_ctl, freeContext_ctl, ← hctl, hv]
  case pwr => rw [raise_pwr, freeContext_pwr, ← hpwr, hv]

theorem closeSession_out {u : State} {c : Nat} (hopen : (u.sess c).opened = true) (cause : Nat) (tell : Bool) :
    (closeSession c cause tell u).out = if tell then u.out ++ [.close (BitVec.ofNat 8 c) cause] else u.out := by
  unfold closeSession
  rw [if_pos hopen, raise_out, freeContext_out]
  cases tell <;> rfl

/-! ### Protected records (R324) -/

/-- What the checks of R324 before the SEQ ask of a record. -/
def recordFits (h : RecHdr) (s : State) : Prop :=
  h.known = true ∧ 28 ≤ h.len ∧ (s.sess h.ctx.toNat).opened = true ∧ (s.sess h.ctx.toNat).gen = h.gen

/-- The tag of a record of the context. -/
def recordTag (h : RecHdr) (type : Byte) (b : Bytes) (s : State) : BitVec 128 :=
  Config.gcmTag (s.sess h.ctx.toNat).kIn ((s.sess h.ctx.toNat).nIn ++ le 8 h.seq) (recordAad h type) b

/-- The record is taken into the window of its session. -/
def takeRecord (h : RecHdr) (s : State) : State :=
  modSess h.ctx.toNat (fun x => { seqTake x h.seq with lastRx := s.smp.timeNs, addr := h.src }) s

section records
variable {s : State} {h : RecHdr} {type : Byte} {b : Bytes} {run : State → State} (halive : alive s = true)
include halive

theorem protected_unfit (hbad : h.known = false ∨ h.len < 28 ∨ (s.sess h.ctx.toNat).opened = false ∨ (s.sess h.ctx.toNat).gen ≠ h.gen) :
    protected_ h type b run s = sesCount 5 s := by
  have hcheck : (decide (h.len < 28) || !h.known || !(s.sess h.ctx.toNat).opened || (s.sess h.ctx.toNat).gen != h.gen) = true := by
    rcases hbad with hbad | hbad | hbad | hbad <;> simp [hbad]
  exact (if_neg (Bool.eq_false_iff.mp (congrArg (!·) halive))).trans (if_pos hcheck)

variable (hfits : recordFits h s)
include hfits

/-- A record that fits is judged by its SEQ and its tag. -/
theorem protected_fits : protected_ h type b run s =
    if !seqFresh (s.sess h.ctx.toNat) h.seq then sesCount 5 (sesCount 4 (raise 0x0E 7 s))
    else if h.tag ≠ recordTag h type b s then sesCount 5 (sesCount 3 (raise 0x0E 6 s)) else run (takeRecord h s) := by
  obtain ⟨hknown, hlen, hopen, hgen⟩ := hfits
  have hcheck : (decide (h.len < 28) || !h.known || !(s.sess h.ctx.toNat).opened || (s.sess h.ctx.toNat).gen != h.gen) = false := by
    simp [hknown, hopen, hgen, hlen]
  exact (if_neg (Bool.eq_false_iff.mp (congrArg (!·) halive))).trans (if_neg (Bool.eq_false_iff.mp hcheck))

theorem protected_stale (hseq : seqFresh (s.sess h.ctx.toNat) h.seq = false) :
    protected_ h type b run s = sesCount 5 (sesCount 4 (raise 0x0E 7 s)) :=
  (protected_fits halive hfits).trans (if_pos (congrArg (!·) hseq))

theorem protected_forged (hseq : seqFresh (s.sess h.ctx.toNat) h.seq = true) (htag : h.tag ≠ recordTag h type b s) :
    protected_ h type b run s = sesCount 5 (sesCount 3 (raise 0x0E 6 s)) :=
  ((protected_fits halive hfits).trans (if_neg (Bool.eq_false_iff.mp (congrArg (!·) hseq)))).trans (if_pos htag)

theorem protected_accepted (hseq : seqFresh (s.sess h.ctx.toNat) h.seq = true) (htag : h.tag = recordTag h type b s) :
    protected_ h type b run s = run (takeRecord h s) :=
  ((protected_fits halive hfits).trans (if_neg (Bool.eq_false_iff.mp (congrArg (!·) hseq)))).trans (if_neg (not_not_intro htag))

end records

theorem still_sesCount_congr {s t : State} (h : still t = still s) (i : Nat) : still (sesCount i t) = still (sesCount i s) :=
  congrArg (fun u => { u with ses := { u.ses with cnt := bumpAt u.ses.cnt i } }) h

@[simp] theorem seqTake_opened (x : Sess) (q : Nat) : (seqTake x q).opened = x.opened := by unfold seqTake; split <;> rfl
@[simp] theorem seqTake_gen (x : Sess) (q : Nat) : (seqTake x q).gen = x.gen := by unfold seqTake; split <;> rfl

/-! ### The statement -/

section clauses
variable {s : State} (hset : settled s) (halive : alive s = true)
include hset

/-- A close that is the last word of a command. -/
theorem exec_of_close {c : Instr} {g : State → State} {x : Byte} {a : HostAddr} {v : State} (hexec : exec c s = act g s)
    (hg : g { s with out := [] } = v) (hclosed : ClosedTo s x a v) :
    ∃ t, exec c s = .next t ∧ t.out = v.out ∧ ClosedTo s x a t := by
  obtain ⟨hsession, hwaiting, hqueues, hothers, hsessions, hflag, hrest, hctl, hpwr⟩ := hclosed
  have hv : settled v := settled_congr hset (congrArg (fun u => u.pro.latched) hrest :) (congrArg (fun u => u.hkp.throttled) hrest :)
    (congrArg (fun u => u.smp.lowCad) hrest :) (congrArg (fun u => u.lcy.defaultsLocked) hrest :) (congrArg Pwr.conds hpwr)
  exact ⟨_, hexec.trans (act_eq_next hg hv), rfl,
    hsession, hwaiting, hqueues, hothers, hsessions, hflag, (sansHost_of_still (still_transmit v s)).trans hrest, hctl, hpwr⟩

/-- A discarded record that counts twice and raises a flag of SES. -/
theorem effect_of_discard {h : RecHdr} {b : Bytes} {i n : Nat}
    (hfx : protected_ h 0x14 b (closeSession h.ctx.toNat 0 false) { s with out := [] } =
      sesCount 5 (sesCount i (raise 0x0E n { s with out := [] }))) :
    effect (.hostClose h b) (fun s => sesCount 5 (sesCount i s)) [(0x0E, n)] [] s := by
  obtain ⟨u, hu⟩ : ∃ u : State, u = { s with out := [] } := ⟨_, rfl⟩
  have hu_set : settled u := by rw [hu]; exact settled_congr hset rfl rfl rfl rfl rfl
  have hflags : flagged [(0x0E, n)] s (raise 0x0E n u) := flagged_one (u := u) rfl (by rw [hu]) rfl
  have hstill : still (raise 0x0E n u) = still s := (still_raise u 0x0E n).trans (by rw [hu]; rfl)
  have hout : (raise 0x0E n u).out = [] := (raise_out u 0x0E n).trans (by rw [hu])
  have hraise : settled (raise 0x0E n u) := settled_raise hu_set 0x0E n
  rw [← hu] at hfx
  generalize raise 0x0E n u = w at *
  rw [hu] at hfx
  exact effect_of_act (v := sesCount 5 (sesCount i w)) rfl hfx (settled_congr hraise rfl rfl rfl rfl rfl)
    (still_sesCount_congr (still_sesCount_congr hstill i) 5) hflags hout

include halive

theorem hostClose_unfit {h : RecHdr} {b : Bytes}
    (hbad : h.known = false ∨ h.len < 28 ∨ (s.sess h.ctx.toNat).opened = false ∨ (s.sess h.ctx.toNat).gen ≠ h.gen) :
    effect (.hostClose h b) (sesCount 5) [] [] s :=
  effect_of_silent rfl (protected_unfit (s := { s with out := [] }) halive hbad) (settled_congr hset rfl rfl rfl rfl rfl) rfl rfl rfl

theorem hostClose_accepted {h : RecHdr} {b : Bytes} (hfits : recordFits h s) (hseq : seqFresh (s.sess h.ctx.toNat) h.seq = true)
    (htag : h.tag = recordTag h 0x14 b s) : ∃ t, exec (.hostClose h b) s = .next t ∧ t.out = [] ∧ ClosedTo s h.ctx h.src t := by
  have hlt : h.ctx.toNat < s.ses.ctx.length := lt_of_opened hfits.2.2.1
  let u : State := takeRecord h { s with out := [] }
  have hsess : u.sess h.ctx.toNat = { seqTake (s.sess h.ctx.toNat) h.seq with lastRx := s.smp.timeNs, addr := h.src } :=
    sess_modSess_same (s := { s with out := [] }) hlt _
  have hopen : (u.sess h.ctx.toNat).opened = true := by rw [hsess]; exact (seqTake_opened _ _).trans hfits.2.2.1
  have hgen : (u.sess h.ctx.toNat).gen = (s.sess h.ctx.toNat).gen := by rw [hsess]; exact seqTake_gen _ _
  have hclosed : ClosedTo s h.ctx h.src (closeSession h.ctx.toNat 0 false u) :=
    closedTo_of_close hopen hgen (congrArg Sess.addr hsess) rfl (fun i hi => sess_modSess_ne (s := { s with out := [] }) hi _) rfl rfl rfl rfl
  obtain ⟨t, hexec, hout, ht⟩ := exec_of_close hset (c := .hostClose h b) rfl
    (protected_accepted (s := { s with out := [] }) halive hfits hseq htag) hclosed
  exact ⟨t, hexec, hout.trans (closeSession_out hopen 0 false), ht⟩

/-- The CLOSE of a session whose time is over. -/
theorem exec_of_expiry {c : Instr} {x : Byte} {cause : Nat} (hopen : (s.sess x.toNat).opened = true)
    (hexec : exec c s = act (fun s => if alive s then closeSession x.toNat cause true s else s) s) :
    ∃ t, exec c s = .next t ∧ t.out = [.close x cause] ∧ ClosedTo s x (s.sess x.toNat).addr t := by
  let u : State := { s with out := [] }
  have hclosed : ClosedTo s x (s.sess x.toNat).addr (closeSession x.toNat cause true u) :=
    closedTo_of_close (u := u) hopen rfl rfl rfl (fun _ _ => rfl) rfl rfl rfl rfl
  obtain ⟨t, hnext, hout, ht⟩ := exec_of_close hset hexec (if_pos halive) hclosed
  refine ⟨t, hnext, hout.trans ((closeSession_out (u := u) hopen cause true).trans ?_), ht⟩
  simp [u]

end clauses

theorem ClosedTo.parts {s t : State} {c : Byte} {a : HostAddr} (h : ClosedTo s c a t) :
    t.sess c.toNat = { gen := (s.sess c.toNat).gen, addr := a } ∧ (∀ e ∈ t.ses.waiting, e.1 ≠ c) ∧
      (∀ i, i < 64 → (s.queue i).bound = true → (s.queue i).ctx = c →
        t.queue i = { Queue.flush (s.queue i) with bound := false, stalled := false }) ∧
      (∀ i, ((s.queue i).bound = false ∨ (s.queue i).ctx ≠ c) → t.queue i = s.queue i) ∧ (∀ i, i ≠ c.toNat → t.sess i = s.sess i) ∧
      (t.event 0x0E) = (setFlag 0x0E 1 s).event 0x0E ∧
      sameStores s t ∧ sameMeasuring s t ∧ t.pro = s.pro ∧ t.ctl = s.ctl ∧ t.pwr = s.pwr :=
  ⟨h.session, h.waiting, h.queues, h.others, h.sessions, h.flag, sameStores_of_sansHost h.rest, sameMeasuring_of_sansHost h.rest,
    (congrArg State.pro h.rest :), h.ctl, h.pwr⟩

/-- Settles O32: a record is discarded at the first check it fails; a close gives up the queues of its context. -/
theorem sessionsCloseAndFreeTheirQueues : Obligations.SessionsCloseAndFreeTheirQueues := by
  unfold Obligations.SessionsCloseAndFreeTheirQueues
  intro s hset halive
  refine ⟨fun h b => ⟨?closes, hostClose_unfit hset halive, ?replayed, ?forged⟩, fun c hopen => ⟨?idle, ?lifetime⟩⟩
  case closes =>
    rintro ⟨hknown, hlen, hopen, hgen, hseq, htag⟩
    obtain ⟨t, hexec, hout, hclosed⟩ := hostClose_accepted hset halive ⟨hknown, hlen, hopen, hgen⟩ hseq htag
    exact ⟨t, hexec, hout, hclosed.parts⟩
  case replayed =>
    rintro ⟨hknown, hlen, hopen, hgen, hseq⟩
    exact effect_of_discard hset (protected_stale (s := { s with out := [] }) halive ⟨hknown, hlen, hopen, hgen⟩ hseq)
  case forged =>
    rintro ⟨hknown, hlen, hopen, hgen, hseq, htag⟩
    exact effect_of_discard hset (protected_forged (s := { s with out := [] }) halive ⟨hknown, hlen, hopen, hgen⟩ hseq htag)
  case idle =>
    obtain ⟨t, hexec, hout, hclosed⟩ := exec_of_expiry hset halive hopen (c := .sesIdleTimeout c) (cause := 1) rfl
    exact ⟨t, hexec, hout, hclosed.parts⟩
  case lifetime =>
    obtain ⟨t, hexec, hout, hclosed⟩ := exec_of_expiry hset halive hopen (c := .sesLifetimeExpiry c) (cause := 2) rfl
    exact ⟨t, hexec, hout, hclosed.parts⟩

end Sys2Proof.Machine
end

section
/-! Streams (R329 to R333): what a queue holds while its blocks move, the record that takes its oldest words, its acknowledgement; notices to
every subscribed session (R352). -/

namespace Sys2Proof.Machine

open Sys2Proof

/-! ### The words of a queue -/

/-- The queue less what it holds. -/
def Queue.emptied (q : Queue) : Queue := { q with head := [], spill := [], tail := [] }

/-- Two queues that hold the same words in the same order and agree beside. -/
def Queue.Rearranged (p q : Queue) : Prop := p.words = q.words ∧ p.emptied = q.emptied

theorem Queue.Rearranged.trans {p q r : Queue} (h : p.Rearranged q) (k : q.Rearranged r) : p.Rearranged r :=
  ⟨h.1.trans k.1, h.2.trans k.2⟩

theorem Queue.length_words (q : Queue) : q.words.length = q.held := by
  simp [Queue.words, Queue.held, List.length_flatten, Nat.add_assoc]

/-- The oldest spilled block moves to the head where it fits. -/
def Queue.refill (q : Queue) : Queue :=
  match q.spill with
  | b :: r => if q.head.length + b.length ≤ 16 then { q with head := q.head ++ b, spill := r } else q
  | [] => q

/-- With nothing spilled the tail fills the head. -/
def Queue.fillHead (q : Queue) : Queue :=
  { q with head := q.head ++ q.tail.take (16 - q.head.length), tail := q.tail.drop (16 - q.head.length) }

/-- The tail becomes the last spilled block. -/
def Queue.spillTail (q : Queue) : Queue := { q with spill := q.spill ++ [q.tail], tail := [] }

theorem Queue.refill_rearranged (q : Queue) : q.refill.Rearranged q := by
  unfold Queue.refill
  split
  next b r h =>
    split
    · exact ⟨by simp [Queue.words, h], rfl⟩
    · exact ⟨rfl, rfl⟩
  next => exact ⟨rfl, rfl⟩

theorem Queue.fillHead_rearranged {q : Queue} (h : q.spill = []) : q.fillHead.Rearranged q :=
  ⟨by simp [Queue.words, Queue.fillHead, h], rfl⟩

theorem Queue.spillTail_rearranged (q : Queue) : q.spillTail.Rearranged q := ⟨by simp [Queue.words, Queue.spillTail], rfl⟩

/-- Once the head is filled, what is left of the tail spills where `full` says so and the store has room. -/
def Queue.pass (full : Queue → Bool) (q : Queue) : Queue :=
  if q.spill.isEmpty then (if full q.fillHead && decide (0 < q.qcap) then { q.fillHead with spill := [q.fillHead.tail], tail := [] } else q.fillHead)
  else if full q && decide (q.spill.length < q.qcap) then q.spillTail
  else q

theorem Queue.pass_rearranged (full : Queue → Bool) (q : Queue) : (q.pass full).Rearranged q := by
  unfold Queue.pass
  split
  next h =>
    have hnone : q.spill = [] := List.isEmpty_iff.mp h
    split
    · have hspilled : ({ q.fillHead with spill := [q.fillHead.tail], tail := [] } : Queue) = q.fillHead.spillTail := by
        simp [Queue.spillTail, Queue.fillHead, hnone]
      exact hspilled ▸ (Queue.spillTail_rearranged _).trans (Queue.fillHead_rearranged hnone)
    · exact Queue.fillHead_rearranged hnone
  next =>
    split
    · exact Queue.spillTail_rearranged q
    · exact ⟨rfl, rfl⟩

theorem Queue.settle_eq (q : Queue) : q.settle = q.refill.pass fun x => x.tail.length = 16 := rfl

theorem Queue.tailMove_eq (q : Queue) : q.tailMove = q.pass fun x => !x.tail.isEmpty := rfl

theorem Queue.settle_rearranged (q : Queue) : q.settle.Rearranged q :=
  q.settle_eq ▸ (Queue.pass_rearranged _ _).trans q.refill_rearranged

theorem Queue.tailMove_rearranged (q : Queue) : q.tailMove.Rearranged q := q.tailMove_eq ▸ Queue.pass_rearranged _ _

theorem Queue.settleN_rearranged (n : Nat) (q : Queue) : (settleN n q).Rearranged q := by
  induction n generalizing q with
  | zero => exact ⟨rfl, rfl⟩
  | succ n ih => exact (ih q.settle).trans q.settle_rearranged

theorem Queue.push_emptied (q : Queue) (w : Quad × Bool) : (q.push w).emptied = q.emptied := (Queue.settle_rearranged _).2

theorem relay_emptied (q : Queue) (ws : List (Quad × Bool)) : (relay q ws).emptied = q.emptied := by
  have hpushed (p : Queue) : (ws.foldl Queue.push p).emptied = p.emptied := by
    induction ws generalizing p with
    | nil => rfl
    | cons w ws ih => exact (ih (p.push w)).trans (p.push_emptied w)
  exact hpushed _

/-- Blocks less their first `n` words: what is left of them, and how many words they did not have. -/
theorem dropBlocks_spec (n : Nat) (l : List (List (Quad × Bool))) :
    (dropBlocks n l).1 ++ (dropBlocks n l).2.1.flatten = l.flatten.drop n ∧ (dropBlocks n l).2.2 = n - l.flatten.length := by
  induction n, l using dropBlocks.induct with
  | case1 n => simp [dropBlocks]
  | case2 l h => simp [dropBlocks]
  | case3 n b r h =>
    have hle : n + 1 - b.length = 0 := by omega
    simp [dropBlocks, h, List.drop_append, hle]
    omega
  | case4 n b r h ih =>
    have hall : b.drop (n + 1) = [] := List.drop_eq_nil_of_le (Nat.not_lt.mp h)
    simp only [dropBlocks, h, if_false, ih, List.flatten_cons, List.drop_append, hall, List.nil_append, List.length_append, true_and]
    omega

theorem Queue.dropWords_spec (n : Nat) (q : Queue) : (q.dropWords n).words = q.words.drop n ∧ (q.dropWords n).emptied = q.emptied := by
  unfold Queue.dropWords
  split
  next h =>
    obtain ⟨hwords, hrest⟩ := Queue.settleN_rearranged 2 { q with head := q.head.drop n }
    have hzero : n - q.head.length = 0 := Nat.sub_eq_zero_of_le (Nat.le_of_lt h)
    exact ⟨hwords.trans (by simp [Queue.words, List.append_assoc, List.drop_append, hzero]), hrest⟩
  next h =>
    obtain ⟨hblocks, hmissing⟩ := dropBlocks_spec (n - q.head.length) q.spill
    generalize dropBlocks (n - q.head.length) q.spill = d at hblocks hmissing ⊢
    obtain ⟨hd, sp, m⟩ := d
    obtain ⟨hwords, hrest⟩ := Queue.settleN_rearranged 3 { q with head := hd, spill := sp, tail := q.tail.drop m }
    have hgone : q.head.drop n = [] := List.drop_eq_nil_of_le (Nat.not_lt.mp h)
    refine ⟨hwords.trans ?_, hrest⟩
    simp only at hblocks hmissing
    simp [Queue.words, List.drop_append, ← hblocks, hmissing, hgone, Nat.sub_sub]

theorem lt_of_held {s : State} {i : Nat} (h : 0 < (s.queue i).held) : i < s.que.length := by
  by_contra hout
  have hnone : s.queue i = {} := List.getD_eq_default _ _ (Nat.not_lt.mp hout)
  exact absurd (hnone ▸ h) (by decide)

/-! ### A record of the stream -/

theorem queue_sendWords {s : State} {i : Nat} (h : i < s.que.length) (n first : Nat) : (sendWords i n first s).queue i =
    { (s.queue i).dropWords ((s.queue i).words.take n).length with
      rseq := (s.queue i).rseq + 1, windex := (s.queue i).windex + ((s.queue i).words.take n).length, waited := false } :=
  queue_modQ_same h _

theorem queue_sendWords_ne {s : State} {i j : Nat} (h : j ≠ i) (n first : Nat) : (sendWords i n first s).queue j = s.queue j :=
  queue_modQ_ne h _

theorem drop_take_length {α : Type} (n : Nat) (l : List α) : l.drop (l.take n).length = l.drop n := by
  rcases Nat.le_total n l.length with h | h
  · rw [List.length_take_of_le h]
  · rw [List.take_of_length_le h, List.drop_length, List.drop_eq_nil_of_le h]

/-- What taking words from queue `i` leaves of it. -/
theorem sendWords_takes {s : State} {i : Nat} (h : i < s.que.length) (n first : Nat) :
    ((sendWords i n first s).queue i).words = (s.queue i).words.drop n ∧ ((sendWords i n first s).queue i).rseq = (s.queue i).rseq + 1 ∧
      ((sendWords i n first s).queue i).windex = (s.queue i).windex + ((s.queue i).words.take n).length ∧
      ((sendWords i n first s).queue i).acked = (s.queue i).acked ∧ ((sendWords i n first s).queue i).ce = (s.queue i).ce ∧
      ((sendWords i n first s).queue i).unc = (s.queue i).unc ∧ ((sendWords i n first s).queue i).lost = (s.queue i).lost ∧
      ((sendWords i n first s).queue i).cause = (s.queue i).cause := by
  rw [queue_sendWords h]
  obtain ⟨hwords, hrest⟩ := (s.queue i).dropWords_spec ((s.queue i).words.take n).length
  exact ⟨hwords.trans (drop_take_length n _), rfl, rfl, (congrArg Queue.acked hrest :), (congrArg Queue.ce hrest :),
    (congrArg Queue.unc hrest :), (congrArg Queue.lost hrest :), (congrArg Queue.cause hrest :)⟩

/-- The queue is open to its reader: bound to an open session, with room in its window and words to send. -/
structure Sendable (s : State) (i : Nat) (timeout : Bool) : Prop where
  bound : (s.queue i).bound = true
  opened : (s.sess (s.queue i).ctx.toNat).opened = true
  some : 0 < (s.queue i).held
  window : ((s.queue i).rseq - (s.queue i).acked).toNat < (s.queue i).qwin
  due : 174 ≤ (s.queue i).held ∨ timeout = true ∨ (s.queue i).waited = true

section reader
variable {s : State} {i : Nat} {timeout : Bool} (halive : alive s = true)
include halive

theorem streamSendFx_empty (bad : Option (Nat × Bool)) (hbound : (s.queue i).bound = true)
    (hopen : (s.sess (s.queue i).ctx.toNat).opened = true) (hempty : (s.queue i).held = 0) :
    streamSendFx i bad timeout s = modQ i (fun q => { q with stalled := true }) s := by
  unfold streamSendFx
  simp [halive, hbound, hopen, hempty]

theorem streamSendFx_sends (bad : Option (Nat × Bool)) (h : Sendable s i timeout) : streamSendFx i bad timeout s = flawFx i bad s := by
  obtain ⟨hbound, hopen, hsome, hwindow, hdue⟩ := h
  have hready : (decide (174 ≤ (s.queue i).held) || timeout || (s.queue i).waited) = true := by
    rcases hdue with h | h | h <;> simp [h]
  unfold streamSendFx
  simp [-BitVec.toNat_sub, halive, hbound, hopen, Nat.ne_of_gt hsome, Nat.not_le.mpr hwindow, hready]

end reader

/-- A single-bit error among the words read is counted, and they are sent. -/
theorem flawFx_corrected {s : State} {i k : Nat} (hk : k < min 174 (s.queue i).held) : flawFx i (some (k, true)) s =
    sendWords i 174 (s.queue i).windex (raise 0x0F 1 (modQ i (fun q => { q with ce := satAdd q.ce 1 }) s)) := by
  unfold flawFx
  exact if_neg (Nat.not_le.mpr hk)

/-- The queue without the item of an uncorrectable word. -/
theorem dropItem_counts (k : Nat) (q : Queue) : (dropItem k q).2.ce = q.ce ∧ (dropItem k q).2.unc = satAdd q.unc 1 ∧
    (dropItem k q).2.lost = satAdd q.lost 1 ∧ (dropItem k q).2.cause = 3 :=
  ⟨(congrArg Queue.ce (relay_emptied q _) :), rfl, rfl, rfl⟩

/-- An uncorrectable word among the words read takes its item with it, whatever is sent then. -/
theorem flawFx_uncorrectable {s : State} {i k : Nat} (hlt : i < s.que.length) (hk : k < min 174 (s.queue i).held) :
    ((flawFx i (some (k, false)) s).queue i).ce = (s.queue i).ce ∧
      ((flawFx i (some (k, false)) s).queue i).unc = satAdd (s.queue i).unc 1 ∧
      ((flawFx i (some (k, false)) s).queue i).lost = satAdd (s.queue i).lost 1 ∧ ((flawFx i (some (k, false)) s).queue i).cause = 3 := by
  let u : State := raise 0x0F 2 (modQ i (fun _ => (dropItem k (s.queue i)).2) s)
  have hque : u.que = s.que.modify i fun _ => (dropItem k (s.queue i)).2 := raise_que _ _ _
  have hqueue : u.queue i = (dropItem k (s.queue i)).2 := 
    (queue_of_que (s := modQ i (fun _ => (dropItem k (s.queue i)).2) s) hque i).trans (queue_modQ_same hlt _)
  have hultu : i < u.que.length := by rw [hque, List.length_modify]; exact hlt
  have hsent (n first : Nat) : ((sendWords i n first u).queue i).ce = (s.queue i).ce ∧
      ((sendWords i n first u).queue i).unc = satAdd (s.queue i).unc 1 ∧ ((sendWords i n first u).queue i).lost = satAdd (s.queue i).lost 1 ∧
      ((sendWords i n first u).queue i).cause = 3 := by
    obtain ⟨-, -, -, -, hce, hunc, hlost, hcause⟩ := sendWords_takes hultu n first
    obtain ⟨kce, kunc, klost, kcause⟩ := dropItem_counts k (s.queue i)
    rw [hce, hunc, hlost, hcause, hqueue]
    exact ⟨kce, kunc, klost, kcause⟩
  have hfx : flawFx i (some (k, false)) s = if 0 < (dropItem k (s.queue i)).1 then sendWords i (dropItem k (s.queue i)).1 (s.queue i).windex u
      else if (dropItem k (s.queue i)).2.held = 0 then u else sendWords i 174 (dropItem k (s.queue i)).2.windex u := by
    unfold flawFx
    exact if_neg (Nat.not_le.mpr hk)
  rw [hfx]
  split
  · exact hsent _ _
  · split
    · rw [hqueue]
      exact dropItem_counts k _
    · exact hsent _ _

theorem settled_sendWords {s : State} (h : settled s) (i n first : Nat) : settled (sendWords i n first s) :=
  settled_congr h rfl rfl rfl rfl rfl

theorem settled_flawFx {s : State} (h : settled s) (i : Nat) (bad : Option (Nat × Bool)) : settled (flawFx i bad s) := by
  have hcounted (n : Nat) (f : Queue → Queue) : settled (raise 0x0F n (modQ i f s)) :=
    settled_raise (s := modQ i f s) (settled_congr h rfl rfl rfl rfl rfl) 0x0F n
  unfold flawFx
  dsimp only
  split
  · exact settled_sendWords h _ _ _
  · split
    · exact settled_sendWords h _ _ _
    · split
      · exact settled_sendWords (hcounted _ _) _ _ _
      · split
        · exact settled_sendWords (hcounted _ _) _ _ _
        · split
          · exact hcounted _ _
          · exact settled_sendWords (hcounted _ _) _ _ _

/-- A STREAM_ACK for a record already sent moves the acknowledged RSEQ. -/
theorem ackFx_moves {u : State} {c q : Nat} {n : Word} (hbound : (u.queue q).bound = true) (hctx : (u.queue q).ctx.toNat = c)
    (hsent : (n - (u.queue q).acked).toNat ≤ ((u.queue q).rseq - (u.queue q).acked).toNat) :
    ackFx c q n u = modQ q (fun x => { x with acked := n }) u :=
  if_pos (by simp [-BitVec.toNat_sub, hbound, hctx, hsent])

/-! ### Notices (R352, R353) -/

theorem noticeTo_sess_ne {c i : Nat} (h : i ≠ c) (cls typ : Nat) (body : Bytes) (s : State) : (noticeTo cls typ body c s).sess i = s.sess i := by
  unfold noticeTo
  rw [apply_ite (State.sess · i)]
  exact (if_congr Iff.rfl (sess_modSess_ne h _) rfl).trans (ite_self _)

theorem noticeTo_frame (cls typ : Nat) (body : Bytes) (c : Nat) (s : State) :
    (noticeTo cls typ body c s).smp = s.smp ∧ (noticeTo cls typ body c s).upl = s.upl ∧ (noticeTo cls typ body c s).ev = s.ev ∧
      (noticeTo cls typ body c s).pwr = s.pwr := by
  unfold noticeTo
  dsimp only
  split <;> exact ⟨rfl, rfl, rfl, rfl⟩

/-- The message of a notice to context `c`. -/
def noticeOf (cls typ : Nat) (body : Bytes) (s : State) (c : Nat) : Out :=
  .notice (BitVec.ofNat 8 c) cls typ ((s.sess c).nseq + 1) s.smp.timeNs body

theorem noticeTo_out {cls typ : Nat} {body : Bytes} {c : Nat} {s : State} (h : s.upl.holdup < 2) : (noticeTo cls typ body c s).out =
    s.out ++ if subscribed (s.sess c) cls then [noticeOf cls typ body s c] else [] := by
  unfold noticeTo
  by_cases hsub : subscribed (s.sess c) cls = true
  · rw [if_pos (by simp [hsub, h]), if_pos hsub]
    rfl
  · rw [if_neg (by simp [hsub]), if_neg hsub, List.append_nil]

/-- Notices to the contexts below `n`. -/
def noticeBelow (cls typ : Nat) (body : Bytes) (n : Nat) (s : State) : State := forAll (List.range n) (noticeTo cls typ body) s

theorem noticeBelow_succ (cls typ : Nat) (body : Bytes) (n : Nat) (s : State) :
    noticeBelow cls typ body (n + 1) s = noticeTo cls typ body n (noticeBelow cls typ body n s) := by
  unfold noticeBelow forAll
  rw [List.range_succ, List.foldl_append]
  rfl

theorem noticeBelow_frame (cls typ : Nat) (body : Bytes) (n : Nat) (s : State) :
    (noticeBelow cls typ body n s).smp = s.smp ∧ (noticeBelow cls typ body n s).upl = s.upl ∧ (noticeBelow cls typ body n s).ev = s.ev ∧
      (noticeBelow cls typ body n s).pwr = s.pwr := by
  induction n with
  | zero => exact ⟨rfl, rfl, rfl, rfl⟩
  | succ n ih =>
    obtain ⟨hsmp, hupl, hev, hpwr⟩ := noticeTo_frame cls typ body n (noticeBelow cls typ body n s)
    obtain ⟨ismp, iupl, iev, ipwr⟩ := ih
    rw [noticeBelow_succ, hsmp, hupl, hev, hpwr]
    exact ⟨ismp, iupl, iev, ipwr⟩

/-- A context that has not had its notice yet is untouched. -/
theorem noticeBelow_sess {n i : Nat} (h : n ≤ i) (cls typ : Nat) (body : Bytes) (s : State) :
    (noticeBelow cls typ body n s).sess i = s.sess i := by
  induction n with
  | zero => rfl
  | succ n ih =>
    rw [noticeBelow_succ, noticeTo_sess_ne (Nat.ne_of_gt h)]
    exact ih (Nat.le_of_lt h)

/-- Every subscribed session is told, in the order of the contexts. -/
theorem noticeBelow_out {s : State} (h : s.upl.holdup < 2) (cls typ : Nat) (body : Bytes) (n : Nat) : (noticeBelow cls typ body n s).out =
    s.out ++ ((List.range n).filter fun c => subscribed (s.sess c) cls).map (noticeOf cls typ body s) := by
  induction n with
  | zero => simp [noticeBelow, forAll]
  | succ n ih =>
    obtain ⟨hsmp, hupl, -⟩ := noticeBelow_frame cls typ body n s
    have hsess := noticeBelow_sess (Nat.le_refl n) cls typ body s
    rw [noticeBelow_succ, noticeTo_out (hupl ▸ h), ih, List.range_succ, List.filter_append, List.map_append, List.append_assoc, hsess]
    by_cases hsub : subscribed (s.sess n) cls = true
    · simp [hsub, noticeOf, hsess, hsmp]
    · simp [hsub]

theorem notice_eq (cls typ : Nat) (body : Bytes) (s : State) : notice cls typ body s = noticeBelow cls typ body 256 s := rfl

/-! ### The statement -/

section clauses
variable {s : State} (hset : settled s) (halive : alive s = true)
include hset halive

theorem stream_stalls {i : Fin 64} {timeout : Bool} (hbound : (s.queue i.val).bound = true)
    (hopen : (s.sess (s.queue i.val).ctx.toNat).opened = true) (hempty : (s.queue i.val).held = 0) :
    effect (.streamRecordSend i none timeout) (modQ i.val fun x => { x with stalled := true }) [] [] s :=
  effect_of_silent rfl (streamSendFx_empty (s := { s with out := [] }) halive none hbound hopen hempty)
    (settled_congr hset rfl rfl rfl rfl rfl) rfl rfl rfl

theorem stream_sends {i : Fin 64} {timeout : Bool} (h : Sendable s i.val timeout) : let q := s.queue i.val
    ∃ t, exec (.streamRecordSend i none timeout) s = .next t ∧ t.ev = s.ev ∧
      t.out = [.stream q.ctx i.val (q.rseq + 1) (BitVec.ofNat 32 q.windex) (hdrOfs (q.words.take 174)) ((q.words.take 174).map Prod.fst)] ∧
      (t.queue i.val).words = q.words.drop 174 ∧ (t.queue i.val).rseq = q.rseq + 1 ∧
      (t.queue i.val).windex = q.windex + (q.words.take 174).length ∧ (t.queue i.val).acked = q.acked ∧
      (∀ j, j ≠ i.val → t.queue j = s.queue j) ∧ sameStores s t ∧ sameMeasuring s t ∧ t.pro = s.pro ∧ t.ctl = s.ctl := by
  let u : State := { s with out := [] }
  have hlt : i.val < u.que.length := lt_of_bound h.bound
  have hfx : streamSendFx i none timeout u = sendWords i.val 174 (s.queue i.val).windex u :=
    streamSendFx_sends (s := u) halive none ⟨h.bound, h.opened, h.some, h.window, h.due⟩
  obtain ⟨hwords, hrseq, hwindex, hacked, -⟩ := sendWords_takes hlt 174 (s.queue i.val).windex
  exact ⟨_, act_eq_next hfx (settled_congr hset rfl rfl rfl rfl rfl), rfl, rfl, hwords, hrseq, hwindex, hacked,
    fun j hj => queue_sendWords_ne (s := u) hj 174 (s.queue i.val).windex, ⟨rfl, rfl, rfl, rfl, rfl, rfl, rfl, rfl, rfl, rfl, rfl⟩,
    ⟨rfl, rfl, rfl, rfl, rfl, rfl, rfl⟩, rfl, rfl⟩

theorem stream_flawed {i : Fin 64} {timeout : Bool} (bad : Option (Nat × Bool)) (h : Sendable s i.val timeout) :
    ∃ t, exec (.streamRecordSend i bad timeout) s = .next t ∧ t.que = (flawFx i.val bad { s with out := [] }).que :=
  ⟨_, act_eq_next (streamSendFx_sends (s := { s with out := [] }) halive bad ⟨h.bound, h.opened, h.some, h.window, h.due⟩)
    (settled_flawFx (s := { s with out := [] }) (settled_congr hset rfl rfl rfl rfl rfl) _ _), rfl⟩

theorem stream_corrects {i : Fin 64} {timeout : Bool} {k : Nat} (h : Sendable s i.val timeout) (hk : k < min 174 (s.queue i.val).held) :
    let q := s.queue i.val
    ∃ t, exec (.streamRecordSend i (some (k, true)) timeout) s = .next t ∧ (t.queue i.val).ce = satAdd q.ce 1 ∧
      (t.queue i.val).unc = q.unc ∧ (t.queue i.val).words = q.words.drop 174 ∧ (t.queue i.val).rseq = q.rseq + 1 := by
  obtain ⟨t, hexec, hque⟩ := stream_flawed hset halive (some (k, true)) h
  let u : State := { s with out := [] }
  have hlt : i.val < u.que.length := lt_of_bound h.bound
  let v : State := raise 0x0F 1 (modQ i.val (fun q => { q with ce := satAdd q.ce 1 }) u)
  have hv : v.que = (modQ i.val (fun q => { q with ce := satAdd q.ce 1 }) u).que := raise_que _ _ _
  have hcounted : v.queue i.val = { s.queue i.val with ce := satAdd (s.queue i.val).ce 1 } := (queue_of_que hv i.val).trans (queue_modQ_same hlt _)
  have hltv : i.val < v.que.length := by
    rw [hv, modQ, List.length_modify]
    exact hlt
  obtain ⟨hwords, hrseq, -, -, hce, hunc, -⟩ := sendWords_takes hltv 174 (s.queue i.val).windex
  have hsent := queue_of_que (hque.trans (congrArg State.que (flawFx_corrected (s := u) hk))) i.val
  rw [hcounted] at hwords hrseq hce hunc
  refine ⟨t, hexec, ?_⟩
  rw [hsent]
  exact ⟨hce, hunc, hwords, hrseq⟩

theorem stream_loses {i : Fin 64} {timeout : Bool} {k : Nat} (h : Sendable s i.val timeout) (hk : k < min 174 (s.queue i.val).held) :
    let q := s.queue i.val
    ∃ t, exec (.streamRecordSend i (some (k, false)) timeout) s = .next t ∧ (t.queue i.val).ce = q.ce ∧
      (t.queue i.val).unc = satAdd q.unc 1 ∧ (t.queue i.val).lost = satAdd q.lost 1 ∧ (t.queue i.val).cause = 3 := by
  obtain ⟨t, hexec, hque⟩ := stream_flawed hset halive (some (k, false)) h
  have hlost := flawFx_uncorrectable (s := { s with out := [] }) (i := i.val) (lt_of_bound h.bound) hk
  refine ⟨t, hexec, ?_⟩
  rw [queue_of_que hque i.val]
  exact hlost

theorem ack_moves {h : RecHdr} {q : Byte} {n : Word} (hfits : recordFits h s) (hseq : seqFresh (s.sess h.ctx.toNat) h.seq = true)
    (htag : h.tag = recordTag h 0x12 ([q, 0, 0, 0] ++ leW n) s) (hbound : (s.queue q.toNat).bound = true) (hctx : (s.queue q.toNat).ctx = h.ctx)
    (hsent : (n - (s.queue q.toNat).acked).toNat ≤ ((s.queue q.toNat).rseq - (s.queue q.toNat).acked).toNat) :
    effect (.streamAck h ([q, 0, 0, 0] ++ leW n)) (fun s => modQ q.toNat (fun x => { x with acked := n }) (takeRecord h s)) [] [] s := by
  let u : State := { s with out := [] }
  have htaken := protected_accepted (s := u) (run := ackFx h.ctx.toNat q.toNat n) halive hfits hseq htag
  have hmoved : ackFx h.ctx.toNat q.toNat n (takeRecord h u) = modQ q.toNat (fun x => { x with acked := n }) (takeRecord h u) :=
    ackFx_moves (u := takeRecord h u) hbound (congrArg BitVec.toNat hctx) hsent
  have hbody : BitVec.ofNat 32 (leNat (slice ([q, 0, 0, 0] ++ leW n) 4 4)) = n := ofNat_leNat_leW n
  have hexec : exec (.streamAck h ([q, 0, 0, 0] ++ leW n)) s =
      act (protected_ h 0x12 ([q, 0, 0, 0] ++ leW n) (ackFx h.ctx.toNat q.toNat n)) s := by
    rw [← congrArg (ackFx h.ctx.toNat q.toNat) hbody]
    rfl
  exact effect_of_silent hexec (htaken.trans hmoved) (settled_congr hset rfl rfl rfl rfl rfl) rfl rfl rfl

theorem tail_moves {i : Fin 64} (h : 0 < (s.queue i.val).held) :
    ∃ t, exec (.queTailTmo i) s = .next t ∧ t.out = [] ∧ t.ev = s.ev ∧ (t.queue i.val).waited = true ∧
      (t.queue i.val).words = (s.queue i.val).words ∧ (∀ j, j ≠ i.val → t.queue j = s.queue j) ∧
      still { t with que := [] } = still { s with que := [] } := by
  let u : State := { s with out := [] }
  have hlt : i.val < u.que.length := lt_of_held h
  have hdue : (alive u && decide (0 < (u.queue i.val).held)) = true := Bool.and_eq_true_iff.mpr ⟨halive, decide_eq_true h⟩
  let v : State := modQ i.val (fun x => { x.tailMove with waited := true }) u
  have hmoved : v.queue i.val = { (s.queue i.val).tailMove with waited := true } := queue_modQ_same hlt _
  refine ⟨transmit s v, act_eq_next (if_pos hdue) (settled_congr hset rfl rfl rfl rfl rfl), rfl, rfl, congrArg Queue.waited hmoved,
    (congrArg Queue.words hmoved).trans (Queue.tailMove_rearranged _).1, fun j hj => queue_modQ_ne (s := u) hj _, rfl⟩

/-- SOP_LIMITS, as it stands in the estimator. -/
def sopBody (s : State) : Bytes :=
  leW s.est.tick ++ leW s.est.iCh ++ leW s.est.iDis ++ leW s.est.pCh ++ leW s.est.pDis ++ leW s.est.limGroup

theorem sopLimits_notifies : effect .sopLimits id []
    (((List.range 256).filter fun c => subscribed (s.sess c) 2).map (noticeOf 2 0x20 (sopBody s) s)) s := by
  obtain ⟨u, hu⟩ : ∃ u : State, u = { s with out := [] } := ⟨_, rfl⟩
  have hholdup : u.upl.holdup < 2 := by rw [hu]; exact of_decide_eq_true (Bool.and_eq_true_iff.mp halive).2
  have hout : u.out = [] := by rw [hu]
  have hsame : noticeOf 2 0x20 (sopBody s) u = noticeOf 2 0x20 (sopBody s) s := by rw [hu]; rfl
  have hstill : still (notice 2 0x20 (sopBody s) u) = still s := (still_notice u 2 0x20 (sopBody s)).trans (by rw [hu]; rfl)
  have hgo : notice 2 0x20 (sopBody s) u = noticeBelow 2 0x20 (sopBody s) 256 u := notice_eq _ _ _ _
  obtain ⟨-, -, hev, hpwr⟩ := noticeBelow_frame 2 0x20 (sopBody s) 256 u
  have hsent := noticeBelow_out hholdup 2 0x20 (sopBody s) 256
  have hsess (c : Nat) : u.sess c = s.sess c := by rw [hu]; rfl
  simp only [hout, hsame, hsess, List.nil_append] at hsent
  rw [hgo] at hstill
  have hfx : notice 2 0x20 (sopBody s) { s with out := [] } = noticeBelow 2 0x20 (sopBody s) 256 u := by rw [← hu, hgo]
  have hcond : u.pwr.conds = s.pwr.conds := by rw [hu]
  have hev' : u.ev = s.ev := by rw [hu]
  generalize noticeBelow 2 0x20 (sopBody s) 256 u = v at *
  exact effect_of_silent rfl ((if_pos halive).trans hfx) (settled_of_still hset hstill ((congrArg Pwr.conds hpwr).trans hcond)) hstill
    (hev.trans hev') hsent

end clauses

/-- Settles O33: whatever blocks it moves, a queue keeps its words in order; a record takes the oldest. -/
theorem streamsSendAckAndNotify : Obligations.StreamsSendAckAndNotify := by
  unfold Obligations.StreamsSendAckAndNotify
  intro s hset halive
  refine ⟨fun i timeout hbound hopen => ⟨stream_stalls hset halive hbound hopen, ?sends, ?flawed⟩, ?acks, fun i => tail_moves hset halive,
    sopLimits_notifies hset halive⟩
  case sends =>
    intro hsome hwindow hdue
    exact stream_sends hset halive ⟨hbound, hopen, hsome, hwindow, hdue⟩
  case flawed =>
    intro k hk hwindow hdue
    have hsome : 0 < (s.queue i.val).held := by omega
    exact ⟨stream_corrects hset halive ⟨hbound, hopen, hsome, hwindow, hdue⟩ hk,
      stream_loses hset halive ⟨hbound, hopen, hsome, hwindow, hdue⟩ hk⟩
  case acks =>
    intro h q n hknown hlen hopen hgen hseq htag hbound hctx hsent
    exact ack_moves hset halive ⟨hknown, hlen, hopen, hgen⟩ hseq htag hbound hctx hsent

end Sys2Proof.Machine
end

section
/-! Frames on the uplinks (R307, R310, R312 to R314): what is counted, which copy is dropped, which requests are answered. -/

namespace Sys2Proof.Machine

open Sys2Proof

/-! ### Received frames -/

section frames
variable {s : State} {l : Link} {f : EthFrame} (halive : alive s = true) (hup : (uplink s l).up = true)
include halive hup

theorem frame_heard : (!alive s || !(uplink s l).up) = false := by simp [halive, hup]

theorem frameFx_badFcs (hfcs : f.fcsOk = false) : frameFx l f s = uplCount (2 + linkIdx l) s :=
  (if_neg (Bool.eq_false_iff.mp (frame_heard halive hup))).trans (if_pos (congrArg (!·) hfcs))

variable (hfcs : f.fcsOk = true)
include hfcs

theorem frameFx_unfit (hbad : 1506 < f.len ∨ (f.vid ≠ none ∧ f.vid ≠ some 0)) : frameFx l f s = uplCount (linkIdx l) s := by
  have hform : (decide (1506 < f.len) || !(f.vid == none || f.vid == some 0)) = true := by
    rcases hbad with h | ⟨h, k⟩
    · simp [h]
    · simp [Option.isSome_iff_ne_none.mpr h, k]
  exact ((if_neg (Bool.eq_false_iff.mp (frame_heard halive hup))).trans (if_neg (Bool.eq_false_iff.mp (congrArg (!·) hfcs)))).trans (if_pos hform)

/-- A frame with an RCT that carries nothing for the supervisor goes through the node table alone. -/
theorem frameFx_redundant {seq lan : Nat} (hlen : f.len ≤ 1506) (hvid : f.vid = none) (hbody : f.body = .other)
    (hrct : f.rct = some (seq, lan)) : frameFx l f s = (prpFx l f.src seq lan (uplCount (linkIdx l) s)).1 := by
  unfold frameFx
  rw [if_neg (Bool.eq_false_iff.mp (frame_heard halive hup)), if_neg (Bool.eq_false_iff.mp (congrArg (!·) hfcs))]
  simp only [hbody, hrct, hvid, Nat.not_lt.mpr hlen, decide_false, Bool.false_or, beq_self_eq_true, Bool.true_or, Bool.not_true,
    Bool.false_eq_true, if_false, ite_self]

end frames

section nodes
variable {s : State} {l : Link} {src seq : Nat}

/-- The RCT names the network of its link. -/
theorem prpFx_ofLink : prpFx l src seq (0xA + linkIdx l) s = match s.upl.nodes.find? fun n => n.mac == src with
    | some n =>
      let live := n.seen.filter fun e => decide (s.smp.timeNs ≤ e.2 + entryForget)
      let put (seen : List (Nat × Nat)) : State :=
        modUpl (fun u => { u with nodes := u.nodes.map fun x => if x.mac == src then { x with seen := seen } else x }) s
      if live.any fun e => e.1 == seq then (uplCount 4 (put live), false) else (put ((seq, s.smp.timeNs) :: live), true)
    | none =>
      if s.upl.nodes.length < nodeMax then
        (modUpl (fun u => { u with nodes := { mac := src, seen := [(seq, s.smp.timeNs)] } :: u.nodes }) s, true)
      else (raise 0x0D 13 (uplCount 6 s), true) := by
  have hlan : ¬ (0xA + linkIdx l ≠ match l with | .A => 0xA | .B => 0xB) := by cases l <;> exact not_not_intro rfl
  unfold prpFx
  exact if_neg hlan

theorem prpFx_first (hnew : s.upl.nodes.find? (fun n => n.mac == src) = none) (hroom : s.upl.nodes.length < 128) :
    (prpFx l src seq (0xA + linkIdx l) s).1 =
      modUpl (fun u => { u with nodes := { mac := src, seen := [(seq, s.smp.timeNs)] } :: u.nodes }) s := by
  rw [prpFx_ofLink, hnew]
  exact congrArg Prod.fst (if_pos hroom)

theorem prpFx_second {n : PrpNode} (hknown : s.upl.nodes.find? (fun n => n.mac == src) = some n)
    (hseen : (n.seen.any fun e => e.1 == seq && decide (s.smp.timeNs ≤ e.2 + 400000000)) = true) :
    ∃ seen, (prpFx l src seq (0xA + linkIdx l) s).1 = uplCount 4
      (modUpl (fun u => { u with nodes := u.nodes.map fun x => if x.mac == src then { x with seen := seen } else x }) s) := by
  have hdup : ((n.seen.filter fun e => decide (s.smp.timeNs ≤ e.2 + entryForget)).any fun e => e.1 == seq) = true := by
    rw [List.any_filter, ← hseen]
    exact congrArg n.seen.any (funext fun e => Bool.and_comm _ _)
  rw [prpFx_ofLink, hknown]
  exact ⟨_, congrArg Prod.fst (if_pos hdup)⟩

end nodes

theorem macs_of_seen (nodes : List PrpNode) (src : Nat) (seen : List (Nat × Nat)) :
    (nodes.map fun x => if x.mac == src then { x with seen := seen } else x).map PrpNode.mac = nodes.map PrpNode.mac := by
  rw [List.map_map]
  refine List.map_congr_left fun x _ => ?_
  exact (apply_ite PrpNode.mac _ _ _).trans (ite_self _)

/-! ### Answers -/

/-- A command that sends and does nothing else. -/
theorem effect_of_sends {c : Instr} {g : State → State} {o : List Out} {s : State} (hset : settled s) (hexec : exec c s = act g s)
    (hg : g { s with out := [] } = { s with out := o }) : effect c id [] o s :=
  effect_of_silent hexec hg (settled_congr hset rfl rfl rfl rfl rfl) rfl rfl rfl

/-- A command that changes the uplinks alone, and sends. -/
theorem effect_of_upl {c : Instr} {g : State → State} {f : Upl → Upl} {o : List Out} {s : State} (hset : settled s) (hexec : exec c s = act g s)
    (hg : g { s with out := [] } = modUpl f { s with out := o }) : effect c (modUpl f) [] o s :=
  effect_of_silent hexec hg (settled_congr hset rfl rfl rfl rfl rfl) rfl rfl rfl

theorem icmpFx_answered {s : State} {v6 : Bool} {n : Nat}
    (h : n ≤ 64 ∧ (if s.upl.icmpSec = s.smp.timeNs / 1000000000 then s.upl.icmpN else 0) < 10) :
    icmpFx v6 n s = send (.echoReply v6 n) (modUpl (fun u => { u with
      icmpSec := s.smp.timeNs / 1000000000
      icmpN := (if s.upl.icmpSec = s.smp.timeNs / 1000000000 then s.upl.icmpN else 0) + 1 }) s) :=
  if_neg (by simpa using ⟨h.1, h.2⟩)

theorem icmpFx_dropped {s : State} {v6 : Bool} {n : Nat}
    (h : ¬ (n ≤ 64 ∧ (if s.upl.icmpSec = s.smp.timeNs / 1000000000 then s.upl.icmpN else 0) < 10)) : icmpFx v6 n s = uplCount 9 s :=
  if_pos (by simpa [Classical.or_iff_not_imp_left] using h)

/-- A reply of a DHCPv4 server, as it changes the uplinks (log entry 70). -/
def dhcpTaken (mode : Nat) (a m g : Word) (u : Upl) : Upl :=
  if mode ≠ 1 then u
  else if u.dhcp = 1 then { u with dhcp := 2, offered := a }
  else if u.dhcp = 2 ∧ u.offered = a then { u with dhcp := 3, ip4 := a, ip4Mask := m, ip4Gw := g }
  else u

theorem dhcpFx_eq (a m g : Word) (s : State) : dhcpFx a m g s = modUpl (dhcpTaken s.net.ip4Mode a m g)
    { s with out := if s.net.ip4Mode = 1 ∧ s.upl.dhcp = 1 then s.out ++ [.dhcpRequest a] else s.out } := by
  unfold dhcpFx
  split
  next h =>
    have hmode : s.net.ip4Mode ≠ 1 := by simpa using h
    simp only [modUpl, dhcpTaken, hmode, false_and, if_false, ne_eq, not_false_eq_true, if_true]
  next h =>
    have hmode : s.net.ip4Mode = 1 := by simpa using h
    split
    next hone => simp only [modUpl, send, dhcpTaken, hmode, hone, true_and, if_true, ne_eq, not_true_eq_false, if_false]
    next hone =>
      split
      next htwo =>
        have htwo : s.upl.dhcp = 2 ∧ s.upl.offered = a := by simpa using htwo
        simp only [modUpl, dhcpTaken, hmode, htwo, and_self, true_and, if_true, ne_eq, not_true_eq_false, if_false, OfNat.ofNat_ne_one]
      next htwo =>
        have htwo : ¬ (s.upl.dhcp = 2 ∧ s.upl.offered = a) := by simpa using htwo
        simp only [modUpl, dhcpTaken, hmode, hone, htwo, and_false, ne_eq, not_true_eq_false, if_false]

/-! ### The statement -/

section clauses
variable {s : State} (hset : settled s) (halive : alive s = true)
include hset

/-- A request that is answered where it is for the module. -/
theorem effect_of_answer {c : Instr} {o : Out} {p : Prop} [Decidable p] {b : State → Bool}
    (hexec : exec c s = act (fun s => if b s then send o s else s) s) (hb : b { s with out := [] } = true ↔ p) :
    effect c id [] (if p then [o] else []) s := by
  refine effect_of_sends hset hexec ?_
  by_cases hp : p
  · rw [if_pos (hb.mpr hp), if_pos hp]
    rfl
  · rw [if_neg fun h => hp (hb.mp h), if_neg hp]

include halive

theorem frame_badFcs {l : Link} {f : EthFrame} (hup : (uplink s l).up = true) (hfcs : f.fcsOk = false) :
    effect (.ethernetFrameReceived l f) (modUpl fun u => { u with cnt := bumpAt u.cnt (2 + linkIdx l) }) [] [] s :=
  effect_of_upl hset rfl (frameFx_badFcs (s := { s with out := [] }) halive hup hfcs)

theorem frame_unfit {l : Link} {f : EthFrame} (hup : (uplink s l).up = true) (hfcs : f.fcsOk = true)
    (hbad : 1506 < f.len ∨ (f.vid ≠ none ∧ f.vid ≠ some 0)) :
    effect (.ethernetFrameReceived l f) (modUpl fun u => { u with cnt := bumpAt u.cnt (linkIdx l) }) [] [] s :=
  effect_of_upl hset rfl (frameFx_unfit (s := { s with out := [] }) halive hup hfcs hbad)

theorem frame_first {l : Link} {f : EthFrame} {seq : Nat} (hup : (uplink s l).up = true) (hfcs : f.fcsOk = true) (hlen : f.len ≤ 1506)
    (hvid : f.vid = none) (hbody : f.body = .other) (hrct : f.rct = some (seq, 0xA + linkIdx l))
    (hnew : s.upl.nodes.find? (fun n => n.mac == f.src) = none) (hroom : s.upl.nodes.length < 128) :
    effect (.ethernetFrameReceived l f) (modUpl fun u => { u with
      cnt := bumpAt u.cnt (linkIdx l), nodes := { mac := f.src, seen := [(seq, s.smp.timeNs)] } :: u.nodes }) [] [] s :=
  effect_of_upl hset rfl ((frameFx_redundant (s := { s with out := [] }) halive hup hfcs hlen hvid hbody hrct).trans
    (prpFx_first (s := uplCount (linkIdx l) { s with out := [] }) hnew hroom))

theorem frame_second {l : Link} {f : EthFrame} {seq : Nat} {n : PrpNode} (hup : (uplink s l).up = true) (hfcs : f.fcsOk = true)
    (hlen : f.len ≤ 1506) (hvid : f.vid = none) (hbody : f.body = .other) (hrct : f.rct = some (seq, 0xA + linkIdx l))
    (hknown : s.upl.nodes.find? (fun n => n.mac == f.src) = some n)
    (hseen : (n.seen.any fun e => e.1 == seq && decide (s.smp.timeNs ≤ e.2 + 400000000)) = true) :
    ∃ t, exec (.ethernetFrameReceived l f) s = .next t ∧ t.out = [] ∧ t.ev = s.ev ∧
      t.upl.cnt = bumpAt (bumpAt s.upl.cnt (linkIdx l)) 4 ∧ t.upl.nodes.map PrpNode.mac = s.upl.nodes.map PrpNode.mac ∧
      still { t with upl := s.upl } = still s := by
  obtain ⟨seen, hdup⟩ := prpFx_second (s := uplCount (linkIdx l) { s with out := [] }) (l := l) hknown hseen
  have hfx := (frameFx_redundant (s := { s with out := [] }) halive hup hfcs hlen hvid hbody hrct).trans hdup
  exact ⟨_, act_eq_next hfx (settled_congr hset rfl rfl rfl rfl rfl), rfl, rfl, rfl, macs_of_seen _ _ _, rfl⟩

theorem icmp_answered {v6 : Bool} {n : Nat}
    (h : n ≤ 64 ∧ (if s.upl.icmpSec = s.smp.timeNs / 1000000000 then s.upl.icmpN else 0) < 10) :
    effect (.icmpEchoRequest v6 n) (modUpl fun u => { u with
      icmpSec := s.smp.timeNs / 1000000000
      icmpN := (if s.upl.icmpSec = s.smp.timeNs / 1000000000 then s.upl.icmpN else 0) + 1 }) [] [.echoReply v6 n] s :=
  effect_of_upl hset rfl ((if_pos halive).trans (icmpFx_answered (s := { s with out := [] }) h))

theorem icmp_dropped {v6 : Bool} {n : Nat}
    (h : ¬ (n ≤ 64 ∧ (if s.upl.icmpSec = s.smp.timeNs / 1000000000 then s.upl.icmpN else 0) < 10)) :
    effect (.icmpEchoRequest v6 n) (modUpl fun u => { u with cnt := bumpAt u.cnt 9 }) [] [] s :=
  effect_of_upl hset rfl ((if_pos halive).trans (icmpFx_dropped (s := { s with out := [] }) h))

theorem dhcp_effect {a m g : Word} : effect (.dhcpv4Reply a m g) (modUpl (dhcpTaken s.net.ip4Mode a m g)) []
    (if s.net.ip4Mode = 1 ∧ s.upl.dhcp = 1 then [.dhcpRequest a] else []) s :=
  effect_of_upl hset rfl ((if_pos halive).trans (dhcpFx_eq a m g { s with out := [] }))

end clauses

/-- Settles O34: each frame and each request changes the uplinks alone, and answers. -/
theorem framesAreCountedDeduplicatedAndAnswered : Obligations.FramesAreCountedDeduplicatedAndAnswered := by
  unfold Obligations.FramesAreCountedDeduplicatedAndAnswered
  intro s hset halive
  refine ⟨fun l f hup => ⟨frame_badFcs hset halive hup, frame_unfit hset halive hup, ?redundant⟩,
    effect_of_sends hset rfl (if_pos halive), fun mac => effect_of_upl hset rfl (if_pos halive), ?icmp, ?arp, ?solicited,
    fun a m g => dhcp_effect hset halive, fun l => effect_of_sends hset rfl (if_pos halive)⟩
  case redundant =>
    intro seq hfcs hlen hvid hbody hrct
    exact ⟨frame_first hset halive hup hfcs hlen hvid hbody hrct, fun n => frame_second hset halive hup hfcs hlen hvid hbody hrct⟩
  case icmp =>
    intro v6 n
    by_cases h : n ≤ 64 ∧ (if s.upl.icmpSec = s.smp.timeNs / 1000000000 then s.upl.icmpN else 0) < 10
    · exact (if_pos h : _ = _).mpr (icmp_answered hset halive h)
    · exact (if_neg h : _ = _).mpr (icmp_dropped hset halive h)
  case arp =>
    intro ip
    refine effect_of_answer hset (b := fun s => alive s && ip == s.upl.ip4 && s.upl.ip4 != 0) rfl ?_
    change (alive s && ip == s.upl.ip4 && s.upl.ip4 != 0) = true ↔ _
    simp only [halive, Bool.true_and, Bool.and_eq_true, beq_iff_eq, bne_iff_ne]
    exact ⟨fun h => ⟨h.1, h.1 ▸ h.2⟩, fun h => ⟨h.1, h.1 ▸ h.2⟩⟩
  case solicited =>
    intro ip
    refine effect_of_answer hset
      (b := fun s => alive s && (ip == linkLocal s || (ip == global6 s && ip != 0))) rfl ?_
    change (alive s && (ip == linkLocal s || (ip == global6 s && ip != 0))) = true ↔ _
    simp only [halive, Bool.true_and, Bool.or_eq_true, Bool.and_eq_true, beq_iff_eq, bne_iff_ne]

end Sys2Proof.Machine
end

section
/-! PTP on the uplinks (R306, R316 to R319): what its selection, its published grandmaster and its validity do to the uplinks, and what they
leave. -/

namespace Sys2Proof.Machine

open Sys2Proof

/-! ### What PTP leaves -/

/-- The timebase less what the loss of PTP does to it. -/
def sansLoss (m : Smp) : Smp := { m with tb := 0, holdTime := 0, inRun := 0, outRun := 0, slewUp := false, freqAdj := 0 }

/-- The state less the uplinks, the crossings and what the loss of PTP does to the timebase. -/
def sansPtp (s : State) : State := { sansXng s with upl := {}, xng := {}, smp := sansLoss s.smp }

/-- The uplinks as PTP's validity and the frames sent do not move them. -/
def uplKept (s : State) : Upl := { s.upl with rctSeq := 0, ptpValid := false }

theorem sansPtp_of_sansXng {s t : State} (h : sansXng t = sansXng s) : sansPtp t = sansPtp s :=
  congrArg (fun u : State => { u with upl := {}, xng := {}, smp := sansLoss u.smp }) h

theorem uplKept_of_sansXng {s t : State} (h : sansXng t = sansXng s) : uplKept t = uplKept s :=
  (congrArg (fun u : State => { u.upl with ptpValid := false }) h :)

theorem sansPtp_of_still {s t : State} (h : still t = still s) : sansPtp t = sansPtp s := sansPtp_of_sansXng (sansXng_of_still h)
theorem uplKept_of_still {s t : State} (h : still t = still s) : uplKept t = uplKept s := uplKept_of_sansXng (sansXng_of_still h)

theorem sansPtp_raise (s : State) (e n : Nat) : sansPtp (raise e n s) = sansPtp s := sansPtp_of_still (still_raise s e n)
theorem sansPtp_raiseIf (s : State) (b : Bool) (e n : Nat) : sansPtp (raiseIf b e n s) = sansPtp s := sansPtp_of_still (still_raiseIf s b e n)
theorem uplKept_raise (s : State) (e n : Nat) : uplKept (raise e n s) = uplKept s := uplKept_of_still (still_raise s e n)
theorem uplKept_raiseIf (s : State) (b : Bool) (e n : Nat) : uplKept (raiseIf b e n s) = uplKept s := uplKept_of_still (still_raiseIf s b e n)

theorem sameStores_of_sansPtp {s t : State} (h : sansPtp t = sansPtp s) : sameStores s t :=
  ⟨(congrArg State.fac h :), (congrArg State.nv h :), (congrArg State.recNv h :), (congrArg State.cfg h :), (congrArg State.net h :),
    (congrArg State.cfgPro h :), (congrArg State.cfgEst h :), (congrArg State.cfgImp h :), (congrArg State.cfgCtl h :),
    (congrArg State.cfgSmp h :), (congrArg State.image h :)⟩

/-! ### The loss of PTP -/

/-- The timebase when PTP is lost (Table 4.1). -/
def phaseLostSmp (m : Smp) : Smp :=
  if m.tb = 2 then { m with tb := 3, holdTime := 0, inRun := 0, outRun := 0, slewUp := false }
  else if m.tb = 1 then { m with tb := 0, inRun := 0, freqAdj := 0, slewUp := false }
  else { m with inRun := 0 }

theorem sansXng_phaseLost (s : State) : sansXng (phaseLost s) = sansXng (modSmp phaseLostSmp s) := by
  unfold phaseLost modSmp phaseLostSmp
  split
  · exact sansXng_pulse _ _ _
  · split <;> rfl

theorem sansPtp_phaseLost (s : State) : sansPtp (phaseLost s) = sansPtp s := by
  refine (sansPtp_of_sansXng (sansXng_phaseLost s)).trans ?_
  unfold modSmp phaseLostSmp
  split
  · rfl
  · split <;> rfl

/-- PTP's validity is lost: its flag, and a loss for a timebase that follows no peer. -/
def ptpLost (s : State) : State :=
  let s := raise 0x0D 9 (modUpl (fun u => { u with ptpValid := false }) s)
  if s.pai.follower then s else phaseLost s

theorem ptpCheck_same {s : State} (h : ptpGood s = s.upl.ptpValid) : ptpCheck s = s := if_pos h

theorem ptpCheck_lost {s : State} (hbad : ptpGood s = false) (hvalid : s.upl.ptpValid = true) : ptpCheck s = ptpLost s := by
  unfold ptpCheck ptpLost
  simp only [hbad, hvalid, Bool.false_eq_true, if_false]

theorem ptpCheck_gained {s : State} (hgood : ptpGood s = true) (hvalid : s.upl.ptpValid = false) :
    ptpCheck s = raise 0x0D 10 (modUpl (fun u => { u with ptpValid := true }) s) := by
  unfold ptpCheck
  simp only [hgood, hvalid, Bool.true_eq_false, if_false, if_true]

theorem sansPtp_ptpLost (s : State) : sansPtp (ptpLost s) = sansPtp s := by
  unfold ptpLost
  dsimp only
  split
  · exact sansPtp_raise _ _ _
  · exact (sansPtp_phaseLost _).trans (sansPtp_raise _ _ _)

theorem uplKept_ptpLost (s : State) : uplKept (ptpLost s) = uplKept s := by
  have hraised := uplKept_raise (modUpl (fun u => { u with ptpValid := false }) s) 0x0D 9
  unfold ptpLost
  dsimp only
  split
  · exact hraised
  · exact (uplKept_of_sansXng (sansXng_phaseLost _)).trans hraised

/-- Judging PTP's validity changes that alone among the uplinks. -/
theorem ptpCheck_keeps (s : State) : sansPtp (ptpCheck s) = sansPtp s ∧ uplKept (ptpCheck s) = uplKept s := by
  cases hgood : ptpGood s <;> cases hvalid : s.upl.ptpValid
  · rw [ptpCheck_same (hgood.trans hvalid.symm)]
    exact ⟨rfl, rfl⟩
  · rw [ptpCheck_lost hgood hvalid]
    exact ⟨sansPtp_ptpLost s, uplKept_ptpLost s⟩
  · rw [ptpCheck_gained hgood hvalid]
    exact ⟨sansPtp_raise _ _ _, uplKept_raise _ _ _⟩
  · rw [ptpCheck_same (hgood.trans hvalid.symm)]
    exact ⟨rfl, rfl⟩

/-! ### The selection -/

def linkOf (u : Upl) : Link → UpLink
  | .A => u.a
  | .B => u.b

theorem uplink_eq (s : State) (l : Link) : uplink s l = linkOf (uplKept s) l := by cases l <;> rfl

/-- The link that is selected. -/
def selected (u : Upl) : Option Link := if u.sel = 1 then some .A else if u.sel = 2 then some .B else none

theorem selected_link {u : Upl} {l : Link} (h : u.sel = linkIdx l + 1) : selected u = some l := by
  unfold selected
  rw [h]
  cases l <;> rfl

theorem selected_none {u : Upl} (h : u.sel = 0) : selected u = none := by
  unfold selected
  rw [h]
  rfl

/-- The port states of the links as the selection gives them (R317). -/
def portStates (u : Upl) : Upl :=
  let st (l : Link) (x : UpLink) : Nat :=
    if u.sel = linkIdx l + 1 then ptpSlave else if x.master.isSome then ptpPassiveSlave else ptpListening
  { u with a := { u.a with ptp := st .A u.a }, b := { u.b with ptp := st .B u.b } }

/-- The grandmaster of the selected link is published. -/
def published (u : Upl) : Upl := { u with gm := (selected u).bind fun l => (linkOf u l).master }

/-- The uplinks with the selection `sel`. -/
def reselected (sel : Nat) (u : Upl) : Upl := published (portStates { u with sel := sel })

theorem uplKept_ptpGm (s : State) : uplKept (ptpGm s) = published (uplKept s) := (uplKept_raiseIf _ _ _ _).trans rfl

theorem sansPtp_ptpGm (s : State) : sansPtp (ptpGm s) = sansPtp s := (sansPtp_raiseIf _ _ _ _).trans rfl

theorem ptpSelect_keeps (sel : Nat) (s : State) :
    sansPtp (ptpSelect sel s) = sansPtp s ∧ uplKept (ptpSelect sel s) = reselected sel (uplKept s) := by
  unfold ptpSelect
  split
  next h =>
    obtain ⟨hrest, hupl⟩ := ptpCheck_keeps (ptpGm (ptpStates s))
    have hsel : uplKept s = { uplKept s with sel := sel } := by rw [← h]; rfl
    refine ⟨hrest.trans ((sansPtp_ptpGm _).trans rfl), hupl.trans ((uplKept_ptpGm _).trans ?_)⟩
    unfold reselected
    rw [← hsel]
    rfl
  next h =>
    dsimp only
    generalize hmoved : ptpStates (modUpl (fun u => { u with sel := sel }) s) = t
    obtain ⟨hrest, hupl⟩ := ptpCheck_keeps (ptpGm (raiseIf (!decide (s.upl.sel = 0)) 0x0D 8 t))
    have hkept : sansPtp t = sansPtp s := by rw [← hmoved]; rfl
    have hstates : uplKept t = portStates { uplKept s with sel := sel } := by rw [← hmoved]; rfl
    refine ⟨hrest.trans ((sansPtp_ptpGm _).trans ((sansPtp_raiseIf _ _ _ _).trans hkept)), hupl.trans ((uplKept_ptpGm _).trans ?_)⟩
    rw [uplKept_raiseIf, hstates]
    rfl

section reselected
variable (sel : Nat) (u : Upl)

theorem reselected_master (l : Link) : (linkOf (reselected sel u) l).master = (linkOf u l).master := by cases l <;> rfl

theorem reselected_ptp (l : Link) (h : sel = linkIdx l + 1) : (linkOf (reselected sel u) l).ptp = ptpSlave := by
  subst h
  cases l <;> rfl

theorem reselected_gm (l : Link) (h : sel = linkIdx l + 1) : (reselected sel u).gm = (linkOf u l).master := by
  have hlink : selected (portStates { u with sel := sel }) = some l := selected_link h
  unfold reselected published
  rw [hlink]
  cases l <;> rfl

theorem reselected_gm_none (h : sel = 0) : (reselected sel u).gm = none := by
  have hlink : selected (portStates { u with sel := sel }) = none := selected_none h
  unfold reselected published
  rw [hlink]
  rfl

end reselected

/-! ### Links -/

@[simp] theorem uplink_modLink_same (l : Link) (f : UpLink → UpLink) (s : State) : uplink (modLink l f s) l = f (uplink s l) := by cases l <;> rfl

@[simp] theorem uplink_modLink_other (l : Link) (f : UpLink → UpLink) (s : State) :
    uplink (modLink l f s) (otherLink l) = uplink s (otherLink l) := by cases l <;> rfl

@[simp] theorem modLink_sel (l : Link) (f : UpLink → UpLink) (s : State) : (modLink l f s).upl.sel = s.upl.sel := by cases l <;> rfl

theorem modLink_valid (l : Link) (f : UpLink → UpLink) (s : State) : (modLink l f s).upl.ptpValid = s.upl.ptpValid := by cases l <;> rfl

theorem modLink_started (l : Link) (f : UpLink → UpLink) (s : State) : (modLink l f s).upl.ptpStarted = s.upl.ptpStarted := by cases l <;> rfl

/-- The link's own entry, and the other's, after a change of the link. -/
theorem linkOf_modLink_same (l : Link) (f : UpLink → UpLink) (s : State) : linkOf (uplKept (modLink l f s)) l = f (uplink s l) := by
  rw [← uplink_eq, uplink_modLink_same]

theorem linkOf_modLink_other (l : Link) (f : UpLink → UpLink) (s : State) :
    linkOf (uplKept (modLink l f s)) (otherLink l) = uplink s (otherLink l) := by
  rw [← uplink_eq, uplink_modLink_other]

/-! ### ANNOUNCE -/

/-- The master is noted and the selection made anew, whatever is marked of the start. -/
theorem announceFx_keeps (l : Link) (m : Master) (tie : Bool) (s : State) : let u := modLink l (fun x => { x with master := some m }) s
    sansPtp (announceFx l m tie s) = sansPtp s ∧
      ∃ b, uplKept (announceFx l m tie s) = { reselected (ptpChoice l m tie u) (uplKept u) with ptpStarted := b } := by
  obtain ⟨hrest, hupl⟩ := ptpSelect_keeps (ptpChoice l m tie (modLink l (fun x => { x with master := some m }) s))
    (modLink l (fun x => { x with master := some m }) s)
  unfold announceFx
  dsimp only
  split
  · exact ⟨hrest, true, (congrArg (fun u : Upl => { u with ptpStarted := true }) hupl :)⟩
  · exact ⟨hrest, _, hupl⟩

/-- What a command that moves PTP's selection to `sel` leaves, of which `u` were the uplinks. -/
structure Reselects (s : State) (sel : Nat) (u : Upl) (t : State) : Prop where
  selection : t.upl.sel = sel
  masters : ∀ l, (uplink t l).master = (linkOf u l).master
  slave : ∀ l, sel = linkIdx l + 1 → (uplink t l).ptp = ptpSlave
  gm : ∀ l, sel = linkIdx l + 1 → t.upl.gm = (linkOf u l).master
  gmNone : sel = 0 → t.upl.gm = none
  rest : sansPtp t = sansPtp s

theorem reselects_of_kept {s t : State} {sel : Nat} {u : Upl} {b : Bool} (hrest : sansPtp t = sansPtp s)
    (hupl : uplKept t = { reselected sel u with ptpStarted := b }) : Reselects s sel u t where
  selection := congrArg Upl.sel hupl
  masters l := by
    rw [uplink_eq, hupl, ← reselected_master sel u l]
    cases l <;> rfl
  slave l h := by
    rw [uplink_eq, hupl, ← reselected_ptp sel u l h]
    cases l <;> rfl
  gm l h := (congrArg Upl.gm hupl).trans (reselected_gm sel u l h)
  gmNone h := (congrArg Upl.gm hupl).trans (reselected_gm_none sel u h)
  rest := hrest

/-- The choice by the priorities of two grandmasters. -/
theorem ptpChoice_prio {l : Link} {m o : Master} {tie : Bool} {s : State} (ho : (uplink s (otherLink l)).master = some o) (hgm : o.gm ≠ m.gm)
    (hprio : m.prio1 ≠ o.prio1) : ptpChoice l m tie s = (if m.prio1 < o.prio1 then linkIdx l else linkIdx (otherLink l)) + 1 := by
  have hless : lexLess tie (masterRank m) (masterRank o) = decide (m.prio1 < o.prio1) := if_neg hprio
  unfold ptpChoice
  simp only [ho, hgm, hless, if_false, decide_eq_true_eq]
  split <;> rfl

/-- Where both links see one grandmaster the selection stays, but at the start it is link A. -/
theorem ptpChoice_kept {l : Link} {m o : Master} {tie : Bool} {s : State} (ho : (uplink s (otherLink l)).master = some o) (hgm : o.gm = m.gm)
    (hsel : s.upl.sel = linkIdx (otherLink l) + 1) : ptpChoice l m tie s = if s.upl.ptpStarted then s.upl.sel else 1 := by
  unfold ptpChoice
  simp only [ho, hgm, if_true, hsel, Nat.add_eq_zero_iff, Nat.one_ne_zero, and_false, if_false]

theorem ptpChoice_first {l : Link} {m : Master} {tie : Bool} {s : State} (ho : (uplink s (otherLink l)).master = none) (hsel : s.upl.sel = 0) :
    ptpChoice l m tie s = linkIdx l + 1 := by
  unfold ptpChoice
  simp only [ho, hsel, if_true]

/-- The receipt timeout of the selected link. -/
theorem announceTimeoutFx_selected {l : Link} {s : State} (hsel : s.upl.sel = linkIdx l + 1) :
    let v := uplCount 8 (modLink l (fun x => { x with master := none }) s)
    announceTimeoutFx l s = modUpl (fun u => { u with ptpStarted := true })
      (ptpSelect (if (uplink s (otherLink l)).master.isSome then linkIdx (otherLink l) + 1 else 0) v) := by
  have hcond : (uplCount 8 (modLink l (fun x => { x with master := none }) s)).upl.sel = linkIdx l + 1 := (modLink_sel _ _ _).trans hsel
  have hother : uplink (uplCount 8 (modLink l (fun x => { x with master := none }) s)) (otherLink l) = uplink s (otherLink l) := by
    cases l <;> rfl
  unfold announceTimeoutFx
  dsimp only
  rw [if_pos hcond, hother]

/-! ### SYNC and the timeouts -/

/-- A selected link on which the conditions of R318 hold. -/
def linkGood (s : State) (x : UpLink) : Bool :=
  x.ptp == ptpSlave && x.syncOk && x.pdelayOk && x.master.any fun m => decide (m.cls ≤ s.net.classMax)

theorem ptpGood_link {s : State} {l : Link} (h : s.upl.sel = linkIdx l + 1) : ptpGood s = linkGood s (uplink s l) := by
  have hlink : selLink s = some l := selected_link h
  unfold ptpGood linkGood
  rw [hlink]
  dsimp only
  cases (uplink s l).master <;> rfl

/-- What a good PTP has. -/
theorem sel_of_ptpGood {s : State} (h : ptpGood s = true) : ∃ l, s.upl.sel = linkIdx l + 1 := by
  unfold ptpGood selLink at h
  by_cases h1 : s.upl.sel = 1
  · exact ⟨.A, h1⟩
  · by_cases h2 : s.upl.sel = 2
    · exact ⟨.B, h2⟩
    · simp [h1, h2] at h

theorem linkGood_synced {s : State} {x : UpLink} (e : Int) (h : linkGood s x = true) :
    linkGood s { x with offset := e, syncOk := true } = true := by
  simp only [linkGood, Bool.and_eq_true] at h ⊢
  obtain ⟨⟨⟨hptp, -⟩, hdelay⟩, hmaster⟩ := h
  exact ⟨⟨⟨hptp, trivial⟩, hdelay⟩, hmaster⟩

/-- What is not selected does not count. -/
theorem ptpGood_modLink_ne {l : Link} {f : UpLink → UpLink} {s : State} (hsel : s.upl.sel ≠ linkIdx l + 1) :
    ptpGood (modLink l f s) = ptpGood s := by
  have hlink : selLink (modLink l f s) = selLink s := by
    unfold selLink
    rw [modLink_sel]
  by_cases hk : ∃ k, s.upl.sel = linkIdx k + 1
  · obtain ⟨k, hk⟩ := hk
    rw [ptpGood_link hk, ptpGood_link ((modLink_sel l f s).trans hk)]
    cases k <;> cases l
    case A.A => exact absurd hk hsel
    case B.B => exact absurd hk hsel
    case A.B => rfl
    case B.A => rfl
  · have hbad (u : State) (hu : u.upl.sel = s.upl.sel) : ptpGood u = false :=
      Bool.eq_false_iff.mpr fun h => hk ((sel_of_ptpGood h).imp fun k hsel => hu ▸ hsel)
    rw [hbad s rfl, hbad _ (modLink_sel l f s)]

/-- A Sync with the offset `e` is counted and stored; `d` is the difference of the links' offsets. -/
def syncNoted (l : Link) (e d : Int) (s : State) : State :=
  modUpl (fun u => { u with ptpDiff := d }) (uplCount 7 (modLink l (fun x => { x with offset := -e, syncOk := true }) s))

theorem ptpGood_syncNoted {l : Link} {e d : Int} {s : State} (h : ptpGood s = true) : ptpGood (syncNoted l e d s) = true := by
  obtain ⟨k, hk⟩ := sel_of_ptpGood h
  have hsel : (syncNoted l e d s).upl.sel = linkIdx k + 1 := (modLink_sel l (fun x => { x with offset := -e, syncOk := true }) s).trans hk
  rw [ptpGood_link hk] at h
  rw [ptpGood_link hsel]
  cases k <;> cases l
  case A.B => exact h
  case B.A => exact h
  case A.A => exact linkGood_synced _ h
  case B.B => exact linkGood_synced _ h

/-- A Sync while PTP is good and valid: on the selected link its phase error is offered. -/
theorem syncFx_good {l : Link} {e : Int} {s : State} (hgood : ptpGood s = true) (hvalid : s.upl.ptpValid = true) :
    ∃ d, syncFx l e s = if s.upl.sel = linkIdx l + 1 then offer 0x20 (.phase e) (syncNoted l e d s) else syncNoted l e d s := by
  obtain ⟨k, hk⟩ := sel_of_ptpGood hgood
  let u := uplCount 7 (modLink l (fun x => { x with offset := -e, syncOk := true }) s)
  let d := (uplink u (otherLink k)).offset - (uplink u k).offset
  have hlink : selLink u = some k := selected_link ((modLink_sel l (fun x => { x with offset := -e, syncOk := true }) s).trans hk)
  have hsel : (syncNoted l e d s).upl.sel = s.upl.sel := modLink_sel l (fun x => { x with offset := -e, syncOk := true }) s
  have hstill : (syncNoted l e d s).upl.ptpValid = true := (modLink_valid l (fun x => { x with offset := -e, syncOk := true }) s).trans hvalid
  have hsame : ptpCheck (syncNoted l e d s) = syncNoted l e d s := ptpCheck_same ((ptpGood_syncNoted hgood).trans hstill.symm)
  have hfx : syncFx l e s = if (decide ((ptpCheck (syncNoted l e d s)).upl.sel = linkIdx l + 1) && (ptpCheck (syncNoted l e d s)).upl.ptpValid) = true
      then offer 0x20 (.phase e) (ptpCheck (syncNoted l e d s)) else ptpCheck (syncNoted l e d s) := by
    unfold syncFx
    change (let s := match selLink u with
      | some k => modUpl (fun v => { v with ptpDiff := (uplink u (otherLink k)).offset - (uplink u k).offset }) u
      | none => u
      let s := ptpCheck s
      if (decide (s.upl.sel = linkIdx l + 1) && s.upl.ptpValid) = true then offer 0x20 (.phase e) s else s) = _
    rw [hlink]
    rfl
  refine ⟨d, ?_⟩
  rw [hfx, hsame, hstill, hsel, Bool.and_true]
  simp only [decide_eq_true_eq]

/-- What an offer leaves to be taken over its crossing. -/
theorem offer_cur {s : State} {x : Nat} (h : x < s.xng.xrec.length) (v : XVal) : ((offer x v s).xr x).cur = some v := by
  have hcur (f : Xrec → Xrec) (u : State) (hu : (u.xr x).cur = some v) (hf : ∀ r, (f r).cur = r.cur) : ((modX x f u).xr x).cur = some v := by
    rw [← hu]
    simp only [State.xr, modX, List.getD_eq_getElem?_getD, List.getElem?_modify]
    cases u.xng.xrec[x]? <;> simp [hf]
  have hset : ((modX x (fun r => { r with cur := some v }) s).xr x).cur = some v := by simp [State.xr, h]
  have hstill (u : State) : (((still u).xr x).cur) = (u.xr x).cur := by
    simp only [State.xr, still, List.getD_eq_getElem?_getD, List.getElem?_map]
    cases u.xng.xrec[x]? <;> rfl
  unfold offer
  dsimp only
  split
  · exact hset
  · split
    · split
      · exact hset
      · refine (of_still (fun u => (u.xr x).cur) hstill ?_).trans hset
        unfold refuse
        dsimp only
        split
        · exact still_modX _ _ _ fun _ => rfl
        · exact (still_raiseXng _ _).trans (still_modX _ _ _ fun _ => rfl)
    · split
      · exact hcur _ _ hset fun _ => rfl
      · exact hcur _ _ hset fun _ => rfl

theorem uplink_of_sansXng {s t : State} (h : sansXng t = sansXng s) (l : Link) : uplink t l = uplink s l := by
  rw [uplink_eq, uplink_eq, uplKept_of_sansXng h]

/-- The state once PTP's validity is lost, but for what is reported of it. -/
def lostView (s : State) : State :=
  { s with upl := { s.upl with ptpValid := false }, smp := if s.pai.follower then s.smp else phaseLostSmp s.smp }

theorem sansXng_ptpLost (s : State) : sansXng (ptpLost s) = sansXng (lostView s) := by
  have hraised := sansXng_of_still (still_raise (modUpl (fun u => { u with ptpValid := false }) s) 0x0D 9)
  unfold ptpLost lostView
  dsimp only
  rw [raise_pai, modUpl_pai]
  split
  · exact hraised
  · exact (sansXng_phaseLost _).trans (congrArg (modSmp phaseLostSmp) hraised)

/-- A link that has had no Sync, or no path delay, in time. -/
def linkLapsed (pdelay : Bool) (x : UpLink) : UpLink := if pdelay then { x with pdelayOk := false } else { x with syncOk := false }

theorem linkGood_lapsed (s : State) (pdelay : Bool) (x : UpLink) : linkGood s (linkLapsed pdelay x) = false := by
  cases pdelay <;> simp [linkGood, linkLapsed]

theorem uplink_lostView (s : State) (l : Link) : uplink (lostView s) l = uplink s l := by cases l <;> rfl

/-! ### Links that fall or come up -/

/-- A DHCPv4 client that has no address asks for one. -/
def dhcpAsks (s : State) : Bool := s.net.ip4Mode == 1 && s.upl.dhcp != 3

theorem dhcpStart_eq (s : State) : dhcpStart s = { modUpl (fun u => { u with dhcp := if dhcpAsks s then 1 else u.dhcp }) s with
    out := if dhcpAsks s then s.out ++ [.dhcpDiscover] else s.out } := by
  have hasks : (decide (s.net.ip4Mode = 1) && s.upl.dhcp != 3) = dhcpAsks s := by
    rw [dhcpAsks, beq_eq_decide]
  unfold dhcpStart
  rw [hasks]
  cases dhcpAsks s <;> rfl

theorem linkChangeFx_falls {l : Link} {s : State} (hup : (uplink s l).up = true) :
    linkChangeFx l false s = raise 0x0D (linkIdx l) (modLink l (fun x => { x with up := false }) s) := by
  unfold linkChangeFx
  simp only [hup, Bool.false_and, Bool.false_eq_true, if_false, Nat.zero_add]

theorem linkChangeFx_rises {l : Link} {s : State} (hdown : (uplink s l).up = false) (hon : (uplink s l).off = false) :
    linkChangeFx l true s = dhcpStart (raise 0x0D (2 + linkIdx l) (modLink l (fun x => { x with up := true }) s)) := by
  unfold linkChangeFx
  simp only [hdown, hon, Bool.not_false, Bool.and_true, Bool.true_eq_false, if_false, if_true]

/-! ### The statement -/

section clauses
variable {s : State} (hset : settled s) (halive : alive s = true)
include halive

/-- An ANNOUNCE of the module's domain on a link that is up. -/
theorem announce_selects {l : Link} {m : Master} {b : Bool} (hup : (uplink s l).up = true) (hdomain : m.domain = s.net.domain) :
    let u := modLink l (fun x => { x with master := some m }) s
    ∃ t, exec (.announce l m b) s = .next t ∧ Reselects s (ptpChoice l m b u) (uplKept u) t := by
  let r : State := { s with out := [] }
  have hheard : (alive r && (uplink r l).up && m.domain == r.net.domain) = true := by
    change (alive s && (uplink s l).up && m.domain == s.net.domain) = true
    simp [halive, hup, hdomain]
  have hexec : exec (.announce l m b) s =
      act (fun s => if alive s && (uplink s l).up && m.domain == s.net.domain then announceFx l m b s else s) s := rfl
  obtain ⟨t, hnext, hstill⟩ := next_of_act hexec (if_pos hheard)
  obtain ⟨hrest, started, hupl⟩ := announceFx_keeps l m b r
  have hchoice : ptpChoice l m b (modLink l (fun x => { x with master := some m }) r) =
      ptpChoice l m b (modLink l (fun x => { x with master := some m }) s) := rfl
  exact ⟨t, hnext, reselects_of_kept ((sansPtp_of_still hstill).trans hrest) ((uplKept_of_still hstill).trans (hchoice ▸ hupl))⟩

theorem announceTimeout_selects {l : Link} (hmaster : (uplink s l).master.isSome = true) (hsel : s.upl.sel = linkIdx l + 1) :
    let u := modLink l (fun x => { x with master := none }) s
    ∃ t, exec (.announceReceiptTimeout l) s = .next t ∧
      Reselects s (if (uplink s (otherLink l)).master.isSome then linkIdx (otherLink l) + 1 else 0) (uplKept (uplCount 8 u)) t := by
  let r : State := { s with out := [] }
  have hheard : (alive r && (uplink r l).master.isSome) = true := Bool.and_eq_true_iff.mpr ⟨halive, hmaster⟩
  have hexec : exec (.announceReceiptTimeout l) s =
      act (fun s => if alive s && (uplink s l).master.isSome then announceTimeoutFx l s else s) s := rfl
  obtain ⟨t, hnext, hstill⟩ := next_of_act hexec ((if_pos hheard).trans (announceTimeoutFx_selected (s := r) hsel))
  obtain ⟨hrest, hupl⟩ := ptpSelect_keeps (if (uplink s (otherLink l)).master.isSome then linkIdx (otherLink l) + 1 else 0)
    (uplCount 8 (modLink l (fun x => { x with master := none }) r))
  exact ⟨t, hnext, reselects_of_kept ((sansPtp_of_still hstill).trans hrest)
    ((uplKept_of_still hstill).trans (congrArg (fun u : Upl => { u with ptpStarted := true }) hupl :))⟩

include hset

/-- A Sync of the module's domain and range while PTP is good and valid. -/
theorem sync_offers {l : Link} {e n : Int} (hlow : -4 ≤ n) (hhigh : n ≤ 0) (hup : (uplink s l).up = true) (hvalid : s.upl.ptpValid = true)
    (hgood : ptpGood s = true) : let e' := e + asymmetry s l
    ∃ t, exec (.sync l ⟨e, s.net.domain, n⟩) s = .next t ∧ (uplink t l).offset = -e' ∧ (uplink t l).syncOk = true ∧ t.upl.ptpValid = true ∧
      (s.upl.sel = linkIdx l + 1 → 0x20 < s.xng.xrec.length → (t.xr 0x20).cur = some (.phase e')) ∧
      (s.upl.sel ≠ linkIdx l + 1 → t.xr 0x20 = s.xr 0x20) ∧ t.smp = s.smp ∧ sameStores s t ∧ t.pro = s.pro ∧ t.ctl = s.ctl := by
  let r : State := { s with out := [] }
  have hheard : (alive r && (uplink r l).up && s.net.domain == r.net.domain && decide (-4 ≤ n) && decide (n ≤ 0)) = true := by
    change (alive s && (uplink s l).up && s.net.domain == s.net.domain && decide (-4 ≤ n) && decide (n ≤ 0)) = true
    simp [halive, hup, hlow, hhigh]
  obtain ⟨d, hfx⟩ := syncFx_good (s := r) (l := l) (e := e + asymmetry s l) hgood hvalid
  let v : State := syncNoted l (e + asymmetry s l) d r
  have hlink : uplink v l = { uplink s l with offset := -(e + asymmetry s l), syncOk := true } := by cases l <;> rfl
  have hvvalid : v.upl.ptpValid = true := (modLink_valid l _ r).trans hvalid
  have hexec : exec (.sync l ⟨e, s.net.domain, n⟩) s = act (fun u =>
      if alive u && (uplink u l).up && s.net.domain == u.net.domain && decide (-4 ≤ n) && decide (n ≤ 0) then
        syncFx l (e + asymmetry u l) u
      else u) s := rfl
  obtain ⟨t, hnext, hstill, hoffers⟩ : ∃ t, exec (.sync l ⟨e, s.net.domain, n⟩) s = .next t ∧ sansXng t = sansXng v ∧
      (s.upl.sel = linkIdx l + 1 → 0x20 < s.xng.xrec.length → (t.xr 0x20).cur = some (.phase (e + asymmetry s l))) ∧
      (s.upl.sel ≠ linkIdx l + 1 → t.xr 0x20 = s.xr 0x20) := by
    by_cases hsel : s.upl.sel = linkIdx l + 1
    · obtain ⟨t, hnext, hstill⟩ := next_of_act hexec (((if_pos hheard).trans hfx).trans (if_pos hsel))
      have hcur (u : State) : ((still u).xr 0x20).cur = (u.xr 0x20).cur := by
        simp only [State.xr, still, List.getD_eq_getElem?_getD, List.getElem?_map]
        cases u.xng.xrec[0x20]? <;> rfl
      exact ⟨t, hnext, (sansXng_of_still hstill).trans (sansXng_offer _ _ _),
        fun _ hx => (of_still (fun u => (u.xr 0x20).cur) hcur hstill).trans (offer_cur (s := v) hx _), fun h => absurd hsel h⟩
    · exact ⟨_, hexec.trans (act_eq_next (((if_pos hheard).trans hfx).trans (if_neg hsel)) (settled_congr hset rfl rfl rfl rfl rfl)),
        sansXng_of_still (still_transmit v s), fun h => absurd h hsel, fun _ => rfl⟩
  have hstores : sameStores s t := sameStores_of_sansPtp (s := v) (sansPtp_of_sansXng hstill)
  refine ⟨t, hnext, ?_, ?_, (congrArg (fun u : State => u.upl.ptpValid) hstill :).trans hvvalid, hoffers.1, hoffers.2,
    (congrArg State.smp hstill :), hstores, (congrArg State.pro hstill :), (congrArg State.ctl hstill :)⟩
  · rw [uplink_of_sansXng hstill, hlink]
  · rw [uplink_of_sansXng hstill, hlink]

omit hset in
/-- PTP is lost with what the selected link lost. -/
theorem ptpTimeout_loses {l : Link} {pdelay : Bool} (hsel : s.upl.sel = linkIdx l + 1) (hvalid : s.upl.ptpValid = true) :
    ∃ t, exec (.ptpValidTimeout ⟨l, pdelay⟩) s = .next t ∧ sansXng t = sansXng (lostView (modLink l (linkLapsed pdelay) s)) := by
  let u : State := modLink l (linkLapsed pdelay) { s with out := [] }
  have hbad : ptpGood u = false := by
    rw [ptpGood_link (s := u) (l := l) ((modLink_sel l _ _).trans hsel), uplink_modLink_same]
    exact linkGood_lapsed _ _ _
  have hlost : ptpCheck u = ptpLost u := ptpCheck_lost hbad ((modLink_valid l _ _).trans hvalid)
  have hexec : exec (.ptpValidTimeout ⟨l, pdelay⟩) s =
      act (fun s => if alive s then ptpCheck (modLink l (linkLapsed pdelay) s) else s) s := rfl
  obtain ⟨t, hnext, hstill⟩ := next_of_act hexec ((if_pos halive).trans hlost)
  exact ⟨t, hnext, (sansXng_of_still hstill).trans (sansXng_ptpLost u)⟩

theorem pdelayResp_stored {l : Link} {d : Nat} (hup : (uplink s l).up = true) (hsel : s.upl.sel ≠ linkIdx l + 1)
    (hsame : ptpGood s = s.upl.ptpValid) :
    effect (.pdelayResp l d) (modLink l fun x => { x with pdelay := d, pdelayOk := true }) [] [] s := by
  let r : State := { s with out := [] }
  let u : State := modLink l (fun x => { x with pdelay := d, pdelayOk := true }) r
  have hgood : ptpGood u = ptpGood s := ptpGood_modLink_ne (s := r) hsel
  have hheard : (alive r && (uplink r l).up) = true := Bool.and_eq_true_iff.mpr ⟨halive, hup⟩
  have hchecked : ptpCheck u = u := ptpCheck_same (hgood.trans (hsame.trans (modLink_valid l _ r).symm))
  exact effect_of_silent rfl ((if_pos hheard).trans hchecked) (settled_congr hset rfl rfl rfl rfl rfl) rfl rfl rfl

theorem link_falls {l : Link} (hup : (uplink s l).up = true) :
    effect (.linkStateChange l false) (modLink l fun x => { x with up := false }) [(0x0D, linkIdx l)] [] s :=
  effect_of_raise (g := fun s => if alive s then linkChangeFx l false s else s) rfl
    ((if_pos halive).trans (linkChangeFx_falls (s := { s with out := [] }) hup)) (settled_congr hset rfl rfl rfl rfl rfl) rfl rfl rfl rfl

theorem link_rises {l : Link} (hdown : (uplink s l).up = false) (hon : (uplink s l).off = false) :
    effect (.linkStateChange l true) (fun s => modUpl (fun u => { u with dhcp := if dhcpAsks s then 1 else u.dhcp })
      (modLink l (fun x => { x with up := true }) s)) [(0x0D, 2 + linkIdx l)] (if dhcpAsks s then [.dhcpDiscover] else []) s := by
  obtain ⟨u, hu⟩ : ∃ u : State, u = modLink l (fun x => { x with up := true }) { s with out := [] } := ⟨_, rfl⟩
  have hset' : settled (raise 0x0D (2 + linkIdx l) u) := settled_raise (by rw [hu]; exact settled_congr hset rfl rfl rfl rfl rfl) _ _
  have hflags : flagged [(0x0D, 2 + linkIdx l)] s (raise 0x0D (2 + linkIdx l) u) :=
    flagged_one (u := u) rfl (by rw [hu]; cases l <;> rfl) rfl
  have hstill : still (raise 0x0D (2 + linkIdx l) u) = still (modLink l (fun x => { x with up := true }) s) :=
    (still_raise _ _ _).trans (by rw [hu]; cases l <;> rfl)
  have hout : (raise 0x0D (2 + linkIdx l) u).out = [] := (raise_out _ _ _).trans (by rw [hu]; cases l <;> rfl)
  have hfx := (linkChangeFx_rises (s := { s with out := [] }) hdown hon).trans (dhcpStart_eq _)
  have hasks : dhcpAsks (raise 0x0D (2 + linkIdx l) u) = dhcpAsks s := by
    unfold dhcpAsks
    rw [raise_net, raise_upl, hu]
    cases l <;> rfl
  rw [← hu, hasks] at hfx
  generalize raise 0x0D (2 + linkIdx l) u = w at *
  refine effect_of_act (g := fun s => if alive s then linkChangeFx l true s else s) rfl ((if_pos halive).trans hfx)
    (settled_congr hset' rfl rfl rfl rfl rfl) ?_ hflags ?_
  · exact (congrArg (modUpl fun x => { x with dhcp := if dhcpAsks s then 1 else x.dhcp }) hstill :)
  · rw [hout, List.nil_append]

end clauses

/-- Settles O35: what PTP does beside the uplinks is the loss of the timebase's reference alone. -/
theorem ptpFollowsItsLinks : Obligations.PtpFollowsItsLinks := by
  unfold Obligations.PtpFollowsItsLinks
  intro s hset halive
  refine ⟨?announceElsewhere, ?syncElsewhere, ?announceKept, ?announcePrio, ?announceFirst, ?timeout, ?sync, ?lost,
    effect_of_sends hset rfl (if_pos halive), ?pdelayReq, fun l d hup hsel hsame => pdelayResp_stored hset halive hup hsel hsame,
    fun l hup => link_falls hset halive hup, fun l hdown hon => link_rises hset halive hdown hon⟩
  case announceElsewhere =>
    intro l m b hdomain
    have hdeaf : (alive s && (uplink s l).up && m.domain == s.net.domain) = false := by simp [hdomain]
    exact effect_of_sends (g := fun s => if alive s && (uplink s l).up && m.domain == s.net.domain then announceFx l m b s else s) hset rfl
      (if_neg (Bool.eq_false_iff.mp hdeaf))
  case syncElsewhere =>
    intro l e d n hbad
    have hdeaf : (alive s && (uplink s l).up && d == s.net.domain && decide (-4 ≤ n) && decide (n ≤ 0)) = false := by
      rcases hbad with h | h | h
      · simp [h]
      · simp [Int.not_le.mpr h]
      · simp [Int.not_le.mpr h]
    exact effect_of_sends (g := fun s => if alive s && (uplink s l).up && d == s.net.domain && decide (-4 ≤ n) && decide (n ≤ 0) then
      syncFx l (e + asymmetry s l) s else s) hset rfl (if_neg (Bool.eq_false_iff.mp hdeaf))
  case announceKept =>
    intro l m o b hup hdomain hsel ho hgm
    obtain ⟨t, hexec, h⟩ := announce_selects halive (b := b) hup hdomain
    have hchoice := ptpChoice_kept (tie := b) (s := modLink l (fun x => { x with master := some m }) s)
      ((congrArg UpLink.master (uplink_modLink_other _ _ _)).trans ho) hgm ((modLink_sel _ _ _).trans hsel)
    rw [modLink_started, modLink_sel] at hchoice
    exact ⟨t, hexec, h.selection.trans hchoice, (h.masters l).trans (congrArg UpLink.master (linkOf_modLink_same _ _ _)),
      sameStores_of_sansPtp h.rest, (congrArg State.pro h.rest :)⟩
  case announcePrio =>
    intro l m o b hup hdomain ho hgm hprio
    obtain ⟨t, hexec, h⟩ := announce_selects halive (b := b) hup hdomain
    have hchoice := ptpChoice_prio (tie := b) (s := modLink l (fun x => { x with master := some m }) s)
      ((congrArg UpLink.master (uplink_modLink_other _ _ _)).trans ho) hgm hprio
    exact ⟨t, hexec, h.selection.trans hchoice, (h.masters l).trans (congrArg UpLink.master (linkOf_modLink_same _ _ _)),
      sameStores_of_sansPtp h.rest, (congrArg State.pro h.rest :)⟩
  case announceFirst =>
    intro l m b hup hdomain hsel ho
    obtain ⟨t, hexec, h⟩ := announce_selects halive (b := b) hup hdomain
    have hchoice := ptpChoice_first (m := m) (tie := b) (s := modLink l (fun x => { x with master := some m }) s)
      ((congrArg UpLink.master (uplink_modLink_other _ _ _)).trans ho) ((modLink_sel _ _ _).trans hsel)
    have hown := congrArg UpLink.master (linkOf_modLink_same l (fun x => { x with master := some m }) s)
    exact ⟨t, hexec, (h.masters l).trans hown, h.selection.trans hchoice, (h.gm l hchoice).trans hown, h.slave l hchoice,
      sameStores_of_sansPtp h.rest, (congrArg State.pro h.rest :), (congrArg State.ctl h.rest :)⟩
  case timeout =>
    intro l hmaster hsel
    obtain ⟨t, hexec, h⟩ := announceTimeout_selects halive hmaster hsel
    have hown := congrArg UpLink.master (linkOf_modLink_same l (fun x => { x with master := none }) s)
    have hother := congrArg UpLink.master (linkOf_modLink_other l (fun x => { x with master := none }) s)
    have hgm : t.upl.gm = (uplink s (otherLink l)).master := by
      cases ho : (uplink s (otherLink l)).master with
      | none => exact h.gmNone (by rw [ho]; rfl)
      | some o => exact (h.gm (otherLink l) (by rw [ho]; rfl)).trans (hother.trans ho)
    exact ⟨t, hexec, (h.masters l).trans hown, h.selection, hgm, sameStores_of_sansPtp h.rest, (congrArg State.pro h.rest :),
      (congrArg State.ctl h.rest :)⟩
  case sync =>
    intro l e n hlow hhigh hup hvalid hgood
    exact sync_offers hset halive hlow hhigh hup hvalid hgood
  case lost =>
    intro l pdelay hup hsel hvalid
    obtain ⟨t, hexec, hleft⟩ := ptpTimeout_loses halive hsel hvalid (pdelay := pdelay)
    have hlinks (k : Link) : uplink t k = uplink (modLink l (linkLapsed pdelay) s) k := (uplink_of_sansXng hleft k).trans (uplink_lostView _ k)
    have hown : uplink t l = linkLapsed pdelay (uplink s l) := (hlinks l).trans (uplink_modLink_same _ _ _)
    have hsmp : t.smp = if s.pai.follower then s.smp else phaseLostSmp s.smp := (congrArg State.smp hleft :)
    refine ⟨t, hexec, ?_, ?_, (congrArg (fun u : State => u.upl.ptpValid) hleft :), (hlinks _).trans (uplink_modLink_other _ _ _), ?_, ?_,
      sameStores_of_sansPtp (s := lostView (modLink l (linkLapsed pdelay) s)) (sansPtp_of_sansXng hleft), (congrArg State.pro hleft :),
      (congrArg State.ctl hleft :)⟩
    · rw [hown]
      cases pdelay <;> rfl
    · rw [hown]
      cases pdelay <;> rfl
    · intro hfollows hlocked
      rw [hsmp, hfollows, if_neg Bool.false_ne_true, phaseLostSmp, if_pos hlocked]
      exact ⟨rfl, rfl⟩
    · intro hfollows
      rw [hsmp, if_pos hfollows]
  case pdelayReq =>
    intro l hup
    exact effect_of_sends hset rfl (if_pos (Bool.and_eq_true_iff.mpr ⟨halive, hup⟩))

end Sys2Proof.Machine
end

section
/-! Feeds and hold-up (R309, R456, R457): the load that the feeds share, and what an OPEN action leaves beside PRO and the engine. -/

namespace Sys2Proof.Machine

open Sys2Proof

/-! ### What an opening leaves -/

section frame
variable (s : State)

/-- The state less PRO, the engine, the supervisor's tables, what is drawn and what reporting moves. -/
def besideTrip : State := { sansHost s with pro := {}, fresh := 0 }

theorem besideTrip_of_sansHost {s t : State} (h : sansHost t = sansHost s) : besideTrip t = besideTrip s :=
  congrArg (fun u : State => { u with pro := {}, fresh := 0 }) h

theorem besideTrip_of_still {s t : State} (h : still t = still s) : besideTrip t = besideTrip s := besideTrip_of_sansHost (sansHost_of_still h)

@[simp] theorem besideTrip_raise (e n : Nat) : besideTrip (raise e n s) = besideTrip s := besideTrip_of_still (still_raise s e n)
@[simp] theorem besideTrip_raiseIf (b : Bool) (e n : Nat) : besideTrip (raiseIf b e n s) = besideTrip s :=
  besideTrip_of_still (still_raiseIf s b e n)
@[simp] theorem besideTrip_notice (cls typ : Nat) (b : Bytes) : besideTrip (notice cls typ b s) = besideTrip s :=
  besideTrip_of_still (still_notice s cls typ b)
@[simp] theorem besideTrip_proRecord (code idx : Nat) (val thr : Int) (how : Byte) : besideTrip (proRecord code idx val thr how s) = besideTrip s :=
  besideTrip_of_still (still_recordCode s _ _ _ _)
@[simp] theorem besideTrip_offer (x : Nat) (v : XVal) : besideTrip (offer x v s) = besideTrip s :=
  besideTrip_of_sansHost (sansHost_of_sansXng (sansXng_offer s x v))
@[simp] theorem besideTrip_tellEst : besideTrip (tellEst s) = besideTrip s := besideTrip_of_sansHost (sansHost_of_sansXng (sansXng_tellEst s))
@[simp] theorem besideTrip_modPro (f : Pro → Pro) : besideTrip (modPro f s) = besideTrip s := rfl
@[simp] theorem besideTrip_modCtl (f : Ctl → Ctl) : besideTrip (modCtl f s) = besideTrip s := rfl
@[simp] theorem besideTrip_takeWord : besideTrip (takeWord s).2 = besideTrip s := rfl
@[simp] theorem besideTrip_sendPeer (p : Byte) (b : Bytes) : besideTrip (sendPeer p b s) = besideTrip s := rfl
@[simp] theorem besideTrip_completeOp (op st : Nat) (b : Bytes) : besideTrip (completeOp op st b s) = besideTrip s :=
  besideTrip_of_sansHost (sansHost_completeOp s op st b)
@[simp] theorem besideTrip_parkEngine (cause : Nat) : besideTrip (parkEngine cause s) = besideTrip s :=
  besideTrip_of_sansHost (sansHost_parkEngine s cause)
@[simp] theorem besideTrip_ite {c : Prop} [Decidable c] (a b : State) :
    besideTrip (if c then a else b) = if c then besideTrip a else besideTrip b := apply_ite besideTrip c a b

@[simp] theorem besideTrip_setAct (code : Nat) (on : Bool) : besideTrip (setAct code on s) = besideTrip s := rfl
@[simp] theorem besideTrip_activate (code idx : Nat) (val thr : Int) : besideTrip (activate code idx val thr s) = besideTrip s := by
  simp [activate]
@[simp] theorem besideTrip_setFeedback (code : Nat) (m : BitVec 4) : besideTrip (setFeedback code m s) = besideTrip s := by
  simp [setFeedback]
@[simp] theorem besideTrip_feedbackActive : besideTrip (feedbackActive s) = besideTrip s := by simp [feedbackActive]
@[simp] theorem besideTrip_releaseK (m : BitVec 4) : besideTrip (releaseK m s) = besideTrip s := by simp [releaseK, brokeAbove]
@[simp] theorem besideTrip_currentCut (flags : Byte) : besideTrip (currentCut flags s) = besideTrip s := by simp [currentCut]
@[simp] theorem besideTrip_setConn (st : Nat) : besideTrip (setConn st s) = besideTrip s := by simp [setConn]
@[simp] theorem besideTrip_zeroLimits (code : Nat) : besideTrip (zeroLimits code s) = besideTrip s := by simp [zeroLimits, setDerate]

@[simp] theorem besideTrip_tripEngine : besideTrip (tripEngine s) = besideTrip s := by
  unfold tripEngine
  split
  · split
    · rename_i h
      exact (besideTrip_modCtl _ _).trans (congrArg besideTrip (congrArg Prod.snd h)).symm
    · rename_i h
      exact (congrArg besideTrip (congrArg Prod.snd h)).symm
  · exact besideTrip_parkEngine _ _

end frame

/-- From `s` to `t`: beside the trip nothing moved, but that in the end a waiting transition may go on (R361, R362). -/
def MovesOn (s t : State) : Prop := ∃ u, besideTrip u = besideTrip s ∧ (t = u ∨ t = continueOut u)

theorem MovesOn.of_beside {s t : State} (h : besideTrip t = besideTrip s) : MovesOn s t := ⟨t, h, .inl rfl⟩

theorem MovesOn.after {r s t : State} (h : besideTrip s = besideTrip r) (hst : MovesOn s t) : MovesOn r t := by
  obtain ⟨u, hu, ht⟩ := hst
  exact ⟨u, hu.trans h, ht⟩

theorem finishOpen_movesOn (s : State) : MovesOn s (finishOpen s) := by
  unfold finishOpen
  refine ⟨_, ?_, .inr rfl⟩
  cases s.pro.aborted <;> simp

theorem openingStep_movesOn (s : State) : MovesOn s (openingStep s) := by
  unfold openingStep
  split
  · exact finishOpen_movesOn s
  · exact .of_beside rfl

theorem releasePoint_movesOn (s : State) : MovesOn s (releasePoint s) := by
  unfold releasePoint
  split
  · exact .of_beside (by simp)
  · exact .after (by simp) (openingStep_movesOn _)

theorem openString_movesOn (hw : Bool) (s : State) : MovesOn s (openString hw s) := by
  have hbegin (u : State) : MovesOn u (beginOpen hw u) := by
    unfold beginOpen
    dsimp only
    split
    · exact .of_beside (by simp)
    · exact .after (by simp) (releasePoint_movesOn _)
  unfold openString
  dsimp only
  split
  · split
    · exact releasePoint_movesOn s
    · exact .of_beside rfl
  · split
    · exact .of_beside rfl
    · split
      · exact .of_beside rfl
      · exact .after (by simp [onlyIf]) (hbegin _)

theorem openAct_movesOn (code idx : Nat) (val thr : Int) (hw : Bool) (s : State) : MovesOn s (openAct code idx val thr hw s) := by
  unfold openAct
  split
  · exact .of_beside rfl
  · exact .after (by simp [onlyIf]) (openString_movesOn hw _)

theorem fire_movesOn (code idx : Nat) (val thr : Int) (s : State) : MovesOn s (fire code (some (idx, val)) thr s) :=
  .after (besideTrip_activate ..) (openAct_movesOn ..)

/-! ### Uplinks and measuring -/

/-- The uplinks but for the frames sent. -/
def feeds (s : State) : Upl := { s.upl with rctSeq := 0 }

theorem feeds_of_sansHost {s t : State} (h : sansHost t = sansHost s) : feeds t = feeds s := (congrArg State.upl h :)
theorem feeds_of_beside {s t : State} (h : besideTrip t = besideTrip s) : feeds t = feeds s := (congrArg State.upl h :)
theorem feeds_of_still {s t : State} (h : still t = still s) : feeds t = feeds s := (congrArg State.upl h :)

theorem feeds_setPower (st : Nat) (s : State) : feeds (setPower st s) = feeds s := by
  unfold setPower
  split
  · rfl
  · exact (feeds_of_still ((still_noticeState _ _).trans (still_raise _ _ _))).trans rfl

theorem feeds_enterState {t : Nat} {s : State} (ht : t ≠ 1) (hrun : s.pwr.state = 3) : feeds (enterState t s) = feeds s := by
  have hoff (u : State) : feeds (engineOff u) = feeds u := feeds_of_sansHost (sansHost_parkEngine u 7)
  have hctl (f : Ctl → Ctl) (u : State) : feeds (modCtl f u) = feeds u := rfl
  have hsmp (f : Smp → Smp) (u : State) : feeds (modSmp f u) = feeds u := rfl
  simp only [enterState, onlyIf, hrun, beq_eq_false_iff_ne.mpr ht, Bool.false_eq_true, if_false, apply_ite feeds, hoff, hctl, hsmp, ite_self,
    Nat.reduceBEq, Bool.false_and]

theorem feeds_continueOut (s : State) : feeds (continueOut s) = feeds s := by
  obtain h | h | ⟨t, ht, hrun, h⟩ := continueOut_cases s <;> rw [h]
  · rfl
  · refine (feeds_of_sansHost (sansHost_completeOp _ _ _ _)).trans ?_
    exact (feeds_setPower t (enterState t s)).trans (feeds_enterState ht hrun)

theorem feeds_of_movesOn {s t : State} (h : MovesOn s t) : feeds t = feeds s := by
  obtain ⟨u, hu, rfl | rfl⟩ := h
  · exact feeds_of_beside hu
  · exact (feeds_continueOut u).trans (feeds_of_beside hu)

/-- With no transition that waits nothing measured moves. -/
theorem measuring_of_movesOn {s t : State} (h : MovesOn s t) (htarget : s.pwr.target = none) : sameMeasuring s t := by
  obtain ⟨u, hu, ht⟩ := h
  have hnone : u.pwr.target = none := (congrArg (fun v => v.pwr.target) hu :).trans htarget
  have hstays : continueOut u = u := by
    unfold continueOut
    rw [hnone]
  obtain rfl : t = u := ht.elim id (·.trans hstays)
  exact ⟨(congrArg State.prt hu :), (congrArg State.units hu :), (congrArg State.smp hu :), (congrArg State.ins hu :),
    (congrArg State.est hu :), (congrArg State.imp hu :), (congrArg State.bal hu :)⟩

theorem sameMeasuring_trans {s t u : State} (h : sameMeasuring s t) (k : sameMeasuring t u) : sameMeasuring s u := by
  obtain ⟨h1, h2, h3, h4, h5, h6, h7⟩ := h
  obtain ⟨k1, k2, k3, k4, k5, k6, k7⟩ := k
  exact ⟨k1.trans h1, k2.trans h2, k3.trans h3, k4.trans h4, k5.trans h5, k6.trans h6, k7.trans h7⟩

/-! ### The load -/

/-- The feed at the higher voltage, link A where they are equal, alone carries a current, within 26 W (R308, R309). -/
def Carried (u : Upl) : Prop :=
  if u.b.mv ≤ u.a.mv then u.b.ma = 0 ∧ u.a.ma * u.a.mv ≤ 26000000 else u.a.ma = 0 ∧ u.b.ma * u.b.mv ≤ 26000000

theorem mod_feedMax_le (w mv : Nat) : w % (feedMax mv + 1) * mv ≤ 26000000 := by
  have hle : w % (feedMax mv + 1) ≤ 26000000 / mv := (Nat.lt_succ_iff.mp (Nat.mod_lt w (Nat.succ_pos _))).trans (Nat.min_le_right _ _)
  exact (Nat.mul_le_mul_right mv hle).trans (Nat.div_mul_le_self _ _)

theorem feedLoad_carried (s : State) : ∃ ia ib n, feedLoad s =
    { s with fresh := n, upl := { s.upl with a := { s.upl.a with ma := ia }, b := { s.upl.b with ma := ib } } } ∧
      Carried { s.upl with a := { s.upl.a with ma := ia }, b := { s.upl.b with ma := ib } } := by
  refine ⟨_, _, _, rfl, ?_⟩
  unfold Carried
  dsimp only [modLink, modUpl]
  by_cases hon : s.upl.b.mv ≤ s.upl.a.mv
  · simp only [hon, decide_true, if_true, true_and]
    exact mod_feedMax_le _ _
  · simp only [hon, decide_false, Bool.false_eq_true, if_false, true_and]
    exact mod_feedMax_le _ _

/-- The uplinks `u` with the feed of a link at `mv`. -/
structure Fed (l : Link) (mv : Nat) (ok : Bool) (u v : Upl) : Prop where
  mv : (linkOf v l).mv = mv
  ok : (linkOf v l).feedOk = ok
  other : (linkOf v (otherLink l)).mv = (linkOf u (otherLink l)).mv ∧ (linkOf v (otherLink l)).feedOk = (linkOf u (otherLink l)).feedOk
  holdup : v.holdup = u.holdup
  carried : Carried v

theorem feedFx_fed (l : Link) (mv : Nat) (ok : Bool) (s : State) :
    ∃ n v, feedFx l mv ok s = { s with fresh := n, upl := v } ∧ Fed l mv ok s.upl v := by
  obtain ⟨ia, ib, n, hload, hcarried⟩ := feedLoad_carried (modLink l (fun x => { x with mv := mv, feedOk := ok }) s)
  refine ⟨n, _, hload, ?_, ?_, ?_, ?_, hcarried⟩ <;> cases l
  case refine_3.A => exact ⟨rfl, rfl⟩
  case refine_3.B => exact ⟨rfl, rfl⟩
  all_goals rfl

theorem alive_fed {s : State} {n : Nat} {v : Upl} (h : v.holdup = s.upl.holdup) : alive { s with fresh := n, upl := v } = alive s := by
  simp only [alive, h]

theorem feedLostFx_fed {l : Link} {mv : Nat} (hlow : mv < 36000) (s : State) : ∃ w n v, w = { s with fresh := n, upl := v } ∧
    Fed l mv false s.upl v ∧ feedLostFx l mv s = raiseIf (alive s) 0x0D (4 + linkIdx l) w := by
  obtain ⟨n, v, hfed, h⟩ := feedFx_fed l mv false s
  refine ⟨_, n, v, rfl, h, ?_⟩
  unfold feedLostFx
  rw [if_pos hlow, hfed]
  dsimp only
  rw [alive_fed h.holdup]

theorem feedBackFx_fed {l : Link} {mv : Nat} (hback : 38000 ≤ mv) (s : State) : ∃ w n v, w = { s with fresh := n, upl := v } ∧
    Fed l mv true s.upl v ∧ feedBackFx l mv s = (if s.upl.holdup = 1 then
      setAct 0x1B false (modUpl (fun u => { u with holdup := 0 }) (raiseIf (alive s) 0x0D (6 + linkIdx l) w))
      else raiseIf (alive s) 0x0D (6 + linkIdx l) w) := by
  obtain ⟨n, v, hfed, h⟩ := feedFx_fed l mv true s
  refine ⟨_, n, v, rfl, h, ?_⟩
  have hupl : (raiseIf (alive s) 0x0D (6 + linkIdx l) { s with fresh := n, upl := v }).upl.holdup = s.upl.holdup := by
    rw [raiseIf_upl]
    exact h.holdup
  unfold feedBackFx
  rw [if_neg (Nat.not_lt.mpr hback), hfed]
  dsimp only
  rw [alive_fed h.holdup, hupl]

theorem uplink_upl (s : State) (l : Link) : uplink s l = linkOf s.upl l := by cases l <;> rfl

/-- The flag of a feed rises where the module runs. -/
theorem flagged_raiseIf {b : Bool} {e n : Nat} {s u v : State} (hp : eventPresent u e = true) (hu : u.ev = s.ev)
    (hv : v.ev = (raiseIf b e n u).ev) : flagged (if b then [(e, n)] else []) s v := by
  cases b
  · exact flagged_nil s v (hv.trans hu)
  · exact flagged_one hp hu hv

theorem settled_raiseIf {s : State} (h : settled s) (b : Bool) (e n : Nat) : settled (raiseIf b e n s) := by
  cases b
  · exact h
  · exact settled_raise h e n

/-! ### The statement -/

section clauses
variable {s : State} (hset : settled s)
include hset

theorem feedLost_fed {l : Link} {mv : Nat} (hlow : mv < 36000) : ∃ t v, exec (.feedLost l mv) s = .next t ∧ Fed l mv false s.upl v ∧
    still { t with fresh := 0 } = still { s with fresh := 0, upl := v } ∧
      flagged (if alive s then [(0x0D, 4 + linkIdx l)] else []) s t ∧ t.out = [] := by
  obtain ⟨w, n, v, hw, h, hfx⟩ := feedLostFx_fed hlow { s with out := [] } (l := l)
  have hwset : settled w := by rw [hw]; exact settled_congr hset rfl rfl rfl rfl rfl
  have hev : w.ev = s.ev := by rw [hw]
  have hout : w.out = [] := by rw [hw]
  have hstill : still { w with fresh := 0 } = still { s with fresh := 0, upl := v } := by rw [hw]; rfl
  have hraised := still_raiseIf w (alive s) 0x0D (4 + linkIdx l)
  exact ⟨transmit s (raiseIf (alive s) 0x0D (4 + linkIdx l) w), v, act_eq_next hfx (settled_raiseIf hwset _ _ _), h,
    (congrArg (fun u : State => { u with fresh := 0 }) hraised :).trans hstill, flagged_raiseIf (u := w) rfl hev rfl,
      (raiseIf_out w _ _ _).trans hout⟩

/-- Between 38 and 60 V, away from the hold-up. -/
theorem feedBack_stays {l : Link} {mv : Nat} (hback : 38000 ≤ mv) (hmax : mv ≤ 60000) (hno : s.upl.holdup ≠ 1) :
    ∃ t v, exec (.feedBack l mv) s = .next t ∧ Fed l mv true s.upl v ∧ still { t with fresh := 0 } = still { s with fresh := 0, upl := v } ∧
      flagged (if alive s then [(0x0D, 6 + linkIdx l)] else []) s t := by
  obtain ⟨w, n, v, hw, h, hfx⟩ := feedBackFx_fed hback { s with out := [] } (l := l)
  have hfx' := hfx.trans (if_neg hno)
  have hwset : settled w := by rw [hw]; exact settled_congr hset rfl rfl rfl rfl rfl
  have hev : w.ev = s.ev := by rw [hw]
  have hstill : still { w with fresh := 0 } = still { s with fresh := 0, upl := v } := by rw [hw]; rfl
  have hraised := still_raiseIf w (alive s) 0x0D (6 + linkIdx l)
  have hexec : exec (.feedBack l mv) s = act (feedBackFx l mv) s := if_neg (Nat.not_lt.mpr hmax)
  exact ⟨transmit s (raiseIf (alive s) 0x0D (6 + linkIdx l) w), v, hexec.trans (act_eq_next hfx' (settled_raiseIf hwset _ _ _)), h,
    (congrArg (fun u : State => { u with fresh := 0 }) hraised :).trans hstill, flagged_raiseIf (u := w) rfl hev rfl⟩

/-- Before the load shed it ends the hold-up. -/
theorem feedBack_ends {l : Link} {mv : Nat} (hback : 38000 ≤ mv) (hmax : mv ≤ 60000) (hrun : s.upl.holdup = 1) :
    ∃ t v, exec (.feedBack l mv) s = .next t ∧ Fed l mv true s.upl v ∧
      still { t with fresh := 0 } = still (setAct 0x1B false { s with fresh := 0, upl := { v with holdup := 0 } }) ∧
      flagged (if alive s then [(0x0D, 6 + linkIdx l)] else []) s t := by
  obtain ⟨w, n, v, hw, h, hfx⟩ := feedBackFx_fed hback { s with out := [] } (l := l)
  have hfx' := hfx.trans (if_pos hrun)
  have hwset : settled w := by rw [hw]; exact settled_congr hset rfl rfl rfl rfl rfl
  have hev : w.ev = s.ev := by rw [hw]
  have hstill : still { w with fresh := 0 } = still { s with fresh := 0, upl := v } := by rw [hw]; rfl
  have hraised := (congrArg (fun u : State => { u with fresh := 0 }) (still_raiseIf w (alive s) 0x0D (6 + linkIdx l)) :).trans hstill
  have hflags : flagged (if alive s then [(0x0D, 6 + linkIdx l)] else []) s (raiseIf (alive s) 0x0D (6 + linkIdx l) w) :=
    flagged_raiseIf (u := w) rfl hev rfl
  have hrset := settled_raiseIf hwset (alive s) 0x0D (6 + linkIdx l)
  have hexec : exec (.feedBack l mv) s = act (feedBackFx l mv) s := if_neg (Nat.not_lt.mpr hmax)
  change feedBackFx l mv { s with out := [] } = setAct 0x1B false (modUpl (fun u => { u with holdup := 0 })
    (raiseIf (alive s) 0x0D (6 + linkIdx l) w)) at hfx'
  generalize raiseIf (alive s) 0x0D (6 + linkIdx l) w = r at *
  exact ⟨_, v, hexec.trans (act_eq_next hfx' (settled_congr hrset rfl rfl rfl rfl rfl)), h,
    (congrArg (fun u : State => setAct 0x1B false (modUpl (fun x => { x with holdup := 0 }) u)) hraised :), hflags⟩

end clauses

/-! ### The supply is lost -/

/-- The feeds of a module that runs on its hold-up, with neither feed above `mv`. -/
structure OnHoldup (mv : Nat) (u : Upl) : Prop where
  holdup : u.holdup = 1
  feeds : u.a.feedOk = false ∧ u.b.feedOk = false
  below : u.a.mv ≤ mv ∧ u.b.mv ≤ mv
  carried : Carried u

theorem onHoldup_of_feeds {s t : State} {mv : Nat} (h : feeds t = feeds s) (hs : OnHoldup mv s.upl) : OnHoldup mv t.upl where
  holdup := (congrArg Upl.holdup h :).trans hs.holdup
  feeds := ⟨(congrArg (fun u : Upl => u.a.feedOk) h :).trans hs.feeds.1, (congrArg (fun u : Upl => u.b.feedOk) h :).trans hs.feeds.2⟩
  below := ⟨(congrArg (fun u : Upl => u.a.mv) h :).trans_le hs.below.1, (congrArg (fun u : Upl => u.b.mv) h :).trans_le hs.below.2⟩
  carried := (congrArg Carried h :).mpr hs.carried

/-- The feeds at the loss of the supply, before PRO acts. -/
theorem supplyLostFx_holdup {mv : Nat} {s : State} (hready : s.pwr.ready = true) (hnone : s.upl.holdup = 0) (hlow : mv < 36000) :
    ∃ w n v, w = { s with fresh := n, upl := v } ∧ OnHoldup mv v ∧ supplyLostFx mv s =
      flushTrigger (if s.pro.armed && !s.pro.inReset then fire 0x1B (some (0, mv)) 36000 w else w) := by
  let low (x : UpLink) : UpLink := { x with feedOk := false, mv := min x.mv mv }
  obtain ⟨ia, ib, n, hload, hcarried⟩ := feedLoad_carried (modUpl (fun u => { u with holdup := 1, a := low u.a, b := low u.b }) s)
  refine ⟨_, n, _, rfl, ⟨rfl, ⟨rfl, rfl⟩, ⟨Nat.min_le_right _ _, Nat.min_le_right _ _⟩, hcarried⟩, ?_⟩
  have hgo : (!s.pwr.ready || s.upl.holdup != 0 || decide (36000 ≤ mv)) = false := by simp [hready, hnone, hlow]
  unfold supplyLostFx
  rw [if_neg (Bool.eq_false_iff.mp hgo)]
  dsimp only
  change flushTrigger (if (feedLoad (modUpl (fun u => { u with holdup := 1, a := low u.a, b := low u.b }) s)).pro.armed && _ then _ else _) = _
  rw [hload]
  rfl

/-- What the trip on SUPPLY_LOST does to an armed PRO. -/
theorem fire_supplyLost (mv : Nat) (w : State) : let t := fire 0x1B (some (0, (mv : Int))) 36000 w
    t.pro.active.getLsbD 0x1B = true ∧
      (w.pro.latched.getLsbD 0x1B = false → tripsWith 0x1B (!w.pro.aboveBreak && !w.pro.aboveNever) w t) := by
  refine ⟨?_, fun hlatch => fire_trips (by decide) hlatch 0 _ _⟩
  cases hlatch : w.pro.latched.getLsbD 0x1B with
  | false => exact (fire_keeps (by decide) rfl hlatch 0 _ _).1
  | true =>
    have hsame : (activate 0x1B 0 mv 36000 w).pro.latched = w.pro.latched := (congrArg Pro.latched (sansActive_activate w 0x1B 0 mv 36000) :)
    have hlatched : (activate 0x1B 0 mv 36000 w).pro.latched.getLsbD 0x1B = true := by
      rw [hsame]
      exact hlatch
    have hfire : fire 0x1B (some (0, (mv : Int))) 36000 w = activate 0x1B 0 mv 36000 w := if_pos hlatched
    rw [hfire]
    exact active_activate (by decide) 0 mv 36000 w

theorem supplyLost_acts {s : State} {mv : Nat} (hready : s.pwr.ready = true) (hnone : s.upl.holdup = 0) (hlow : mv < 36000) :
    ∃ t, exec (.supplyLost mv) s = .next t ∧ OnHoldup mv t.upl ∧ t.recd.due = true ∧
      (s.pro.armed = true → s.pro.inReset = false → t.pro.active.getLsbD 0x1B = true ∧
        (s.pro.latched.getLsbD 0x1B = false → tripsWith 0x1B (!s.pro.aboveBreak && !s.pro.aboveNever) s t)) ∧
      ((s.pro.armed = false ∨ s.pro.inReset = true) → t.pro = s.pro) ∧
      t.cfg = s.cfg ∧ t.nv = s.nv ∧ t.fac = s.fac ∧ (s.pwr.target = none → sameMeasuring s t) := by
  obtain ⟨w, n, v, hw, hup, hfx⟩ := supplyLostFx_holdup (s := { s with out := [] }) hready hnone hlow
  have hwupl : OnHoldup mv w.upl := by rw [hw]; exact hup
  have hpro : w.pro = s.pro := by rw [hw]
  have hsteady : steady w = steady s := by rw [hw]; rfl
  have htarget : w.pwr.target = s.pwr.target := by rw [hw]
  have hcfg : w.cfg = s.cfg := (congrArg State.cfg hsteady :)
  have hfac : w.fac = s.fac := (congrArg State.fac hsteady :)
  have hmeasuring : sameMeasuring s w := by rw [hw]; exact ⟨rfl, rfl, rfl, rfl, rfl, rfl, rfl⟩
  have hexec : exec (.supplyLost mv) s = act (supplyLostFx mv) s := rfl
  cases hacts : s.pro.armed && !s.pro.inReset with
  | true =>
    obtain ⟨harmed, hreset⟩ := Bool.and_eq_true_iff.mp hacts
    have hreset : s.pro.inReset = false := (Bool.not_eq_true' _).mp hreset
    obtain ⟨t, hnext, hstill⟩ := next_of_act hexec (hfx.trans (congrArg flushTrigger (if_pos hacts)))
    obtain ⟨hactive, htrips⟩ := fire_supplyLost mv w
    have hmoves := fire_movesOn 0x1B 0 mv 36000 w
    have hkept := steady_fire w 0x1B (some (0, (mv : Int))) 36000
    generalize fire 0x1B (some (0, (mv : Int))) 36000 w = u at *
    have htpro : t.pro = u.pro := (congrArg State.pro hstill :)
    have hfeeds : feeds t = feeds w := (feeds_of_still (s := flushTrigger u) hstill).trans (feeds_of_movesOn hmoves :)
    have htsteady : steady t = steady s :=
      (steady_of_still (t := t) (s := flushTrigger u) hstill).trans (Eq.trans (b := steady u) rfl (hkept.trans hsteady))
    refine ⟨t, hnext, onHoldup_of_feeds hfeeds hwupl, (congrArg (fun u : State => u.recd.due) hstill :), fun _ _ => ⟨?_, fun hlatch => ?_⟩, ?_,
      (congrArg State.cfg htsteady :), (congrArg State.nv htsteady :), (congrArg State.fac htsteady :), fun hno => ?_⟩
    · rw [htpro]
      exact hactive
    · rw [← hpro] at hlatch ⊢
      have hfree : tripsWith 0x1B (!w.pro.aboveBreak && !w.pro.aboveNever) s u :=
        tripsWith_congr (congrArg tripBase hpro) hcfg hfac (htrips hlatch)
      exact tripsWith_of_still (u := flushTrigger u) hstill hfree
    · rintro (h | h)
      · exact absurd (harmed.symm.trans h) (by decide)
      · exact absurd (hreset.symm.trans h) (by decide)
    · exact sameMeasuring_trans (sameMeasuring_trans hmeasuring (measuring_of_movesOn hmoves (htarget.trans hno)))
        (sameMeasuring_of_sansHost (s := flushTrigger u) (sansHost_of_still hstill))
  | false =>
    obtain ⟨t, hnext, hstill⟩ := next_of_act hexec (hfx.trans (congrArg flushTrigger (if_neg (Bool.eq_false_iff.mp hacts))))
    have htsteady : steady t = steady s := (steady_of_still (t := t) (s := flushTrigger w) hstill).trans hsteady
    refine ⟨t, hnext, onHoldup_of_feeds (feeds_of_still hstill :) hwupl, (congrArg (fun u : State => u.recd.due) hstill :),
      fun harmed hreset => ?_, fun _ => (congrArg State.pro hstill :).trans hpro, (congrArg State.cfg htsteady :),
      (congrArg State.nv htsteady :), (congrArg State.fac htsteady :), fun _ => ?_⟩
    · rw [harmed, hreset] at hacts
      exact absurd hacts (by decide)
    · exact sameMeasuring_trans hmeasuring (sameMeasuring_of_sansHost (s := flushTrigger w) (sansHost_of_still hstill))

/-! ### The load shed -/

/-- An engine that runs is parked with the stage off. -/
theorem parkEngine_parks {s : State} (h : engineRuns s = true) (cause : Nat) : stageOff (parkEngine cause s) = true ∧
    (parkEngine cause s).ctl.state = 1 ∧ (parkEngine cause s).ctl.stopCause = cause := by
  have hstate : s.ctl.state ≠ 5 := by
    intro h5
    simp [engineRuns, h5] at h
  obtain ⟨c, hhalt, -, hst, hcause, -, henable, hpwm0, hpwm1⟩ := haltEngine_apart hstate (show 1 ≠ 5 by decide) cause 0
  have hctl : (parkEngine cause s).ctl = c := by
    unfold parkEngine parkEngineWith
    rw [if_pos h, completeOp_ctl, answerStart_ctl, raiseIf_ctl, hhalt, modCtl_ctl]
  unfold stageOff
  rw [hctl]
  exact ⟨by rw [henable, hpwm0, hpwm1]; rfl, hst, hcause⟩

theorem loadShed_sheds {s : State} (hrun : s.upl.holdup = 1) : ∃ t, exec .holdupLoadShed s = .next t ∧ t.upl.holdup = 2 ∧ alive t = false ∧
    t.recd.due = true ∧ (engineRuns s = true → stageOff t = true ∧ t.ctl.state = 1 ∧ t.ctl.stopCause = 2) ∧ sameStores s t ∧
      sameMeasuring s t ∧ t.pro = s.pro := by
  obtain ⟨w, hw⟩ : ∃ w, w = modUpl (fun u => { u with holdup := 2 }) { s with out := [] } := ⟨_, rfl⟩
  have hfx : loadShedFx { s with out := [] } = flushTrigger (parkEngine 2 w) := by rw [hw]; exact if_pos hrun
  obtain ⟨t, hnext, hstill⟩ := next_of_act (c := .holdupLoadShed) (g := loadShedFx) (s := s) rfl hfx
  have hleft : sansHost t = sansHost w := (sansHost_of_still hstill).trans (Eq.trans (b := sansHost (parkEngine 2 w)) rfl (sansHost_parkEngine w 2))
  have hholdup : t.upl.holdup = 2 := (congrArg (fun u : State => u.upl.holdup) hleft :).trans (by rw [hw]; rfl)
  have hctl : t.ctl = (parkEngine 2 w).ctl := (congrArg State.ctl hstill :)
  refine ⟨t, hnext, hholdup, ?_, (congrArg (fun u : State => u.recd.due) hstill :), fun hruns => ?_, ?_, ?_, ?_⟩
  · simp [alive, hholdup]
  · obtain ⟨hoff, hst, hcause⟩ := parkEngine_parks (s := w) (by rw [hw]; exact hruns) 2
    exact ⟨(stageOff_congr hctl).trans hoff, (congrArg Ctl.state hctl).trans hst, (congrArg Ctl.stopCause hctl).trans hcause⟩
  · rw [hw] at hleft
    exact sameStores_of_sansHost (s := modUpl (fun u => { u with holdup := 2 }) { s with out := [] }) hleft
  · rw [hw] at hleft
    exact sameMeasuring_of_sansHost (s := modUpl (fun u => { u with holdup := 2 }) { s with out := [] }) hleft
  · rw [hw] at hleft
    exact (congrArg State.pro hleft :)

/-! ### The statement -/

/-- What a state that differs from `s` in its uplinks and in reporting shows of a feed. -/
theorem fed_shows {s t : State} {l : Link} {mv : Nat} {ok : Bool} {v : Upl} (h : Fed l mv ok s.upl v)
    (ht : { feeds t with holdup := 0 } = ({ v with rctSeq := 0, holdup := 0 } : Upl)) :
    (uplink t l).mv = mv ∧ (uplink t l).feedOk = ok ∧ ((uplink t (otherLink l)).mv = (uplink s (otherLink l)).mv ∧
      (uplink t (otherLink l)).feedOk = (uplink s (otherLink l)).feedOk) ∧ Carried t.upl := by
  have hlink (k : Link) : uplink t k = linkOf v k := by
    have hfeeds : uplink t k = linkOf { feeds t with holdup := 0 } k := by cases k <;> rfl
    rw [hfeeds, ht]
    cases k <;> rfl
  rw [hlink, hlink, uplink_upl]
  exact ⟨h.mv, h.ok, h.other, (congrArg Carried ht :).mpr h.carried⟩

/-- Beside the uplinks and PRO a feed moves nothing. -/
theorem fed_leaves {s t : State} {v : Upl} {p : Pro} (hstill : still { t with fresh := 0 } = still { s with fresh := 0, upl := v, pro := p }) :
    sameStores s t ∧ sameMeasuring s t ∧ t.ctl = s.ctl :=
  ⟨⟨(congrArg State.fac hstill :), (congrArg State.nv hstill :), (congrArg State.recNv hstill :), (congrArg State.cfg hstill :),
    (congrArg State.net hstill :), (congrArg State.cfgPro hstill :), (congrArg State.cfgEst hstill :), (congrArg State.cfgImp hstill :),
    (congrArg State.cfgCtl hstill :), (congrArg State.cfgSmp hstill :), (congrArg State.image hstill :)⟩,
    ⟨(congrArg State.prt hstill :), (congrArg State.units hstill :), (congrArg State.smp hstill :), (congrArg State.ins hstill :),
    (congrArg State.est hstill :), (congrArg State.imp hstill :), (congrArg State.bal hstill :)⟩, (congrArg State.ctl hstill :)⟩

theorem feedBack_fed {s : State} (hset : settled s) {l : Link} {mv : Nat} (hback : 38000 ≤ mv) (hmax : mv ≤ 60000) :
    ∃ t v p, exec (.feedBack l mv) s = .next t ∧ Fed l mv true s.upl v ∧
      still { t with fresh := 0 } = still { s with
        fresh := 0, upl := { v with holdup := if s.upl.holdup = 1 then 0 else s.upl.holdup }, pro := { s.pro with active := p } } ∧
      (s.upl.holdup = 1 → p.getLsbD 0x1B = false) ∧ flagged (if alive s then [(0x0D, 6 + linkIdx l)] else []) s t := by
  by_cases hrun : s.upl.holdup = 1
  · obtain ⟨t, v, hexec, hfed, hstill, hflags⟩ := feedBack_ends hset hback hmax hrun
    have hended : (s.pro.active &&& ~~~(1#29 <<< 0x1B)).getLsbD 0x1B = false := by simp
    exact ⟨t, v, s.pro.active &&& ~~~(1#29 <<< 0x1B), hexec, hfed, by rw [hstill, if_pos hrun]; rfl, fun _ => hended, hflags⟩
  · obtain ⟨t, v, hexec, hfed, hstill, hflags⟩ := feedBack_stays hset hback hmax hrun
    exact ⟨t, v, s.pro.active, hexec, hfed, by rw [hstill, if_neg hrun, ← hfed.holdup], fun h => absurd h hrun, hflags⟩

/-- Settles O36: the feeds share the load; PRO acts on SUPPLY_LOST as on every OPEN function; the load shed parks the engine. -/
theorem feedsAndHoldup : Obligations.FeedsAndHoldup := by
  unfold Obligations.FeedsAndHoldup
  intro s
  refine ⟨fun l mv hmax => if_pos hmax, fun hset hready => ⟨?lost, ?back, ?supply, loadShed_sheds⟩⟩
  case lost =>
    intro l mv hlow
    obtain ⟨t, v, hexec, hfed, hstill, hflags, hout⟩ := feedLost_fed hset hlow (l := l)
    have hupl : feeds t = { v with rctSeq := 0 } := (congrArg State.upl hstill :)
    obtain ⟨hstores, hmeasuring, hctl⟩ := fed_leaves hstill
    obtain ⟨hmv, hok, hother, hcarried⟩ := fed_shows hfed (congrArg (fun u : Upl => { u with holdup := 0 }) hupl :)
    exact ⟨t, hexec, hmv, hok, hother, hcarried, hflags, hout, (congrArg Upl.holdup hupl :).trans hfed.holdup, hstores, hmeasuring,
      (congrArg State.pro hstill :), hctl⟩
  case back =>
    intro l mv hback hmax
    obtain ⟨t, v, p, hexec, hfed, hstill, hactive, hflags⟩ := feedBack_fed hset hback hmax (l := l)
    have hupl : feeds t = { v with rctSeq := 0, holdup := if s.upl.holdup = 1 then 0 else s.upl.holdup } := (congrArg State.upl hstill :)
    obtain ⟨hstores, hmeasuring, hctl⟩ := fed_leaves hstill
    obtain ⟨hmv, hok, hother, hcarried⟩ := fed_shows hfed (congrArg (fun u : Upl => { u with holdup := 0 }) hupl :)
    have hpro : t.pro = { s.pro with active := p } := (congrArg State.pro hstill :)
    refine ⟨t, hexec, hmv, hok, hother, hcarried, hflags, (congrArg Upl.holdup hupl :), fun hrun => ?_, ?_, ?_, ?_, hstores, hmeasuring, hctl⟩
    · rw [hpro]
      exact hactive hrun
    all_goals rw [hpro]
  case supply =>
    intro mv hlow hnone
    obtain ⟨t, hexec, hup, hdue, hrest⟩ := supplyLost_acts hready hnone hlow
    exact ⟨t, hexec, hup.holdup, hdue, hup.feeds.1, hup.feeds.2, hup.below.1, hup.below.2, hup.carried, hrest⟩

end Sys2Proof.Machine
end

section
/-! The boot (R309, R357, R365, R457, R479): what a module reset sets, and what the boot's steps leave of it. -/

namespace Sys2Proof.Machine

open Sys2Proof

/-! ### What the boot leaves -/

section frame
variable (s : State)

/-- What the boot keeps of a module reset: the factory data, the units, PENDING, the power state, the power cycles, the channels, the
latches and the sequence, the outputs to the stage, which sessions are open, the wires' NV and the life cycle, the feeds. -/
def bootView : State :=
  { fac := s.fac, units := s.units, image := s.image
    pwr := { state := s.pwr.state, ready := s.pwr.ready }
    recNv := { pcyc := s.recNv.pcyc }
    pro := { kA := s.pro.kA, kB := s.pro.kB, latched := s.pro.latched, conn := s.pro.conn }
    ctl := { enable := s.ctl.enable, pwm0 := s.ctl.pwm0, pwm1 := s.ctl.pwm1 }
    ses := { ctx := s.ses.ctx.map fun x => { opened := x.opened } }
    nv := { wires := s.nv.wires, lcy := s.nv.lcy }
    upl := { holdup := s.upl.holdup, a := { mv := s.upl.a.mv, feedOk := s.upl.a.feedOk }, b := { mv := s.upl.b.mv, feedOk := s.upl.b.feedOk } } }

theorem bootView_sansXng : bootView (sansXng s) = bootView s := by
  simp only [bootView, sansXng, still, List.map_map, Function.comp_def]

theorem bootView_of_sansXng {s t : State} (h : sansXng t = sansXng s) : bootView t = bootView s := by
  rw [← bootView_sansXng t, h, bootView_sansXng]

theorem bootView_of_still {s t : State} (h : still t = still s) : bootView t = bootView s := bootView_of_sansXng (sansXng_of_still h)

@[simp] theorem bootView_raise (e n : Nat) : bootView (raise e n s) = bootView s := bootView_of_still (still_raise s e n)
@[simp] theorem bootView_raiseIf (b : Bool) (e n : Nat) : bootView (raiseIf b e n s) = bootView s := bootView_of_still (still_raiseIf s b e n)
@[simp] theorem bootView_proRecord (code idx : Nat) (val thr : Int) (how : Byte) : bootView (proRecord code idx val thr how s) = bootView s :=
  bootView_of_still (still_recordCode s _ _ _ _)
@[simp] theorem bootView_insPass : bootView (insPass s) = bootView s := bootView_of_sansXng (sansXng_insPass s)
@[simp] theorem bootView_ite {c : Prop} [Decidable c] (a b : State) :
    bootView (if c then a else b) = if c then bootView a else bootView b := apply_ite bootView c a b
@[simp] theorem bootView_modIns (f : Ins → Ins) : bootView (modIns f s) = bootView s := rfl
@[simp] theorem bootView_modRec (f : Rec → Rec) : bootView (modRec f s) = bootView s := rfl
@[simp] theorem bootView_modLcy (f : Lcy → Lcy) : bootView (modLcy f s) = bootView s := rfl
@[simp] theorem bootView_modEst (f : Est → Est) : bootView (modEst f s) = bootView s := rfl
@[simp] theorem bootView_modBal (f : Bal → Bal) : bootView (modBal f s) = bootView s := rfl
@[simp] theorem bootView_flushTrigger : bootView (flushTrigger s) = bootView s := rfl

/-! ### Firmware (R393 to R395) -/

theorem bootView_fallBack : bootView (fallBack s) = bootView s := by
  unfold fallBack
  split
  · split
    · exact (bootView_raise _ _ _).trans rfl
    · rfl
  · rfl

theorem bootView_carryOut : bootView (carryOut s) = bootView s := by
  unfold carryOut
  split
  · rfl
  · dsimp only
    split
    · exact (bootView_raise _ _ _).trans rfl
    · exact (bootView_raise _ _ _).trans rfl

theorem bootView_bootFirmware : bootView (bootFirmware s) = bootView s :=
  Eq.trans (b := bootView (carryOut (fallBack s))) rfl ((bootView_carryOut _).trans (bootView_fallBack s))

/-! ### Configuration -/

theorem bootView_bootMarks : bootView (bootMarks s) = bootView s := by
  unfold bootMarks
  dsimp only
  split
  · exact (bootView_raise _ _ _).trans rfl
  · rfl

@[simp] theorem bootView_setFeedback (code : Nat) (m : BitVec 4) : bootView (setFeedback code m s) = bootView s := by
  have hset (on : Bool) : bootView (setAct code on s) = bootView s := rfl
  unfold setFeedback activate
  simp [hset]

theorem bootView_feedbackActive : bootView (feedbackActive s) = bootView s := by simp [feedbackActive]

theorem bootView_insChange (f : State → State) : bootView (insChange f s) = bootView (f s) := by simp [insChange, onlyIf]

theorem bootView_insModeSettle : bootView (insModeSettle s) = bootView s := by simp [insModeSettle]

theorem seqStep_idle {s : State} (hconn : s.pro.conn = 0) : seqStep s = s := by simp [seqStep, openingStep, hconn]

/-- With no sequence in course the feedback moves none. -/
theorem bootView_kfSettle (hconn : s.pro.conn = 0) : bootView (kfSettle s) = bootView s := by
  have hnoted : bootView (feedbackActive (kfNoted s)) = bootView s := (bootView_feedbackActive _).trans rfl
  have hidle : (feedbackActive (kfNoted s)).pro.conn = 0 := (congrArg (fun u : State => u.pro.conn) hnoted :).trans hconn
  have htake : bootView (kfTake s) = bootView (seqStep (feedbackActive (kfNoted s))) := by
    unfold kfTake
    rw [bootView_insChange]
    exact bootView_insModeSettle (seqStep (feedbackActive (kfNoted s)))
  unfold kfSettle
  split
  · rfl
  · rw [htake, seqStep_idle hidle, hnoted]

/-- The engines' configurations are those of the module. -/
def configTaken : State := modCtl (fun c => { c with cfgDue := false })
  { s with cfgPro := s.cfg, cfgEst := s.cfg, cfgImp := s.cfg, cfgCtl := s.cfg, cfgSmp := s.cfg, imp := { s.imp with runDue := false } }

theorem bootView_takeConfig (hconn : s.pro.conn = 0) : bootView (takeConfig s) = bootView s :=
  (bootView_kfSettle (configTaken s) hconn).trans rfl

theorem bootView_restoreGroups : bootView (restoreGroups s) = bootView s := by
  unfold restoreGroups
  dsimp only
  split <;> rfl

theorem bootView_restorePorts : bootView (restorePorts s) = bootView s := by
  unfold restorePorts
  dsimp only
  split <;> rfl

theorem bootView_blankCred : bootView (blankCred s) = bootView s := by
  unfold blankCred
  split <;> rfl

/-- The engine's fields that a configuration initialises, and those of the other blocks (Table 12.4, step 5). -/
def ctlInit (c : Cfg) : State :=
  if hasCtl s && c.hasCtl then modCtl (fun x => { x with src := c.srcInit, bankReq := c.bankInit, bank := c.bankInit }) s else s

def restInit (c : Cfg) : State :=
  let s := modBal (fun x => { x with mode := c.balMode }) s
  let s := modIns (fun x => { x with mode := c.insMode, closedMode := c.insClosedMode }) s
  let s := modPro (fun p => { p with kf := ~~~(s.cap.kfRaw ^^^ c.kfPol), supplyOk := true }) s
  modUpl (fun u => { u with ip4 := if c.net.ip4Mode = 0 then c.net.ip4 else 0
                            ip4Mask := if c.net.ip4Mode = 0 then c.net.mask else 0
                            ip4Gw := if c.net.ip4Mode = 0 then c.net.gw else 0 }) s

theorem bootView_ctlSource (src bank : Nat) :
    bootView (modCtl (fun x => { x with src := src, bankReq := bank, bank := bank }) s) = bootView s := rfl

theorem bootView_ctlInit (c : Cfg) : bootView (ctlInit s c) = bootView s := by
  unfold ctlInit
  split
  · exact (bootView_ctlSource s c.srcInit c.bankInit)
  · rfl

theorem bootView_restInit (c : Cfg) : bootView (restInit s c) = bootView s := by
  have hpro (kf : BitVec 4) (u : State) : bootView (modPro (fun p => { p with kf := kf, supplyOk := true }) u) = bootView u := rfl
  have hupl (ip mask gw : Word) (u : State) : bootView (modUpl (fun v => { v with ip4 := ip, ip4Mask := mask, ip4Gw := gw }) u) = bootView u := rfl
  exact (hupl _ _ _ _).trans ((hpro _ _).trans ((bootView_modIns _ _).trans (bootView_modBal _ _)))

theorem bootView_bootLoad (hconn : s.pro.conn = 0) : bootView (bootLoad s) = bootView s := by
  let c := (bootConfig s).1.getD defaultCfg
  let u : State := { bootMarks s with cfg := c, net := c.net }
  have hload : bootLoad s = blankCred (restoreGroups (restorePorts (restInit (ctlInit (takeConfig u) c) c))) := rfl
  have hmarks : bootView u = bootView s := (bootView_bootMarks s :)
  have hidle : u.pro.conn = 0 := (congrArg (fun v : State => v.pro.conn) hmarks :).trans hconn
  rw [hload, bootView_blankCred, bootView_restoreGroups, bootView_restorePorts, bootView_restInit, bootView_ctlInit, bootView_takeConfig u hidle, hmarks]

/-! ### The record of the power cycle (R457) -/

@[simp] theorem bootView_produce (itype occ : Nat) (content : Queue → List Quad) : bootView (produce itype occ content s) = bootView s := by
  refine forAll_keeps s bootView _ _ fun i t => ?_
  have happend (q : List Quad) : bootView (appendItem i q t) = bootView t := (bootView_raiseIf _ _ _ _).trans rfl
  simp [happend]

theorem bootView_enterRing (r : Record) : bootView (enterRing r s) = bootView s := by
  have hnv (f : RecNv → RecNv) (u : State) (hf : ∀ n, (f n).pcyc = n.pcyc) : bootView (modRecNv f u) = bootView u :=
    (congrArg (fun k => { bootView u with recNv := { pcyc := k } }) (hf u.recNv) :)
  unfold enterRing
  simp [hnv]

theorem bootView_loseEvent (code source : Nat) : bootView (loseEvent code source s) = bootView s := by
  simp [loseEvent, bootView_enterRing]

theorem bootView_recTake (ev : RecEv) : bootView (recTake ev s) = bootView s := by
  unfold recTake
  dsimp only
  split
  · rfl
  · split
    · rfl
    · split
      · exact bootView_loseEvent _ _ _
      · split
        · rfl
        · simp [bootView_enterRing, bootView_loseEvent]

theorem bootView_powerCycle : bootView (powerCycle s) = bootView s := (Eq.trans (b := bootView (recTake _ s)) rfl (bootView_recTake s _))

end frame

/-! ### A module reset and its boot -/

/-- The module as its reset leaves it, with the contact of TEST_MODE_N sampled. -/
def resetSampled (low : Bool) (s : State) : State :=
  let s := resetState s
  { s with cap := { s.cap with testMode := low, factoryStop := low && s.nv.lcy == 0 } }

/-- Power is good and every crossing READY: the steps of the boot begin. -/
def bootBegun (s : State) : State :=
  crossingsReady (modPwr (fun p => { p with ready := true, bootMs := (takeWord s).1.toNat % 65536 }) (takeWord s).2)

theorem moduleReset_stops {low : Bool} {s : State} (h : low = true ∧ s.nv.lcy = 0) : moduleReset low s = resetSampled low s := by
  have hstop : (low && (resetState s).nv.lcy == 0) = true := by
    rw [h.1, show (resetState s).nv.lcy = 0 from h.2]
    rfl
  exact if_pos hstop

theorem moduleReset_boots {low : Bool} {s : State} (h : ¬ (low = true ∧ s.nv.lcy = 0)) :
    bootView (moduleReset low s) = bootView (modPwr (fun p => { p with ready := true }) (resetState s)) := by
  have hgo : ¬ (low && (resetState s).nv.lcy == 0) = true := by
    intro hstop
    obtain ⟨hlow, hblank⟩ := Bool.and_eq_true_iff.mp hstop
    exact h ⟨hlow, beq_iff_eq.mp hblank⟩
  have hboot : moduleReset low s = powerCycle (bootLoad (bootFirmware (bootBegun (resetSampled low s)))) := if_neg hgo
  have hfirmware := bootView_bootFirmware (bootBegun (resetSampled low s))
  have hidle : (bootFirmware (bootBegun (resetSampled low s))).pro.conn = 0 := (congrArg (fun u : State => u.pro.conn) hfirmware :)
  rw [hboot, bootView_powerCycle, bootView_bootLoad _ hidle, hfirmware]
  rfl

/-- What stands after a boot of `s` (R357, R365, R479). -/
def Booted (s : State) (low : Bool) (t : State) : Prop :=
  if low = true ∧ s.nv.lcy = 0 then t.pwr.ready = false ∧ t.cap.factoryStop = true ∧ t.fac = s.fac ∧ t.nv.active = s.nv.active
  else t.pwr.ready = true ∧ t.pwr.state = 1 ∧ t.recNv.pcyc = (s.recNv.pcyc + 1) % 2 ^ 32 ∧ safe t = true ∧ t.fac = s.fac ∧
    t.units = s.units ∧ t.image = {} ∧ (∀ c, (t.sess c).opened = false) ∧ t.nv.wires = s.nv.wires ∧ t.nv.lcy = s.nv.lcy ∧
    t.upl.holdup = 0 ∧ t.pro.latched = 0

theorem opened_of_bootView {s t : State} (h : bootView t = bootView s) (c : Nat) : (t.sess c).opened = (s.sess c).opened := by
  have hview (u : State) : (u.sess c).opened = ((bootView u).sess c).opened := by
    simp only [State.sess, bootView, List.getD_eq_getElem?_getD, List.getElem?_map]
    cases u.ses.ctx[c]? <;> rfl
  rw [hview t, h, ← hview]

theorem sess_default (c : Nat) : (List.replicate 256 ({} : Sess)).getD c {} = {} := by
  rw [List.getD_eq_getElem?_getD, List.getElem?_replicate]
  split <;> rfl

theorem moduleReset_booted (low : Bool) (s : State) : Booted s low (moduleReset low s) := by
  unfold Booted
  by_cases h : low = true ∧ s.nv.lcy = 0
  · rw [if_pos h, moduleReset_stops h]
    refine ⟨rfl, ?_, rfl, rfl⟩
    change (low && s.nv.lcy == 0) = true
    simp [h.1, h.2]
  · rw [if_neg h]
    have hview := moduleReset_boots h
    refine ⟨(congrArg (fun u : State => u.pwr.ready) hview :), (congrArg (fun u : State => u.pwr.state) hview :),
      (congrArg (fun u : State => u.recNv.pcyc) hview :), (congrArg safe hview :), (congrArg State.fac hview :), (congrArg State.units hview :),
      (congrArg State.image hview :), fun c => ?_, (congrArg (fun u : State => u.nv.wires) hview :), (congrArg (fun u : State => u.nv.lcy) hview :),
      (congrArg (fun u : State => u.upl.holdup) hview :), (congrArg (fun u : State => u.pro.latched) hview :)⟩
    rw [opened_of_bootView hview]
    exact congrArg Sess.opened (sess_default c)

theorem booted_of_still {s t u : State} {low : Bool} (h : still t = still u) (hu : Booted s low u) : Booted s low t := by
  have hfac : t.fac = u.fac := (congrArg State.fac h :)
  have hcap : t.cap = u.cap := (congrArg State.cap h :)
  have hnv : t.nv = u.nv := (congrArg State.nv h :)
  have hview := bootView_of_still h
  have hready : t.pwr.ready = u.pwr.ready := (congrArg (fun v : State => v.pwr.ready) hview :)
  have hstate : t.pwr.state = u.pwr.state := (congrArg (fun v : State => v.pwr.state) hview :)
  have hpcyc : t.recNv.pcyc = u.recNv.pcyc := (congrArg (fun v : State => v.recNv.pcyc) hview :)
  have hsafe : safe t = safe u := (congrArg safe hview :)
  have hunits : t.units = u.units := (congrArg State.units h :)
  have himage : t.image = u.image := (congrArg State.image h :)
  have hholdup : t.upl.holdup = u.upl.holdup := (congrArg (fun v : State => v.upl.holdup) hview :)
  have hlatched : t.pro.latched = u.pro.latched := (congrArg (fun v : State => v.pro.latched) hview :)
  have hopened := opened_of_bootView hview
  simpa only [Booted, hfac, hcap, hnv, hready, hstate, hpcyc, hsafe, hunits, himage, hholdup, hlatched, hopened] using hu

/-- A boot of `r` is one of `s`, where both have the same stores and units. -/
theorem booted_congr {r s t : State} {low : Bool} (hfac : r.fac = s.fac) (hunits : r.units = s.units) (hlcy : r.nv.lcy = s.nv.lcy)
    (hactive : r.nv.active = s.nv.active) (hwires : r.nv.wires = s.nv.wires) (hpcyc : r.recNv.pcyc = s.recNv.pcyc) (h : Booted r low t) :
    Booted s low t := by
  simpa only [Booted, hfac, hunits, hlcy, hactive, hwires, hpcyc] using h

/-- A reset keeps what the feeds show. -/
theorem moduleReset_feed (low : Bool) (s : State) (l : Link) : (uplink (moduleReset low s) l).mv = (uplink s l).mv ∧
    (uplink (moduleReset low s) l).feedOk = (uplink s l).feedOk := by
  by_cases h : low = true ∧ s.nv.lcy = 0
  · rw [moduleReset_stops h]
    cases l <;> exact ⟨rfl, rfl⟩
  · have hview := moduleReset_boots h
    cases l
    · exact ⟨(congrArg (fun u : State => u.upl.a.mv) hview :), (congrArg (fun u : State => u.upl.a.feedOk) hview :)⟩
    · exact ⟨(congrArg (fun u : State => u.upl.b.mv) hview :), (congrArg (fun u : State => u.upl.b.feedOk) hview :)⟩

/-! ### The statement -/

/-- POWER_UP of a module without power: the feed is there, and the module boots. -/
theorem powerUp_boots {s : State} {l : Link} {low : Bool} (hoff : s.pwr.ready = false) :
    ∃ t, exec (.powerUp l low) s = .next t ∧ Booted s low t ∧ (uplink t l).mv = 36000 ∧ (uplink t l).feedOk = true := by
  obtain ⟨n, v, hfed, h⟩ := feedFx_fed l 36000 true { s with out := [] }
  obtain ⟨w, hw⟩ : ∃ w, w = feedFx l 36000 true { s with out := [] } := ⟨_, rfl⟩
  have hfx : powerUpFx l low { s with out := [] } = moduleReset low w := by
    rw [hw]
    exact if_neg (Bool.eq_false_iff.mp hoff)
  obtain ⟨t, hnext, hstill⟩ := next_of_act (c := .powerUp l low) (g := powerUpFx l low) (s := s) rfl hfx
  have hbooted : Booted s low (moduleReset low w) := by
    refine booted_congr ?_ ?_ ?_ ?_ ?_ ?_ (moduleReset_booted low w) <;> rw [hw, hfed]
  obtain ⟨hmv, hok⟩ := moduleReset_feed low w l
  have hlink : uplink t l = uplink (moduleReset low w) l := by
    cases l
    · exact (congrArg (fun u : State => u.upl.a) hstill :)
    · exact (congrArg (fun u : State => u.upl.b) hstill :)
  have hshown : uplink w l = linkOf v l := by
    rw [hw, hfed]
    cases l <;> rfl
  rw [hshown] at hmv hok
  refine ⟨t, hnext, booted_of_still hstill hbooted, ?_, ?_⟩
  · rw [hlink, hmv, h.mv]
  · rw [hlink, hok, h.ok]

theorem tc10Wake_boots {s : State} {l : Link} (hready : s.pwr.ready = true) (hdormant : s.pwr.state = 0) :
    ∃ t, exec (.tc10Wake l) s = .next t ∧ Booted s s.cap.testMode t := by
  have hwakes : (s.pwr.ready && s.pwr.state == 0) = true := by simp [hready, hdormant]
  obtain ⟨t, hnext, hstill⟩ := next_of_act (c := .tc10Wake l) (g := tc10WakeFx) (s := s) (u := moduleReset s.cap.testMode { s with out := [] }) rfl
    (if_pos hwakes)
  exact ⟨t, hnext, booted_of_still hstill (booted_congr (r := { s with out := [] }) rfl rfl rfl rfl rfl rfl (moduleReset_booted _ _))⟩

/-- The ending that a power cycle reports: the last command's, else the supply's (R457). -/
def endingNoted (n : RecNv) : RecNv := { n with ending := if n.ending = 1 || n.ending = 2 then n.ending else 3 }

theorem endingNoted_ne (n : RecNv) : (endingNoted n).ending ≠ 0 := by
  unfold endingNoted
  dsimp only
  split
  next h =>
    intro hzero
    simp [hzero] at h
  next => decide

/-- The end of the hold-up: every channel is released, then the module is reset. -/
def holdupOver (s : State) : State := releaseK 0xF (modRecNv endingNoted s)

theorem besideTrip_holdupOver (s : State) : besideTrip (holdupOver s) = besideTrip (modRecNv endingNoted s) := besideTrip_releaseK _ _

theorem holdupEndFx_resets {s : State} (hrun : s.upl.holdup ≠ 0) : holdupEndFx s =
    if s.upl.a.feedOk || s.upl.b.feedOk then moduleReset s.cap.testMode (holdupOver s)
    else { resetState (holdupOver s) with recNv := { (resetState (holdupOver s)).recNv with pcyc := (holdupOver s).recNv.pcyc } } := by
  have hkept := besideTrip_holdupOver s
  have hfeeds : ((holdupOver s).upl.a.feedOk || (holdupOver s).upl.b.feedOk) = (s.upl.a.feedOk || s.upl.b.feedOk) :=
    (congrArg (fun u : State => u.upl.a.feedOk || u.upl.b.feedOk) hkept :)
  have hmode : (holdupOver s).cap.testMode = s.cap.testMode := (congrArg (fun u : State => u.cap.testMode) hkept :)
  rw [← hfeeds, ← hmode]
  exact if_neg hrun

theorem holdupEnd_boots {s : State} (hrun : s.upl.holdup ≠ 0) (hfeed : s.upl.a.feedOk = true ∨ s.upl.b.feedOk = true) :
    ∃ t, exec .holdupEnd s = .next t ∧ Booted s s.cap.testMode t := by
  have hback : (s.upl.a.feedOk || s.upl.b.feedOk) = true := (Bool.or_eq_true _ _).mpr hfeed
  have hkept := besideTrip_holdupOver { s with out := [] }
  have hfx := (holdupEndFx_resets (s := { s with out := [] }) hrun).trans (if_pos hback)
  generalize holdupOver { s with out := [] } = w at *
  obtain ⟨t, hnext, hstill⟩ := next_of_act (c := .holdupEnd) (g := holdupEndFx) (s := s) rfl hfx
  refine ⟨t, hnext, booted_of_still hstill (booted_congr (r := w) ?_ ?_ ?_ ?_ ?_ ?_ (moduleReset_booted _ _))⟩
  · exact (congrArg State.fac hkept :)
  · exact (congrArg State.units hkept :)
  · exact (congrArg (fun u : State => u.nv.lcy) hkept :)
  · exact (congrArg (fun u : State => u.nv.active) hkept :)
  · exact (congrArg (fun u : State => u.nv.wires) hkept :)
  · exact (congrArg (fun u : State => u.recNv.pcyc) hkept :)

theorem holdupEnd_stops {s : State} (hrun : s.upl.holdup ≠ 0) (hA : s.upl.a.feedOk = false) (hB : s.upl.b.feedOk = false) :
    ∃ t, exec .holdupEnd s = .next t ∧ t.pwr.ready = false ∧ safe t = true ∧ t.fac = s.fac ∧ t.recNv.pcyc = s.recNv.pcyc ∧
      t.recNv.ending ≠ 0 ∧ t.upl.holdup = 0 := by
  have hnone : ¬ (s.upl.a.feedOk || s.upl.b.feedOk) = true := by simp [hA, hB]
  have hkept := besideTrip_holdupOver { s with out := [] }
  have hfx := (holdupEndFx_resets (s := { s with out := [] }) hrun).trans (if_neg hnone)
  generalize holdupOver { s with out := [] } = w at *
  obtain ⟨t, hnext, hstill⟩ := next_of_act (c := .holdupEnd) (g := holdupEndFx) (s := s) rfl hfx
  have hfac : w.fac = s.fac := (congrArg State.fac hkept :)
  have hpcyc : w.recNv.pcyc = s.recNv.pcyc := (congrArg (fun u : State => u.recNv.pcyc) hkept :)
  have hending : w.recNv.ending = (endingNoted s.recNv).ending := (congrArg (fun u : State => u.recNv.ending) hkept :)
  have htending : t.recNv.ending = w.recNv.ending := (congrArg (fun u : State => u.recNv.ending) hstill :)
  refine ⟨t, hnext, (congrArg (fun u : State => u.pwr.ready) hstill :), (congrArg safe hstill :), (congrArg State.fac hstill :).trans hfac,
    (congrArg (fun u : State => u.recNv.pcyc) hstill :).trans hpcyc, ?_, (congrArg (fun u : State => u.upl.holdup) hstill :)⟩
  rw [htending, hending]
  exact endingNoted_ne s.recNv

/-- Settles O37: what a module reset sets the boot keeps, whatever it loads. -/
theorem powerCyclesBootTheModule : Obligations.PowerCyclesBootTheModule := by
  unfold Obligations.PowerCyclesBootTheModule
  intro s
  exact ⟨fun l low hoff => powerUp_boots hoff, fun l hready hdormant => tc10Wake_boots hready hdormant, holdupEnd_boots, holdupEnd_stops⟩

end Sys2Proof.Machine
end

section
/-! Control registers of UPL, SES, QUE, PAI, LCY, REC and HKP (R12, R306, R326, R332, R385, R404, R453): the registers a write of which meets no
objection, and its effect. -/

namespace Sys2Proof.Machine

open Sys2Proof

/-! ### A write and its answer -/

section write
variable {c : Instr} {r : Req} {s v : State} {a : Nat} {w : Word} {f : State → State}

/-- A write that nothing stands against leaves what its register's effect leaves, and the answer. -/
theorem exec_write (h : mayWrite r s) (hexec : exec c s = act (writeRequest r a w) s) (hok : WriteOk a w (received r s))
    (hfx : writeFx a w (received r s) = v) (hopen : (v.sess r.ctx.toNat).opened = true) (hset : settled v) :
    exec c s = .next (transmit s (respond r 0x0D02 stOk [] v)) := by
  obtain ⟨-, hheard, -⟩ := h
  subst hfx
  exact hexec.trans (act_eq_next (writeRequest_heard (s := { s with out := [] }) hheard hok hopen) (settled_respond _ _ _ _ _ hset))

theorem received_opened (h : mayWrite r s) : ((received r s).sess r.ctx.toNat).opened = true := by
  obtain ⟨-, ⟨-, hopen, -⟩, -⟩ := h
  exact (touch_opened { s with out := [] } r r.ctx.toNat).trans hopen

theorem received_awake (h : mayWrite r s) : stateOk awake (received r s) = true := (stateOk_touch { s with out := [] } _ r).trans h.2.2

theorem settled_received (h : settled s) : settled (received r s) := settled_touch s r h

/-- A write whose effect does not see the receipt of the request: what it leaves, and the flag it may raise at the end. -/
theorem exec_write_raising {b : Bool} {e n : Nat} (h : mayWrite r s) (hexec : exec c s = act (writeRequest r a w) s)
    (hok : WriteOk a w (received r s)) (hfx : writeFx a w (received r s) = raiseIf b e n (received r v)) (hset : settled v)
    (hopen : (v.sess r.ctx.toNat).opened = (s.sess r.ctx.toNat).opened) :
    ∃ t, exec c s = .next t ∧ t.out = [.response r.ctx r.tag 0x0D02 stOk []] ∧ t.ev = (raiseIf b e n (received r v)).ev ∧
      stillFor r.ctx t = stillFor r.ctx v := by
  have hopened : ((raiseIf b e n (received r v)).sess r.ctx.toNat).opened = true := by
    rw [State.sess, raiseIf_ses]
    exact ((touch_opened { v with out := [] } r r.ctx.toNat).trans hopen).trans h.2.1.2.1
  refine ⟨_, exec_write h hexec hok hfx hopened (settled_raiseIf (settled_received hset) b e n), ?_, ?_, ?_⟩
  · rw [transmit_out, respond_out, raiseIf_out, touch_out]
    rfl
  · rw [transmit_ev, (respond_frame _ _ _ _ _).1]
  · rw [stillFor_of_still _ (still_transmit _ _), stillFor_respond, stillFor_of_still _ (still_raiseIf _ b e n), received, stillFor_touch]
    exact stillFor_of_still _ (still_clearOut _)

theorem writes_of_commuting (h : mayWrite r s) (hexec : exec c s = act (writeRequest r a w) s) (hok : WriteOk a w (received r s))
    (hfx : writeFx a w (received r s) = received r (f s)) (hset : settled (f s)) (hev : (f s).ev = s.ev)
    (hopen : ((f s).sess r.ctx.toNat).opened = (s.sess r.ctx.toNat).opened) : writes c r f s := by
  obtain ⟨t, hnext, hout, htev, hstill⟩ := exec_write_raising (b := false) (e := 0) (n := 0) h hexec hok hfx hset hopen
  exact ⟨t, hnext, hstill, htev.trans ((touch_ev _ r).trans hev), hout⟩

end write

theorem received_eq (r : Req) (s : State) : received r s = { s with out := [], ses := (received r s).ses } := by
  unfold received touch
  split <;> rfl

/-- An effect beside the sessions commutes with the receipt of a request. -/
theorem received_commutes {f : State → State} (r : Req) (s : State)
    (hf : ∀ (u : State) (x : Ses), f { u with out := [], ses := x } = { f u with out := [], ses := x }) (hses : (f s).ses = s.ses)
    (hsmp : (f s).smp = s.smp) : f (received r s) = received r (f s) := by
  have hsame : (received r (f s)).ses = (received r s).ses := by
    simp only [received, touch, modSess, hses, hsmp]
    split <;> rfl
  rw [received_eq r s, hf, received_eq r (f s), hsame]

/-- A write whose effect is a change beside the sessions. -/
theorem writes_beside {c : Instr} {r : Req} {s : State} {a : Nat} {w : Word} {f : State → State} (h : mayWrite r s)
    (hexec : exec c s = act (writeRequest r a w) s) (hok : WriteOk a w (received r s)) (hfx : writeFx a w (received r s) = f (received r s))
    (hf : ∀ (u : State) (x : Ses), f { u with out := [], ses := x } = { f u with out := [], ses := x }) (hses : (f s).ses = s.ses)
    (hsmp : (f s).smp = s.smp) (hset : settled (f s)) (hev : (f s).ev = s.ev) : writes c r f s :=
  writes_of_commuting h hexec hok (hfx.trans (received_commutes r s hf hses hsmp)) hset hev
    (congrArg (fun x : Ses => (x.ctx.getD r.ctx.toNat {}).opened) hses)

/-! ### The registers -/

/-- UPL_CTRL: a link is switched on or off in MAINTAIN alone, and not both off. -/
theorem writeOk_uplCtrl {s : State} {w : Word} (ha : stateOk awake s = true)
    (hlocked : ((s.upl.a.off != ctlBit w 0 || s.upl.b.off != ctlBit w 1) && !inMaintain s) = false)
    (hboth : (ctlBit w 0 && ctlBit w 1) = false) : WriteOk 0xD0004 w s where
  awake := ha
  inside := rfl
  aligned := rfl
  present := rfl
  named := rfl
  judge := congrArg₂ (fun a b => ({ locked := a, range := b } : WriteJudge)) hlocked hboth
  notShut := rfl

theorem writeOk_sesCtrl {s : State} (ha : stateOk awake s = true) (w : Word) : WriteOk 0xE0004 w s where
  awake := ha
  inside := rfl
  aligned := rfl
  present := rfl
  named := rfl
  judge := rfl
  notShut := rfl

theorem writeOk_queCtrl {s : State} (ha : stateOk awake s = true) (w : Word) : WriteOk 0xF0004 w s where
  awake := ha
  inside := rfl
  aligned := rfl
  present := rfl
  named := rfl
  judge := rfl
  notShut := rfl

theorem writeOk_paiCtrl {s : State} (ha : stateOk awake s = true) (hpai : hasPai s = true) (w : Word) : WriteOk 0x100004 w s where
  awake := ha
  inside := rfl
  aligned := rfl
  present := by simp [absentAt, blockPresent, hpai]
  named := rfl
  judge := rfl
  notShut := rfl

/-- LCY_CTRL: DEBUG_EN moves in SERVICE and MAINTAIN alone. -/
theorem writeOk_lcyCtrl {s : State} {w : Word} (ha : stateOk awake s = true)
    (hlocked : (s.lcy.debugEn != ctlBit w 0 && !(s.nv.lcy == 3 && inMaintain s)) = false) : WriteOk 0x20004 w s where
  awake := ha
  inside := rfl
  aligned := rfl
  present := rfl
  named := rfl
  judge := congrArg (fun b => ({ locked := b } : WriteJudge)) hlocked
  notShut := rfl

theorem writeOk_recCtrl {s : State} (ha : stateOk awake s = true) (w : Word) : WriteOk 0x110004 w s where
  awake := ha
  inside := rfl
  aligned := rfl
  present := rfl
  named := rfl
  judge := rfl
  notShut := rfl

theorem writeOk_hkpCtrl {s : State} (ha : stateOk awake s = true) (w : Word) : WriteOk 0x120004 w s where
  awake := ha
  inside := rfl
  aligned := rfl
  present := rfl
  named := rfl
  judge := rfl
  notShut := rfl

/-- The address of QUE_QCTRL of a queue. -/
def qctrlAddr (q : Fin 64) : Nat := 0xF1000 + 0x20 * q.val

theorem qctrlAddr_parts (q : Fin 64) : qctrlAddr q / 65536 = 0xF ∧ qctrlAddr q % 65536 = 0x1000 + 0x20 * q.val := by
  unfold qctrlAddr
  omega

theorem writeOk_qctrl {s : State} {w : Word} (q : Fin 64) (ha : stateOk awake s = true) (hlow : 1 ≤ (w.extractLsb' 16 10).toNat)
    (hhigh : (w.extractLsb' 16 10).toNat ≤ 1000) (hwin : 1 ≤ (w.extractLsb' 8 8).toNat) : WriteOk (qctrlAddr q) w s := by
  obtain ⟨hb, ho⟩ := qctrlAddr_parts q
  have hwords : wordsAt 0x1000 512 (0x1000 + 0x20 * q.val) = true := by
    simp only [wordsAt, Bool.and_eq_true, decide_eq_true_eq]
    omega
  have hrange : (ctlField w 16 10 == 0 || decide (1000 < ctlField w 16 10) || ctlField w 8 8 == 0) = false := by
    have htmo : (ctlField w 16 10 == 0) = false := beq_eq_false_iff_ne.mpr (Nat.ne_of_gt hlow)
    have hmax : decide (1000 < ctlField w 16 10) = false := decide_eq_false (Nat.not_lt.mpr hhigh)
    have hzero : (ctlField w 8 8 == 0) = false := beq_eq_false_iff_ne.mpr (Nat.ne_of_gt hwin)
    rw [htmo, hmax, hzero]
    rfl
  have hnamed : (queValue s (0x1000 + 0x20 * q.val)).isSome = true := by
    unfold queValue
    rw [if_neg (by omega), if_neg (by omega), if_pos hwords]
    rfl
  constructor
  case awake => exact ha
  case inside => simp [blockAt, hb]
  case aligned =>
    unfold qctrlAddr
    omega
  case present => simp [absentAt, blockPresent, hb]
  case named =>
    rw [hb, ho]
    unfold presentValue
    rw [if_neg (by decide), if_neg (by omega), if_neg (by decide), Option.isSome_or, Bool.or_eq_true]
    exact .inr hnamed
  case judge =>
    rw [hb, ho]
    have hreg : (wordsAt 0x1000 512 (0x1000 + 0x20 * q.val) && (0x1000 + 0x20 * q.val) % 0x20 == 0) = true := by
      rw [hwords, Bool.true_and, beq_iff_eq]
      omega
    exact (if_pos hreg).trans (congrArg (fun b => ({ range := b } : WriteJudge)) hrange)
  case notShut => simp [proShut, hb]

theorem writeFx_qctrl (q : Fin 64) (w : Word) (s : State) : writeFx (qctrlAddr q) w s = qctrlFx q.val w s := by
  obtain ⟨hb, ho⟩ := qctrlAddr_parts q
  have hevent : eventAt (qctrlAddr q) = none := by
    unfold eventAt
    rw [hb, ho]
    simp
    omega
  have hreg : (wordsAt 0x1000 512 (0x1000 + 0x20 * q.val) && (0x1000 + 0x20 * q.val) % 0x20 == 0) = true := by
    simp only [wordsAt, Bool.and_eq_true, decide_eq_true_eq, beq_iff_eq]
    omega
  have hindex : (0x1000 + 0x20 * q.val - 0x1000) / 0x20 = q.val := by omega
  have hbelow {n : Nat} (hn : n < 0xF1000) : qctrlAddr q ≠ n := by
    unfold qctrlAddr
    omega
  unfold writeFx
  simp only [hevent, hb, ho, hindex]
  have hretain : ¬(decide (qctrlAddr q = 0x80048) || decide (qctrlAddr q = 0x8004C)) = true := by
    rw [decide_eq_false (hbelow (by decide)), decide_eq_false (hbelow (by decide))]
    decide
  rw [if_neg (by decide), if_neg (by omega), if_neg hretain, if_neg (hbelow (by decide)), if_neg (hbelow (by decide)),
    if_neg (hbelow (by decide))]
  exact if_pos hreg

/-! ### The effects -/

/-- The counters of SES, zeroed where CNT_CLR is set. -/
def sesCounted (clear : Bool) (s : State) : State := { s with ses := { s.ses with cnt := if clear then List.replicate 6 0 else s.ses.cnt } }

theorem sesCtrlFx_eq (w : Word) (s : State) :
    sesCtrlFx w s = onlyIf (w.getLsbD 16) (closeSession (ctlField w 8 8) 3 true) (sesCounted (w.getLsbD 0) s) := by
  unfold sesCtrlFx ctlBit sesCounted
  cases w.getLsbD 0 <;> rfl

theorem sesCounted_received (clear : Bool) (r : Req) (s : State) :
    sesCounted clear (received r s) = received r (sesCounted clear s) :=
  apply_ite (sesCounted clear) _ _ _

/-- A link that is switched off goes down. -/
def linkDown (l : Link) (s : State) : State := modLink l (fun x => { x with up := false }) s

theorem linkDown_of_down {l : Link} {s : State} (hdown : (uplink s l).up = false) : linkDown l s = s := by
  cases l <;>
  · change State.mk .. = _
    rw [← hdown]
    rfl

theorem linkChangeFx_false (l : Link) (s : State) : linkChangeFx l false s = raiseIf (uplink s l).up 0x0D (linkIdx l) (linkDown l s) := by
  by_cases hup : (uplink s l).up = true
  · rw [linkChangeFx_falls hup, hup]
    rfl
  · have hdown := Bool.eq_false_iff.mpr hup
    rw [hdown, linkDown_of_down hdown]
    exact if_pos (by rw [hdown]; rfl)

theorem respond_que (r : Req) (op st : Nat) (b : Bytes) (s : State) : (respond r op st b s).que = s.que :=
  (congrArg State.que (stillFor_respond s r op st b) :)

theorem respond_cnt (r : Req) (op st : Nat) (b : Bytes) (s : State) : (respond r op st b s).ses.cnt = s.ses.cnt := by
  unfold respond
  dsimp only
  split <;> rfl

theorem touch_cnt (r : Req) (s : State) : (touch r s).ses.cnt = s.ses.cnt := by
  unfold touch
  split <;> rfl

theorem respond_sess_ne {r : Req} {i : Nat} (hi : i ≠ r.ctx.toNat) (op st : Nat) (b : Bytes) (s : State) :
    (respond r op st b s).sess i = s.sess i := by
  unfold respond
  dsimp only
  split
  · exact sess_modSess_ne hi _
  · exact (sess_modSess_ne hi _).trans (sess_modSess_ne hi _)

theorem closeSession_cnt (c cause : Nat) (tell : Bool) (s : State) : (closeSession c cause tell s).ses.cnt = s.ses.cnt := by
  unfold closeSession
  split
  · rw [raise_ses, freeContext_ses]
    cases tell <;> rfl
  · rfl

/-- QUE_QCTRL on one queue: its fields, and the flush with FLUSH. -/
def qctrlTaken (w : Word) (x : Queue) : Queue :=
  let y := { x with tmo := (w.extractLsb' 16 10).toNat, qwin := (w.extractLsb' 8 8).toNat }
  if w.getLsbD 0 then Queue.flush y else y

theorem qctrlFx_eq (q : Nat) (w : Word) (s : State) : qctrlFx q w s = raiseIf (w.getLsbD 0) 0x0F 3 (modQ q (qctrlTaken w) s) := by
  unfold qctrlFx ctlBit qctrlTaken
  cases w.getLsbD 0
  · rfl
  · simp only [onlyIf, flushQueue, raiseIf, modQ, if_true, List.modify_modify_eq]
    rfl

/-! ### The clauses -/

section clauses
variable {c : Instr} {r : Req} {s : State} {w : Word} (h : mayWrite r s)
include h

/-- UPL_CTRL with both links on. -/
theorem uplCtrl_on (hexec : exec c s = act (writeRequest r 0xD0004 w) s) (ha : w.getLsbD 0 = false) (hb : w.getLsbD 1 = false)
    (hmoves : (s.upl.a.off = false ∧ s.upl.b.off = false) ∨ stateOk [4] s = true) :
    writes c r (modUpl fun u => { u with
      a := { u.a with off := false }, b := { u.b with off := false }
      cnt := if w.getLsbD 2 then List.replicate 10 0 else u.cnt }) s := by
  have hlocked : (((received r s).upl.a.off != ctlBit w 0 || (received r s).upl.b.off != ctlBit w 1) && !inMaintain (received r s)) = false := by
    have hupl : (received r s).upl = s.upl := (congrArg State.upl (received_eq r s) :)
    have hmaintain : inMaintain (received r s) = stateOk [4] s := stateOk_touch { s with out := [] } _ r
    rw [hupl, hmaintain, ctlBit, ctlBit, ha, hb]
    rcases hmoves with ⟨hona, honb⟩ | hstate
    · rw [hona, honb]
      rfl
    · rw [hstate]
      exact Bool.and_false _
  have hok : WriteOk 0xD0004 w (received r s) :=
    writeOk_uplCtrl (received_awake h) hlocked (by rw [ctlBit, ctlBit, ha, hb]; rfl)
  have hfx : uplCtrlFx w (received r s) = modUpl (fun u => { u with
      a := { u.a with off := false }, b := { u.b with off := false }
      cnt := if w.getLsbD 2 then List.replicate 10 0 else u.cnt }) (received r s) := by
    unfold uplCtrlFx ctlBit onlyIf
    rw [ha, hb]
    rfl
  exact writes_beside h hexec hok hfx (fun _ _ => rfl) rfl rfl (settled_congr h.1 rfl rfl rfl rfl rfl) rfl

/-- SES_CTRL without CLOSE. -/
theorem sesCtrl_counts (hexec : exec c s = act (writeRequest r 0xE0004 w) s) (hkeep : w.getLsbD 16 = false) :
    writes c r (sesCounted (w.getLsbD 0)) s := by
  have hfx : sesCtrlFx w (received r s) = received r (sesCounted (w.getLsbD 0) s) := by
    rw [sesCtrlFx_eq, hkeep]
    exact sesCounted_received _ r s
  exact writes_of_commuting h hexec (writeOk_sesCtrl (received_awake h) w) hfx (settled_congr h.1 rfl rfl rfl rfl rfl) rfl rfl

theorem queCtrl_counts : writes (.queCntClr r w) r (fun s => { s with
    que := if w.getLsbD 0 then s.que.map fun q => { q with drop := 0, ce := 0, unc := 0 } else s.que }) s := by
  have hfx : queCtrlFx w (received r s) = { received r s with
      que := if w.getLsbD 0 then (received r s).que.map fun q => { q with drop := 0, ce := 0, unc := 0 } else (received r s).que } := by
    unfold queCtrlFx ctlBit onlyIf
    cases w.getLsbD 0 <;> rfl
  exact writes_beside (f := fun s => { s with
    que := if w.getLsbD 0 then s.que.map fun q => { q with drop := 0, ce := 0, unc := 0 } else s.que }) h rfl
    (writeOk_queCtrl (received_awake h) w) hfx (fun _ _ => rfl) rfl rfl (settled_congr h.1 rfl rfl rfl rfl rfl) rfl

theorem paiCtrl_holds (hexec : exec c s = act (writeRequest r 0x100004 w) s) (hpai : hasPai s = true) :
    writes c r (modPai fun p =>
      let p := { p with holdOff := w.getLsbD 0 }
      if w.getLsbD 1 then { p with epochFails := 0, fwdTx := 0, fwdRx := 0, fwdLate := 0, selectCnt := 0 } else p) s := by
  have hfx : paiCtrlFx w (received r s) = modPai (fun p =>
      let p := { p with holdOff := w.getLsbD 0 }
      if w.getLsbD 1 then { p with epochFails := 0, fwdTx := 0, fwdRx := 0, fwdLate := 0, selectCnt := 0 } else p) (received r s) := by
    unfold paiCtrlFx ctlBit
    cases w.getLsbD 1 <;> rfl
  have hfitted : hasPai (received r s) = true := by
    unfold hasPai
    rw [received, touch_fac]
    exact hpai
  exact writes_beside h hexec (writeOk_paiCtrl (received_awake h) hfitted w) hfx (fun _ _ => rfl) rfl rfl
    (settled_congr h.1 rfl rfl rfl rfl rfl) rfl

theorem lcyCtrl_debug (hmoves : s.lcy.debugEn = w.getLsbD 0 ∨ (s.nv.lcy = 3 ∧ stateOk [4] s = true)) :
    writes (.debugEn r w) r (modLcy fun l => { l with debugEn := w.getLsbD 0 }) s := by
  have hlocked : ((received r s).lcy.debugEn != ctlBit w 0 && !((received r s).nv.lcy == 3 && inMaintain (received r s))) = false := by
    have hlcy : (received r s).lcy = s.lcy := (congrArg State.lcy (received_eq r s) :)
    have hmaintain : inMaintain (received r s) = stateOk [4] s := stateOk_touch { s with out := [] } _ r
    rw [hlcy, hmaintain, received, touch_nv, ctlBit]
    rcases hmoves with hsame | ⟨hservice, hstate⟩
    · rw [hsame, bne_self_eq_false]
      rfl
    · rw [hservice, hstate]
      exact Bool.and_false _
  exact writes_beside h rfl (writeOk_lcyCtrl (received_awake h) hlocked) rfl (fun _ _ => rfl) rfl rfl
    (settled_congr h.1 rfl rfl rfl rfl rfl) rfl

theorem recCtrl_flushes (hexec : exec c s = act (writeRequest r 0x110004 w) s) :
    writes c r (modRec fun d =>
      let d := if w.getLsbD 0 then { d with due := true, again := d.again || d.flushing } else d
      if w.getLsbD 1 then { d with lostCnt := 0, foldCnt := 0, flushCnt := 0, unreadOvw := 0, snapLost := 0 } else d) s := by
  have hfx : recCtrlFx w (received r s) = modRec (fun d =>
      let d := if w.getLsbD 0 then { d with due := true, again := d.again || d.flushing } else d
      if w.getLsbD 1 then { d with lostCnt := 0, foldCnt := 0, flushCnt := 0, unreadOvw := 0, snapLost := 0 } else d) (received r s) := by
    unfold recCtrlFx ctlBit onlyIf flushTrigger
    cases w.getLsbD 0 <;> cases w.getLsbD 1 <;> rfl
  exact writes_beside h hexec (writeOk_recCtrl (received_awake h) w) hfx (fun _ _ => rfl) rfl rfl
    (settled_congr h.1 rfl rfl rfl rfl rfl) rfl

theorem hkpCtrl_counts : writes (.hkpCntClr r w) r (modHkp fun x => { x with
    ecc := if w.getLsbD 0 then List.replicate 8 0 else x.ecc }) s := by
  have hfx : hkpCtrlFx w (received r s) = modHkp (fun x => { x with
      ecc := if w.getLsbD 0 then List.replicate 8 0 else x.ecc }) (received r s) := by
    unfold hkpCtrlFx ctlBit onlyIf
    cases w.getLsbD 0 <;> rfl
  exact writes_beside h rfl (writeOk_hkpCtrl (received_awake h) w) hfx (fun _ _ => rfl) rfl rfl
    (settled_congr h.1 rfl rfl rfl rfl rfl) rfl

/-- A write whose effect switches a link off. -/
theorem exec_linkOff {a : Nat} {l : Link} {g : Upl → Upl} (hexec : exec c s = act (writeRequest r a w) s) (hok : WriteOk a w (received r s))
    (hfx : writeFx a w (received r s) = linkChangeFx l false (modUpl g (received r s))) :
    ∃ t, exec c s = .next t ∧ t.out = [.response r.ctx r.tag 0x0D02 stOk []] ∧
      stillFor r.ctx t = stillFor r.ctx (linkDown l (modUpl g s)) := by
  have hdown : linkDown l (modUpl g (received r s)) = received r (linkDown l (modUpl g s)) :=
    received_commutes (f := fun u => linkDown l (modUpl g u)) r s (fun _ _ => rfl) rfl rfl
  have hraised := hfx.trans (linkChangeFx_false l _)
  rw [hdown] at hraised
  obtain ⟨t, hnext, hout, -, hstill⟩ := exec_write_raising h hexec hok hraised (settled_congr h.1 rfl rfl rfl rfl rfl) rfl
  exact ⟨t, hnext, hout, hstill⟩

/-- UPL_CTRL with one link off, in MAINTAIN. -/
theorem uplCtrl_off (hexec : exec c s = act (writeRequest r 0xD0004 w) s) (hone : (w.getLsbD 0 ^^ w.getLsbD 1) = true)
    (hstate : stateOk [4] s = true) :
    ∃ t, exec c s = .next t ∧ (Out.response r.ctx r.tag 0x0D02 stOk []) ∈ t.out ∧ t.upl.a.off = w.getLsbD 0 ∧
      t.upl.b.off = w.getLsbD 1 ∧ (w.getLsbD 0 = true → t.upl.a.up = false ∧ t.upl.b.up = s.upl.b.up) ∧
      (w.getLsbD 1 = true → t.upl.b.up = false ∧ t.upl.a.up = s.upl.a.up) ∧ sameStores s t ∧ t.pro = s.pro ∧ t.ctl = s.ctl := by
  have hmaintain : inMaintain (received r s) = true := (stateOk_touch { s with out := [] } _ r).trans hstate
  have hlocked : (((received r s).upl.a.off != ctlBit w 0 || (received r s).upl.b.off != ctlBit w 1) && !inMaintain (received r s)) = false := by
    rw [hmaintain]
    exact Bool.and_false _
  have hboth : (ctlBit w 0 && ctlBit w 1) = false := by
    unfold ctlBit
    revert hone
    cases w.getLsbD 0 <;> cases w.getLsbD 1 <;> decide
  have hok : WriteOk 0xD0004 w (received r s) := writeOk_uplCtrl (received_awake h) hlocked hboth
  let g : Upl → Upl := fun u => { u with
    a := { u.a with off := w.getLsbD 0 }, b := { u.b with off := w.getLsbD 1 }, cnt := if w.getLsbD 2 then List.replicate 10 0 else u.cnt }
  have hfx {l : Link} (ha : w.getLsbD 0 = (l == .A)) (hb : w.getLsbD 1 = (l == .B)) :
      writeFx 0xD0004 w (received r s) = linkChangeFx l false (modUpl g (received r s)) := by
    change uplCtrlFx w (received r s) = _
    unfold uplCtrlFx ctlBit
    cases l <;>
    · rw [ha, hb]
      simp only [g, ha, hb]
      rfl
  obtain ⟨l, ha, hb⟩ : ∃ l : Link, w.getLsbD 0 = (l == .A) ∧ w.getLsbD 1 = (l == .B) := by
    revert hone
    cases w.getLsbD 0 <;> cases w.getLsbD 1
    · exact fun hnone => absurd hnone (by decide)
    · exact fun _ => ⟨.B, rfl, rfl⟩
    · exact fun _ => ⟨.A, rfl, rfl⟩
    · exact fun hnone => absurd hnone (by decide)
  obtain ⟨t, hnext, hout, hstill⟩ := exec_linkOff h hexec hok (hfx ha hb)
  have hlink (k : Link) : uplink t k = uplink (linkDown l (modUpl g s)) k := (congrArg (fun x => uplink x k) hstill :)
  have hrest : sansHost { t with upl := {} } = sansHost { s with upl := {} } :=
    (congrArg (fun x : State => { x with upl := {}, ses := {}, que := [], ctl := {}, recd := {}, pai := {}, xng := {} }) hstill :)
  have hstores : sameStores s t := sameStores_of_sansHost (s := { s with upl := {} }) (t := { t with upl := {} }) hrest
  have hpro : t.pro = s.pro := (congrArg State.pro hstill :)
  have hctl : t.ctl = s.ctl := (congrArg State.ctl hstill :)
  have hlinkA := hlink .A
  have hlinkB := hlink .B
  refine ⟨t, hnext, hout ▸ List.mem_singleton_self _, ?_, ?_, ?_, ?_, hstores, hpro, hctl⟩
  case refine_1 => exact (congrArg UpLink.off hlinkA).trans (by cases l <;> rfl)
  case refine_2 => exact (congrArg UpLink.off hlinkB).trans (by cases l <;> rfl)
  case refine_3 =>
    intro hoff
    obtain rfl : l = .A := eq_of_beq (ha.symm.trans hoff)
    exact ⟨congrArg UpLink.up hlinkA, (congrArg UpLink.up hlinkB :)⟩
  case refine_4 =>
    intro hoff
    obtain rfl : l = .B := eq_of_beq (hb.symm.trans hoff)
    exact ⟨congrArg UpLink.up hlinkB, (congrArg UpLink.up hlinkA :)⟩

/-- SES_CTRL with CLOSE of another's session. -/
theorem sesCtrl_closes (hexec : exec c s = act (writeRequest r 0xE0004 w) s) (hclose : w.getLsbD 16 = true)
    (hother : w.extractLsb' 8 8 ≠ r.ctx) (hopen : (s.sess (w.extractLsb' 8 8).toNat).opened = true) :
    ∃ t, exec c s = .next t ∧ t.out = [.close (w.extractLsb' 8 8) 3, .response r.ctx r.tag 0x0D02 stOk []] ∧
      (t.sess (w.extractLsb' 8 8).toNat).opened = false ∧
      (∀ i, i < 64 → (t.queue i).bound = true → (t.queue i).ctx ≠ w.extractLsb' 8 8) ∧
      (∀ i, (s.queue i).ctx ≠ w.extractLsb' 8 8 → t.queue i = s.queue i) ∧
      t.ses.cnt = (if w.getLsbD 0 then List.replicate 6 0 else s.ses.cnt) ∧ sameStores s t ∧ sameMeasuring s t ∧ t.pro = s.pro ∧
      t.ctl = s.ctl := by
  let u : State := sesCounted (w.getLsbD 0) (received r s)
  have hopened : (u.sess (w.extractLsb' 8 8).toNat).opened = true := (touch_opened { s with out := [] } r _).trans hopen
  have hfx : writeFx 0xE0004 w (received r s) = closeSession (w.extractLsb' 8 8).toNat 3 true u := by
    refine (sesCtrlFx_eq w (received r s)).trans ?_
    rw [hclose]
    rfl
  have hclosed : ClosedTo u (w.extractLsb' 8 8) _ (closeSession (w.extractLsb' 8 8).toNat 3 true u) :=
    closedTo_of_close hopened rfl rfl rfl (fun _ _ => rfl) rfl rfl rfl rfl
  have hout := closeSession_out hopened 3 true
  have hcnt := closeSession_cnt (w.extractLsb' 8 8).toNat 3 true u
  generalize closeSession (w.extractLsb' 8 8).toNat 3 true u = v at hfx hclosed hout hcnt
  obtain ⟨hsession, -, hqueues, hothers, hsessions, -, hrest, hctl, hpwr⟩ := hclosed
  have hnot : r.ctx.toNat ≠ (w.extractLsb' 8 8).toNat := fun hsame => hother (BitVec.eq_of_toNat_eq hsame.symm)
  have hstill : (v.sess r.ctx.toNat).opened = true := by
    rw [hsessions _ hnot]
    exact received_opened h
  have hset : settled v := settled_congr (settled_received (r := r) h.1) (congrArg (fun x => x.pro.latched) hrest :)
    (congrArg (fun x => x.hkp.throttled) hrest :) (congrArg (fun x => x.smp.lowCad) hrest :)
    (congrArg (fun x => x.lcy.defaultsLocked) hrest :) (congrArg Pwr.conds hpwr)
  let t : State := transmit s (respond r 0x0D02 stOk [] v)
  have hnext : exec c s = .next t := exec_write h hexec (writeOk_sesCtrl (received_awake h) w) hfx hstill hset
  have hsans : sansHost t = sansHost s :=
    ((sansHost_respond v r _ _ _).trans hrest).trans ((sansHost_ses (received r s) u.ses).trans (sansHost_received r s))
  have hqueue (i : Nat) : t.queue i = v.queue i := queue_of_que (respond_que r _ _ _ v) i
  have hbefore (i : Nat) : u.queue i = s.queue i := queue_of_que (congrArg State.que (received_eq r s) :) i
  refine ⟨t, hnext, ?_, ?_, ?_, ?_, ?_, sameStores_of_sansHost hsans, sameMeasuring_of_sansHost hsans, (congrArg State.pro hsans :), ?_⟩
  case refine_1 =>
    refine (respond_out v r _ _ _).trans ?_
    rw [hout, if_pos rfl]
    change (received r s).out ++ _ ++ _ = _
    rw [touch_out, BitVec.ofNat_toNat, BitVec.setWidth_eq]
    rfl
  case refine_2 =>
    refine (congrArg Sess.opened (respond_sess_ne hnot.symm 0x0D02 stOk [] v)).trans ?_
    rw [hsession]
  case refine_3 =>
    intro i hi hbound hctx
    rw [hqueue] at hbound hctx
    by_cases hown : (u.queue i).bound = true ∧ (u.queue i).ctx = w.extractLsb' 8 8
    · rw [hqueues i hi hown.1 hown.2] at hbound
      exact Bool.false_ne_true hbound
    · have hsame : v.queue i = u.queue i := hothers i (by
        rw [← Bool.not_eq_true]
        exact not_and_or.mp hown)
      exact hown ⟨hsame ▸ hbound, hsame ▸ hctx⟩
  case refine_4 =>
    intro i hctx
    rw [hqueue, hothers i (.inr ((hbefore i).symm ▸ hctx)), hbefore]
  case refine_5 =>
    refine ((respond_cnt r _ _ _ v).trans hcnt).trans ?_
    change (if w.getLsbD 0 then List.replicate 6 0 else (received r s).ses.cnt) = _
    rw [received, touch_cnt]
  case refine_6 => exact ((respond_ctl v r _ _ _).trans hctl).trans (touch_ctl { s with out := [] } r)

theorem qctrl_sets (q : Fin 64) (hlow : 1 ≤ (w.extractLsb' 16 10).toNat) (hhigh : (w.extractLsb' 16 10).toNat ≤ 1000)
    (hwin : 1 ≤ (w.extractLsb' 8 8).toNat) :
    ∃ t, exec (.queueFlush r q w) s = .next t ∧ t.out = [.response r.ctx r.tag 0x0D02 stOk []] ∧
      flagged (if w.getLsbD 0 then [(0x0F, 3)] else []) s t ∧ stillFor r.ctx t = stillFor r.ctx (modQ q.val (qctrlTaken w) s) := by
  let u : State := modQ q.val (qctrlTaken w) (received r s)
  have hfx : writeFx (qctrlAddr q) w (received r s) = raiseIf (w.getLsbD 0) 0x0F 3 u := (writeFx_qctrl q w _).trans (qctrlFx_eq _ w _)
  have hu : u = received r (modQ q.val (qctrlTaken w) s) := apply_ite (modQ q.val (qctrlTaken w)) _ _ _
  rw [hu] at hfx
  have hexec : exec (.queueFlush r q w) s = act (writeRequest r (qctrlAddr q) w) s := rfl
  obtain ⟨t, hnext, hout, hev, hstill⟩ := exec_write_raising h hexec (writeOk_qctrl q (received_awake h) hlow hhigh hwin) hfx
    (settled_congr h.1 rfl rfl rfl rfl rfl) rfl
  have hbefore : (received r (modQ q.val (qctrlTaken w) s)).ev = s.ev := touch_ev _ r
  exact ⟨t, hnext, hout, flagged_raiseIf rfl hbefore hev, hstill⟩

end clauses

/-- Settles O28: each control register by its effect, which beside SES, the links and the queues is a change of its block alone. -/
theorem interfaceControlWrites : Obligations.InterfaceControlWrites := by
  unfold Obligations.InterfaceControlWrites
  intro r s h
  refine ⟨?upl, ?ses, fun w => queCtrl_counts h, fun q w => qctrl_sets h q, ?pai, fun w => lcyCtrl_debug h, ?recd, fun w => hkpCtrl_counts h⟩
  case upl =>
    intro w c hc
    have hexec : exec c s = act (writeRequest r 0xD0004 w) s := by rcases hc with rfl | rfl | rfl <;> rfl
    exact ⟨uplCtrl_on h hexec, uplCtrl_off h hexec⟩
  case ses =>
    intro w c hc
    have hexec : exec c s = act (writeRequest r 0xE0004 w) s := by rcases hc with rfl | rfl <;> rfl
    exact ⟨sesCtrl_counts h hexec, sesCtrl_closes h hexec⟩
  case pai =>
    intro w c hc
    exact paiCtrl_holds h (by rcases hc with rfl | rfl <;> rfl)
  case recd =>
    intro w c hc
    exact recCtrl_flushes h (by rcases hc with rfl | rfl <;> rfl)

end Sys2Proof.Machine
end

section
/-! Requests as they are judged (R338 to R340): a new one is answered with the first status that applies, one whose TAG is known is not
executed again. -/

namespace Sys2Proof.Machine

open Sys2Proof

/-! ### Sessions through their fields -/

/-- What a change of a session keeps, it keeps of every session. -/
theorem sess_modSess_keeps {α : Type} (g : Sess → α) (c i : Nat) {f : Sess → Sess} (h : ∀ x, g (f x) = g x) (s : State) :
    g ((modSess c f s).sess i) = g (s.sess i) := by
  by_cases hi : i = c
  · subst hi
    by_cases hlt : i < s.ses.ctx.length
    · rw [sess_modSess_same hlt, h]
    · simp [State.sess, modSess, List.getD_eq_getElem?_getD, List.getElem?_eq_none (Nat.not_lt.mp hlt)]
  · rw [sess_modSess_ne hi]

theorem touch_store (r : Req) (s : State) (i : Nat) : ((touch r s).sess i).store = (s.sess i).store := by
  unfold touch
  split
  · exact sess_modSess_keeps Sess.store r.ctx.toNat i (f := fun x => { x with lastRx := s.smp.timeNs }) (fun _ => rfl) s
  · rfl

theorem sendResponse_store (r : Req) (op st : Nat) (b : Bytes) (s : State) (i : Nat) :
    ((sendResponse r op st b s).sess i).store = (s.sess i).store :=
  sess_modSess_keeps Sess.store r.ctx.toNat i (f := fun x => { x with txSeq := x.txSeq + 1 }) (fun _ => rfl) s

/-! ### New requests (R340) -/

/-- A wipe that a boot found unfinished holds the command back (R388). -/
def heldBack (op : Nat) (s : State) : Bool := s.nv.wipePending && (running 0x0B02 s).isNone && !duringWipe.contains op

theorem heldBack_touch (op : Nat) (r : Req) (s : State) : heldBack op (touch r s) = heldBack op s := by
  unfold touch
  split <;> rfl

/-- What is wrong with a request: what its command finds, its zero fields, a wipe that holds it back. -/
def judged (r : Req) (op : Nat) (s : State) (v : Judge) : Judge :=
  { v with format := v.format || !r.zeros, busy := v.busy || heldBack op s }

section taken
variable {r : Req} {s : State} (hup : spcUp s = true) (hopen : (s.sess r.ctx.toNat).opened = true) (hnext : nextUp r s = true)
include hup hopen hnext

/-- A new request is answered with the first status that applies, else its command runs. -/
theorem request_new (hstore : (s.sess r.ctx.toNat).store.find? (fun e => e.tag == r.tag) = none) (hun : unanswered r s = none)
    (op least : Nat) (j : State → Judge) (run : State → State) :
    request r op least j run s =
      ((judged r op s (j (touch r s))).first (decide ((s.sess r.ctx.toNat).role < least))).elim (run (touch r s))
        fun answer => respond r op answer.1 answer.2 (touch r s) := by
  unfold request requestNoting
  simp only [hup, hopen, hnext, Bool.not_true, Bool.or_false, Bool.false_eq_true, if_false, hstore, unanswered_touch, hun]
  rw [judged, ← heldBack_touch op r s, heldBack]
  split <;> rename_i hfirst <;> rw [hfirst] <;> rfl

/-- A request whose TAG is stored is not executed. -/
theorem request_stored {e : Stored} (hstore : (s.sess r.ctx.toNat).store.find? (fun e => e.tag == r.tag) = some e)
    (op least : Nat) (j : State → Judge) (run : State → State) :
    request r op least j run s =
      if e.op = op then sendResponse r op e.status e.body (touch r s) else sendResponse r op stFormat [] (touch r s) := by
  unfold request requestNoting
  simp only [hup, hopen, hnext, Bool.not_true, Bool.or_false, Bool.false_eq_true, if_false, hstore]

/-- One whose answer is still to come is not executed either. -/
theorem request_unanswered {k : Nat} (hstore : (s.sess r.ctx.toNat).store.find? (fun e => e.tag == r.tag) = none)
    (hun : unanswered r s = some k) (op least : Nat) (j : State → Judge) (run : State → State) :
    request r op least j run s = if k = op then touch r s else sendResponse r op stFormat [] (touch r s) := by
  unfold request requestNoting
  simp only [hup, hopen, hnext, Bool.not_true, Bool.or_false, Bool.false_eq_true, if_false, hstore, unanswered_touch, hun]

end taken

/-- Settles O5: a new request is answered by `Judge.first`, whose order is that of R340. -/
theorem requestStatusFollowsTheOrderOfJudgement : Obligations.RequestStatusFollowsTheOrderOfJudgement := by
  intro r op least j run s u v hup hopen hstore hnext hun hu hv held low answers
  subst hu hv
  have hrequest := request_new hup hopen hnext hstore hun op least j run
  have hanswers {st : Nat} {b : Bytes} (hfirst : (judged r op s (j (touch r s))).first low = some (st, b)) : answers st b := by
    change (request r op least j run s).out = _
    rw [hrequest, hfirst, Option.elim_some, respond_out, touch_out]
  refine ⟨?format, ?auth, ?absent, ?locked, ?forbidden, ?range, ?busy, ?last⟩
  case format =>
    intro hformat
    exact hanswers (by simp [judged, Judge.first, hformat, stFormat])
  case auth =>
    intro hformat hzeros hlow
    exact hanswers (by simp [judged, Judge.first, hformat, hzeros, hlow, stAuth])
  case absent =>
    intro hformat hzeros hlow habsent
    exact hanswers (by simp [judged, Judge.first, hformat, hzeros, hlow, habsent, stAbsent])
  case locked =>
    intro hformat hzeros hlow habsent hlocked
    exact hanswers (by simp [judged, Judge.first, hformat, hzeros, hlow, habsent, hlocked, stLocked])
  case forbidden =>
    intro hformat hzeros hlow habsent hlocked hforbidden
    exact hanswers (by simp [judged, Judge.first, hformat, hzeros, hlow, habsent, hlocked, hforbidden, stForbidden])
  case range =>
    intro hformat hzeros hlow habsent hlocked hforbidden hrange
    exact hanswers (by simp [judged, Judge.first, hformat, hzeros, hlow, habsent, hlocked, hforbidden, hrange, stRange])
  case busy =>
    intro hformat hzeros hlow habsent hlocked hforbidden hrange hbusy
    have hbusy' : ((j (touch r s)).busy || heldBack op s) = true := hbusy
    exact hanswers (by simp [judged, Judge.first, hformat, hzeros, hlow, habsent, hlocked, hforbidden, hrange, hbusy', stBusy])
  case last =>
    intro hformat hzeros hlow habsent hlocked hforbidden hrange hbusy hheld
    have hheld' : heldBack op s = false := hheld
    have hfirst : (judged r op s (j (touch r s))).first low = (j (touch r s)).refused.map fun b => (stDeadline, b) := by
      simp [judged, Judge.first, hformat, hzeros, hlow, habsent, hlocked, hforbidden, hrange, hbusy, hheld']
    refine ⟨fun b hrefused => hanswers (by rw [hfirst, hrefused]; rfl), fun hnone => ?_⟩
    rw [hrequest]
    change ((judged r op s (j (touch r s))).first low).elim _ _ = _
    rw [hfirst, hnone]
    rfl

/-! ### Repeated requests (R339) -/

/-- A response sent on the receipt of a request moves the session alone. -/
theorem sendResponse_received (r : Req) (op st : Nat) (b : Bytes) (s : State) :
    stillFor r.ctx (sendResponse r op st b (touch r s)) = stillFor r.ctx s ∧
      ((sendResponse r op st b (touch r s)).sess r.ctx.toNat).store = (s.sess r.ctx.toNat).store ∧
      (sendResponse r op st b (touch r s)).ev = s.ev ∧
      (sendResponse r op st b (touch r s)).out = s.out ++ [.response r.ctx r.tag op st b] := by
  refine ⟨?_, ?_, touch_ev s r, ?_⟩
  · rw [stillFor_of_still _ (still_sendResponse _ _ _ _ _), stillFor_touch]
  · rw [sendResponse_store, touch_store]
  · exact congrArg (· ++ _) (touch_out s r)

theorem respond_store {r : Req} {s : State} (hlt : r.ctx.toNat < s.ses.ctx.length) (op st : Nat) (b : Bytes) :
    ((respond r op st b s).sess r.ctx.toNat).store =
      if st = stBusy then (s.sess r.ctx.toNat).store
      else ({ tag := r.tag, op := op, status := st, body := b } :: (s.sess r.ctx.toNat).store).take 16 := by
  have hlt' : r.ctx.toNat < (sendResponse r op st b s).ses.ctx.length := by
    simpa [sendResponse, modSess] using hlt
  unfold respond
  dsimp only
  split
  · exact sendResponse_store r op st b s _
  · rw [sess_modSess_same hlt']
    exact congrArg (fun l => (_ :: l).take 16) (sendResponse_store r op st b s _)

theorem freeContext_store (c : Nat) (s : State) : ((freeContext c s).sess c).store = [] := by
  by_cases hlt : c < s.ses.ctx.length
  · rw [freeContext_sess_same c s hlt]
  · simp [State.sess, freeContext_ses, List.getD_eq_getElem?_getD, List.getElem?_eq_none (Nat.not_lt.mp hlt)]

/-- Settles O6: a request whose TAG is known goes no further than its receipt and the response sent for it. -/
theorem repeatedRequestSendsTheStoredResponse : Obligations.RepeatedRequestSendsTheStoredResponse := by
  refine ⟨?stored, ?unanswered, ?respond, freeContext_store⟩
  case stored =>
    intro r op least j run s e hup hopen hstore hnext
    rw [request_stored hup hopen hnext hstore]
    by_cases hop : e.op = op
    · obtain ⟨hstill, hkept, hev, hout⟩ := sendResponse_received r op e.status e.body s
      exact ⟨_, if_pos hop, hstill, hkept, hev, fun _ => hout, fun hne => absurd hop hne⟩
    · obtain ⟨hstill, hkept, hev, hout⟩ := sendResponse_received r op stFormat [] s
      exact ⟨_, if_neg hop, hstill, hkept, hev, fun heq => absurd heq hop, fun _ => hout⟩
  case unanswered =>
    intro r op least k j run s hup hopen hnext hstore hun
    rw [request_unanswered hup hopen hnext hstore hun]
    by_cases hop : k = op
    · exact ⟨_, if_pos hop, stillFor_touch s r, touch_ev s r, (touch_out s r).trans (if_pos hop).symm⟩
    · obtain ⟨hstill, -, hev, hout⟩ := sendResponse_received r op stFormat [] s
      exact ⟨_, if_neg hop, hstill, hev, hout.trans (if_neg hop).symm⟩
  case respond =>
    intro r op st b s hlt
    exact respond_store hlt op st b

end Sys2Proof.Machine
end

section
/-! The reads of Table 11.3 (R343 to R345): requests that only answer, from what stands beside the sessions. -/

namespace Sys2Proof.Machine

open Sys2Proof

/-! ### What only answers -/

/-- Nothing is wrong with a request. -/
theorem Judge.first_none {v : Judge} (hformat : v.format = false := by rfl) (habsent : v.absent = false := by rfl)
    (hlocked : v.locked = false := by rfl) (hforbidden : v.forbidden = false := by rfl) (hrange : v.range = false := by rfl)
    (hbusy : v.busy = false := by rfl) (hrefused : v.refused = none := by rfl) : v.first false = none := by
  simp [Judge.first, hformat, habsent, hlocked, hforbidden, hrange, hbusy, hrefused]

theorem stillFor_received (r : Req) (s : State) : stillFor r.ctx (received r s) = stillFor r.ctx s :=
  (stillFor_touch _ r).trans (stillFor_of_still _ (still_clearOut _))

/-- A request that answers from what its receipt does not move. -/
theorem answersOnly_beside {c : Instr} {r : Req} {op least : Nat} {s : State} {j : State → Judge} {bytes : State → Bytes} {body : Bytes}
    (hset : settled s) (hexec : exec c s = act (request r op least j fun u => respond r op stOk (bytes u) u) s) (h : heard r op least s)
    (hj : ∀ x : Ses, (j { s with out := [], ses := x }).first false = none)
    (hbytes : ∀ x : Ses, bytes { s with out := [], ses := x } = body) : answersOnly c r op body s := by
  obtain ⟨x, hx, -⟩ := received_cases r s
  have hjudge : (j (received r s)).first false = none := hx ▸ hj x
  have hbody : bytes (received r s) = body := hx ▸ hbytes x
  obtain ⟨t, hnext, hrest⟩ :=
    act_answers hset h j (fun u => respond r op stOk (bytes u) u) body hjudge (congrArg (respond r op stOk · (received r s)) hbody)
  exact ⟨t, hexec.trans hnext, hrest⟩

/-! ### Identity, time, state, subscriptions, life cycle -/

theorem length_le (n v : Nat) : (le n v).length = n := by simp [le]

theorem take_identBytes (s : State) :
    (identBytes s).take 16 = le 8 s.fac.serial ++ (le 6 s.fac.mac).reverse ++ le 1 s.fac.variant ++ le 1 s.nv.lcy := by
  have hbytes : identBytes s = (le 8 s.fac.serial ++ (le 6 s.fac.mac).reverse ++ le 1 s.fac.variant ++ le 1 s.nv.lcy) ++
      (leW s.nv.running.ver ++ leW ((s.nv.alternate.map FwImage.ver).getD 0) ++ le 4 (ownFormat s) ++ le 4 (slotVersion s.nv.active)) := by
    simp only [identBytes, macBytes, List.append_assoc]
  rw [hbytes]
  exact List.take_left' (by simp [length_le])

theorem take_capBytes (s : State) : (capBytes s).take 12 = le 4 (blockMask s) ++ le 6 (2 ^ nPorts s - 1) ++ le 2 (16 * nPorts s) := by
  simp only [capBytes, List.append_assoc]
  simp only [← List.append_assoc (le 6 _), ← List.append_assoc (le 4 (blockMask s))]
  exact List.take_left' (by simp [length_le])

/-- Settles O7: each of the six only answers, from the present state. -/
theorem identityAndStateReadsAnswer : Obligations.IdentityAndStateReadsAnswer := by
  intro r s hset
  refine ⟨?ident, ?cap, ?time, ?state, ?sub, ?lcy⟩
  case ident =>
    intro h
    exact ⟨identBytes s, answersOnly_beside hset rfl h (fun _ => rfl) fun _ => rfl, take_identBytes s⟩
  case cap =>
    intro h
    exact ⟨capBytes s, answersOnly_beside hset rfl h (fun _ => rfl) fun _ => rfl, take_capBytes s⟩
  case time =>
    intro h
    exact answersOnly_beside hset rfl h (fun _ => rfl) fun _ => rfl
  case state =>
    intro h
    exact answersOnly_beside hset rfl h (fun _ => rfl) fun _ => rfl
  case sub =>
    intro h hstate
    exact answersOnly_beside hset rfl h (fun _ => Judge.first_none (hforbidden := congrArg not hstate)) fun _ => rfl
  case lcy =>
    intro h hstate
    exact answersOnly_beside hset rfl h (fun _ => Judge.first_none (hforbidden := congrArg not hstate)) fun _ => rfl

/-! ### Status -/

theorem take_estWords (s : State) : ((estWords s).flatMap leW).take 4 = leW (estStatus s) := by
  rw [estWords, List.flatMap_cons]
  exact List.take_left' (length_leW _)

/-- What CFG_INFO answers. -/
def cfgInfoBytes (s : State) : Bytes :=
  le 4 (slotVersion s.nv.active) ++ le 4 (slotVersion s.nv.previous) ++ le 4 (if s.image.opened then imgVersion (pendingBytes s) else 0) ++
    le 4 ((s.nv.active.map imgFormat).getD 0) ++ le 1 s.lcy.cfgLast ++ [0, 0, 0] ++ s.lcy.report.bytes

theorem take_cfgInfoBytes (s : State) : (cfgInfoBytes s).take 8 = le 4 (slotVersion s.nv.active) ++ le 4 (slotVersion s.nv.previous) := by
  simp only [cfgInfoBytes, List.append_assoc]
  rw [← List.append_assoc (le 4 _)]
  exact List.take_left' (by simp [length_le])

/-- Settles O8: each of the six only answers, from the registers of its block. -/
theorem statusReadsAnswer : Obligations.StatusReadsAnswer := by
  intro r s hset
  refine ⟨?est, ?pro, ?pai, ?recd, ?cfg, ?upd⟩
  case est =>
    intro h hstate
    exact ⟨_, answersOnly_beside hset rfl h (fun _ => Judge.first_none (hforbidden := congrArg not hstate)) fun _ => rfl, take_estWords s⟩
  case pro =>
    intro h hstate
    exact answersOnly_beside hset rfl h (fun _ => Judge.first_none (hforbidden := congrArg not hstate)) fun _ => rfl
  case pai =>
    intro h hpai hstate
    exact answersOnly_beside hset rfl h
      (fun _ => Judge.first_none (habsent := congrArg not hpai) (hforbidden := congrArg not hstate)) fun _ => rfl
  case recd =>
    intro h hstate
    exact answersOnly_beside hset rfl h (fun _ => Judge.first_none (hforbidden := congrArg not hstate)) fun _ => rfl
  case cfg =>
    intro h hlocked hstate
    exact ⟨cfgInfoBytes s, answersOnly_beside hset rfl h
      (fun _ => Judge.first_none (hlocked := hlocked) (hforbidden := congrArg not hstate)) fun _ => rfl, take_cfgInfoBytes s⟩
  case upd =>
    intro h hlocked hstate
    exact answersOnly_beside hset rfl h (fun _ => Judge.first_none (hlocked := hlocked) (hforbidden := congrArg not hstate)) fun _ => rfl

/-! ### Ranges of groups, bytes of a slot -/

/-- A range that Table 11.3 admits, of groups that units hold. -/
theorem groupsOut_of_held {s : State} {first count lim : Nat} (hlow : 1 ≤ count) (hhigh : count ≤ lim)
    (hvariant : first + count ≤ 16 * nPorts s) (hheld : ∀ i, i < count → groupHeld s (first + i) = true) : groupsOut s first count lim = false := by
  have hrange : rangeOut s first count lim = false := by
    have hgroups : first + count ≤ nGroups s := hvariant
    simp only [rangeOut, Bool.or_eq_false_iff, decide_eq_false_iff_not, beq_eq_false_iff_ne]
    omega
  simpa [groupsOut, hrange] using hheld

/-- What is wrong with the bytes that CFG_READ names. -/
def sliceOut (s : State) (slot : Byte) (off len : Nat) : Bool :=
  decide (2 < slot.toNat) || len == 0 || decide (1392 < len) ||
    (match slotImage s slot.toNat with | some b => decide (b.length ≤ off) | none => true)

theorem sliceOut_of_inside {s : State} {slot : Byte} {off len : Nat} {b : Bytes} (hslot : slot.toNat ≤ 2) (hlow : 1 ≤ len)
    (hhigh : len ≤ 1392) (himage : slotImage s slot.toNat = some b) (hoff : off < b.length) : sliceOut s slot off len = false := by
  have hempty : len ≠ 0 := Nat.ne_of_gt hlow
  simp [sliceOut, himage, hslot, hempty, hhigh, hoff]

theorem cfgReadBytes_eq {s : State} {n : Nat} {b : Bytes} (himage : slotImage s n = some b) (off len : Nat) :
    le 4 off ++ slice ((slotImage s n).getD []) off len = le 4 off ++ (b.drop off).take len := by
  rw [himage]
  rfl

/-- Settles O9: each of the five only answers, from the groups or the bytes it names. -/
theorem rangedReadsAnswerTheNamedPart : Obligations.RangedReadsAnswerTheNamedPart := by
  intro r first count s hset held
  refine ⟨?groups, ?bins, ?models, ?bal, ?cfg⟩
  case groups =>
    intro h hstate hlow hhigh hvariant hheld
    have hrange := groupsOut_of_held hlow hhigh hvariant hheld
    exact answersOnly_beside hset rfl h (fun _ => Judge.first_none (hforbidden := congrArg not hstate) (hrange := hrange)) fun _ => rfl
  case bins =>
    intro h himp hstate hvariant hheld
    have hrange := groupsOut_of_held (Nat.le_refl 1) (Nat.le_refl 1) hvariant hheld
    exact answersOnly_beside hset rfl h
      (fun _ => Judge.first_none (habsent := congrArg not himp) (hforbidden := congrArg not hstate) (hrange := hrange)) fun _ => rfl
  case models =>
    intro h himp hstate hlow hhigh hvariant hheld
    have hrange := groupsOut_of_held hlow hhigh hvariant hheld
    exact answersOnly_beside hset rfl h
      (fun _ => Judge.first_none (habsent := congrArg not himp) (hforbidden := congrArg not hstate) (hrange := hrange)) fun _ => rfl
  case bal =>
    intro h hstate hlow hhigh hvariant hheld
    have hrange := groupsOut_of_held hlow hhigh hvariant hheld
    exact answersOnly_beside hset rfl h (fun _ => Judge.first_none (hforbidden := congrArg not hstate) (hrange := hrange)) fun _ => rfl
  case cfg =>
    intro slot off len b h hlocked hstate hslot hlow hhigh himage hoff
    exact answersOnly_beside hset rfl h (fun _ => Judge.first_none (hlocked := hlocked) (hforbidden := congrArg not hstate)
      (hrange := sliceOut_of_inside hslot hlow hhigh himage hoff)) fun _ => cfgReadBytes_eq himage off len

end Sys2Proof.Machine
end

section
/-! Subscriptions (R332, R349, R352): SUB_BIND, SUB_UNBIND, NOTICE_SUB. -/

namespace Sys2Proof.Machine

open Sys2Proof

/-! ### SUB_BIND (R349) -/

/-- The queue of a binding. -/
def Queue.boundTo (q : Queue) (r : Req) (b : BindReq) (waiting rate : Nat) : Queue :=
  { q with
    bound := true, ctx := r.ctx, itype := b.itype, first := b.first, count := b.count, decim := b.decim
    qcap := if b.qcap = 0 then 32768 else b.qcap
    qwin := if b.qwin = 0 then 32 else b.qwin
    tmo := if b.tailTmo = 0 then 10 else b.tailTmo
    old := if b.itype = 1 ∨ b.itype = 2 ∨ b.itype = 3 then waiting else 0
    rate := rate, acked := q.rseq, waited := false, stalled := false }

/-- A binding that Table 11.3 admits and that the stream budget covers. -/
structure Binds (b : BindReq) (i : Nat) (s : State) : Prop where
  awake : stateOk awake s = true
  produced : itemAbsent s b.itype = false
  range : itemRange s b = true
  decim : 1 ≤ b.decim
  qcap : b.qcap ≤ 32768
  tailTmo : b.tailTmo ≤ 1000
  queue : b.queue = 0xFF ∨ b.queue ≤ 63
  target : bindTarget s b = some i
  budget : rateSum s + chargedRate s b.itype b.count b.decim ≤ 640000000

theorem subBindJudge_none {b : BindReq} {i : Nat} {s : State} (h : Binds b i s) : (subBindJudge b s).first false = none := by
  obtain ⟨hawake, hproduced, hrange, hdecim, hqcap, htmo, hqueue, htarget, hbudget⟩ := h
  have hzero : b.decim ≠ 0 := Nat.ne_of_gt hdecim
  refine Judge.first_none (habsent := hproduced) (hforbidden := congrArg not hawake) (hrange := ?_) (hbusy := ?_)
    (hrefused := if_neg (Nat.not_lt.mpr hbudget))
  · simpa [subBindJudge, hrange, hzero, hqcap, htmo] using fun h => hqueue.resolve_left h
  · simp [subBindJudge, htarget]

theorem subBindRun_eq {b : BindReq} {i : Nat} {s : State} (h : bindTarget s b = some i) (r : Req) :
    subBindRun r b s = respond r 0x0401 stOk (le 1 i ++ [0, 0, 0] ++ le 4 (chargedRate s b.itype b.count b.decim))
      (modQ i (fun q => q.boundTo r b s.smp.queFrames.length (chargedRate s b.itype b.count b.decim)) s) := by
  unfold subBindRun
  rw [h]
  simp [Queue.boundTo, or_assoc]

theorem modQ_received (i : Nat) (f : Queue → Queue) (r : Req) (s : State) : modQ i f (received r s) = received r (modQ i f s) :=
  received_commutes r s (fun _ _ => rfl) rfl rfl

theorem subBind_binds {r : Req} {s : State} {b : BindReq} {i : Nat} (hset : settled s) (h : heard r 0x0401 0 s) (hb : Binds b i s) :
    answersDoing (.subBind r b) r 0x0401 (le 1 i ++ [0, 0, 0] ++ le 4 (chargedRate s b.itype b.count b.decim))
      (modQ i fun q => q.boundTo r b s.smp.queFrames.length (chargedRate s b.itype b.count b.decim)) s := by
  obtain ⟨x, hx, -⟩ := received_cases r s
  have hb' : Binds b i (received r s) := by
    obtain ⟨hawake, hproduced, hrange, hdecim, hqcap, htmo, hqueue, htarget, hbudget⟩ := hb
    rw [hx]
    exact ⟨hawake, hproduced, hrange, hdecim, hqcap, htmo, hqueue, htarget, hbudget⟩
  refine answersDoing_of_received rfl h (subBindJudge_none hb') ?_ (settled_congr (settled_received hset) rfl rfl rfl rfl rfl)
    (modQ_received i _ r s) rfl
  rw [subBindRun_eq hb'.target, hx]
  rfl

/-! ### SUB_UNBIND (R332) -/

/-- Beside the queue, unbinding it raises FLUSHED alone. -/
theorem still_unbindQueue (i : Nat) (s : State) : still (unbindQueue i s) = still (modQ i Queue.freed s) := by
  have htwice : modQ i (fun q => { q with bound := false, stalled := false }) (modQ i Queue.flush s) = modQ i Queue.freed s := by
    simp only [modQ, List.modify_modify_eq]
    rfl
  rw [unbindQueue, flushQueue, still_modQ, still_raise, ← still_modQ, htwice]

theorem words_flush (q : Queue) : (Queue.flush q).words = [] := rfl

theorem windex_flush (q : Queue) : (Queue.flush q).windex = q.windex + q.words.length := rfl

theorem settled_unbindQueue {s : State} (h : settled s) (i : Nat) : settled (unbindQueue i s) :=
  settled_congr (settled_raise (settled_congr h rfl rfl rfl rfl rfl : settled (modQ i Queue.flush s)) 0x0F 3) rfl rfl rfl rfl rfl

theorem subUnbind_frees {r : Req} {s : State} {q : Byte} (hset : settled s) (h : heard r 0x0402 0 s) (hstate : stateOk awake s = true)
    (hbound : (s.queue q.toNat).bound = true) (hctx : (s.queue q.toNat).ctx = r.ctx) :
    ∃ t, exec (.subUnbind r q) s = .next t ∧ flagged [(0x0F, 3)] s t ∧ t.out = [.response r.ctx r.tag 0x0402 stOk []] ∧
      stillFor r.ctx t = stillFor r.ctx (modQ q.toNat Queue.freed s) := by
  have hmine : mine r q s = true := by simp [mine, hbound, hctx]
  have hjudge : (({ forbidden := !stateOk awake (received r s), range := !mine r q (received r s) } : Judge).first false) = none := by
    obtain ⟨x, hx, -⟩ := received_cases r s
    rw [hx]
    exact Judge.first_none (hforbidden := congrArg not hstate) (hrange := congrArg not hmine)
  have hsettled : settled (respond r 0x0402 stOk [] (unbindQueue q.toNat (received r s))) :=
    settled_respond _ _ _ _ _ (settled_unbindQueue (settled_received hset) _)
  let u : State := modQ q.toNat Queue.flush (received r s)
  have hbefore : u.ev = s.ev := touch_ev _ r
  have hraised : (respond r 0x0402 stOk [] (unbindQueue q.toNat (received r s))).ev = (raise 0x0F 3 u).ev := (respond_frame _ _ _ _ _).1
  refine ⟨_, exec_heard rfl h hjudge hsettled, ?_, ?_, ?_⟩
  · exact flagged_one (u := u) rfl hbefore hraised
  · rw [transmit_out, respond_out, unbindQueue, modQ_out, flushQueue, raise_out, modQ_out, touch_out]
    rfl
  · rw [stillFor_of_still _ (still_transmit _ _), stillFor_respond, stillFor_of_still _ (still_unbindQueue _ _), modQ_received,
      stillFor_received]

/-! ### NOTICE_SUB (R352) -/

/-- A session with its class mask, and with the time of a receipt. -/
def Sess.masked (m : Word) (x : Sess) : Sess := { x with mask := m }
def Sess.heardAt (time : Nat) (x : Sess) : Sess := { x with lastRx := time }

theorem masked_received (m : Word) (r : Req) (s : State) :
    modSess r.ctx.toNat (Sess.masked m) (received r s) = received r (modSess r.ctx.toNat (Sess.masked m) s) := by
  by_cases hwait : s.ses.waiting.isEmpty = true
  · have hnoted : received r s = modSess r.ctx.toNat (Sess.heardAt s.smp.timeNs) { s with out := [] } := if_pos hwait
    have hmasked : received r (modSess r.ctx.toNat (Sess.masked m) s) =
        modSess r.ctx.toNat (Sess.heardAt s.smp.timeNs) { modSess r.ctx.toNat (Sess.masked m) s with out := [] } := if_pos hwait
    rw [hnoted, hmasked]
    simp only [modSess, List.modify_modify_eq]
    rfl
  · have hnoted : received r s = { s with out := [], ses := { s.ses with waiting := s.ses.waiting.tail } } := if_neg hwait
    have hmasked : received r (modSess r.ctx.toNat (Sess.masked m) s) =
        modSess r.ctx.toNat (Sess.masked m) { s with out := [], ses := { s.ses with waiting := s.ses.waiting.tail } } := if_neg hwait
    rw [hnoted, hmasked]

theorem noticeSub_masks {r : Req} {s : State} (mask : Word) (hset : settled s) (h : heard r 0x0404 0 s) (hstate : stateOk awake s = true) :
    answersDoing (.noticeSub r mask) r 0x0404 (leW (mask &&& 0x3F)) (modSess r.ctx.toNat (Sess.masked (mask &&& 0x3F))) s := by
  refine answersDoing_of_received rfl h ?_ rfl (settled_congr (settled_received hset) rfl rfl rfl rfl rfl) (masked_received _ r s) rfl
  exact Judge.first_none (hforbidden := congrArg not ((stateOk_touch { s with out := [] } _ r).trans hstate))

/-- Settles O10: a binding writes its queue, an unbinding frees it, a mask is kept by its six classes. -/
theorem subscriptionCommandsBindAndRelease : Obligations.SubscriptionCommandsBindAndRelease := by
  intro r s hset
  refine ⟨?bind, ?unbind, ?mask⟩
  case bind =>
    intro b i rate h hstate hproduced hrange hdecim hqcap htmo hqueue htarget hrate hbudget
    subst hrate
    exact subBind_binds hset h ⟨hstate, hproduced, hrange, hdecim, hqcap, htmo, hqueue, htarget, hbudget⟩
  case unbind =>
    intro q h hstate hbound hctx
    obtain ⟨t, hexec, hflags, hout, hstill⟩ := subUnbind_frees hset h hstate hbound hctx
    exact ⟨t, hexec, hflags, hout, hstill, words_flush _, windex_flush _⟩
  case mask =>
    intro mask h hstate
    exact noticeSub_masks mask hset h hstate

end Sys2Proof.Machine
end

section
/-! Register accesses (R12, R347, R348): registers read in ascending order with their latches; writes to EVENT, BAL_CTRL and STATUS. -/

namespace Sys2Proof.Machine

open Sys2Proof

/-! ### What reads move (R141, R188, R210, R438, R468) -/

/-- The state less what reads latch. -/
def sansLatches (s : State) : State :=
  { s with ev := [], est := {}, imp := {}, smp := { s.smp with instHi := 0 }, recd := { s.recd with hi := [] } }

section latches
variable (s : State)

/-! The latches by themselves, for any index: at an index computed from an address the kernel would count the address's literals down. -/

theorem sansLatches_eventLatch (e : Nat) : sansLatches (eventLatch e s) = sansLatches s := rfl
theorem sansLatches_groupLatch (g : Nat) : sansLatches (groupLatch g s) = sansLatches s := rfl
theorem sansLatches_modelLatch (g : Nat) : sansLatches (modelLatch g s) = sansLatches s := rfl

theorem sansLatches_regLatch (a : Nat) : sansLatches (regLatch a s) = sansLatches s := by
  unfold regLatch
  dsimp only
  split
  · rfl
  · split
    · exact sansLatches_eventLatch s _
    · split
      · exact sansLatches_groupLatch s _
      · split
        · exact sansLatches_modelLatch s _
        · repeat' split
          all_goals rfl

end latches

theorem sansLatches_regReads (a n : Nat) (s : State) : sansLatches (regReads a n s).2 = sansLatches s := by
  induction n generalizing a s with
  | zero => rfl
  | succ n ih => exact (ih (a + 4) (regLatch a s)).trans (sansLatches_regLatch s a)

theorem settled_regReads {s : State} (h : settled s) (a n : Nat) : settled (regReads a n s).2 := by
  have hkept := sansLatches_regReads a n s
  exact settled_congr h (congrArg (fun u => u.pro.latched) hkept :) (congrArg (fun u => u.hkp.throttled) hkept :)
    (congrArg (fun u => u.smp.lowCad) hkept :) (congrArg (fun u => u.lcy.defaultsLocked) hkept :) (congrArg (fun u => u.pwr.conds) hkept :)

theorem length_regReads (a n : Nat) (s : State) : (regReads a n s).1.length = n := by
  induction n generalizing a s with
  | zero => rfl
  | succ n ih => exact congrArg (· + 1) (ih (a + 4) (regLatch a s))

/-! ### Reads do not see what was sent -/

/-- The state with other messages. -/
def withOut (o : List Out) (s : State) : State := { s with out := o }

section sent
variable (l : List Out) (s : State)

theorem regLatch_withOut (a : Nat) : regLatch a (withOut l s) = withOut l (regLatch a s) := by
  have habsent : absentAt (withOut l s) a = absentAt s a := rfl
  have hgroups : nGroups (withOut l s) = nGroups s := rfl
  unfold regLatch
  simp only [habsent, hgroups]
  repeat' split
  all_goals rfl

theorem xrecWord_withOut (x k : Nat) : xrecWord (withOut l s) x k = xrecWord s x k := rfl

theorem xngValue_withOut (o : Nat) : xngValue (withOut l s) o = xngValue s o := by
  rw [xngValue, xrecWord_withOut]
  rfl

theorem presentValue_withOut (b o : Nat) : presentValue (withOut l s) b o = presentValue s b o := by
  have hevent (e o : Nat) : eventValue (withOut l s) e o = eventValue s e o := rfl
  have hport (p o : Nat) : prtValue (withOut l s) p o = prtValue s p o := rfl
  simp only [presentValue, hevent, hport, xngValue_withOut]
  rfl

theorem regShow_withOut (a : Nat) : regShow (withOut l s) a = regShow s a := by
  have habsent : absentAt (withOut l s) a = absentAt s a := rfl
  rw [regShow, habsent, presentValue_withOut, regShow]

end sent

theorem regReads_withOut (a n : Nat) (o : List Out) (s : State) :
    regReads a n (withOut o s) = ((regReads a n s).1, withOut o (regReads a n s).2) := by
  induction n generalizing a s with
  | zero => rfl
  | succ n ih => simp only [regReads, regLatch_withOut, regShow_withOut, ih]

/-! ### REG_READ (R347, R348) -/

theorem received_eq_withOut (r : Req) (s : State) : received r s = withOut [] (touch r s) := by
  unfold received touch
  split <;> rfl

/-- A read that nothing stands against answers the words of its registers, read in ascending order. -/
theorem readRequest_heard {r : Req} {s : State} {a n : Nat} (h : heard r 0x0D01 0 s) (hawake : stateOk awake s = true)
    (haligned : a % 4 = 0) (hlow : 1 ≤ n) (hhigh : n ≤ 256) (hblock : (blockAt a).isSome = true)
    (hwithin : blockAt a = blockAt (a + 4 * (n - 1))) (hopen : proShut s a = false) :
    readRequest r a n s =
      respond r 0x0D01 stOk (le 4 a ++ (regReads a n (touch r s)).1.flatMap leW) (regReads a n (touch r s)).2 := by
  refine requestNoting_heard h _ _ _ ?_
  have hforbidden : (!stateOk awake (touch r s)) = false := congrArg not ((stateOk_touch s _ r).trans hawake)
  have hshut : proShut (touch r s) a = false := by
    rw [proShut, State.xr, touch_xng]
    exact hopen
  have hzero : n ≠ 0 := Nat.ne_of_gt hlow
  refine Judge.first_none (hforbidden := hforbidden) (hrange := ?_) (hbusy := hshut)
  simp [haligned, ← hwithin, Option.isNone_eq_false_iff.mpr hblock, hzero, hhigh]

theorem regRead_answers {r : Req} {s : State} {addr : Word} {n : Half} (h : mayRead r s) (haligned : addr.toNat % 4 = 0)
    (hlow : 1 ≤ n.toNat) (hhigh : n.toNat ≤ 256) (hblock : (blockAt addr.toNat).isSome = true)
    (hwithin : blockAt addr.toNat = blockAt (addr.toNat + 4 * (n.toNat - 1))) (hopen : proShut s addr.toNat = false) :
    ∃ t, exec (.regRead r addr n) s = .next t ∧
      t.out = [.response r.ctx r.tag 0x0D01 stOk (le 4 addr.toNat ++ (regReads addr.toNat n.toNat (touch r s)).1.flatMap leW)] ∧
      t.ev = (regReads addr.toNat n.toNat (touch r s)).2.ev ∧ stillFor r.ctx t = stillFor r.ctx (regReads addr.toNat n.toNat (touch r s)).2 := by
  obtain ⟨hset, hheard, hawake⟩ := h
  let answer : Bytes := le 4 addr.toNat ++ (regReads addr.toNat n.toNat (touch r s)).1.flatMap leW
  let v : State := withOut [] (regReads addr.toNat n.toNat (touch r s)).2
  have hread : readRequest r addr.toNat n.toNat { s with out := [] } = respond r 0x0D01 stOk answer v := by
    rw [readRequest_heard (s := { s with out := [] }) hheard hawake haligned hlow hhigh hblock hwithin hopen]
    change respond r _ _ (_ ++ (regReads _ _ (received r s)).1.flatMap leW) (regReads _ _ (received r s)).2 = _
    rw [received_eq_withOut, regReads_withOut]
  have hsettled : settled v := by
    have hreads := settled_regReads (settled_received hset) addr.toNat n.toNat (s := received r s)
    rw [received_eq_withOut, regReads_withOut] at hreads
    exact hreads
  refine ⟨_, act_eq_next hread (settled_respond _ _ _ _ _ hsettled), ?_, ?_, ?_⟩
  · exact respond_out _ _ _ _ _
  · exact (respond_frame _ _ _ _ _).1
  · rw [stillFor_of_still _ (still_transmit _ _), stillFor_respond]
    exact stillFor_of_still _ (still_clearOut _)

/-! ### REG_WRITE to EVENT, BAL_CTRL, STATUS (R12) -/

theorem toNat_blockAddr {e o : Nat} (h : e < 20) (ho : o < 0x10000) : (BitVec.ofNat 32 (0x10000 * e + o)).toNat = 0x10000 * e + o := by
  rw [BitVec.toNat_ofNat, Nat.mod_eq_of_lt (by omega)]

theorem xr_received (r : Req) (s : State) (x : Nat) : (received r s).xr x = s.xr x := congrArg (·.xrec.getD x {}) (touch_xng _ r)

theorem blockPresent_congr {s t : State} (h : t.fac = s.fac) (b : Nat) : blockPresent t b = blockPresent s b := by
  unfold blockPresent hasImp hasCtl hasPai
  rw [h]

/-- W1C clears the flags of the mask; the counters stay. -/
theorem regWrite_event {r : Req} {s : State} (h : mayWrite r s) {e : Nat} (w : Word) (h1 : 1 ≤ e) (hlt : e < 20) (h4 : e ≠ 4)
    (hp : eventPresent s e = true) (hx : e = 0x0B → (s.xr 0x4D).down = false) :
    ∃ t, exec (.regWrite r (BitVec.ofNat 32 (0x10000 * e + 0xC)) w) s = .next t ∧
      t.out = [.response r.ctx r.tag 0x0D02 stOk []] ∧ stillFor r.ctx t = stillFor r.ctx s ∧
      t.ev = s.ev.modify e fun x => { x with flags := x.flags &&& ~~~(w.truncate 16) } := by
  have hlt' : e < 68 := Nat.lt_trans hlt (by decide)
  have haddr : (BitVec.ofNat 32 (0x10000 * e + 0xC)).toNat = eventAddr e := by
    rw [toNat_blockAddr hlt (by decide), eventAddr, if_neg (Nat.not_le.mpr hlt)]
  have hexec : exec (.regWrite r (BitVec.ofNat 32 (0x10000 * e + 0xC)) w) s = act (writeRequest r (eventAddr e) w) s :=
    congrArg (fun a => act (writeRequest r a w) s) haddr
  have hok : WriteOk (eventAddr e) w (received r s) :=
    writeOk_event h1 h4 hlt' (by rwa [eventPresent_congr (touch_fac _ r)]) (received_awake h) (by rwa [xr_received])
  have hsettled : settled (clearFlags e (w.truncate 16) (received r s)) := settled_congr (settled_received h.1) rfl rfl rfl rfl rfl
  refine ⟨_, exec_write h hexec hok (writeFx_event h1 h4 hlt' w _) (received_opened h) hsettled, ?_, ?_, ?_⟩
  · rw [transmit_out, respond_out]
    exact congrArg (· ++ _) (touch_out _ r)
  · rw [stillFor_of_still _ (still_transmit _ _), stillFor_respond, clearFlags, stillFor_of_still _ (still_modEv _ _ _),
      stillFor_received]
  · rw [transmit_ev, (respond_frame _ _ _ _ _).1]
    exact congrArg (fun l : List Ev => l.modify e fun x => { x with flags := x.flags &&& ~~~(w.truncate 16) }) (touch_ev _ r)

theorem writeOk_balCtrl {s : State} (ha : stateOk awake s = true) (w : Word) : WriteOk 0xA0004 w s where
  awake := ha
  inside := rfl
  aligned := rfl
  present := rfl
  named := rfl
  judge := rfl
  notShut := rfl

theorem regWrite_balCtrl {r : Req} {s : State} (h : mayWrite r s) (w : Word) :
    writes (.regWrite r 0xA0004 w) r (modBal fun b => { b with en := w.getLsbD 0, mode := w.getLsbD 1 }) s :=
  writes_beside h rfl (writeOk_balCtrl (received_awake h) w) rfl (fun _ _ => rfl) rfl rfl (settled_congr h.1 rfl rfl rfl rfl rfl) rfl

/-- The address of STATUS of a block. -/
def statusAddr (e : Nat) : Nat := 0x10000 * e + 8

theorem statusAddr_parts (e : Nat) : statusAddr e / 65536 = e ∧ statusAddr e % 65536 = 8 := by
  unfold statusAddr
  omega

theorem blockPresent_gap {s : State} {e : Nat} (h : blockPresent s e = true) : e ≠ 3 ∧ e ≠ 5 := by
  constructor <;> rintro rfl <;> simp [blockPresent] at h

/-- Every block but CAP names a STATUS register. -/
theorem presentValue_status {s : State} {e : Nat} (h1 : 1 ≤ e) (hlt : e < 20) (h4 : e ≠ 4) (hp : blockPresent s e = true) :
    (presentValue s e 8).isSome = true := by
  obtain ⟨h3, h5⟩ := blockPresent_gap hp
  have hcodes : e = 1 ∨ e = 2 ∨ 6 ≤ e := by omega
  rcases hcodes with rfl | rfl | h6
  · rfl
  · rfl
  · interval_cases e <;> rfl

theorem writeOk_status {s : State} {e : Nat} (h1 : 1 ≤ e) (hlt : e < 20) (h4 : e ≠ 4) (hp : blockPresent s e = true)
    (ha : stateOk awake s = true) (hx : e = 0x0B → (s.xr 0x4D).down = false) (w : Word) : WriteOk (statusAddr e) w s := by
  obtain ⟨hd, hm⟩ := statusAddr_parts e
  have hgap := blockPresent_gap hp
  constructor
  case awake => exact ha
  case inside => simp [blockAt, hd, h4, hgap, Nat.le_of_lt_succ hlt]
  case aligned =>
    unfold statusAddr
    omega
  case present => simp [absentAt, hd, h4, hp]
  case named =>
    rw [hd, hm]
    exact presentValue_status h1 hlt h4 hp
  case judge =>
    rw [hd, hm]
    simp [writeJudge, wordsAt, h4]
  case notShut =>
    rw [proShut, hd]
    by_cases he : e = 0x0B
    · simp [hx he]
    · simp [he]

theorem writeFx_status {e : Nat} (h4 : e ≠ 4) (w : Word) (s : State) : writeFx (statusAddr e) w s = s := by
  obtain ⟨hd, hm⟩ := statusAddr_parts e
  have hevent : eventAt (statusAddr e) = none := by simp [eventAt, hd, hm, h4]
  have hnamed {a : Nat} (ha : a % 65536 ≠ 8) : statusAddr e ≠ a := by
    rintro rfl
    exact ha hm
  unfold writeFx
  simp only [hevent, hd, hm]
  simp [h4, hnamed, wordsAt]

/-- A read-only register ignores the write. -/
theorem regWrite_status {r : Req} {s : State} (h : mayWrite r s) {e : Nat} (w : Word) (h1 : 1 ≤ e) (hlt : e < 20) (h4 : e ≠ 4)
    (hp : blockPresent s e = true) (hx : e = 0x0B → (s.xr 0x4D).down = false) :
    writes (.regWrite r (BitVec.ofNat 32 (0x10000 * e + 8)) w) r id s := by
  have hexec : exec (.regWrite r (BitVec.ofNat 32 (0x10000 * e + 8)) w) s = act (writeRequest r (statusAddr e) w) s := by
    rw [statusAddr]
    exact congrArg (fun a => act (writeRequest r a w) s) (toNat_blockAddr hlt (by decide))
  have hok : WriteOk (statusAddr e) w (received r s) :=
    writeOk_status h1 hlt h4 (by rwa [blockPresent_congr (touch_fac _ r)]) (received_awake h) (by rwa [xr_received]) w
  exact writes_of_commuting h hexec hok (writeFx_status h4 w _) h.1 rfl rfl

/-- Settles O22: a read answers `regReads`, a write is its register's own. -/
theorem registerAccessReadsAndWrites : Obligations.RegisterAccessReadsAndWrites := by
  intro r s
  refine ⟨?read, fun h => ⟨?event, regWrite_balCtrl h, ?status⟩⟩
  case read =>
    intro h addr n haligned hlow hhigh hblock hwithin hopen
    obtain ⟨t, hexec, hout, hev, hstill⟩ := regRead_answers h haligned hlow hhigh hblock hwithin hopen
    exact ⟨t, hexec, hout, length_regReads _ _ _, hev, hstill⟩
  case event =>
    intro e w h1 hlt h4 hp hx
    exact regWrite_event h w h1 hlt h4 hp hx
  case status =>
    intro e w h1 hlt h4 hp hx
    exact regWrite_status h w h1 hlt h4 hp hx

end Sys2Proof.Machine
end

section
/-! A step and its command (R358): every command ends in the frame `act`, whose last act is the check of the conditions. -/

namespace Sys2Proof.Machine

open Sys2Proof

/-- Where the outcome is a state, its conditions are those last reported. -/
def reports (o : Host.Outcome State Fault Refusal) : Prop := ∀ t, o = .next t → settled t

theorem settled_transmit {s : State} (a : State) (h : settled s) : settled (transmit a s) :=
  settled_congr h rfl rfl rfl rfl rfl

theorem act_reports (f : State → State) (s : State) : reports (act f s) := by
  rintro t ⟨⟩
  exact settled_transmit _ (condCheck_settles _)

theorem exec_reports (c : Instr) (s : State) : reports (exec c s) := by
  unfold exec
  cases c
  case feedBack l mv =>
    dsimp only [execFeedBack]
    split
    · exact fun t h => nomatch h
    · exact act_reports _ s
  all_goals
    dsimp only
    exact act_reports _ s

/-- Settles O1: both clauses read the definition. -/
theorem stepRunsTheFrontCommand : Obligations.StepRunsTheFrontCommand :=
  ⟨fun c rest s h => by rw [step, h], fun s h => by rw [step, h]⟩

/-- Settles O2: a step is a command or none, and every command checks the conditions last. -/
theorem reportedConditionsStayCurrent : Obligations.ReportedConditionsStayCurrent := by
  intro s t hs h
  unfold step at h
  split at h
  · cases h
    exact hs
  · exact exec_reports _ _ t h

end Sys2Proof.Machine
end


section
/-! What every command leaves: the factory data and the commands that wait. Each operation of the model keeps them; so does each command. -/

namespace Sys2Proof.Machine

open Sys2Proof

variable (s : State)

/-- The factory data and the queue. -/
def fixtures : Factory × List Instr := (s.fac, s.pending)

@[simp] theorem pair_fixtures : (s.fac, s.pending) = fixtures s := (rfl)

/-- The two fields of a state that is written out. -/
@[simp] theorem fixtures_mk (q o t n f a6 a7 a8 a9 a10 a11 a12 a13 a14 a15 a16 a17 a18 a19 a20 a21 a22 a23 a24 a25 a26 a27 a28 a29 a30 a31 a32
    a33 a34 a35 a36 a37) : fixtures (State.mk q o t n f a6 a7 a8 a9 a10 a11 a12 a13 a14 a15 a16 a17 a18 a19 a20 a21 a22 a23 a24 a25 a26 a27 a28
      a29 a30 a31 a32 a33 a34 a35 a36 a37) = (f, q) := (rfl)

theorem fixtures_of_still {s t : State} (h : still t = still s) : fixtures t = fixtures s := of_still fixtures (fun _ => rfl) h

@[simp] theorem fixtures_ite {c : Prop} [Decidable c] (a b : State) :
    fixtures (if c then a else b) = if c then fixtures a else fixtures b := apply_ite fixtures c a b

@[simp] theorem fixtures_forAll {α : Type} (l : List α) (f : α → State → State) (s : State)
    (h : ∀ a t, fixtures (f a t) = fixtures t) : fixtures (forAll l f s) = fixtures s := forAll_keeps s fixtures l f h

theorem fixtures_foldl {α : Type} (l : List α) (f : State → α → State) (s : State) (h : ∀ t a, fixtures (f t a) = fixtures t) :
    fixtures (l.foldl f s) = fixtures s := fixtures_forAll l (fun a t => f t a) s fun a t => h t a

@[simp] theorem fixtures_onlyIf (b : Bool) (f : State → State) :
    fixtures (onlyIf b f s) = if b then fixtures (f s) else fixtures s := apply_ite fixtures b (f s) s

theorem fixtures_onlyIf_of {f : State → State} (h : ∀ t, fixtures (f t) = fixtures t) (b : Bool) :
    fixtures (onlyIf b f s) = fixtures s := by rw [fixtures_onlyIf, h, ite_self]

/-! ### Shared operations -/

@[simp] theorem fixtures_modPort (p : Nat) (f : Port → Port) : fixtures (modPort p f s) = fixtures s := (rfl)
@[simp] theorem fixtures_modPos (p c : Nat) (f : Pos → Pos) : fixtures (modPos p c f s) = fixtures s := (rfl)
@[simp] theorem fixtures_modUnit (u : Nat) (f : MUnit → MUnit) : fixtures (modUnit u f s) = fixtures s := (rfl)
@[simp] theorem fixtures_modCtx (g : Nat) (f : Ctx → Ctx) : fixtures (modCtx g f s) = fixtures s := (rfl)
@[simp] theorem fixtures_modSess (c : Nat) (f : Sess → Sess) : fixtures (modSess c f s) = fixtures s := (rfl)
@[simp] theorem fixtures_modQ (q : Nat) (f : Queue → Queue) : fixtures (modQ q f s) = fixtures s := (rfl)
@[simp] theorem fixtures_modX (x : Nat) (f : Xrec → Xrec) : fixtures (modX x f s) = fixtures s := (rfl)
@[simp] theorem fixtures_modEv (e : Nat) (f : Ev → Ev) : fixtures (modEv e f s) = fixtures s := (rfl)
@[simp] theorem fixtures_modOw (u : Nat) (f : OwUnit → OwUnit) : fixtures (modOw u f s) = fixtures s := (rfl)
@[simp] theorem fixtures_modSlot (u : Nat) (f : BalSlot → BalSlot) : fixtures (modSlot u f s) = fixtures s := (rfl)
@[simp] theorem fixtures_modBleed (g : Nat) (f : BleedRec → BleedRec) : fixtures (modBleed g f s) = fixtures s := (rfl)
@[simp] theorem fixtures_takeWord : fixtures (takeWord s).2 = fixtures s := (rfl)
@[simp] theorem fixtures_takeBytes (n) : fixtures (takeBytes n s).2 = fixtures s := (rfl)
@[simp] theorem fixtures_send (o) : fixtures (send o s) = fixtures s := (rfl)
@[simp] theorem fixtures_setFlag (e n) : fixtures (setFlag e n s) = fixtures s := (rfl)
@[simp] theorem fixtures_pushRec (ev) : fixtures (pushRec ev s).1 = fixtures s := by
  unfold pushRec
  dsimp only
  repeat' split
  all_goals simp
@[simp] theorem fixtures_raiseXng (n) : fixtures (raiseXng n s) = fixtures s := fixtures_of_still (still_raiseXng s n)
@[simp] theorem fixtures_record (ev) : fixtures (record ev s) = fixtures s := fixtures_of_still (still_record s ev)
@[simp] theorem fixtures_raise (e n) : fixtures (raise e n s) = fixtures s := by simp [raise]
@[simp] theorem fixtures_raiseIf (b e n) : fixtures (raiseIf b e n s) = fixtures s := by simp [raiseIf]
@[simp] theorem fixtures_recordCode (island code source data) :
    fixtures (recordCode island code source data s) = fixtures s := by simp [recordCode]
@[simp] theorem fixtures_flushTrigger : fixtures (flushTrigger s) = fixtures s := (rfl)
@[simp] theorem fixtures_refuse (x) : fixtures (refuse x s) = fixtures s := by simp [refuse]
@[simp] theorem fixtures_offer (x v) : fixtures (offer x v s) = fixtures s := by simp [offer]
@[simp] theorem fixtures_offerNow (x v) : fixtures (offerNow x v s) = fixtures s := by simp [offerNow]
@[simp] theorem fixtures_pulse (x key) : fixtures (pulse x key s) = fixtures s := by simp [pulse]
@[simp] theorem fixtures_portPulse (p k) : fixtures (portPulse p k s) = fixtures s := by simp [portPulse]
@[simp] theorem fixtures_tellEst : fixtures (tellEst s) = fixtures s := by simp [tellEst]
@[simp] theorem fixtures_noticeTo (cls typ body c) : fixtures (noticeTo cls typ body c s) = fixtures s := by simp [noticeTo]
@[simp] theorem fixtures_notice (cls typ body) : fixtures (notice cls typ body s) = fixtures s := by simp [notice]
@[simp] theorem fixtures_noticeState (prev) : fixtures (noticeState prev s) = fixtures s := by simp [noticeState]
@[simp] theorem fixtures_condCheck : fixtures (condCheck s) = fixtures s := by simp [condCheck]
@[simp] theorem fixtures_transmit (prev) : fixtures (transmit prev s) = fixtures s := (rfl)
@[simp] theorem fixtures_setPower (st) : fixtures (setPower st s) = fixtures s := by simp [setPower]
@[simp] theorem fixtures_appendItem (i content) : fixtures (appendItem i content s) = fixtures s := by simp [appendItem]
@[simp] theorem fixtures_produce (itype occ : Nat) (content : Queue → List Quad) :
    fixtures (produce itype occ content s) = fixtures s := by simp [produce]
@[simp] theorem fixtures_flushQueue (i) : fixtures (flushQueue i s) = fixtures s := by simp [flushQueue]
@[simp] theorem fixtures_unbindQueue (i) : fixtures (unbindQueue i s) = fixtures s := by simp [unbindQueue]
@[simp] theorem fixtures_freeContext (c) : fixtures (freeContext c s) = fixtures s := by simp [freeContext]
@[simp] theorem fixtures_closeSession (c cause tell) : fixtures (closeSession c cause tell s) = fixtures s := by simp [closeSession]
@[simp] theorem fixtures_complete (d status body) : fixtures (complete d status body s) = fixtures s := by simp [complete]
@[simp] theorem fixtures_completeOp (op status body) : fixtures (completeOp op status body s) = fixtures s := by
  unfold completeOp
  split <;> simp

/-! ### Requests -/

@[simp] theorem fixtures_sendResponse (r op status body) : fixtures (sendResponse r op status body s) = fixtures s := (rfl)
@[simp] theorem fixtures_respond (r op status body) : fixtures (respond r op status body s) = fixtures s := by simp [respond]
@[simp] theorem fixtures_touch (r) : fixtures (touch r s) = fixtures s := by simp [touch]
@[simp] theorem fixtures_requestNoting (r : Req) (op least : Nat) (j : State → Judge) (noted : Nat → State → State) (run : State → State)
    (hnoted : ∀ a0 u, fixtures (noted a0 u) = fixtures u) (hrun : ∀ u, fixtures (run u) = fixtures u) :
    fixtures (requestNoting r op least j noted run s) = fixtures s := by
  unfold requestNoting
  dsimp only
  repeat' split
  all_goals simp [hnoted, hrun]
@[simp] theorem fixtures_request (r : Req) (op least : Nat) (j : State → Judge) (run : State → State) (hrun : ∀ u, fixtures (run u) = fixtures u) :
    fixtures (request r op least j run s) = fixtures s :=
  fixtures_requestNoting s r op least j _ run (fun _ _ => rfl) hrun
@[simp] theorem fixtures_defer (r op) : fixtures (defer r op s) = fixtures s := (rfl)

/-! ### The control engine stops -/

@[simp] theorem fixtures_modCtl (f : Ctl → Ctl) : fixtures (modCtl f s) = fixtures s := (rfl)
@[simp] theorem fixtures_backFx : fixtures (backFx s) = fixtures s := by simp [backFx]
@[simp] theorem fixtures_srcTaken (n) : fixtures (srcTaken n s) = fixtures s := by simp [srcTaken]
@[simp] theorem fixtures_srcWatch (old) : fixtures (srcWatch old s) = fixtures s := by simp [srcWatch]
@[simp] theorem fixtures_haltEngine (st cause fault) : fixtures (haltEngine st cause fault s) = fixtures s := by simp [haltEngine]
@[simp] theorem fixtures_aoUpdate : fixtures (aoUpdate s) = fixtures s := by simp [aoUpdate]
@[simp] theorem fixtures_answerStart (status body) : fixtures (answerStart status body s) = fixtures s := by
  unfold answerStart
  split <;> simp
@[simp] theorem fixtures_parkEngineWith (cause told) : fixtures (parkEngineWith cause told s) = fixtures s := by simp [parkEngineWith]
@[simp] theorem fixtures_parkEngine (cause) : fixtures (parkEngine cause s) = fixtures s := by simp [parkEngine]
@[simp] theorem fixtures_enterFault (code flag cause) : fixtures (enterFault code flag cause s) = fixtures s := by simp [enterFault]
@[simp] theorem fixtures_sameCycle : fixtures (sameCycle s).2 = fixtures s := (rfl)
theorem fixtures_of_sameCycle {b : Bool} {u : State} (h : sameCycle s = (b, u)) : fixtures u = fixtures s := by
  rw [← fixtures_sameCycle s, h]

@[simp] theorem fixtures_faultEngine (code flag) : fixtures (faultEngine code flag s) = fixtures s := by
  unfold faultEngine
  split
  · simp
  · split
    · split <;> rename_i h <;> simp [fixtures_of_sameCycle s h]
    · rfl
@[simp] theorem fixtures_tripEngine : fixtures (tripEngine s) = fixtures s := by
  unfold tripEngine
  split
  · split <;> rename_i h <;> simp [fixtures_of_sameCycle s h]
  · simp
@[simp] theorem fixtures_engineOff : fixtures (engineOff s) = fixtures s := by simp [engineOff]

/-! ### Learned data -/

@[simp] theorem fixtures_modEst (f : Est → Est) : fixtures (modEst f s) = fixtures s := (rfl)
@[simp] theorem fixtures_saveLearned (whole final ok) : fixtures (saveLearned whole final ok s) = fixtures s := by simp [saveLearned]

/-! ### Symbols of the link -/

@[simp] theorem fixtures_takeSeed : fixtures (takeSeed s).2 = fixtures s := (rfl)
@[simp] theorem fixtures_sendPeer (ptype body) : fixtures (sendPeer ptype body s) = fixtures s := (rfl)

/-! ### Monitor ports -/

@[simp] theorem fixtures_addReq (p r) : fixtures (addReq p r s) = fixtures s := (rfl)
@[simp] theorem fixtures_diagAnswer (u res) : fixtures (diagAnswer u res s) = fixtures s := by
  unfold diagAnswer
  dsimp only
  repeat' split
  all_goals simp
@[simp] theorem fixtures_diagDrop (slots : Nat → Bool) : fixtures (diagDrop slots s) = fixtures s := by simp [diagDrop]
@[simp] theorem fixtures_noteHeard (p l h) : fixtures (noteHeard p l h s) = fixtures s := (rfl)
@[simp] theorem fixtures_hearWindow (p l rx) : fixtures (hearWindow p l rx s).1 = fixtures s := by
  unfold hearWindow
  dsimp only
  repeat' split
  all_goals simp
@[simp] theorem fixtures_secondCopy (p n old b) : fixtures (secondCopy p n old b s) = fixtures s := by simp [secondCopy]
@[simp] theorem fixtures_noBlocks (p) : fixtures (noBlocks p s) = fixtures s := (rfl)
@[simp] theorem fixtures_judgeRing (p) : fixtures (judgeRing p s) = fixtures s := by simp [judgeRing]
@[simp] theorem fixtures_judgeReach (p) : fixtures (judgeReach p s) = fixtures s := by simp [judgeReach]
@[simp] theorem fixtures_endCycle (p) : fixtures (endCycle p s) = fixtures s := by simp [endCycle]
@[simp] theorem fixtures_hearReturns (p o sentN sentS) : fixtures (hearReturns p o sentN sentS s).1 = fixtures s := by simp [hearReturns]
@[simp] theorem fixtures_ringBrokenFx (p) : fixtures (ringBrokenFx p s) = fixtures s := by simp [ringBrokenFx]
@[simp] theorem fixtures_sendCorr (p c) : fixtures (sendCorr p c s) = fixtures s := (rfl)
@[simp] theorem fixtures_echoFx (p l rx tTx tRx) : fixtures (echoFx p l rx tTx tRx s) = fixtures s := by
  have heard {u : State} {o : Option Heard} (h : hearWindow p l rx s = (u, o)) : fixtures u = fixtures s := by
    rw [← fixtures_hearWindow s p l rx, h]
  unfold echoFx
  split
  · rfl
  · split <;> rename_i h
    · simp [heard h]
    · exact heard h
@[simp] theorem fixtures_inBand (p) : fixtures (inBand p s) = fixtures s := by simp [inBand]
@[simp] theorem fixtures_ringRestoredFx (p) : fixtures (ringRestoredFx p s) = fixtures s := by simp [ringRestoredFx]
@[simp] theorem fixtures_laneDownFx (p l) : fixtures (laneDownFx p l s) = fixtures s := by
  unfold laneDownFx
  split <;> simp
@[simp] theorem fixtures_recordNoImage (p c i) : fixtures (recordNoImage p c i s) = fixtures s := by simp [recordNoImage]
@[simp] theorem fixtures_portCheck (p) : fixtures (portCheck p s) = fixtures s := by simp [portCheck]
@[simp] theorem fixtures_cmdTimeoutFx (p c) : fixtures (cmdTimeoutFx p c s) = fixtures s := by simp [cmdTimeoutFx]

/-! ### Sampling -/

@[simp] theorem fixtures_modSmp (f : Smp → Smp) : fixtures (modSmp f s) = fixtures s := (rfl)
@[simp] theorem fixtures_modIns (f : Ins → Ins) : fixtures (modIns f s) = fixtures s := (rfl)
@[simp] theorem fixtures_tmbPulse (n) : fixtures (tmbPulse n s) = fixtures s := by simp [tmbPulse]
@[simp] theorem fixtures_moveClock (d) : fixtures (moveClock d s) = fixtures s := (rfl)
@[simp] theorem fixtures_moveEngines (d) : fixtures (moveEngines d s) = fixtures s := (rfl)
@[simp] theorem fixtures_phaseFx (e) : fixtures (phaseFx e s) = fixtures s := by simp [phaseFx]
@[simp] theorem fixtures_phaseLost : fixtures (phaseLost s) = fixtures s := by simp [phaseLost]
@[simp] theorem fixtures_setThrottle (t) : fixtures (setThrottle t s) = fixtures s := (rfl)
@[simp] theorem fixtures_takeThrottle : fixtures (takeThrottle s) = fixtures s := by
  unfold takeThrottle
  split <;> simp
@[simp] theorem fixtures_deliverTick : fixtures (deliverTick s) = fixtures s := by simp [deliverTick]
@[simp] theorem fixtures_advance : fixtures (advance s) = fixtures s := by simp [advance]
@[simp] theorem fixtures_serviceTick : fixtures (serviceTick s) = fixtures s := by simp [serviceTick]
@[simp] theorem fixtures_zeroLapse : fixtures (zeroLapse s) = fixtures s := by simp [zeroLapse]
@[simp] theorem fixtures_zeroStep (x) : fixtures (zeroStep x s) = fixtures s := by
  unfold zeroStep
  dsimp only
  repeat' split
  all_goals simp
@[simp] theorem fixtures_currentFx (x) : fixtures (currentFx x s) = fixtures s := by simp [currentFx]
@[simp] theorem fixtures_zeroDoneFx : fixtures (zeroDoneFx s) = fixtures s := by
  unfold zeroDoneFx
  split <;> simp
@[simp] theorem fixtures_lowEnterFx : fixtures (lowEnterFx s) = fixtures s := by simp [lowEnterFx]
@[simp] theorem fixtures_lowExitFx : fixtures (lowExitFx s) = fixtures s := by simp [lowExitFx]
@[simp] theorem fixtures_insPass : fixtures (insPass s) = fixtures s := by simp [insPass]
@[simp] theorem fixtures_insChange (f : State → State) (hf : ∀ u, fixtures (f u) = fixtures u) : fixtures (insChange f s) = fixtures s := by
  unfold insChange
  dsimp only
  split <;> simp [hf]
@[simp] theorem fixtures_insModeSettle : fixtures (insModeSettle s) = fixtures s := by simp [insModeSettle]
@[simp] theorem fixtures_insWrite (mode closed) : fixtures (insWrite mode closed s) = fixtures s := by simp [insWrite]
@[simp] theorem fixtures_insCycleFx (x) : fixtures (insCycleFx x s) = fixtures s := by simp [insCycleFx]
@[simp] theorem fixtures_insSuspend : fixtures (insSuspend s) = fixtures s := by simp [insSuspend]
@[simp] theorem fixtures_insPoleFx (x) : fixtures (insPoleFx x s) = fixtures s := by simp [insPoleFx]
@[simp] theorem fixtures_insForeignClearFx : fixtures (insForeignClearFx s) = fixtures s := by simp [insForeignClearFx]

/-! ### The planner -/

@[simp] theorem fixtures_modBal (f : Bal → Bal) : fixtures (modBal f s) = fixtures s := (rfl)
@[simp] theorem fixtures_stopSentFx (u mask) : fixtures (stopSentFx u mask s) = fixtures s := (rfl)
@[simp] theorem fixtures_stopRecs (gs) : fixtures (stopRecs gs s) = fixtures s := (rfl)
@[simp] theorem fixtures_stopSlotRecs (u mask) : fixtures (stopSlotRecs u mask s) = fixtures s := (rfl)
@[simp] theorem fixtures_withdraw (u mask) : fixtures (withdraw u mask s) = fixtures s := (rfl)
@[simp] theorem fixtures_dropWires (p) : fixtures (dropWires p s) = fixtures s := (rfl)
@[simp] theorem fixtures_addStop (u mask) : fixtures (addStop u mask s) = fixtures s := by simp [addStop]
@[simp] theorem fixtures_stopSlot (u mask) : fixtures (stopSlot u mask s) = fixtures s := by simp [stopSlot]
@[simp] theorem fixtures_stopAllPorts : fixtures (stopAllPorts s) = fixtures s := (rfl)
@[simp] theorem fixtures_sendModes (mode) : fixtures (sendModes mode s) = fixtures s := by simp [sendModes]
@[simp] theorem fixtures_stopGroups (u mask) : fixtures (stopGroups u mask s) = fixtures s := by simp [stopGroups]
@[simp] theorem fixtures_learnAbort : fixtures (learnAbort s) = fixtures s := by simp [learnAbort]

/-! ### The recorder -/

@[simp] theorem fixtures_modRec (f : Rec → Rec) : fixtures (modRec f s) = fixtures s := (rfl)
@[simp] theorem fixtures_modRecNv (f : RecNv → RecNv) : fixtures (modRecNv f s) = fixtures s := (rfl)
@[simp] theorem fixtures_enterRing (r) : fixtures (enterRing r s) = fixtures s := by simp [enterRing]
@[simp] theorem fixtures_loseEvent (code source) : fixtures (loseEvent code source s) = fixtures s := by simp [loseEvent]
@[simp] theorem fixtures_recTake (ev) : fixtures (recTake ev s) = fixtures s := by
  unfold recTake
  dsimp only
  repeat' split
  all_goals simp
@[simp] theorem fixtures_recEventFx : fixtures (recEventFx s) = fixtures s := by
  unfold recEventFx
  split <;> simp
@[simp] theorem fixtures_flushEnd : fixtures (flushEnd s) = fixtures s := by
  unfold flushEnd
  dsimp only
  repeat' split
  all_goals simp
@[simp] theorem fixtures_flushStartFx : fixtures (flushStartFx s) = fixtures s := by simp [flushStartFx]
@[simp] theorem fixtures_nvRoom : fixtures (nvRoom s) = fixtures s := by simp [nvRoom]
@[simp] theorem fixtures_flushWrittenFx (verified) : fixtures (flushWrittenFx verified s) = fixtures s := by
  unfold flushWrittenFx
  dsimp only
  repeat' split
  all_goals simp
@[simp] theorem fixtures_timeMarkFx : fixtures (timeMarkFx s) = fixtures s := by simp [timeMarkFx]
@[simp] theorem fixtures_optimeFx : fixtures (optimeFx s) = fixtures s := by
  unfold optimeFx
  dsimp only
  repeat' split
  all_goals simp
@[simp] theorem fixtures_recReadRun (r first count) : fixtures (recReadRun r first count s) = fixtures s := by
  unfold recReadRun
  dsimp only
  repeat' split
  all_goals simp

/-! ### Transitions -/

@[simp] theorem fixtures_modPwr (f : Pwr → Pwr) : fixtures (modPwr f s) = fixtures s := (rfl)
@[simp] theorem fixtures_modPro (f : Pro → Pro) : fixtures (modPro f s) = fixtures s := (rfl)
@[simp] theorem fixtures_leaveMaintain : fixtures (leaveMaintain s) = fixtures s := by simp [leaveMaintain]
@[simp] theorem fixtures_disarmed : fixtures (disarmed s) = fixtures s := (rfl)
@[simp] theorem fixtures_disarm : fixtures (disarm s) = fixtures s := by simp [disarm]
@[simp] theorem fixtures_stopSampling : fixtures (stopSampling s) = fixtures s := by simp [stopSampling]
@[simp] theorem fixtures_enterState (t) : fixtures (enterState t s) = fixtures s := by simp [enterState]
@[simp] theorem fixtures_finishTransition (t) : fixtures (finishTransition t s) = fixtures s := by simp [finishTransition]
@[simp] theorem fixtures_flushAll : fixtures (flushAll s) = fixtures s := by
  have written (l : List Nat) (t : State) :
      fixtures (l.foldl (fun t _ => if t.recd.flushing then flushWrittenFx true t else t) t) = fixtures t :=
    fixtures_foldl _ _ _ fun t _ => by simp
  unfold flushAll
  rw [written, fixtures_flushStartFx, fixtures_flushTrigger, written, fixtures_foldl _ _ _ fun t _ => fixtures_recEventFx t]
@[simp] theorem fixtures_goDormant : fixtures (goDormant s) = fixtures s := by
  unfold goDormant
  dsimp only
  simp
@[simp] theorem fixtures_proceedTo (t) : fixtures (proceedTo t s) = fixtures s := by simp [proceedTo]
@[simp] theorem fixtures_continueOut : fixtures (continueOut s) = fixtures s := by
  unfold continueOut
  split <;> simp
@[simp] theorem fixtures_failTransition (status) : fixtures (failTransition status s) = fixtures s := by simp [failTransition]

/-! ### The control loop -/

@[simp] theorem fixtures_measureFx (x t) : fixtures (measureFx x t s) = fixtures s := (rfl)
@[simp] theorem fixtures_fallbackFx : fixtures (fallbackFx s) = fixtures s := by simp [fallbackFx]
@[simp] theorem fixtures_analogFx (x) : fixtures (analogFx x s) = fixtures s := by simp [analogFx]
@[simp] theorem fixtures_edgeFx (rising ps) : fixtures (edgeFx rising ps s) = fixtures s := by simp [edgeFx]
@[simp] theorem fixtures_chanterLostFx : fixtures (chanterLostFx s) = fixtures s := by simp [chanterLostFx]
@[simp] theorem fixtures_chanterBackFx : fixtures (chanterBackFx s) = fixtures s := by simp [chanterBackFx]
@[simp] theorem fixtures_srcFx (n) : fixtures (srcFx n s) = fixtures s := by simp [srcFx]
@[simp] theorem fixtures_limitsFx : fixtures (limitsFx s) = fixtures s := (rfl)
@[simp] theorem fixtures_limiterFx : fixtures (limiterFx s) = fixtures s := (rfl)
@[simp] theorem fixtures_tonesFx (prev now) : fixtures (tonesFx prev now s).1 = fixtures s := by
  unfold tonesFx
  dsimp only
  repeat' split
  all_goals simp
@[simp] theorem fixtures_toneDescFx : fixtures (toneDescFx s) = fixtures s := by
  unfold toneDescFx
  dsimp only
  repeat' split
  all_goals simp
@[simp] theorem fixtures_toneStartFx : fixtures (toneStartFx s) = fixtures s := by
  unfold toneStartFx
  split <;> simp
@[simp] theorem fixtures_swapFx (old new b seed) : fixtures (swapFx old new b seed s) = fixtures s := by simp [swapFx]
@[simp] theorem fixtures_compensate (k r) : fixtures (compensate k r s) = fixtures s := (rfl)
@[simp] theorem fixtures_ffQuot (num) : fixtures (ffQuot num s).2 = fixtures s := by
  unfold ffQuot
  split <;> simp
@[simp] theorem fixtures_firstUpdate (k) : fixtures (firstUpdate k s) = fixtures s := (rfl)
@[simp] theorem fixtures_dutiesFx (first r) : fixtures (dutiesFx first r s) = fixtures s := by simp [dutiesFx]
@[simp] theorem fixtures_shadowCheck : fixtures (shadowCheck s) = fixtures s := by simp [shadowCheck]
@[simp] theorem fixtures_resync : fixtures (resync s) = fixtures s := by
  unfold resync
  dsimp only
  repeat' split
  all_goals simp
@[simp] theorem fixtures_keepOwn : fixtures (keepOwn s) = fixtures s := by simp [keepOwn]
@[simp] theorem fixtures_takeCtlCfg : fixtures (takeCtlCfg s) = fixtures s := by simp [takeCtlCfg]
@[simp] theorem fixtures_parkRule : fixtures (parkRule s) = fixtures s := by simp [parkRule]
@[simp] theorem fixtures_loopStep (prev t old) : fixtures (loopStep prev t old s) = fixtures s := by simp [loopStep]
@[simp] theorem fixtures_loopUpdateFx (x) : fixtures (loopUpdateFx x s) = fixtures s := by simp [loopUpdateFx]
@[simp] theorem fixtures_valleyFx (k) : fixtures (valleyFx k s) = fixtures s := by
  unfold valleyFx
  dsimp only
  split
  · simp
  · simp [fixtures_foldl]
@[simp] theorem fixtures_mismatchFx : fixtures (mismatchFx s) = fixtures s := by simp [mismatchFx]
@[simp] theorem fixtures_ctlCurrent : fixtures (ctlCurrent s) = fixtures s := by
  unfold ctlCurrent
  split <;> simp
@[simp] theorem fixtures_startEngine (r) : fixtures (startEngine r s) = fixtures s := (rfl)
@[simp] theorem fixtures_stopEngine (r) : fixtures (stopEngine r s) = fixtures s := by simp [stopEngine]
@[simp] theorem fixtures_toneRun (r tones) : fixtures (toneRun r tones s) = fixtures s := by simp [toneRun]
@[simp] theorem fixtures_spHostFx (v) : fixtures (spHostFx v s) = fixtures s := (rfl)
@[simp] theorem fixtures_bankReqFx (b) : fixtures (bankReqFx b s) = fixtures s := by simp [bankReqFx]

/-! ### The impedance engine -/

@[simp] theorem fixtures_modImp (f : Imp → Imp) : fixtures (modImp f s) = fixtures s := (rfl)
@[simp] theorem fixtures_binFrame (b x) : fixtures (binFrame b x s) = fixtures s := by simp [binFrame]
@[simp] theorem fixtures_freshRun : fixtures (freshRun s) = fixtures s := (rfl)
@[simp] theorem fixtures_cutRun (noDesc) : fixtures (cutRun noDesc s) = fixtures s := by simp [cutRun]
@[simp] theorem fixtures_openRun (f) : fixtures (openRun f s) = fixtures s := by simp [openRun]
@[simp] theorem fixtures_endStep (ended) : fixtures (endStep ended s) = fixtures s := by
  unfold endStep
  split <;> simp
@[simp] theorem fixtures_stepMs (m) : fixtures (stepMs m s) = fixtures s := by
  unfold stepMs
  dsimp only
  repeat' split
  all_goals simp
@[simp] theorem fixtures_msFrame (f lost) : fixtures (msFrame f lost s) = fixtures s := by
  unfold msFrame
  dsimp only
  rw [apply_ite fixtures, fixtures_stepMs, fixtures_modImp, fixtures_modImp, ite_self]
@[simp] theorem fixtures_stepHoldEndFx : fixtures (stepHoldEndFx s) = fixtures s := by
  unfold stepHoldEndFx
  split <;> simp
@[simp] theorem fixtures_lostFrame (f) : fixtures (lostFrame f s) = fixtures s := by simp [lostFrame]
@[simp] theorem fixtures_takeFrame (f) : fixtures (takeFrame f s) = fixtures s := by simp [takeFrame]
@[simp] theorem fixtures_impFrameFx : fixtures (impFrameFx s) = fixtures s := by
  unfold impFrameFx
  split <;> simp
@[simp] theorem fixtures_toImp (f) : fixtures (toImp f s) = fixtures s := by
  unfold toImp
  dsimp only
  repeat' split
  all_goals simp
@[simp] theorem fixtures_windowCloseFx : fixtures (windowCloseFx s) = fixtures s := by simp [windowCloseFx]
@[simp] theorem fixtures_windowDoneFx : fixtures (windowDoneFx s) = fixtures s := by
  unfold windowDoneFx
  split <;> simp
@[simp] theorem fixtures_dropHold : fixtures (dropHold s) = fixtures s := (rfl)
@[simp] theorem fixtures_winRestartFx : fixtures (winRestartFx s) = fixtures s := (rfl)
@[simp] theorem fixtures_stepInhibitFx (v) : fixtures (stepInhibitFx v s) = fixtures s := by simp [stepInhibitFx]
@[simp] theorem fixtures_gselFx (g) : fixtures (gselFx g s) = fixtures s := (rfl)
@[simp] theorem fixtures_modelLatch (g) : fixtures (modelLatch g s) = fixtures s := (rfl)

/-! ### Epochs -/

@[simp] theorem fixtures_takeEpochFx : fixtures (takeEpochFx s) = fixtures s := by
  unfold takeEpochFx
  dsimp only
  repeat' split
  all_goals simp
@[simp] theorem fixtures_snapshotEpoch (last span) : fixtures (snapshotEpoch last span s) = fixtures s := by simp [snapshotEpoch]

/-! ### Contactors -/

@[simp] theorem fixtures_setAct (code on) : fixtures (setAct code on s) = fixtures s := (rfl)
@[simp] theorem fixtures_proRecord (code idx val thr how) : fixtures (proRecord code idx val thr how s) = fixtures s := by simp [proRecord]
@[simp] theorem fixtures_setDerate (ch sc dis sd) : fixtures (setDerate ch sc dis sd s) = fixtures s := by simp [setDerate]
@[simp] theorem fixtures_zeroLimits (code) : fixtures (zeroLimits code s) = fixtures s := by simp [zeroLimits]
@[simp] theorem fixtures_note (code idx val thr) : fixtures (note code idx val thr s) = fixtures s := by simp [note]
@[simp] theorem fixtures_activate (code idx val thr) : fixtures (activate code idx val thr s) = fixtures s := by simp [activate]
@[simp] theorem fixtures_setConn (st) : fixtures (setConn st s) = fixtures s := by simp [setConn]
@[simp] theorem fixtures_setFeedback (code m) : fixtures (setFeedback code m s) = fixtures s := by simp [setFeedback]
@[simp] theorem fixtures_feedbackActive : fixtures (feedbackActive s) = fixtures s := by simp [feedbackActive]
@[simp] theorem fixtures_assertK (m) : fixtures (assertK m s) = fixtures s := by simp [assertK]
@[simp] theorem fixtures_brokeAbove (m) : fixtures (brokeAbove m s) = fixtures s := by simp [brokeAbove]
@[simp] theorem fixtures_releaseK (m) : fixtures (releaseK m s) = fixtures s := by simp [releaseK]
@[simp] theorem fixtures_currentCut (flags) : fixtures (currentCut flags s) = fixtures s := by simp [currentCut]
@[simp] theorem fixtures_finishOpen : fixtures (finishOpen s) = fixtures s := by
  unfold finishOpen
  dsimp only
  repeat' split
  all_goals simp
@[simp] theorem fixtures_openingStep : fixtures (openingStep s) = fixtures s := by simp [openingStep]
@[simp] theorem fixtures_releasePoint : fixtures (releasePoint s) = fixtures s := by simp [releasePoint]
@[simp] theorem fixtures_beginOpen (hw) : fixtures (beginOpen hw s) = fixtures s := by simp [beginOpen]
@[simp] theorem fixtures_openString (hw) : fixtures (openString hw s) = fixtures s := by simp [openString]
@[simp] theorem fixtures_openAct (code idx val thr hw) : fixtures (openAct code idx val thr hw s) = fixtures s := by simp [openAct]
@[simp] theorem fixtures_fire (code cond thr) : fixtures (fire code cond thr s) = fixtures s := by
  unfold fire
  split <;> simp
@[simp] theorem fixtures_cmpTake (x) : fixtures (cmpTake x s) = fixtures s := (rfl)
@[simp] theorem fixtures_cmpRelease : fixtures (cmpRelease s) = fixtures s := by simp [cmpRelease]
@[simp] theorem fixtures_hwOcFx : fixtures (hwOcFx s) = fixtures s := by simp [hwOcFx]
@[simp] theorem fixtures_cmpFx (x) : fixtures (cmpFx x s) = fixtures s := by simp [cmpFx]
@[simp] theorem fixtures_closeNeg : fixtures (closeNeg s) = fixtures s := by simp [closeNeg]
@[simp] theorem fixtures_startPrecharge : fixtures (startPrecharge s) = fixtures s := by simp [startPrecharge]
@[simp] theorem fixtures_seqStep : fixtures (seqStep s) = fixtures s := by simp [seqStep]
@[simp] theorem fixtures_startConnect : fixtures (startConnect s) = fixtures s := by
  unfold startConnect
  dsimp only
  repeat' split
  all_goals simp
@[simp] theorem fixtures_prechgFail : fixtures (prechgFail s) = fixtures s := by simp [prechgFail]
@[simp] theorem fixtures_prechargeStep (time) : fixtures (prechargeStep time s) = fixtures s := by simp [prechargeStep]
@[simp] theorem fixtures_weldTestFx : fixtures (weldTestFx s) = fixtures s := by simp [weldTestFx]
@[simp] theorem fixtures_connectWatch : fixtures (connectWatch s) = fixtures s := by simp [connectWatch]
@[simp] theorem fixtures_hostDisconnect : fixtures (hostDisconnect s) = fixtures s := by simp [hostDisconnect]
@[simp] theorem fixtures_disconnectFx : fixtures (disconnectFx s) = fixtures s := by simp [disconnectFx]
@[simp] theorem fixtures_rampStep : fixtures (rampStep s) = fixtures s := by simp [rampStep]
@[simp] theorem fixtures_heldBounds : fixtures (heldBounds s) = fixtures s := by
  unfold heldBounds
  dsimp only
  repeat' split
  all_goals simp
@[simp] theorem fixtures_kFeedback (k) : fixtures (kFeedback k s) = fixtures s := by simp [kFeedback]
@[simp] theorem fixtures_kWeld (k) : fixtures (kWeld k s) = fixtures s := by simp [kWeld]
@[simp] theorem fixtures_kfTake : fixtures (kfTake s) = fixtures s := by simp [kfTake]
@[simp] theorem fixtures_kfSettle : fixtures (kfSettle s) = fixtures s := by simp [kfSettle]
@[simp] theorem fixtures_kfChangeFx (levels) : fixtures (kfChangeFx levels s) = fixtures s := by simp [kfChangeFx]
@[simp] theorem fixtures_kfWindowFx (k) : fixtures (kfWindowFx k s) = fixtures s := by simp [kfWindowFx]
@[simp] theorem fixtures_readbackFx (k x) : fixtures (readbackFx k x s) = fixtures s := by simp [readbackFx]

/-! ### Sense-wire tests -/

@[simp] theorem fixtures_owStart (u) : fixtures (owStart u s) = fixtures s := by simp [owStart]
@[simp] theorem fixtures_owPeriodFx (c) : fixtures (owPeriodFx c s) = fixtures s := by simp [owPeriodFx]
@[simp] theorem fixtures_owClassify (u w incon) : fixtures (owClassify u w incon s) = fixtures s := (rfl)
@[simp] theorem fixtures_owInconclusive (u w) : fixtures (owInconclusive u w s) = fixtures s := by simp [owInconclusive]
@[simp] theorem fixtures_probeEnd (u pr) : fixtures (probeEnd u pr s) = fixtures s := by
  unfold probeEnd
  split <;> simp
@[simp] theorem fixtures_probeAsk (u p) : fixtures (probeAsk u p s) = fixtures s := (rfl)
@[simp] theorem fixtures_owSend (u m pol) : fixtures (owSend u m pol s) = fixtures s := (rfl)
@[simp] theorem fixtures_owSent (u) : fixtures (owSent u s) = fixtures s := (rfl)
@[simp] theorem fixtures_probeSent (u) : fixtures (probeSent u s) = fixtures s := (rfl)
@[simp] theorem fixtures_owFailed (u) : fixtures (owFailed u s) = fixtures s := (rfl)
@[simp] theorem fixtures_passEnd (u m pol) : fixtures (passEnd u m pol s) = fixtures s := by simp [passEnd]
@[simp] theorem fixtures_probeSuspect (u w b) : fixtures (probeSuspect u w b s) = fixtures s := by simp [probeSuspect]
@[simp] theorem fixtures_owNext (u) : fixtures (owNext u s) = fixtures s := by
  unfold owNext
  dsimp only
  repeat' split
  all_goals simp
@[simp] theorem fixtures_owFrame (u f) : fixtures (owFrame u f s) = fixtures s := by
  unfold owFrame
  dsimp only
  repeat' split
  all_goals simp
@[simp] theorem fixtures_devStart (g) : fixtures (devStart g s) = fixtures s := by
  unfold devStart
  split <;> simp
@[simp] theorem fixtures_heardPass (u m pol) : fixtures (heardPass u m pol s) = fixtures s := by simp [heardPass]
@[simp] theorem fixtures_heardProbe (u mask dur) : fixtures (heardProbe u mask dur s) = fixtures s := by
  unfold heardProbe
  dsimp only
  repeat' split
  all_goals simp

/-! ### The estimator -/

@[simp] theorem fixtures_arrivals (e) : fixtures (arrivals e s) = fixtures s := by
  unfold arrivals
  dsimp only
  rw [fixtures_forAll]
  · simp
  · intro p t
    split
    · split
      · simp only [fixtures_raise, fixtures_modEst]
        rw [fixtures_forAll]
        · simp
        · intro g u
          split <;> simp
      · rfl
    · simp
@[simp] theorem fixtures_runCtx (g e comp fresh) : fixtures (runCtx g e comp fresh s) = fixtures s := by simp [runCtx]
@[simp] theorem fixtures_groupTick (e g) : fixtures (groupTick e g s) = fixtures s := by simp [groupTick]
@[simp] theorem fixtures_stringFigures : fixtures (stringFigures s) = fixtures s := by simp [stringFigures]
@[simp] theorem fixtures_stringLimits (e der) : fixtures (stringLimits e der s) = fixtures s := by simp [stringLimits]
@[simp] theorem fixtures_publishTick (e) : fixtures (publishTick e s) = fixtures s := by simp [publishTick]
@[simp] theorem fixtures_mapChanges : fixtures (mapChanges s) = fixtures s := by simp [mapChanges]
@[simp] theorem fixtures_arrayTick (t) : fixtures (arrayTick t s) = fixtures s := by simp [arrayTick]
@[simp] theorem fixtures_learnedSaveFx (whole ok) : fixtures (learnedSaveFx whole ok s) = fixtures s := by simp [learnedSaveFx]

/-! ### Ticks -/

@[simp] theorem fixtures_thermalStep (u) : fixtures (thermalStep u s) = fixtures s := by simp [thermalStep]
@[simp] theorem fixtures_lowStops : fixtures (lowStops s) = fixtures s := by simp [lowStops]
@[simp] theorem fixtures_passTick (t) : fixtures (passTick t s) = fixtures s := by simp [passTick]
@[simp] theorem fixtures_roundStep (t) : fixtures (roundStep t s) = fixtures s := (rfl)
@[simp] theorem fixtures_runTick (t) : fixtures (runTick t s) = fixtures s := by simp [runTick]
@[simp] theorem fixtures_estimatorTickFx : fixtures (estimatorTickFx s) = fixtures s := by
  unfold estimatorTickFx
  split <;> simp

/-! ### Balancing -/

@[simp] theorem fixtures_slotPlan (u sel modeFrame) : fixtures (slotPlan u sel modeFrame s) = fixtures s := by simp [slotPlan]
@[simp] theorem fixtures_slotModes : fixtures (slotModes s) = fixtures s := by simp [slotModes]
@[simp] theorem fixtures_planFx : fixtures (planFx s) = fixtures s := by simp [planFx]
@[simp] theorem fixtures_durationFx (u) : fixtures (durationFx u s) = fixtures s := by simp [durationFx]
@[simp] theorem fixtures_bleedAnswer (u done) : fixtures (bleedAnswer u done s) = fixtures s := by
  unfold bleedAnswer
  split <;> simp
@[simp] theorem fixtures_creditFrame (f service) : fixtures (creditFrame f service s) = fixtures s :=
  (fixtures_raiseIf _ _ _ _).trans (fixtures_modBal _ _)
@[simp] theorem fixtures_unitRestarted (u) : fixtures (unitRestarted u s) = fixtures s := (rfl)
@[simp] theorem fixtures_dropBleed (u) : fixtures (dropBleed u s) = fixtures s := by
  unfold dropBleed
  split <;> simp
@[simp] theorem fixtures_learnStart : fixtures (learnStart s) = fixtures s := by simp [learnStart]
@[simp] theorem fixtures_learnBleed (n on) : fixtures (learnBleed n on s) = fixtures s := by simp [learnBleed]
@[simp] theorem fixtures_keepWire (u w) : fixtures (keepWire u w s) = fixtures s := by
  unfold keepWire
  refine (fixtures_onlyIf_of _ (fun t => ?_) _).trans ((fixtures_onlyIf_of _ (fun t => ?_) _).trans rfl) <;>
    (dsimp only; split <;> rfl)
@[simp] theorem fixtures_learnEnd (l) : fixtures (learnEnd l s) = fixtures s := by simp [learnEnd]
@[simp] theorem fixtures_learnNext (l t) : fixtures (learnNext l t s) = fixtures s := by
  unfold learnNext
  split <;> simp
@[simp] theorem fixtures_learnFrame (f) : fixtures (learnFrame f s) = fixtures s := by
  unfold learnFrame
  dsimp only
  repeat' split
  all_goals simp

/-! ### Housekeeping -/

@[simp] theorem fixtures_modHkp (f : Hkp → Hkp) : fixtures (modHkp f s) = fixtures s := (rfl)
@[simp] theorem fixtures_sensorFx (n raw) : fixtures (sensorFx n raw s) = fixtures s := by simp [sensorFx]
@[simp] theorem fixtures_throttleFx : fixtures (throttleFx s) = fixtures s := by simp [throttleFx]
@[simp] theorem fixtures_hkpFx (temps) : fixtures (hkpFx temps s) = fixtures s := by simp [hkpFx]
@[simp] theorem fixtures_eccCount (mem ue) : fixtures (eccCount mem ue s) = fixtures s := by simp [eccCount]

/-! ### Protection -/

@[simp] theorem fixtures_publishLimits (l) : fixtures (publishLimits l s) = fixtures s := by simp [publishLimits]
@[simp] theorem fixtures_derateZero (code) : fixtures (derateZero code s) = fixtures s := by simp [derateZero]
@[simp] theorem fixtures_noteIf (code cond thr) : fixtures (noteIf code cond thr s) = fixtures s := by
  unfold noteIf
  split <;> simp
@[simp] theorem fixtures_cellLimits (f) : fixtures (cellLimits f s) = fixtures s := by simp [cellLimits]
@[simp] theorem fixtures_pairLimits (f) : fixtures (pairLimits f s) = fixtures s := by simp [pairLimits]
@[simp] theorem fixtures_strOvFx (f) : fixtures (strOvFx f s) = fixtures s := by simp [strOvFx]
@[simp] theorem fixtures_stackFx (f) : fixtures (stackFx f s) = fixtures s := by simp [stackFx]
@[simp] theorem fixtures_staleFx (g) : fixtures (staleFx g s) = fixtures s := by
  unfold staleFx
  split <;> simp
@[simp] theorem fixtures_tempFx (f all) : fixtures (tempFx f all s) = fixtures s := by simp [tempFx]
@[simp] theorem fixtures_derateFns (rs ts) : fixtures (derateFns rs ts s) = fixtures s := by simp [derateFns]
@[simp] theorem fixtures_devFx (f rs) : fixtures (devFx f rs s) = fixtures s := by
  unfold devFx
  dsimp only
  rw [fixtures_forAll]
  · simp
  · intro g t
    split <;> simp
@[simp] theorem fixtures_classFx : fixtures (classFx s) = fixtures s := by simp [classFx]
@[simp] theorem fixtures_extremes (rs all) : fixtures (extremes rs all s) = fixtures s := by
  unfold extremes
  dsimp only
  repeat' split
  all_goals simp
@[simp] theorem fixtures_proFrame (f) : fixtures (proFrame f s) = fixtures s := by simp [proFrame]
@[simp] theorem fixtures_ocFx : fixtures (ocFx s) = fixtures s := by simp [ocFx]
@[simp] theorem fixtures_disagreeFx : fixtures (disagreeFx s) = fixtures s := (rfl)
@[simp] theorem fixtures_noCurrentFx : fixtures (noCurrentFx s) = fixtures s := by simp [noCurrentFx]
@[simp] theorem fixtures_shuntOtFx : fixtures (shuntOtFx s) = fixtures s := by
  unfold shuntOtFx
  dsimp only
  repeat' split
  all_goals simp
@[simp] theorem fixtures_proCurrent (x) : fixtures (proCurrent x s) = fixtures s := by simp [proCurrent]
@[simp] theorem fixtures_persistFx (code idx) : fixtures (persistFx code idx s) = fixtures s := by
  unfold persistFx
  dsimp only
  repeat' split
  all_goals simp
@[simp] theorem fixtures_insEval (r status) : fixtures (insEval r status s) = fixtures s := by simp [insEval]
@[simp] theorem fixtures_refCheckFx (ppm) : fixtures (refCheckFx ppm s) = fixtures s := by simp [refCheckFx]
@[simp] theorem fixtures_starveFx : fixtures (starveFx s) = fixtures s := by simp [starveFx]
@[simp] theorem fixtures_supplyFaultFx : fixtures (supplyFaultFx s) = fixtures s := by
  have hreset : fixtures (supplyFaultFx s) = fixtures (disarmed (brokeAbove 0xF (parkEngine 2 s))) := by
    unfold supplyFaultFx
    dsimp only
    split
    · rfl
    · simp only [fixtures_continueOut, fixtures_notice, fixtures_completeOp, fixtures_modPro]
      rfl
  simp [hreset]
@[simp] theorem fixtures_proRestartFx : fixtures (proRestartFx s) = fixtures s := by simp [proRestartFx]
@[simp] theorem fixtures_tripResetFx : fixtures (tripResetFx s) = fixtures s := by simp [tripResetFx]
@[simp] theorem fixtures_classClear (u) : fixtures (classClear u s) = fixtures s := by simp [classClear]

/-! ### Service cycles -/

@[simp] theorem fixtures_modSvc (p : Nat) (f : Svc → Svc) : fixtures (modSvc p f s) = fixtures s := (rfl)
@[simp] theorem fixtures_enterPhase (ph jobs p) : fixtures (enterPhase ph jobs p s) = fixtures s := (rfl)
@[simp] theorem fixtures_discardPort (p) : fixtures (discardPort p s) = fixtures s := by simp [discardPort]
@[simp] theorem fixtures_swapCheck (p) : fixtures (swapCheck p s) = fixtures s := by simp [swapCheck]
@[simp] theorem fixtures_testsEnd (u) : fixtures (testsEnd u s) = fixtures s := (rfl)
@[simp] theorem fixtures_beginEnum (p) : fixtures (beginEnum p s) = fixtures s := by simp [beginEnum]
@[simp] theorem fixtures_walkEnd (p) : fixtures (walkEnd p s) = fixtures s := by simp [walkEnd]
@[simp] theorem fixtures_laneEnd (p) : fixtures (laneEnd p s) = fixtures s := by simp [laneEnd]
@[simp] theorem fixtures_assigned (p a serial) : fixtures (assigned p a serial s) = fixtures s := (rfl)
@[simp] theorem fixtures_assignAnswer (p a stat data) : fixtures (assignAnswer p a stat data s) = fixtures s := by simp [assignAnswer]
@[simp] theorem fixtures_assignNew (p addr) : fixtures (assignNew p addr s).1 = fixtures s := (rfl)
@[simp] theorem fixtures_assignWait (p a) : fixtures (assignWait p a s).1 = fixtures s := by
  unfold assignWait
  dsimp only
  repeat' split
  all_goals simp
@[simp] theorem fixtures_walkStep (p) : fixtures (walkStep p s).1 = fixtures s := by
  unfold walkStep
  dsimp only
  repeat' split
  all_goals simp
@[simp] theorem fixtures_measureEnd (p) : fixtures (measureEnd p s) = fixtures s := by simp [measureEnd]
@[simp] theorem fixtures_awaitImages (p) : fixtures (awaitImages p s) = fixtures s := by simp [awaitImages]
@[simp] theorem fixtures_nextLoad (p) : fixtures (nextLoad p s) = fixtures s := by
  unfold nextLoad
  split <;> simp
@[simp] theorem fixtures_checked (p l) : fixtures (checked p l s) = fixtures s := by simp [checked]
@[simp] theorem fixtures_noteImages (p cs) : fixtures (noteImages p cs s) = fixtures s := by
  refine fixtures_forAll _ _ _ fun c t => ?_
  split <;> simp
@[simp] theorem fixtures_enumDone (p) : fixtures (enumDone p s) = fixtures s := by simp [enumDone]
@[simp] theorem fixtures_peerUnits (p l) : fixtures (peerUnits p l s) = fixtures s := by simp [peerUnits]
@[simp] theorem fixtures_nextPhase (p o) : fixtures (nextPhase p o s) = fixtures s := by
  unfold nextPhase
  dsimp only
  repeat' split
  all_goals simp
@[simp] theorem fixtures_jobStep (p) : fixtures (jobStep p s).1 = fixtures s := by
  unfold jobStep
  dsimp only
  repeat' split
  all_goals simp
@[simp] theorem fixtures_sendService (p x) : fixtures (sendService p x s).1 = fixtures s := by
  unfold sendService
  dsimp only
  repeat' split
  all_goals simp
@[simp] theorem fixtures_svcStep (k p : Nat) (o : LinkObs) : fixtures (svcStep k p o s).1 = fixtures s := by
  induction k generalizing s with
  | zero => exact fixtures_jobStep _ _
  | succ k ih =>
    have walked := fixtures_walkStep (modPort p (fun x => { x with svc := { x.svc with jobs := jobsLeft x } }) s) p
    unfold svcStep
    dsimp only
    simp only [apply_ite Prod.fst, apply_ite fixtures]
    split
    · simp
    · split
      · split <;> rename_i h
        · simpa [h] using walked
        · simpa [h, ih] using walked
      · simp [ih]
@[simp] theorem fixtures_heardSeq (p k) : fixtures (heardSeq p k s) = fixtures s := by simp [heardSeq]
@[simp] theorem fixtures_followStep (p) : fixtures (followStep p s).1 = fixtures s := by
  unfold followStep
  dsimp only
  repeat' split
  all_goals simp
@[simp] theorem fixtures_heardPeer (p o) : fixtures (heardPeer p o s) = fixtures s := by
  unfold heardPeer
  split <;> simp
@[simp] theorem fixtures_serviceCycle (p o) : fixtures (serviceCycle p o s) = fixtures s := by
  unfold serviceCycle
  dsimp only
  repeat' split
  all_goals simp
@[simp] theorem fixtures_svcAnswer (p c q stat data) : fixtures (svcAnswer p c q stat data s) = fixtures s := by simp [svcAnswer]
@[simp] theorem fixtures_svcAnswered (p l b) : fixtures (svcAnswered p l b s).1 = fixtures s := by
  unfold svcAnswered
  dsimp only
  repeat' split
  all_goals simp
@[simp] theorem fixtures_svcBlock (p l b) : fixtures (svcBlock p l b s).1 = fixtures s := by
  unfold svcBlock
  dsimp only
  repeat' split
  all_goals simp

/-! ### Link cycles and frames -/

@[simp] theorem fixtures_probeFailed (u) : fixtures (probeFailed u s) = fixtures s := by
  unfold probeFailed
  dsimp only
  repeat' split
  all_goals simp
@[simp] theorem fixtures_cmdEnded (p c q stat data) : fixtures (cmdEnded p c q stat data s) = fixtures s := by
  unfold cmdEnded
  dsimp only
  repeat' split
  all_goals simp
@[simp] theorem fixtures_respFx (p c rseq stat data) : fixtures (respFx p c rseq stat data s) = fixtures s := by
  unfold respFx
  split <;> simp
@[simp] theorem fixtures_recovered (u) : fixtures (recovered u s) = fixtures s := by simp [recovered]
@[simp] theorem fixtures_acceptBlock (p c lane b) : fixtures (acceptBlock p c lane b s) = fixtures s := by simp [acceptBlock]
@[simp] theorem fixtures_bootSeen (p c was) : fixtures (bootSeen p c was s) = fixtures s := by simp [bootSeen]
@[simp] theorem fixtures_forwardBlock (u b) : fixtures (forwardBlock u b s) = fixtures s := by simp [forwardBlock]
@[simp] theorem fixtures_blockResponse (p c b) : fixtures (blockResponse p c b s) = fixtures s := by simp [blockResponse]
@[simp] theorem fixtures_blockFx (p c lane b) : fixtures (blockFx p c lane b s) = fixtures s := by
  unfold blockFx
  split <;> simp
@[simp] theorem fixtures_upBlockFx (p lane rx) : fixtures (upBlockFx p lane rx s) = fixtures s := by
  have heard {u : State} {o : Option Heard} (h : hearWindow p lane rx s = (u, o)) : fixtures u = fixtures s := by
    rw [← fixtures_hearWindow s p lane rx, h]
  have matched {b : Bytes} {t u : State} {o : Option (Nat × LinkReq × Nat × Bytes)} (h : svcBlock p lane b t = (u, o)) :
      fixtures u = fixtures t := by rw [← fixtures_svcBlock t p lane b, h]
  unfold upBlockFx
  dsimp only
  split
  · rfl
  · split <;> rename_i h
    · split
      · exact heard h
      · split
        · split <;> rename_i h' <;> simp [matched h', heard h]
        · simp [heard h]
    · exact heard h
@[simp] theorem fixtures_timeoutFx (p c) : fixtures (timeoutFx p c s) = fixtures s := by
  unfold timeoutFx
  dsimp only
  repeat' split
  all_goals simp
@[simp] theorem fixtures_staleUnit (p c) : fixtures (staleUnit p c s) = fixtures s := by simp [staleUnit]
@[simp] theorem fixtures_probeStep (p) : fixtures (probeStep p s) = fixtures s := by
  refine fixtures_forAll _ _ _ fun c t => ?_
  dsimp only
  split <;> simp
@[simp] theorem fixtures_sentFx (u mask dur) : fixtures (sentFx u mask dur s) = fixtures s := (rfl)
@[simp] theorem fixtures_placed (p k) : fixtures (placed p k s) = fixtures s := by simp [placed]
@[simp] theorem fixtures_stopWithFrame (p) : fixtures (stopWithFrame p s) = fixtures s := (rfl)
@[simp] theorem fixtures_heardUnit (p c k) : fixtures (heardUnit p c k s) = fixtures s := by
  unfold heardUnit
  dsimp only
  repeat' split
  all_goals simp
@[simp] theorem fixtures_heardCmd (p q) : fixtures (heardCmd p q s) = fixtures s := by simp [heardCmd]
@[simp] theorem fixtures_heardFrame (p f) : fixtures (heardFrame p f s) = fixtures s := by simp [heardFrame]
@[simp] theorem fixtures_dropRetries (p) : fixtures (dropRetries p s) = fixtures s := by
  refine fixtures_forAll _ _ _ fun c t => ?_
  split <;> simp
@[simp] theorem fixtures_downPort (p first o) : fixtures (downPort p first o s) = fixtures s := by
  unfold downPort
  dsimp only
  repeat' split
  all_goals simp
@[simp] theorem fixtures_beginPort (p) : fixtures (beginPort p s).1 = fixtures s := by
  unfold beginPort
  split <;> simp
@[simp] theorem fixtures_enumPortEnd : fixtures (enumPortEnd s) = fixtures s := by
  unfold enumPortEnd
  split <;> simp
@[simp] theorem fixtures_portCycle (instant o p) : fixtures (portCycle instant o p s) = fixtures s := by simp [portCycle]
@[simp] theorem fixtures_tellPorts : fixtures (tellPorts s) = fixtures s := by simp [tellPorts]
@[simp] theorem fixtures_linkCycleFx (obs) : fixtures (linkCycleFx obs s) = fixtures s := by simp [linkCycleFx]
@[simp] theorem fixtures_frameItems (f) : fixtures (frameItems f s) = fixtures s := by simp [frameItems]
@[simp] theorem fixtures_toQueues (lags f) : fixtures (toQueues lags f s) = fixtures s := by simp [toQueues]
@[simp] theorem fixtures_countMisses : fixtures (countMisses s) = fixtures s := by simp [countMisses]
@[simp] theorem fixtures_inhibitStops : fixtures (inhibitStops s) = fixtures s := by simp [inhibitStops]
@[simp] theorem fixtures_firstFrame : fixtures (firstFrame s) = fixtures s := by
  unfold firstFrame
  dsimp only
  repeat' split
  all_goals simp
@[simp] theorem fixtures_modesInForce : fixtures (modesInForce s) = fixtures s := (rfl)
@[simp] theorem fixtures_frameCloseFx (v) : fixtures (frameCloseFx v s) = fixtures s := by
  unfold frameCloseFx
  dsimp only
  repeat' split
  all_goals simp
@[simp] theorem fixtures_currentResultFx (x) : fixtures (currentResultFx x s) = fixtures s := by simp [currentResultFx]

/-! ### Start-up -/

@[simp] theorem fixtures_restoreGroups : fixtures (restoreGroups s) = fixtures s := by
  unfold restoreGroups
  split <;> simp
@[simp] theorem fixtures_restorePorts : fixtures (restorePorts s) = fixtures s := by
  unfold restorePorts
  dsimp only
  repeat' split
  all_goals simp
@[simp] theorem fixtures_bringUp (ps) : fixtures (bringUp ps s) = fixtures s := by simp [bringUp]
@[simp] theorem fixtures_takeConfig : fixtures (takeConfig s) = fixtures s := by simp [takeConfig]
@[simp] theorem fixtures_startUp (t) : fixtures (startUp t s) = fixtures s := by simp [startUp]
@[simp] theorem fixtures_enumPortRun (r mask) : fixtures (enumPortRun r mask s) = fixtures s := by simp [enumPortRun]

/-! ### Admission -/

@[simp] theorem fixtures_commitIns (a b) : fixtures (commitIns a b s) = fixtures s := by simp [commitIns]
@[simp] theorem fixtures_commitFields (had a b) : fixtures (commitFields had a b s) = fixtures s := by simp [commitFields]
@[simp] theorem fixtures_commitPulse (had c) : fixtures (commitPulse had c s) = fixtures s := by simp [commitPulse]
@[simp] theorem fixtures_cfgRefused (op x) : fixtures (cfgRefused op x s) = fixtures s := by simp [cfgRefused]
@[simp] theorem fixtures_cfgAdmitRun (r cut) : fixtures (cfgAdmitRun r cut s) = fixtures s := by
  unfold cfgAdmitRun
  dsimp only
  repeat' split
  all_goals simp
@[simp] theorem fixtures_cfgRevertRun (r cut) : fixtures (cfgRevertRun r cut s) = fixtures s := by
  unfold cfgRevertRun
  dsimp only
  repeat' split
  all_goals simp

/-! ### The supervisor -/

@[simp] theorem fixtures_modNv (f : Nv → Nv) : fixtures (modNv f s) = fixtures s := (rfl)
@[simp] theorem fixtures_modLcy (f : Lcy → Lcy) : fixtures (modLcy f s) = fixtures s := (rfl)
@[simp] theorem fixtures_modPai (f : Pai → Pai) : fixtures (modPai f s) = fixtures s := (rfl)
@[simp] theorem fixtures_abandon : fixtures (abandon s) = fixtures s := by
  unfold abandon
  split <;> simp
@[simp] theorem fixtures_dropSnaps : fixtures (dropSnaps s) = fixtures s := by simp [dropSnaps]
@[simp] theorem fixtures_spcResetFx (cause) : fixtures (spcResetFx cause s) = fixtures s := by simp [spcResetFx]
@[simp] theorem fixtures_carryOut : fixtures (carryOut s) = fixtures s := by
  unfold carryOut
  dsimp only
  repeat' split
  all_goals simp
@[simp] theorem fixtures_fallBack : fixtures (fallBack s) = fixtures s := by
  unfold fallBack
  split
  · split <;> simp
  · rfl
@[simp] theorem fixtures_hsReached : fixtures (hsReached s) = fixtures s := (rfl)
@[simp] theorem fixtures_failedStart : fixtures (failedStart s) = fixtures s := by simp [failedStart]
@[simp] theorem fixtures_loadUcode : fixtures (loadUcode s) = fixtures s := by simp [loadUcode]
@[simp] theorem fixtures_bootMarks : fixtures (bootMarks s) = fixtures s := by simp [bootMarks]
@[simp] theorem fixtures_reconfigure : fixtures (reconfigure s) = fixtures s := by simp [reconfigure]
@[simp] theorem fixtures_spcStart : fixtures (spcStart s) = fixtures s := by simp [spcStart]

/-! ### Crossings -/

@[simp] theorem fixtures_takeView (v) : fixtures (takeView v s) = fixtures s := by
  refine (fixtures_inhibitStops _).trans (fixtures_forAll _ _ _ fun u t => ?_)
  split <;> simp
@[simp] theorem fixtures_takeTickState (x) : fixtures (takeTickState x s) = fixtures s := (rfl)
@[simp] theorem fixtures_deliver (x v) : fixtures (deliver x v s) = fixtures s := by
  unfold deliver
  split <;> simp
@[simp] theorem fixtures_valueDelivered (x) : fixtures (valueDelivered x s) = fixtures s := by
  unfold valueDelivered
  dsimp only
  repeat' split
  all_goals simp
@[simp] theorem fixtures_pulsesDelivered (x) : fixtures (pulsesDelivered x s) = fixtures s := by simp [pulsesDelivered]
@[simp] theorem fixtures_flushCrossing (x) : fixtures (flushCrossing x s) = fixtures s := by simp [flushCrossing]
@[simp] theorem fixtures_readyCrossing (x) : fixtures (readyCrossing x s) = fixtures s := (rfl)
@[simp] theorem fixtures_rehandshakeFx (i) : fixtures (rehandshakeFx i s) = fixtures s := by simp [rehandshakeFx]

/-! ### Life cycle -/

@[simp] theorem fixtures_closeAll (cause) : fixtures (closeAll cause s) = fixtures s := by simp [closeAll]
@[simp] theorem fixtures_lcyDone : fixtures (lcyDone s) = fixtures s := by simp [lcyDone]
@[simp] theorem fixtures_lcySetRun (r t) : fixtures (lcySetRun r t s) = fixtures s := by simp [lcySetRun]
@[simp] theorem fixtures_wipeFull : fixtures (wipeFull s) = fixtures s := (rfl)
@[simp] theorem fixtures_wipeRecords : fixtures (wipeRecords s) = fixtures s := (rfl)
@[simp] theorem fixtures_wipeSet : fixtures (wipeSet s) = fixtures s := by simp [wipeSet]
@[simp] theorem fixtures_wipeDoneFx (verified) : fixtures (wipeDoneFx verified s) = fixtures s := by simp [wipeDoneFx]
@[simp] theorem fixtures_credDelRun (r id) : fixtures (credDelRun r id s) = fixtures s := by simp [credDelRun]
@[simp] theorem fixtures_updActivateRun (r) : fixtures (updActivateRun r s) = fixtures s := by simp [updActivateRun]

/-! ### The pair -/

@[simp] theorem fixtures_modArb (f : Arb → Arb) : fixtures (modArb f s) = fixtures s := (rfl)
@[simp] theorem fixtures_peerHelloFx (h) : fixtures (peerHelloFx h s) = fixtures s := by
  unfold peerHelloFx
  dsimp only
  repeat' split
  all_goals simp
@[simp] theorem fixtures_alignFx (twice) : fixtures (alignFx twice s) = fixtures s := by simp [alignFx]
@[simp] theorem fixtures_followPhase (twice locked) : fixtures (followPhase twice locked s) = fixtures s := by simp [followPhase]
@[simp] theorem fixtures_followFx (f rx paired) : fixtures (followFx f rx paired s) = fixtures s := by simp [followFx]
@[simp] theorem fixtures_mirrorFx (f) : fixtures (mirrorFx f s) = fixtures s := by simp [mirrorFx]
@[simp] theorem fixtures_divergeFx (f) : fixtures (divergeFx f s) = fixtures s := by
  unfold divergeFx
  dsimp only
  repeat' split
  all_goals simp
@[simp] theorem fixtures_handoverDone : fixtures (handoverDone s) = fixtures s := by simp [handoverDone]
@[simp] theorem fixtures_peerStatusFx (f rx) : fixtures (peerStatusFx f rx s) = fixtures s := by simp [peerStatusFx]
@[simp] theorem fixtures_epochFail : fixtures (epochFail s) = fixtures s := by simp [epochFail]
@[simp] theorem fixtures_peerDownFx : fixtures (peerDownFx s) = fixtures s := by simp [peerDownFx]
@[simp] theorem fixtures_peerFwdFx (unit body late) : fixtures (peerFwdFx unit body late s) = fixtures s := by
  unfold peerFwdFx
  dsimp only
  repeat' split
  all_goals simp
@[simp] theorem fixtures_peerCopyFx (epoch offset len data) :
    fixtures (peerCopyFx epoch offset len data s) = fixtures s := by simp [peerCopyFx]
@[simp] theorem fixtures_peerCopyEndFx (epoch len crc) : fixtures (peerCopyEndFx epoch len crc s) = fixtures s := by
  unfold peerCopyEndFx
  split
  · rfl
  · split <;> simp
@[simp] theorem fixtures_copyFrame : fixtures (copyFrame s) = fixtures s := by
  unfold copyFrame
  split <;> simp
@[simp] theorem fixtures_peerCycleFx : fixtures (peerCycleFx s) = fixtures s := by simp [peerCycleFx]
@[simp] theorem fixtures_fitSeen (m fit long other) : fixtures (fitSeen m fit long other s) = fixtures s := (rfl)
@[simp] theorem fixtures_moveSelect (m) : fixtures (moveSelect m s) = fixtures s := (rfl)
@[simp] theorem fixtures_notFitFx (x) : fixtures (notFitFx x s) = fixtures s := by simp [notFitFx]
@[simp] theorem fixtures_fitFx (x) : fixtures (fitFx x s) = fixtures s := by simp [fitFx]
@[simp] theorem fixtures_pairChange (how) : fixtures (pairChange how s) = fixtures s := by simp [pairChange]
@[simp] theorem fixtures_takeEngine : fixtures (takeEngine s) = fixtures s := by simp [takeEngine]
@[simp] theorem fixtures_takeHost (f) : fixtures (takeHost f s) = fixtures s := by simp [takeHost]
@[simp] theorem fixtures_takeSequence (f) : fixtures (takeSequence f s) = fixtures s := by simp [takeSequence]
@[simp] theorem fixtures_selectGainedFx : fixtures (selectGainedFx s) = fixtures s := by
  unfold selectGainedFx
  dsimp only
  repeat' split
  all_goals simp
@[simp] theorem fixtures_loseEngine : fixtures (loseEngine s) = fixtures s := by simp [loseEngine]
@[simp] theorem fixtures_stopTests : fixtures (stopTests s) = fixtures s := by simp [stopTests]
@[simp] theorem fixtures_selectLostFx : fixtures (selectLostFx s) = fixtures s := by simp [selectLostFx]
@[simp] theorem fixtures_handoverTimeoutFx : fixtures (handoverTimeoutFx s) = fixtures s := by simp [handoverTimeoutFx]

/-! ### Sessions -/

@[simp] theorem fixtures_sesCount (i) : fixtures (sesCount i s) = fixtures s := (rfl)
@[simp] theorem fixtures_reserve (h c) : fixtures (reserve h c s) = fixtures s := (rfl)
@[simp] theorem fixtures_helloFx (h) : fixtures (helloFx h s) = fixtures s := by
  unfold helloFx
  dsimp only
  repeat' split
  all_goals simp
@[simp] theorem fixtures_confirmFx (ctx gen k) : fixtures (confirmFx ctx gen k s) = fixtures s := by simp [confirmFx]
@[simp] theorem fixtures_protected_ (h : RecHdr) (type : Byte) (body : Bytes) (run : State → State) (hrun : ∀ u, fixtures (run u) = fixtures u) :
    fixtures (protected_ h type body run s) = fixtures s := by
  simp [protected_, hrun]
@[simp] theorem fixtures_ackFx (ctx q n) : fixtures (ackFx ctx q n s) = fixtures s := by simp [ackFx]
@[simp] theorem fixtures_sendWords (i n first) : fixtures (sendWords i n first s) = fixtures s := (rfl)
@[simp] theorem fixtures_flawFx (i bad) : fixtures (flawFx i bad s) = fixtures s := by
  unfold flawFx
  split <;> simp
@[simp] theorem fixtures_streamSendFx (i bad timeout) : fixtures (streamSendFx i bad timeout s) = fixtures s := by simp [streamSendFx]
@[simp] theorem fixtures_subBindRun (r b) : fixtures (subBindRun r b s) = fixtures s := by
  unfold subBindRun
  split <;> simp

/-! ### Uplinks -/

@[simp] theorem fixtures_modUpl (f : Upl → Upl) : fixtures (modUpl f s) = fixtures s := (rfl)
@[simp] theorem fixtures_modLink (l : Link) (f : UpLink → UpLink) : fixtures (modLink l f s) = fixtures s := (rfl)
@[simp] theorem fixtures_uplCount (i) : fixtures (uplCount i s) = fixtures s := (rfl)
@[simp] theorem fixtures_prpFx (l src seq lan) : fixtures (prpFx l src seq lan s).1 = fixtures s := by
  unfold prpFx
  dsimp only
  repeat' split
  all_goals simp
@[simp] theorem fixtures_mailboxForm (h body) : fixtures (mailboxForm h body s) = fixtures s := by simp [mailboxForm]
@[simp] theorem fixtures_frameFx (l f) : fixtures (frameFx l f s) = fixtures s := by
  unfold frameFx
  dsimp only
  repeat' split
  all_goals simp
@[simp] theorem fixtures_icmpFx (v6 bytes) : fixtures (icmpFx v6 bytes s) = fixtures s := by simp [icmpFx]
@[simp] theorem fixtures_dhcpStart : fixtures (dhcpStart s) = fixtures s := by simp [dhcpStart]
@[simp] theorem fixtures_dhcpFx (addr mask gw) : fixtures (dhcpFx addr mask gw s) = fixtures s := by simp [dhcpFx]
@[simp] theorem fixtures_ptpStates : fixtures (ptpStates s) = fixtures s := (rfl)
@[simp] theorem fixtures_ptpGm : fixtures (ptpGm s) = fixtures s := by simp [ptpGm]
@[simp] theorem fixtures_ptpCheck : fixtures (ptpCheck s) = fixtures s := by simp [ptpCheck]
@[simp] theorem fixtures_ptpSelect (sel) : fixtures (ptpSelect sel s) = fixtures s := by simp [ptpSelect]
@[simp] theorem fixtures_announceFx (l m tie) : fixtures (announceFx l m tie s) = fixtures s := by simp [announceFx]
@[simp] theorem fixtures_announceTimeoutFx (l) : fixtures (announceTimeoutFx l s) = fixtures s := by simp [announceTimeoutFx]
@[simp] theorem fixtures_syncFx (l phaseErr) : fixtures (syncFx l phaseErr s) = fixtures s := by
  unfold syncFx
  dsimp only
  repeat' split
  all_goals simp
@[simp] theorem fixtures_linkChangeFx (l up) : fixtures (linkChangeFx l up s) = fixtures s := by simp [linkChangeFx]

/-! ### Power states -/

@[simp] theorem fixtures_atbOff : fixtures (atbOff s) = fixtures s := (rfl)
@[simp] theorem fixtures_leaveRun (t) : fixtures (leaveRun t s) = fixtures s := by simp [leaveRun]
@[simp] theorem fixtures_transition (t) : fixtures (transition t s) = fixtures s := by
  unfold transition
  split <;> simp
@[simp] theorem fixtures_stateSetRun (r t nvOk) : fixtures (stateSetRun r t nvOk s) = fixtures s := by
  unfold stateSetRun
  dsimp only
  repeat' split
  all_goals simp
@[simp] theorem fixtures_blankCred : fixtures (blankCred s) = fixtures s := by simp [blankCred]
@[simp] theorem fixtures_resetState : fixtures (resetState s) = fixtures s := (rfl)
@[simp] theorem fixtures_bootFirmware : fixtures (bootFirmware s) = fixtures s := by simp [bootFirmware]
@[simp] theorem fixtures_bootLoad : fixtures (bootLoad s) = fixtures s := by simp [bootLoad]
@[simp] theorem fixtures_powerCycle : fixtures (powerCycle s) = fixtures s := by simp [powerCycle]
@[simp] theorem fixtures_crossingsReady : fixtures (crossingsReady s) = fixtures s := (rfl)
@[simp] theorem fixtures_moduleReset (testLow) : fixtures (moduleReset testLow s) = fixtures s := by simp [moduleReset]
@[simp] theorem fixtures_feedLoad : fixtures (feedLoad s) = fixtures s := (rfl)
@[simp] theorem fixtures_feedFx (f mv ok) : fixtures (feedFx f mv ok s) = fixtures s := (rfl)
@[simp] theorem fixtures_powerUpFx (f testLow) : fixtures (powerUpFx f testLow s) = fixtures s := by simp [powerUpFx]
@[simp] theorem fixtures_tc10WakeFx : fixtures (tc10WakeFx s) = fixtures s := by simp [tc10WakeFx]
@[simp] theorem fixtures_feedLostFx (f mv) : fixtures (feedLostFx f mv s) = fixtures s := by simp [feedLostFx]
@[simp] theorem fixtures_feedBackFx (f mv) : fixtures (feedBackFx f mv s) = fixtures s := by simp [feedBackFx]
@[simp] theorem fixtures_supplyLostFx (mv) : fixtures (supplyLostFx mv s) = fixtures s := by simp [supplyLostFx]
@[simp] theorem fixtures_loadShedFx : fixtures (loadShedFx s) = fixtures s := by simp [loadShedFx]
@[simp] theorem fixtures_holdupEndFx : fixtures (holdupEndFx s) = fixtures s := by simp [holdupEndFx]

/-! ### Mailbox -/

@[simp] theorem fixtures_diagRun (r p c page) : fixtures (diagRun r p c page s) = fixtures s := (rfl)
@[simp] theorem fixtures_atbRun (r bus node) : fixtures (atbRun r bus node s) = fixtures s := (rfl)

/-! ### Registers -/

@[simp] theorem fixtures_eventLatch (e) : fixtures (eventLatch e s) = fixtures s := (rfl)
@[simp] theorem fixtures_groupLatch (g) : fixtures (groupLatch g s) = fixtures s := (rfl)
@[simp] theorem fixtures_instLatch : fixtures (instLatch s) = fixtures s := (rfl)
@[simp] theorem fixtures_recLatch (k) : fixtures (recLatch k s) = fixtures s := (rfl)
@[simp] theorem fixtures_regLatch (a) : fixtures (regLatch a s) = fixtures s := by
  unfold regLatch
  dsimp only
  repeat' split
  all_goals simp
@[simp] theorem fixtures_regReads (a k : Nat) : fixtures (regReads a k s).2 = fixtures s := by
  induction k generalizing a s with
  | zero => rfl
  | succ k ih => simp [regReads, ih]
@[simp] theorem fixtures_countRefused (a) : fixtures (countRefused a s) = fixtures s := by simp [countRefused]
@[simp] theorem fixtures_readRequest (r a n) : fixtures (readRequest r a n s) = fixtures s := by simp [readRequest]
@[simp] theorem fixtures_clearFlags (e mask) : fixtures (clearFlags e mask s) = fixtures s := (rfl)
@[simp] theorem fixtures_prtCtrlFx (p w) : fixtures (prtCtrlFx p w s) = fixtures s := (rfl)
@[simp] theorem fixtures_smpCtrlFx (w) : fixtures (smpCtrlFx w s) = fixtures s := (rfl)
@[simp] theorem fixtures_estCtrlFx (w) : fixtures (estCtrlFx w s) = fixtures s := (rfl)
@[simp] theorem fixtures_impCtrlFx (w) : fixtures (impCtrlFx w s) = fixtures s := by simp [impCtrlFx]
@[simp] theorem fixtures_balCtrlFx (w) : fixtures (balCtrlFx w s) = fixtures s := (rfl)
@[simp] theorem fixtures_proCtrlFx (w) : fixtures (proCtrlFx w s) = fixtures s := by simp [proCtrlFx]
@[simp] theorem fixtures_ctlCtrlFx (w) : fixtures (ctlCtrlFx w s) = fixtures s := by simp [ctlCtrlFx]
@[simp] theorem fixtures_uplCtrlFx (w) : fixtures (uplCtrlFx w s) = fixtures s := by simp [uplCtrlFx]
@[simp] theorem fixtures_sesCtrlFx (w) : fixtures (sesCtrlFx w s) = fixtures s := by simp [sesCtrlFx]
@[simp] theorem fixtures_queCtrlFx (w) : fixtures (queCtrlFx w s) = fixtures s := by simp [queCtrlFx]
@[simp] theorem fixtures_qctrlFx (q w) : fixtures (qctrlFx q w s) = fixtures s := by simp [qctrlFx]
@[simp] theorem fixtures_paiCtrlFx (w) : fixtures (paiCtrlFx w s) = fixtures s := (rfl)
@[simp] theorem fixtures_recCtrlFx (w) : fixtures (recCtrlFx w s) = fixtures s := by simp [recCtrlFx]
@[simp] theorem fixtures_hkpCtrlFx (w) : fixtures (hkpCtrlFx w s) = fixtures s := by simp [hkpCtrlFx]
@[simp] theorem fixtures_xngCtrlFx (w) : fixtures (xngCtrlFx w s) = fixtures s := by simp [xngCtrlFx]
@[simp] theorem fixtures_writeFx (a w) : fixtures (writeFx a w s) = fixtures s := by
  unfold writeFx
  dsimp only
  repeat' split
  all_goals simp
@[simp] theorem fixtures_writeRequest (r a w) : fixtures (writeRequest r a w s) = fixtures s := by simp [writeRequest]
@[simp] theorem fixtures_snapRecord (idx part vals) : fixtures (snapRecord idx part vals s) = fixtures s := by simp [snapRecord]
@[simp] theorem fixtures_snapshotFx : fixtures (snapshotFx s) = fixtures s := by
  unfold snapshotFx
  split <;> simp
@[simp] theorem fixtures_eccFx (mem ue idx) : fixtures (eccFx mem ue idx s) = fixtures s := by simp [eccFx]

/-! ### Monitor units -/

@[simp] theorem fixtures_repeatOn (p c lane rx) : fixtures (repeatOn p c lane rx s) = fixtures s := by
  unfold repeatOn
  dsimp only
  repeat' split
  all_goals simp
@[simp] theorem fixtures_sendUp (p c toward l) : fixtures (sendUp p c toward l s) = fixtures s := by simp [sendUp]
@[simp] theorem fixtures_sampleFx (p c x) : fixtures (sampleFx p c x s) = fixtures s := by
  unfold sampleFx
  dsimp only
  repeat' split
  all_goals simp

/-! ### Commands -/

/-- What the command leads to, if it leads to a state, has the factory data and the queue `v`. -/
def leaves (o : Host.Outcome State Fault Refusal) (v : Factory × List Instr) : Prop := ∀ t, o = .next t → fixtures t = v

theorem act_leaves {f : State → State} (h : ∀ u, fixtures (f u) = fixtures u) : leaves (act f s) (fixtures s) := by
  rintro t ⟨⟩
  simp [h]

theorem exec_leaves (c : Instr) : leaves (exec c s) (fixtures s) := by
  unfold exec
  cases c
  case feedBack l mv =>
    dsimp only [execFeedBack]
    split
    · exact fun t h => nomatch h
    · exact act_leaves s fun u => by simp
  case gdFault =>
    refine act_leaves s fun u => ?_
    simp only [fixtures_ite, fixtures_shadowCheck, fixtures_faultEngine, fixtures_modCtl, ite_self]
  all_goals
    dsimp only
    refine act_leaves s fun u => ?_
    simp

/-- Settles O3: every operation of the model leaves the factory data and the queue, so the frame of every command does. -/
theorem queueAndFactoryDataOutlastEveryStep : Obligations.QueueAndFactoryDataOutlastEveryStep := by
  intro s t h
  unfold step at h
  split at h
  · next hq =>
    cases h
    exact ⟨rfl, by rw [hq]; rfl⟩
  · next c rest hq =>
    have hkept : fixtures t = (s.fac, rest) := exec_leaves _ c t h
    obtain ⟨hfac, hpending⟩ := Prod.mk.inj hkept
    exact ⟨hfac, by rw [hpending, hq]; rfl⟩

end Sys2Proof.Machine
end

section
/-! Changes of the power state and commits of images that the statements do not cover: what a counterexample moves besides. -/

namespace Sys2Proof.Machine

open Sys2Proof

/-- A module in SURVEY with an OPERATOR's session; a wake of island 5 is noted. -/
def wokenModule : State :=
  { State.reset with
    pwr := { state := 2, ready := true }
    ses := { ctx := [{ opened := true, role := 1 }] }
    xng := { woken := [5] } }

/-- Refutes O14: the change of the power state also forgets the wakes noted in the old one (R439), which the statement keeps. -/
theorem not_stateSetCompletesBetweenSamplingStates : ¬ Obligations.StateSetCompletesBetweenSamplingStates := by
  intro h
  let r : Req := { ctx := 0, tag := 1, zeros := true }
  have hheard : heard r 0x0202 1 wokenModule := by decide
  obtain ⟨t, hexec, -, -, -, hstill⟩ := h r 4 true wokenModule rfl hheard (.inr rfl) rfl rfl rfl rfl rfl
  have hforgets : (match exec (.stateSet r 4 true) wokenModule with | .next t => t.xng.woken | _ => [5]) = [] := by decide +kernel
  have hkeeps : t.xng.woken = [5] := (congrArg (fun u : State => u.xng.woken) hstill :)
  rw [hexec] at hforgets
  exact absurd (hkeeps.symm.trans hforgets) (by decide)

/-- Refutes O15: a standby that mirrors the connected string starts no disconnect sequence on the way out of RUN (R270). It opens through
R254 at once, and CONNECT_STATE is not RAMP_DOWN. -/
theorem not_stateSetOtherTransitions : ¬ Obligations.StateSetOtherTransitions := by
  intro h
  let r : Req := { ctx := 0, tag := 1, zeros := true }
  have hheard : heard r 0x0202 1 standbyOfConnected := by decide
  obtain ⟨-, -, -, disconnects⟩ := h r 1 true standbyOfConnected rfl hheard rfl rfl (fun hb => absurd hb (by decide)) rfl
  obtain ⟨t, hexec, -, -, -, hramp, -⟩ := disconnects rfl rfl (.inl rfl)
  have hopens : (match exec (.stateSet r 1 true) standbyOfConnected with | .next t => t.pro.conn == 6 | _ => true) = false := by
    decide +kernel
  rw [hexec] at hopens
  simp [hramp] at hopens

/-- A module in LISTEN with an ENGINEER's session that takes notices of class 0; a condition reported before is not in force any more. -/
def unreportedModule : State :=
  { State.reset with
    pwr := { state := 1, ready := true, conds := 1 }
    ses := { ctx := [{ opened := true, role := 2, mask := 1 }] } }

/-- Refutes O16: the state may begin with a change of a condition still to be reported. Then STATE_CHANGED goes out after the RESPONSE of a
CFG_ADMIT that is cut short (R358). -/
theorem not_admissionCommitsTheImage : ¬ Obligations.AdmissionCommitsTheImage := by
  intro h
  let r : Req := { ctx := 0, tag := 1, zeros := true }
  have hheard : heard r 0x0303 2 unreportedModule := by decide
  obtain ⟨-, admitCut, -⟩ := h r unreportedModule (by decide) rfl
  obtain ⟨t, hexec, hout, -⟩ := admitCut hheard rfl
  have hnotice : (match exec (.cfgAdmit r true) unreportedModule with | .next t => t.out.length | _ => 1) = 2 := by decide +kernel
  rw [hexec] at hnotice
  simp [hout] at hnotice

end Sys2Proof.Machine
end

section
/-! Where the module's time steps, and what a snapshot reads while PRO's crossing is DOWN (R117, R406, R441). -/

namespace Sys2Proof.Machine

open Sys2Proof

/-- Module B of a pair in SURVEY without ports in service, PEER up; the peer's stamps are 1 ms behind its own. -/
def slewedModule : State :=
  { State.reset with
    pwr := { state := 2, ready := true }
    cfg := { pair := some ⟨2, 0, 0, 0⟩ }
    pai := { peerUp := true } }

/-- A STATUS of a peer that does not hold SELECT, 1 ms away. -/
def slewStatus : PeerStatus := { openHostStatus with select := false, rxStamp := 2000000 }

/-- Refutes O55: module B follows a peer that does not hold SELECT either. While no port runs its time steps, and with it the time from
which PRO's sequencer measures (R117, R406). -/
theorem not_peerFramesCarryTimeChannelsAndEpochs : ¬ Obligations.PeerFramesCarryTimeChannelsAndEpochs := by
  intro h
  obtain ⟨-, status, -⟩ := h slewedModule (by decide +kernel) rfl
  obtain ⟨t, hexec, -, -, -, -, -, -, -, -, hpro, -⟩ := (status slewStatus 0).2 rfl rfl (.inl rfl) (.inl rfl)
  have hsteps : (match exec (.peerStatus slewStatus 0) slewedModule with | .next t => t.pro.tP | _ => 0) = 1000 := by decide +kernel
  have hstays : t.pro.tP = 0 := (congrArg Pro.tP (hpro (.inr (.inl rfl))) :)
  rw [hexec] at hsteps
  exact absurd (hstays.symm.trans hsteps) (by decide)

/-- A module in SURVEY without ports in service; a phase error of 1 µs is on its way over crossing 0x20. -/
def phaseUnderWay : State :=
  { State.reset with
    pwr := { state := 2, ready := true }
    xng := { xrec := (List.replicate 81 {}).set 0x20 { fly := some (.phase 1000) } } }

/-- Refutes O58: the phase error that crossing 0x20 delivers steps the module's time while no port runs, and with it the time from which
PRO's sequencer measures (R117). -/
theorem not_healthRoundsErrorsAndCrossings : ¬ Obligations.HealthRoundsErrorsAndCrossings := by
  intro h
  obtain ⟨-, -, -, crossings, -⟩ := h phaseUnderWay
  obtain ⟨-, -, delivered, -⟩ := crossings rfl 0x20
  obtain ⟨t, hexec, -, -, -, -, -, hpro, -⟩ := delivered (.phase 1000) rfl (by decide +kernel) rfl
  have hsteps : (match exec (.crossingValueDelivered 0x20) phaseUnderWay with | .next t => t.pro.tP | _ => 0) = 1000 := by decide +kernel
  have hstays : t.pro.tP = 0 := (congrArg Pro.tP (hpro (by decide)) :)
  rw [hexec] at hsteps
  exact absurd (hstays.symm.trans hsteps) (by decide)

section
variable (s : State)

@[simp] theorem raise_ring (e n : Nat) : (raise e n s).recd.ring = s.recd.ring :=
  (congrArg (fun u : State => u.recd.ring) (still_raise s e n) :)

@[simp] theorem raiseIf_ring (b : Bool) (e n : Nat) : (raiseIf b e n s).recd.ring = s.recd.ring := by cases b <;> simp [raiseIf]

@[simp] theorem produce_ring (itype occ : Nat) (content : Queue → List Quad) : (produce itype occ content s).recd.ring = s.recd.ring := by
  have happend (i : Nat) (q : List Quad) (t : State) : (appendItem i q t).recd.ring = t.recd.ring := raiseIf_ring _ _ _ _
  unfold produce
  refine forAll_keeps s (fun u => u.recd.ring) _ _ fun i t => ?_
  dsimp only
  split
  · exact happend _ _ _
  · rfl

theorem enterRing_ring (r : Record) : (enterRing r s).recd.ring = s.recd.ring ++ [r] := by
  unfold enterRing
  rw [produce_ring]
  split <;> split <;> rfl

/-- A SNAPSHOT record that finds room ends the ring. -/
theorem snapRecord_ring {idx part : Nat} {vals : List Word} (hopen : s.recd.lostOpen = false) (hroom : s.recd.ring.length < 255) :
    (snapRecord idx part vals s).recd.ring = s.recd.ring ++
      [{ newRecord { island := 2, code := 0x1184, source := part, data := [], instant := 0 } s with snap := some (snapBytes s idx vals) }] := by
  have hfits : (s.recd.lostOpen || !decide (s.recd.ring.length + 1 < ringSlots)) = false := by
    have : s.recd.ring.length + 1 < 256 := by omega
    simp [hopen, ringSlots, this]
  unfold snapRecord
  simp only [hfits, Bool.false_eq_true, if_false, enterRing_ring]

theorem snapshot_ring {s t : State} (hup : spcUp s = true) (h : exec .snapshot s = .next t) :
    t.recd.ring = (snapshotFx { s with out := [] }).recd.ring := by
  have hstill : still t = still (if spcUp s then snapshotFx { s with out := [] } else { s with out := [] }) :=
    still_of_act (f := fun s => if spcUp s then snapshotFx s else s) h
  rw [if_pos hup] at hstill
  exact (congrArg (fun u : State => u.recd.ring) hstill :)

end

/-- A module in SURVEY whose crossing 0x4D is DOWN; a record of class 7 waits for its snapshot, which reads CONNECT_STATE's word and a
control register of PRO. -/
def shutSnapshot : State :=
  { State.reset with
    pwr := { state := 2, ready := true }
    cfg := { classes := List.replicate 8 { regs := [0x0B0000, 0x0B0004] } }
    recd := { snaps := [(0, 7)] }
    xng := { xrec := (List.replicate 81 {}).set 0x4D { down := true } } }

theorem snapshotFx_shut : (snapshotFx shutSnapshot).recd.ring.map Record.snap =
    [some (snapBytes shutSnapshot 0 [Config.freeWord 0, Config.freeWord 0])] := by
  have hfx : snapshotFx shutSnapshot = snapRecord 0 0 [Config.freeWord 0, Config.freeWord 0]
      (forAll [0x0B0000, 0x0B0004] countRefused (modRec (fun d => { d with snaps := [] }) { shutSnapshot with fresh := 1 })) := rfl
  have hring : (forAll [0x0B0000, 0x0B0004] countRefused (modRec (fun d => { d with snaps := [] }) { shutSnapshot with fresh := 1 })).recd.ring = [] := by
    decide +kernel
  rw [hfx, snapRecord_ring _ (by decide +kernel) (by rw [hring]; decide), hring]
  rfl

/-- Refutes O57: the register reads of a snapshot that crossing 0x4D refuses give a free word (R441, log entry 4), not the registers'
values: here one free word for two registers that differ. -/
theorem not_recorderAcceptsFoldsLosesAndFlushes : ¬ Obligations.RecorderAcceptsFoldsLosesAndFlushes := by
  intro h
  obtain ⟨-, -, -, -, -, -, -, -, snapshot, -⟩ := h shutSnapshot (by decide +kernel) rfl
  obtain ⟨t, r, hexec, -, ⟨hring, -⟩, hsnap⟩ := snapshot 0 7 [] rfl rfl ⟨rfl, by decide⟩ (by decide) (by decide)
  have hquiet : { shutSnapshot with out := [] } = shutSnapshot := rfl
  have hsent : t.recd.ring = (snapshotFx shutSnapshot).recd.ring := by
    rw [snapshot_ring (s := shutSnapshot) rfl hexec, hquiet]
  have hsnaps : [some (snapBytes shutSnapshot 0 [721152, 0])] = [some (snapBytes shutSnapshot 0 [Config.freeWord 0, Config.freeWord 0])] := by
    rw [← snapshotFx_shut, ← hsent, hring]
    exact congrArg (fun b => [b]) (hsnap.symm)
  have hbytes := Option.some.inj (List.singleton_inj.mp hsnaps)
  have hfirst : leW 721152 = leW (Config.freeWord 0) := congrArg (fun b => (b.drop 8).take 4) hbytes
  have hsecond : leW 0 = leW (Config.freeWord 0) := congrArg (fun b => (b.drop 12).take 4) hbytes
  exact absurd (hfirst.trans hsecond.symm) (by decide)

end Sys2Proof.Machine
end

section
/-! The PENDING image, the staging area and the credentials (R376, R386, R390): requests that change a table or place bytes at an offset. -/

namespace Sys2Proof.Machine

open Sys2Proof

/-- A request that answers from what its receipt does not move, and has its effect beside the sessions. -/
theorem answersDoing_beside {c : Instr} {r : Req} {op least : Nat} {s : State} {j : State → Judge} {run f : State → State} {body : Bytes}
    (hexec : exec c s = act (request r op least j run) s) (h : heard r op least s)
    (hj : ∀ x : Ses, x.deferred = s.ses.deferred → (j { s with out := [], ses := x }).first false = none)
    (hrun : ∀ x : Ses, run { s with out := [], ses := x } = respond r op stOk body (f { s with out := [], ses := x }))
    (hset : ∀ x : Ses, settled (f { s with out := [], ses := x }))
    (hf : ∀ (u : State) (x : Ses), f { u with out := [], ses := x } = { f u with out := [], ses := x }) (hses : (f s).ses = s.ses)
    (hsmp : (f s).smp = s.smp) (hev : (f s).ev = s.ev) : answersDoing c r op body f s := by
  obtain ⟨x, hx, hdeferred⟩ := received_cases r s
  exact answersDoing_of_received hexec h (hx ▸ hj x hdeferred) (hx ▸ hrun x) (hx ▸ hset x) (received_commutes r s hf hses hsmp) hev

theorem running_deferred {op : Nat} {s : State} (x : Ses) (hx : x.deferred = s.ses.deferred) (h : running op s = none) :
    running op { s with out := [], ses := x } = none := by
  rw [running, hx]
  exact h

theorem not_retired {s : State} (h : s.nv.lcy ≠ 4) : (s.nv.lcy == 4) = false := beq_false_of_ne h

/-- Settles O11: each of the four answers and changes PENDING or the staging area alone. -/
theorem imageSlotsTakeBytesByOffset : Obligations.ImageSlotsTakeBytesByOffset := by
  intro r s hset hlcy
  have hlocked := not_retired hlcy
  refine ⟨?cfgOpen, ?cfgWrite, ?updOpen, ?updWrite⟩
  case cfgOpen =>
    intro len h hstate hadmit hrevert hlow hhigh
    refine answersDoing_beside rfl h (fun x hx => ?_) (fun _ => rfl) (fun _ => settled_congr hset rfl rfl rfl rfl rfl) (fun _ _ => rfl) rfl rfl rfl
    exact Judge.first_none (hlocked := hlocked) (hforbidden := congrArg not hstate)
      (hrange := by simp [Nat.not_lt.mpr hlow, Nat.not_lt.mpr hhigh])
      (hbusy := by rw [running_deferred x hx hadmit, running_deferred x hx hrevert]; rfl)
  case cfgWrite =>
    intro off d h hstate hadmit hrevert hdata hopen hend
    refine answersDoing_beside rfl h (fun x hx => ?_) (fun _ => rfl) (fun _ => settled_congr hset rfl rfl rfl rfl rfl) (fun _ _ => rfl) rfl rfl rfl
    exact Judge.first_none (hformat := List.isEmpty_eq_false_iff.mpr hdata) (hlocked := hlocked) (hforbidden := congrArg not hstate)
      (hrange := by simp [hopen, Nat.not_lt.mpr hend])
      (hbusy := by rw [running_deferred x hx hadmit, running_deferred x hx hrevert]; rfl)
  case updOpen =>
    intro len h hstate hactivate hlen
    refine answersDoing_beside rfl h (fun x hx => ?_) (fun _ => rfl) (fun _ => settled_congr hset rfl rfl rfl rfl rfl) (fun _ _ => rfl) rfl rfl rfl
    exact Judge.first_none (hlocked := hlocked) (hforbidden := congrArg not hstate) (hrange := decide_eq_false (Nat.not_lt.mpr hlen))
      (hbusy := by rw [running_deferred x hx hactivate]; rfl)
  case updWrite =>
    intro off d h hstate hactivate hdata hend
    refine answersDoing_beside rfl h (fun x hx => ?_) (fun _ => rfl) (fun _ => settled_congr hset rfl rfl rfl rfl rfl) (fun _ _ => rfl) rfl rfl rfl
    exact Judge.first_none (hformat := List.isEmpty_eq_false_iff.mpr hdata) (hlocked := hlocked) (hforbidden := congrArg not hstate)
      (hrange := decide_eq_false (Nat.not_lt.mpr hend)) (hbusy := by rw [running_deferred x hx hactivate]; rfl)

/-! ### Credentials (R386) -/

/-- Context `c` is closed, where its session stands under the credential. -/
def closeUnder (id : Half) (c : Nat) (s : State) : State := if (s.sess c).cred == id then closeSession c 4 true s else s

theorem closeSession_sess_ne {c i : Nat} (h : i ≠ c) (cause : Nat) (tell : Bool) (s : State) :
    (closeSession c cause tell s).sess i = s.sess i := by
  have hsent : ∀ u : State, (raise 0x0E 1 (freeContext c u)).sess i = u.sess i := fun u =>
    (congrArg (fun x : Ses => x.ctx.getD i {}) (raise_ses _ 0x0E 1)).trans (freeContext_sess_ne c u h)
  unfold closeSession
  split
  · cases tell <;> exact hsent _
  · rfl

theorem closeSession_closed (c cause : Nat) (tell : Bool) (s : State) : ((closeSession c cause tell s).sess c).opened = false := by
  by_cases hopen : (s.sess c).opened = true
  · have hsent : ∀ u : State, u.ses = s.ses → ((raise 0x0E 1 (freeContext c u)).sess c).opened = false := by
      intro u hu
      have hlt : c < u.ses.ctx.length := hu ▸ lt_of_opened hopen
      have hfreed := (congrArg (fun x : Ses => x.ctx.getD c {}) (raise_ses (freeContext c u) 0x0E 1)).trans (freeContext_sess_same c u hlt)
      exact (congrArg Sess.opened hfreed :)
    unfold closeSession
    rw [if_pos hopen]
    cases tell <;> exact hsent _ rfl
  · rw [closeSession, if_neg hopen]
    exact Bool.eq_false_iff.mpr hopen

/-- What the closing of sessions leaves: everything beside the host's side, the conditions reported, the first message. -/
def besideClosing (s : State) : State × BitVec 4 := (sansHost s, s.pwr.conds)

theorem closeSession_pwr (c cause : Nat) (tell : Bool) (s : State) : (closeSession c cause tell s).pwr = s.pwr := by
  unfold closeSession
  split
  · rw [raise_pwr, freeContext_pwr]
    cases tell <;> rfl
  · rfl

theorem closeSession_head {c cause : Nat} {tell : Bool} {s : State} {o : Out} (h : s.out.head? = some o) :
    (closeSession c cause tell s).out.head? = some o := by
  by_cases hopen : (s.sess c).opened = true
  · rw [closeSession_out hopen]
    cases tell <;> simp [h]
  · rwa [closeSession, if_neg hopen]

theorem closeUnder_keeps {β : Type} (g : State → β) (id : Half) (c : Nat) (s : State) (h : g (closeSession c 4 true s) = g s) :
    g (closeUnder id c s) = g s := by
  unfold closeUnder
  split
  · exact h
  · rfl

/-- The contexts below `n` that stand under the credential are closed; those from `n` on stand as before. -/
theorem closeUnder_below (id : Half) (n c : Nat) (s : State) :
    (n ≤ c → (forAll (List.range n) (closeUnder id) s).sess c = s.sess c) ∧
      (c < n → (s.sess c).cred = id → ((forAll (List.range n) (closeUnder id) s).sess c).opened = false) := by
  induction n with
  | zero => exact ⟨fun _ => rfl, fun h => absurd h (Nat.not_lt_zero c)⟩
  | succ n ih =>
    obtain ⟨hafter, hbelow⟩ := ih
    let u := forAll (List.range n) (closeUnder id) s
    have hstep : forAll (List.range (n + 1)) (closeUnder id) s = closeUnder id n u := by
      rw [List.range_succ, forAll, List.foldl_append]
      rfl
    have hother : c ≠ n → (closeUnder id n u).sess c = u.sess c := fun h =>
      closeUnder_keeps (State.sess · c) id n u (closeSession_sess_ne h 4 true u)
    rw [hstep]
    refine ⟨fun h => (hother (Nat.ne_of_gt h)).trans (hafter (Nat.le_of_succ_le h)), fun h hcred => ?_⟩
    by_cases hc : c = n
    · subst hc
      have hunder : ((u.sess c).cred == id) = true := beq_iff_eq.mpr ((congrArg Sess.cred (hafter (Nat.le_refl c))).trans hcred)
      rw [closeUnder, if_pos hunder]
      exact closeSession_closed c 4 true u
    · rw [hother hc]
      exact hbelow (Nat.lt_of_le_of_ne (Nat.le_of_lt_succ h) hc) hcred

theorem cred_respond (r : Req) (op st : Nat) (b : Bytes) (c : Nat) (s : State) : ((respond r op st b s).sess c).cred = (s.sess c).cred := by
  have hsent : ((sendResponse r op st b s).sess c).cred = (s.sess c).cred :=
    sess_modSess_keeps Sess.cred r.ctx.toNat c (f := fun x => { x with txSeq := x.txSeq + 1 }) (fun _ => rfl) s
  unfold respond
  dsimp only
  split
  · exact hsent
  · refine (sess_modSess_keeps Sess.cred r.ctx.toNat c ?_ _).trans hsent
    exact fun _ => rfl

theorem cred_received (r : Req) (c : Nat) (s : State) : ((received r s).sess c).cred = (s.sess c).cred := by
  unfold received touch
  split
  · refine sess_modSess_keeps Sess.cred r.ctx.toNat c ?_ { s with out := [] }
    exact fun _ => rfl
  · rfl

/-- Every context under the credential is closed. -/
@[irreducible] def closeAllUnder (id : Half) (s : State) : State := forAll (List.range 256) (closeUnder id) s

theorem closeAllUnder_sess {id : Half} {c : Nat} {s : State} (hc : c < 256) (hcred : (s.sess c).cred = id) :
    ((closeAllUnder id s).sess c).opened = false := by
  unfold closeAllUnder
  exact (closeUnder_below id 256 c s).2 hc hcred

theorem closeAllUnder_besideClosing (id : Half) (s : State) : besideClosing (closeAllUnder id s) = besideClosing s := by
  unfold closeAllUnder
  exact forAll_keeps s besideClosing _ _ fun c u => closeUnder_keeps besideClosing id c u
    (Prod.ext (sansHost_closeSession u c 4 true) (congrArg Pwr.conds (closeSession_pwr c 4 true u)))

theorem closeAllUnder_head {id : Half} {o : Out} {s : State} (h : s.out.head? = some o) : (closeAllUnder id s).out.head? = some o := by
  unfold closeAllUnder forAll
  refine List.foldlRecOn (motive := fun u : State => u.out.head? = some o) _ _ h fun u hu c _ => ?_
  unfold closeUnder
  split
  · exact closeSession_head hu
  · exact hu

theorem credDelRun_eq (r : Req) (id : Half) (s : State) : credDelRun r id s =
    closeAllUnder id (respond r 0x0B04 stOk [] (modNv (fun n => { n with creds := n.creds.filter fun c => c.id != id }) s)) := by
  unfold closeAllUnder
  rfl

/-- What is wrong with CRED_DEL. -/
def credDelJudge (id : Half) (s : State) : Judge :=
  { forbidden := !stateOk notRun s
    range := !(s.nv.creds.any fun c => c.id == id) || !credsOk s (s.nv.creds.filter fun c => c.id != id) }

/-- CRED_DEL takes the credential out of the table, answers, and closes the contexts under it. -/
theorem credDel_closes {r : Req} {id : Half} {s : State} (hset : settled s) (h : heard r 0x0B04 3 s) (hstate : stateOk notRun s = true)
    (hhas : s.nv.creds.any (fun c => c.id == id) = true) (hleft : credsOk s (s.nv.creds.filter fun c => c.id != id) = true) :
    ∃ t, exec (.credDel r id) s = .next t ∧ t.out.head? = some (.response r.ctx r.tag 0x0B04 stOk []) ∧
      t.nv = { s.nv with creds := s.nv.creds.filter fun c => c.id != id } ∧
      ∀ c, c < 256 → (s.sess c).cred = id → (t.sess c).opened = false := by
  obtain ⟨x, hx, -⟩ := received_cases r s
  let dropped : State := modNv (fun n => { n with creds := n.creds.filter fun c => c.id != id }) (received r s)
  let closed : State := closeAllUnder id (respond r 0x0B04 stOk [] dropped)
  have hkeeps := closeAllUnder_besideClosing id (respond r 0x0B04 stOk [] dropped)
  have hrest : sansHost closed = sansHost dropped := (congrArg Prod.fst hkeeps).trans (sansHost_respond ..)
  have hconds : closed.pwr.conds = dropped.pwr.conds :=
    (congrArg Prod.snd hkeeps :).trans (congrArg Pwr.conds (respond_frame dropped r 0x0B04 stOk []).2.1)
  have hdropped : settled dropped := settled_congr (settled_received hset) rfl rfl rfl rfl rfl
  have hclosed : settled closed := settled_congr hdropped (congrArg (fun u => u.pro.latched) hrest :)
    (congrArg (fun u => u.hkp.throttled) hrest :) (congrArg (fun u => u.smp.lowCad) hrest :) (congrArg (fun u => u.lcy.defaultsLocked) hrest :) hconds
  have hjudge : (credDelJudge id (received r s)).first false = none := by
    rw [hx]
    exact Judge.first_none (hforbidden := congrArg not hstate) (hrange := by
      have hkept : credsOk { s with out := [], ses := x } (s.nv.creds.filter fun c => c.id != id) = true := hleft
      simp [credDelJudge, hhas, hkept])
  have hrun : credDelRun r id (received r s) = closed := credDelRun_eq r id _
  have hexec : exec (.credDel r id) s = .next (transmit s closed) := by
    rw [← hrun]
    exact exec_heard (j := credDelJudge id) rfl h hjudge (hrun ▸ hclosed)
  refine ⟨_, hexec, ?_, ?_, ?_⟩
  · have hfirst : (respond r 0x0B04 stOk [] dropped).out.head? = some (.response r.ctx r.tag 0x0B04 stOk []) := by
      have hquiet : dropped.out = [] := touch_out { s with out := [] } r
      rw [respond_out, hquiet]
      rfl
    exact closeAllUnder_head hfirst
  · have hnv : dropped.nv = { s.nv with creds := s.nv.creds.filter fun c => c.id != id } := by
      simp only [dropped, hx]
      rfl
    exact (congrArg State.nv hrest :).trans hnv
  · intro c hc hcred
    exact closeAllUnder_sess hc ((cred_respond ..).trans ((cred_received r c s).trans hcred))

/-- A table with room for an entry, or with one to replace (R386). -/
theorem credRange_ok {id : Half} {role : Byte} {key : Bytes} {s : State} (hid : id ≠ 0) (hrole : role.toNat ≤ 3)
    (hroom : s.nv.creds.any (fun c => c.id == id) = true ∨ s.nv.creds.length < 32)
    (hleft : credsOk s (credPut { id := id, role := role.toNat, key := key } s.nv.creds) = true) :
    (id == 0 || decide (3 < role.toNat) || (!(s.nv.creds.any fun c => c.id == id) && decide (32 ≤ s.nv.creds.length)) ||
      !credsOk s (credPut { id := id, role := role.toNat, key := key } s.nv.creds)) = false := by
  rw [hleft, beq_false_of_ne hid, decide_eq_false (Nat.not_lt.mpr hrole)]
  rcases hroom with hhas | hshort
  · rw [hhas]
    rfl
  · rw [decide_eq_false (Nat.not_le.mpr hshort), Bool.and_false]
    rfl

/-- Settles O12: CRED_SET puts its entry before the others; CRED_DEL closes every context under the credential. -/
theorem credentialTableChanges : Obligations.CredentialTableChanges := by
  intro r id s hset hstate
  refine ⟨?set, ?del⟩
  case set =>
    intro role key h hkey hid hrole hroom hleft
    refine answersDoing_beside rfl h (fun x _ => ?_) (fun _ => rfl) (fun _ => settled_congr hset rfl rfl rfl rfl rfl) (fun _ _ => rfl) rfl rfl rfl
    exact Judge.first_none (hformat := by simp [hkey]) (hforbidden := congrArg not hstate) (hrange := credRange_ok hid hrole hroom hleft)
  case del =>
    intro h hhas hleft
    obtain ⟨t, hexec, hout, hnv, hclosed⟩ := credDel_closes hset h hstate hhas hleft
    exact ⟨t, hexec, hout, hnv, fun c hc hcred _ => hclosed c hc hcred⟩

end Sys2Proof.Machine
end

section
/-! A refused image (R377, R379): what CFG_ADMIT leaves when a check of Table 13.4 fails. -/

namespace Sys2Proof.Machine

open Sys2Proof

/-- The checks of an image do not see sessions and messages. -/
theorem admission_beside (s : State) (x : Ses) (o : List Out) (b : Bytes) (revert : Bool) :
    admission { s with out := o, ses := x } b revert = admission s b revert := rfl

theorem defer_eq (r : Req) (op : Nat) (s : State) : defer r op s = { s with out := (defer r op s).out, ses := (defer r op s).ses } := by
  unfold defer respond
  dsimp only
  split <;> rfl

/-- Beside sessions and messages, the start of a deferred command moves nothing. -/
theorem deferred_received (r : Req) (op : Nat) (s : State) : ∃ (x : Ses) (o : List Out), defer r op (received r s) = { s with out := o, ses := x } := by
  obtain ⟨x, hx, -⟩ := received_cases r s
  exact ⟨_, _, (defer_eq r op _).trans (by rw [hx])⟩

/-- A command that nothing of its group stands against does not run yet (R341). -/
theorem running_of_free {op : Nat} {s : State} (hstart : op ≠ 0x0801) (hdiag : op ≠ 0x0E02) (h : deferredBusy op s = false) :
    running op s = none := by
  refine List.find?_eq_none.mpr fun d hd hop => ?_
  have hfree := List.any_eq_false.mp h d hd
  rw [beq_iff_eq.mp hop] at hfree
  refine hfree (Bool.or_eq_true_iff.mpr (.inl ?_))
  simp only [bne_iff_ne.mpr hstart, bne_iff_ne.mpr hdiag, beq_self_eq_true, Bool.true_and, Bool.not_eq_true', Bool.and_eq_false_iff,
    beq_eq_false_iff_ne]
  omega

/-- The COMPLETION of a command that has just been deferred, whatever was done beside the sessions in between. -/
theorem completion_mem {r : Req} {op : Nat} {s u : State} (hnone : running op s = none) (hopen : (s.sess r.ctx.toNat).opened = true)
    (hses : u.ses = (defer r op s).ses) (st : Nat) (b : Bytes) : Out.completion r.ctx r.tag op st b ∈ (completeOp op st b u).out := by
  have hsame (i : Nat) : u.sess i = (defer r op s).sess i := congrArg (fun x : Ses => x.ctx.getD i {}) hses
  have hdeferred : u.ses.deferred = s.ses.deferred ++ [{ op := op, ctx := r.ctx, gen := ((respond r op stOk [] s).sess r.ctx.toNat).gen
                                                         tag := r.tag, at_ := (respond r op stOk [] s).smp.timeNs }] := by
    rw [hses]
    exact congrArg (· ++ _) (respond_deferred r op stOk [] s)
  have hopened : (u.sess r.ctx.toNat).opened = true := by
    rw [hsame]
    exact (owner_respond r op stOk [] r.ctx.toNat s).1.trans hopen
  have hgen : (u.sess r.ctx.toNat).gen = ((respond r op stOk [] s).sess r.ctx.toNat).gen := congrArg Sess.gen (hsame _)
  rw [completeOp_last hdeferred rfl hnone hopened hgen]
  exact List.mem_append_right _ (List.mem_singleton.mpr rfl)

/-- The refusal is noted, with its report. -/
def refusedWith (x : Bad) (s : State) : State := { s with lcy := { s.lcy with cfgLast := x.status, report := x.report } }

theorem cfgRefused_eq (op : Nat) (x : Bad) (s : State) :
    cfgRefused op x s = completeOp op x.status x.report.bytes (raise 0x02 3 (refusedWith x s)) := rfl

/-- A refusal leaves what it notes alone. -/
theorem sansHost_cfgRefused (op : Nat) (x : Bad) (s : State) : sansHost (cfgRefused op x s) = sansHost (refusedWith x s) := by
  rw [cfgRefused_eq, sansHost_completeOp, sansHost_raise]

theorem cfgAdmitRun_refused {r : Req} {s : State} {x : Bad} (h : admission s (pendingBytes s) false = some x) :
    cfgAdmitRun r false (received r s) = cfgRefused 0x0303 x (defer r 0x0303 (received r s)) := by
  obtain ⟨y, o, hy⟩ := deferred_received r 0x0303 s
  have hrefused : admission (defer r 0x0303 (received r s)) (pendingBytes (defer r 0x0303 (received r s))) false = some x := by
    rw [hy]
    exact h
  unfold cfgAdmitRun
  simp only [hrefused, Bool.false_eq_true, if_false]

/-- Settles O17: the refusal notes its status and its report, and completes the command. -/
theorem refusedImageLeavesTheSlots : Obligations.RefusedImageLeavesTheSlots := by
  intro r s x hlcy hstate h hfree hrefused
  obtain ⟨y, hy, hdeferred⟩ := received_cases r s
  have hbusy : deferredBusy 0x0303 (received r s) = false := by
    rw [hy, ← hfree]
    simp only [deferredBusy, hdeferred]
  have hjudge : ({ locked := cfgLocked (received r s), forbidden := !stateOk awake (received r s), busy := deferredBusy 0x0303 (received r s) } :
      Judge).first false = none := by
    refine Judge.first_none (hlocked := ?_) (hforbidden := ?_) (hbusy := hbusy)
    · rw [hy]
      exact not_retired hlcy
    · rw [hy]
      exact congrArg not hstate
  have hnone : running 0x0303 (received r s) = none := running_of_free (by decide) (by decide) hbusy
  have hopen : ((received r s).sess r.ctx.toNat).opened = true := (touch_opened { s with out := [] } r _).trans h.2.1
  obtain ⟨u, hu⟩ : ∃ u, u = cfgRefused 0x0303 x (defer r 0x0303 (received r s)) := ⟨_, rfl⟩
  have hexec : exec (.cfgAdmit r false) s = .next (transmit s (condCheck u)) := by
    rw [hu, ← cfgAdmitRun_refused hrefused]
    exact act_request_heard h _ _ hjudge
  have hrest : sansHost u = sansHost (refusedWith x s) := by
    obtain ⟨y, o, hy⟩ := deferred_received r 0x0303 s
    rw [hu, sansHost_cfgRefused, hy]
    rfl
  have hctl : u.ctl = s.ctl := by
    rw [hu, cfgRefused_eq, completeOp_ctl, raise_ctl]
    exact (defer_frame r 0x0303 (received r s)).2.1.trans (touch_ctl _ r)
  have hcompletion : Out.completion r.ctx r.tag 0x0303 x.status x.report.bytes ∈ u.out := by
    rw [hu, cfgRefused_eq]
    exact completion_mem hnone hopen (raise_ses (refusedWith x (defer r 0x0303 (received r s))) 0x02 3) _ _
  obtain ⟨t, ht⟩ : ∃ t, t = transmit s (condCheck u) := ⟨_, rfl⟩
  have hlast : sansHost t = sansHost (refusedWith x s) := by
    rw [ht, sansHost_of_still (still_transmit _ _), sansHost_of_still (still_condCheck u), hrest]
  have hstores : sameStores (refusedWith x s) t := sameStores_of_sansHost hlast
  have hmeasuring : sameMeasuring (refusedWith x s) t := sameMeasuring_of_sansHost hlast
  refine ⟨t, ht ▸ hexec, ?_, hstores, hmeasuring, (congrArg State.pro hlast :), ?_,
    (congrArg State.lcy hlast :)⟩
  · rw [ht, transmit_out]
    exact (out_prefix_condCheck u).subset hcompletion
  · rw [ht, transmit_ctl, condCheck_ctl, hctl]

end Sys2Proof.Machine
end

section
/-! Reads that latch (R141, R188, R210, R438, R468): the word a latching register shows, and what it freezes with it. -/

namespace Sys2Proof.Machine

open Sys2Proof

/-! ### One register read -/

/-- The receipt of a request commutes with what neither sees nor moves sessions, messages and module time. -/
theorem received_commutes_of_time {f : State → State} (r : Req) (s : State)
    (hf : ∀ (u : State) (x : Ses), f { u with out := [], ses := x } = { f u with out := [], ses := x }) (hses : (f s).ses = s.ses)
    (htime : (f s).smp.timeNs = s.smp.timeNs) : f (received r s) = received r (f s) := by
  have hsame : (received r (f s)).ses = (received r s).ses := by
    simp only [received, touch, modSess, hses, htime]
    split <;> rfl
  rw [received_eq r s, hf, received_eq r (f s), hsame]

/-- The read of one register that nothing stands against. -/
theorem exec_readOne {c : Instr} {r : Req} {s : State} {a : Nat} {w : Word} {f : State → State} (h : mayRead r s)
    (hexec : exec c s = act (readRequest r a 1) s) (haligned : a % 4 = 0) (hblock : (blockAt a).isSome = true) (hopen : proShut s a = false)
    (hlatch : regLatch a (received r s) = received r (f s)) (hshow : regShow (received r (f s)) a = w) :
    ∃ t, exec c s = .next t ∧ stillFor r.ctx t = stillFor r.ctx (f s) ∧ t.ev = (f s).ev ∧
      t.out = [.response r.ctx r.tag 0x0D01 stOk (le 4 a ++ leW w)] := by
  obtain ⟨hset, hheard, hawake⟩ := h
  have hreads : regReads a 1 (received r s) = ([w], received r (f s)) := by
    rw [← hshow, ← hlatch]
    rfl
  have hread : readRequest r a 1 { s with out := [] } = respond r 0x0D01 stOk (le 4 a ++ leW w) (received r (f s)) := by
    have hread := readRequest_heard (s := { s with out := [] }) hheard hawake haligned (Nat.le_refl 1) (by decide) hblock rfl hopen
    change _ = respond r 0x0D01 stOk (le 4 a ++ (regReads a 1 (received r s)).1.flatMap leW) (regReads a 1 (received r s)).2 at hread
    rw [hread, hreads, List.flatMap_singleton]
  have hsettled : settled (received r (f s)) := by
    have hkept := settled_regReads (settled_received hset) a 1 (s := received r s)
    rwa [hreads] at hkept
  refine ⟨_, hexec.trans (act_eq_next hread (settled_respond _ _ _ _ _ hsettled)), ?_, ?_, ?_⟩
  · rw [stillFor_of_still _ (still_transmit _ _), stillFor_respond, stillFor_received]
  · exact (respond_frame _ _ _ _ _).1.trans (touch_ev _ r)
  · rw [transmit_out, respond_out]
    exact congrArg (· ++ _) (touch_out _ r)

/-- The same of a read that latches no counters. -/
theorem reads_one {c : Instr} {r : Req} {s : State} {a : Nat} {w : Word} {f : State → State} (h : mayRead r s)
    (hexec : exec c s = act (readRequest r a 1) s) (haligned : a % 4 = 0) (hblock : (blockAt a).isSome = true) (hopen : proShut s a = false)
    (hlatch : regLatch a (received r s) = received r (f s)) (hshow : regShow (received r (f s)) a = w) (hev : (f s).ev = s.ev) :
    reads c r a w f s := by
  obtain ⟨t, hnext, hstill, htev, hout⟩ := exec_readOne h hexec haligned hblock hopen hlatch hshow
  exact ⟨t, hnext, hstill, htev.trans hev, hout⟩

/-! ### EVENT (R438) -/

theorem regShow_present {s : State} {a b o : Nat} (hp : absentAt s a = false) (hb : a / 65536 = b) (ho : a % 65536 = o) :
    regShow s a = (presentValue s b o).getD 0 := by
  subst hb ho
  unfold regShow
  rw [hp]
  rfl

theorem absentAt_congr {s t : State} (h : t.fac = s.fac) (a : Nat) : absentAt t a = absentAt s a := by
  unfold absentAt portPresent nPorts
  simp only [blockPresent_congr h, h]

theorem regLatch_event {e : Nat} {s : State} (h1 : 1 ≤ e) (h4 : e ≠ 4) (h : e < 68) (hp : absentAt s (eventAddr e) = false) :
    regLatch (eventAddr e) s = eventLatch e s := by
  unfold regLatch
  simp only [hp, eventAt_eventAddr h1 h4 h, Bool.false_eq_true, if_false]

/-- EVENT shows the block's flags. -/
theorem regShow_event {e : Nat} {s : State} (h1 : 1 ≤ e) (h4 : e ≠ 4) (h : e < 68) (hp : absentAt s (eventAddr e) = false) :
    regShow s (eventAddr e) = (s.event e).flags.zeroExtend 32 := by
  have hnamed : presentValue s (eventAddr e / 65536) (eventAddr e % 65536) = some ((s.event e).flags.zeroExtend 32) := by
    rcases Nat.lt_or_ge e 20 with hb | hport
    · obtain ⟨hd, hm⟩ := eventAddr_block hb
      have h0 : e ≠ 0 := Nat.ne_of_gt h1
      rw [hd, hm]
      simp [presentValue, eventValue, h4, h0]
    · obtain ⟨hd, hm⟩ := eventAddr_port hport h
      have hrow : (0x400 * (e - 20) + 0xC) / 0x400 = e - 20 := by omega
      have hcol : (0x400 * (e - 20) + 0xC) % 0x400 = 0xC := by omega
      have hback : 20 + (e - 20) = e := by omega
      rw [hd, hm]
      simp [presentValue, eventValue, hrow, hcol, hback]
  rw [regShow_present hp rfl rfl, hnamed]
  rfl

theorem flags_eventLatch (e : Nat) (s : State) : ((eventLatch e s).event e).flags = (s.event e).flags := by
  simp only [eventLatch, modEv, State.event, List.getD_eq_getElem?_getD, List.getElem?_modify]
  cases s.ev[e]? <;> rfl

theorem eventReadLatch_latches {r : Req} {s : State} (h : mayRead r s) (e : Fin 68) (h1 : 1 ≤ e.val) (h4 : e.val ≠ 4)
    (hp : eventPresent s e.val = true) (hx : e.val = 0x0B → (s.xr 0x4D).down = false) :
    ∃ t, exec (.eventReadLatch r e) s = .next t ∧ stillFor r.ctx t = stillFor r.ctx s ∧
      t.ev = s.ev.modify e.val (fun x => { x with latch := some x.cnt }) ∧
      t.out = [.response r.ctx r.tag 0x0D01 stOk (le 4 (eventAddr e.val) ++ leW ((s.event e.val).flags.zeroExtend 32))] := by
  obtain ⟨-, hinside, haligned, hpresent, -, -, hshut⟩ := writeOk_event (w := 0) h1 h4 e.isLt hp h.2.2 hx
  have hevent : ((received r (eventLatch e.val s)).event e.val).flags = (s.event e.val).flags :=
    (congrArg (fun l : List Ev => (l.getD e.val {}).flags) (touch_ev _ r)).trans (flags_eventLatch e.val s)
  have habsent (u : State) (hfac : u.fac = s.fac) : absentAt u (eventAddr e.val) = false := (absentAt_congr hfac _).trans hpresent
  have hlatch : regLatch (eventAddr e.val) (received r s) = received r (eventLatch e.val s) :=
    (regLatch_event h1 h4 e.isLt (habsent (received r s) (touch_fac _ r))).trans
      (received_commutes r s (f := eventLatch e.val) (fun _ _ => rfl) rfl rfl)
  have hshow : regShow (received r (eventLatch e.val s)) (eventAddr e.val) = (s.event e.val).flags.zeroExtend 32 := by
    rw [regShow_event h1 h4 e.isLt (habsent (received r (eventLatch e.val s)) (touch_fac _ r)), hevent]
  obtain ⟨t, hexec, hstill, hev, hout⟩ := exec_readOne (c := .eventReadLatch r e) h rfl haligned hinside hshut hlatch hshow
  exact ⟨t, hexec, hstill.trans (stillFor_of_still _ (still_modEv _ _ _)), hev, hout⟩

/-! ### Group and model records (R188, R210) -/

/-- Word 0 of the record of a group, by its address. -/
theorem groupAddr_parts (g : Fin 768) : (0x81000 + 0x40 * g.val) / 65536 = 8 ∧ (0x81000 + 0x40 * g.val) % 65536 = 0x1000 + 0x40 * g.val := by
  have hlt := g.isLt
  omega

/-- Word 0 of the model record of a group. -/
theorem modelAddr_parts (g : Fin 768) : (0x91000 + 0x10 * g.val) / 65536 = 9 ∧ (0x91000 + 0x10 * g.val) % 65536 = 0x1000 + 0x10 * g.val := by
  have hlt := g.isLt
  omega

theorem wordsAt_record {g n k : Nat} (hk : 0 < k) : wordsAt 0x1000 (k * n) (0x1000 + 4 * k * g) = decide (g < n) := by
  have hiff : 4 * k * g < 4 * (k * n) ↔ g < n := by
    rw [← Nat.mul_assoc]
    exact Nat.mul_lt_mul_left (by omega)
  simp only [wordsAt, Nat.le_add_right, decide_true, Bool.true_and, Nat.add_lt_add_iff_left, hiff]

section group
variable {g : Fin 768} {s : State}

theorem blockAt_group : (blockAt (0x81000 + 0x40 * g.val)).isSome = true := by
  obtain ⟨hd, -⟩ := groupAddr_parts g
  simp [blockAt, hd]

theorem proShut_group : proShut s (0x81000 + 0x40 * g.val) = false := by
  obtain ⟨hd, -⟩ := groupAddr_parts g
  simp [proShut, hd]

theorem regLatch_group : regLatch (0x81000 + 0x40 * g.val) s = if g.val < nGroups s then groupLatch g.val s else s := by
  obtain ⟨hd, hm⟩ := groupAddr_parts g
  have hpresent : absentAt s (0x81000 + 0x40 * g.val) = false := by simp [absentAt, hd, blockPresent]
  have hevent : eventAt (0x81000 + 0x40 * g.val) = none := by
    have hne : 0x1000 + 0x40 * g.val ≠ 0xC := by omega
    simp [eventAt, hd, hm, hne]
  have hindex : (0x1000 + 0x40 * g.val - 0x1000) / 0x40 = g.val := by omega
  have hfirst : (0x1000 + 0x40 * g.val) % 0x40 = 0 := by omega
  have hwords : wordsAt 0x1000 (16 * nGroups s) (0x1000 + 0x40 * g.val) = decide (g.val < nGroups s) := wordsAt_record (by decide)
  have hother (a : Nat) (ha : a / 65536 ≠ 8) : 0x81000 + 0x40 * g.val ≠ a := fun h => ha (h ▸ hd)
  unfold regLatch
  simp only [hpresent, hevent, hd, hm, hwords, hindex, hfirst]
  simp [hother]

theorem regShow_group : regShow s (0x81000 + 0x40 * g.val) = if g.val < nGroups s then (groupRecord s g.val).getD 0 0 else 0 := by
  obtain ⟨hd, hm⟩ := groupAddr_parts g
  have hpresent : absentAt s (0x81000 + 0x40 * g.val) = false := by simp [absentAt, hd, blockPresent]
  have hindex : (0x1000 + 0x40 * g.val - 0x1000) / 0x40 = g.val := by omega
  have hfirst : (0x1000 + 0x40 * g.val - 0x1000) % 0x40 / 4 = 0 := by omega
  have hwords : wordsAt 0x1000 (16 * nGroups s) (0x1000 + 0x40 * g.val) = decide (g.val < nGroups s) := wordsAt_record (by decide)
  have hbelow : wordsAt 0x1C 15 (0x1000 + 0x40 * g.val) = false := by
    simp only [wordsAt, Bool.and_eq_false_iff, decide_eq_false_iff_not]
    omega
  have hevent : eventValue s 8 (0x1000 + 0x40 * g.val) = none := by
    have hend : ¬ 0x1000 + 0x40 * g.val < 0x10 + 4 * evcntRegs 8 := by
      have : evcntRegs 8 ≤ 16 := by decide
      omega
    have hne : 0x1000 + 0x40 * g.val ≠ 0xC := by omega
    simp [eventValue, hne, hend]
  have hctrl : 0x1000 + 0x40 * g.val ≠ 0x4 := by omega
  have hstatus : 0x1000 + 0x40 * g.val ≠ 0x8 := by omega
  have hident : 0x1000 + 0x40 * g.val ≠ 0 := by omega
  have hvalue : presentValue s 8 (0x1000 + 0x40 * g.val) = if g.val < nGroups s then some ((groupRecord s g.val).getD 0 0) else none := by
    simp only [presentValue, hevent, estWord, hctrl, hstatus, hident, hbelow, hwords, hindex, hfirst]
    simp
  rw [regShow_present hpresent hd hm, hvalue, apply_ite (Option.getD · 0)]
  rfl

end group

section model
variable {g : Fin 768} {s : State}

theorem blockAt_model : (blockAt (0x91000 + 0x10 * g.val)).isSome = true := by
  obtain ⟨hd, -⟩ := modelAddr_parts g
  simp [blockAt, hd]

theorem proShut_model : proShut s (0x91000 + 0x10 * g.val) = false := by
  obtain ⟨hd, -⟩ := modelAddr_parts g
  simp [proShut, hd]

theorem absentAt_model : absentAt s (0x91000 + 0x10 * g.val) = !hasImp s := by
  obtain ⟨hd, -⟩ := modelAddr_parts g
  simp [absentAt, hd, blockPresent]

theorem regLatch_model : regLatch (0x91000 + 0x10 * g.val) s = if g.val < nGroups s ∧ hasImp s = true then modelLatch g.val s else s := by
  obtain ⟨hd, hm⟩ := modelAddr_parts g
  have hevent : eventAt (0x91000 + 0x10 * g.val) = none := by
    have hne : 0x1000 + 0x10 * g.val ≠ 0xC := by omega
    simp [eventAt, hd, hm, hne]
  have hindex : (0x1000 + 0x10 * g.val - 0x1000) / 0x10 = g.val := by omega
  have hfirst : (0x1000 + 0x10 * g.val) % 0x10 = 0 := by omega
  have hwords : wordsAt 0x1000 (4 * nGroups s) (0x1000 + 0x10 * g.val) = decide (g.val < nGroups s) := wordsAt_record (by decide)
  have hother (a : Nat) (ha : a / 65536 ≠ 9) : 0x91000 + 0x10 * g.val ≠ a := fun h => ha (h ▸ hd)
  unfold regLatch
  cases himp : hasImp s
  · simp [absentAt_model, himp]
  · simp only [absentAt_model, himp, hevent, hd, hm, hwords, hindex, hfirst]
    simp [hother]

theorem impValue_model (h : g.val < nGroups s) :
    impValue s (0x1000 + 0x10 * g.val) = (s.imp.groups.getD g.val {}).model.getD 0 0 := by
  have hindex : (0x1000 + 0x10 * g.val - 0x1000) / 16 = g.val := by omega
  have hfirst : (0x1000 + 0x10 * g.val - 0x1000) % 16 / 4 = 0 := by omega
  have habove : ∀ a, a < 0x1000 → 0x1000 + 0x10 * g.val ≠ a := by omega
  have hbins : ¬ (0x40 ≤ 0x1000 + 0x10 * g.val ∧ 0x1000 + 0x10 * g.val < 0x60) := by omega
  have hwindow : ¬ (0x800 ≤ 0x1000 + 0x10 * g.val ∧ 0x1000 + 0x10 * g.val < 0x86C) := by omega
  have hmodels : 0x1000 ≤ 0x1000 + 0x10 * g.val ∧ 0x1000 + 0x10 * g.val < 0x1000 + 16 * nGroups s := by omega
  unfold impValue
  dsimp only
  rw [if_neg (habove _ (by decide)), if_neg (habove _ (by decide)), if_neg (habove _ (by decide)), if_neg (habove _ (by decide)),
    if_neg (habove _ (by decide)), if_neg (habove _ (by decide)), if_neg hbins, if_neg hwindow, if_pos hmodels, hindex, hfirst]
  rfl

theorem regShow_model : regShow s (0x91000 + 0x10 * g.val) =
    if g.val < nGroups s ∧ hasImp s = true then (s.imp.groups.getD g.val {}).model.getD 0 0 else 0 := by
  obtain ⟨hd, hm⟩ := modelAddr_parts g
  have hident : 0x1000 + 0x10 * g.val ≠ 0 := by omega
  cases himp : hasImp s
  · simp [regShow, absentAt_model, himp, hd, hm]
  have hpresent : absentAt s (0x91000 + 0x10 * g.val) = false := by rw [absentAt_model, himp]; rfl
  have hwords : wordsAt 0x1000 (4 * nGroups s) (0x1000 + 0x10 * g.val) = decide (g.val < nGroups s) := wordsAt_record (by decide)
  have houtside (base n : Nat) (h : base + 4 * n ≤ 0x1000) : wordsAt base n (0x1000 + 0x10 * g.val) = false := by
    simp only [wordsAt, Bool.and_eq_false_iff, decide_eq_false_iff_not]
    omega
  have hevent : eventValue s 9 (0x1000 + 0x10 * g.val) = none := by
    have hend : ¬ 0x1000 + 0x10 * g.val < 0x10 + 4 * evcntRegs 9 := by
      have : evcntRegs 9 ≤ 16 := by decide
      omega
    have hne : 0x1000 + 0x10 * g.val ≠ 0xC := by omega
    simp [eventValue, hne, hend]
  have hctrl : 0x1000 + 0x10 * g.val ≠ 0x4 := by omega
  have hstatus : 0x1000 + 0x10 * g.val ≠ 0x8 := by omega
  have hvalue : presentValue s 9 (0x1000 + 0x10 * g.val) = if g.val < nGroups s then some (impValue s (0x1000 + 0x10 * g.val)) else none := by
    simp only [presentValue, hevent, impWord, hctrl, hstatus, hident, hwords, houtside 0x18 6 (by decide), houtside 0x40 8 (by decide),
      houtside 0x800 27 (by decide)]
    simp
  rw [regShow_present hpresent hd hm, hvalue]
  by_cases hg : g.val < nGroups s
  · rw [if_pos hg, if_pos ⟨hg, rfl⟩, impValue_model hg]
    rfl
  · rw [if_neg hg, if_neg fun hand => hg hand.1]
    rfl

end model

theorem nGroups_received (r : Req) (s : State) : nGroups (received r s) = nGroups s := by
  unfold nGroups nPorts
  rw [show (received r s).fac = s.fac from touch_fac _ r]

/-- The latch of a record keeps the record. -/
theorem groupRecord_groupLatch (g : Nat) (s : State) : groupRecord (groupLatch g s) g = groupRecord s g := by
  have hwords : ((groupLatch g s).ectx g).words = (s.ectx g).words := by
    simp only [groupLatch, modCtx, State.ectx, List.getD_eq_getElem?_getD, List.getElem?_modify]
    cases s.est.ctx[g]? <;> rfl
  unfold groupRecord
  rw [hwords]
  rfl

theorem groupRecord_received (r : Req) (s : State) (g : Nat) : groupRecord (received r s) g = groupRecord s g := by
  rw [received_eq]
  rfl

theorem groupRecordLatch_latches {r : Req} {s : State} (h : mayRead r s) {g : Fin 768} (hg : g.val < nGroups s) :
    reads (.groupRecordLatch r g) r (0x81000 + 0x40 * g.val) ((groupRecord s g.val).getD 0 0) (groupLatch g.val) s := by
  refine reads_one h rfl (by omega) blockAt_group proShut_group ?_ ?_ rfl
  · rw [regLatch_group, nGroups_received, if_pos hg]
    exact received_commutes r s (fun _ _ => rfl) rfl rfl
  · have hkept : nGroups (groupLatch g.val s) = nGroups s := rfl
    rw [regShow_group, nGroups_received, hkept, if_pos hg, groupRecord_received, groupRecord_groupLatch]

theorem groupRecordLatch_beyond {r : Req} {s : State} (h : mayRead r s) {g : Fin 768} (hg : ¬ g.val < nGroups s) :
    reads (.groupRecordLatch r g) r (0x81000 + 0x40 * g.val) 0 id s := by
  refine reads_one h rfl (by omega) blockAt_group proShut_group ?_ ?_ rfl
  · rw [regLatch_group, nGroups_received, if_neg hg]
    rfl
  · rw [regShow_group, nGroups_received, id, if_neg hg]

theorem hasImp_received (r : Req) (s : State) : hasImp (received r s) = hasImp s := by
  rw [received_eq]
  rfl

theorem model_modelLatch (g : Nat) (s : State) :
    ((modelLatch g s).imp.groups.getD g {}).model = (s.imp.groups.getD g {}).model := by
  simp only [modelLatch, modImp, List.getD_eq_getElem?_getD, List.getElem?_modify]
  cases s.imp.groups[g]? <;> rfl

theorem modelRecordLatch_latches {r : Req} {s : State} (h : mayRead r s) {g : Fin 768} (hg : g.val < nGroups s ∧ hasImp s = true) :
    reads (.modelRecordLatch r g) r (0x91000 + 0x10 * g.val) ((s.imp.groups.getD g.val {}).model.getD 0 0) (modelLatch g.val) s := by
  refine reads_one h rfl (by omega) blockAt_model proShut_model ?_ ?_ rfl
  · rw [regLatch_model, nGroups_received, hasImp_received, if_pos hg]
    exact received_commutes r s (fun _ _ => rfl) rfl rfl
  · have hkept : nGroups (modelLatch g.val s) = nGroups s ∧ hasImp (modelLatch g.val s) = hasImp s := ⟨rfl, rfl⟩
    rw [regShow_model, nGroups_received, hasImp_received, hkept.1, hkept.2, if_pos hg, received_eq]
    exact congrArg (·.getD 0 0) (model_modelLatch g.val s)

theorem modelRecordLatch_beyond {r : Req} {s : State} (h : mayRead r s) {g : Fin 768} (hg : ¬ (g.val < nGroups s ∧ hasImp s = true)) :
    reads (.modelRecordLatch r g) r (0x91000 + 0x10 * g.val) 0 id s := by
  refine reads_one h rfl (by omega) blockAt_model proShut_model ?_ ?_ rfl
  · rw [regLatch_model, nGroups_received, hasImp_received, if_neg hg]
    rfl
  · rw [regShow_model, nGroups_received, hasImp_received, id, if_neg hg]

/-! ### SMP_INST_LO and the recorder's figures (R141, R468) -/

theorem smpInstLoRead_latches {r : Req} {s : State} (h : mayRead r s) :
    reads (.smpInstLoRead r) r 0x60024 (BitVec.ofNat 32 s.smp.instant)
      (modSmp fun m => { m with instHi := BitVec.ofNat 32 (m.instant / 2 ^ 32) }) s := by
  refine reads_one h rfl rfl rfl rfl ?_ ?_ rfl
  · exact received_commutes_of_time r s (f := instLatch) (fun _ _ => rfl) rfl rfl
  · rw [received_eq]
    rfl

theorem regLatch_recLo (k : Fin 4) (s : State) : regLatch (recLoAddr k.val) s = recLatch k.val s := by
  fin_cases k <;> rfl

theorem regShow_recLo (k : Fin 4) (s : State) : regShow s (recLoAddr k.val) = BitVec.ofNat 32 (recFigure s k.val) := by
  fin_cases k <;> rfl

theorem recFigure_received (r : Req) (k : Nat) (s : State) : recFigure (received r (recLatch k s)) k = recFigure s k := by
  rw [received_eq]
  unfold recFigure
  split <;> rfl

theorem recLoRead_latches {r : Req} {s : State} (h : mayRead r s) (k : Fin 4) :
    reads (.recLoRead r k) r (recLoAddr k.val) (BitVec.ofNat 32 (recFigure s k.val)) (recLatch k.val) s := by
  obtain ⟨haligned, hblock, hopen⟩ : recLoAddr k.val % 4 = 0 ∧ (blockAt (recLoAddr k.val)).isSome = true ∧ recLoAddr k.val / 65536 = 0x11 := by
    revert k
    decide
  have hshut : proShut s (recLoAddr k.val) = false := by rw [proShut, hopen]; rfl
  refine reads_one h rfl haligned hblock hshut ?_ ?_ rfl
  · rw [regLatch_recLo]
    refine received_commutes r s (fun u x => ?_) rfl rfl
    unfold recLatch recFigure
    split <;> rfl
  · rw [regShow_recLo, recFigure_received]

/-- Settles O23: each read is of one register, which shows its word and latches its companions. -/
theorem latchingReadsFreezeTheirCompanions : Obligations.LatchingReadsFreezeTheirCompanions := by
  intro r s h
  refine ⟨eventReadLatch_latches h, fun g => ?_, fun g => ?_, smpInstLoRead_latches h, fun k => ?_⟩
  · split
    · exact groupRecordLatch_latches h ‹_›
    · exact groupRecordLatch_beyond h ‹_›
  · split
    · exact modelRecordLatch_latches h ‹_›
    · exact modelRecordLatch_beyond h ‹_›
  · have hread := recLoRead_latches h k
    fin_cases k <;> exact hread

end Sys2Proof.Machine
end

section
/-! Life cycle, activation and hand-over begin (R387, R388, R391, R396, R428). -/

namespace Sys2Proof.Machine

open Sys2Proof

/-- A request that is heard and not refused runs, whatever a refusal would have noted. -/
theorem exec_heardNoting {c : Instr} {r : Req} {op least : Nat} {s : State} {j : State → Judge} {noted : Nat → State → State}
    {run : State → State} (hexec : exec c s = act (requestNoting r op least j noted run) s) (h : heard r op least s)
    (hj : (j (received r s)).first false = none) : exec c s = .next (transmit s (condCheck (run (received r s)))) := by
  have hheard : heard r op least { s with out := [] } := h
  rw [hexec]
  unfold act
  rw [requestNoting_heard hheard j noted run hj]

theorem deferredBusy_beside {op : Nat} {s : State} {x : Ses} (hx : x.deferred = s.ses.deferred) (h : deferredBusy op s = false) :
    deferredBusy op { s with out := [], ses := x } = false := by
  rw [← h]
  simp only [deferredBusy, hx]

/-- A command that was deferred last runs. -/
theorem running_deferred_last {r : Req} {op : Nat} {s t : State} (h : t.ses = (defer r op s).ses) : (running op t).isSome = true := by
  simp [running, h, defer]

theorem response_mem_defer (r : Req) (op : Nat) (s : State) : Out.response r.ctx r.tag op stOk [] ∈ (defer r op s).out := by
  rw [(defer_frame r op s).2.2.1]
  exact List.mem_append_right _ (List.mem_singleton.mpr rfl)

/-! ### What only adds to the messages sent -/

theorem out_prefix_completeOp (op st : Nat) (b : Bytes) (s : State) : s.out <+: (completeOp op st b s).out := by
  unfold completeOp
  split
  · unfold complete
    dsimp only
    split
    · exact List.prefix_append _ _
    · exact List.prefix_rfl
  · exact List.prefix_rfl

theorem out_prefix_closeSession (c cause : Nat) (tell : Bool) (s : State) : s.out <+: (closeSession c cause tell s).out := by
  by_cases hopen : (s.sess c).opened = true
  · rw [closeSession_out hopen]
    split
    · exact List.prefix_append _ _
    · exact List.prefix_rfl
  · rw [closeSession, if_neg hopen]

theorem out_prefix_closeAll (cause : Nat) (s : State) : s.out <+: (closeAll cause s).out :=
  out_prefix_forAll _ _ (fun c t => out_prefix_closeSession c cause true t) s

/-! ### LCY_SET (R387, R388) -/

theorem closeAll_sansHost (cause : Nat) (s : State) : sansHost (closeAll cause s) = sansHost s :=
  forAll_keeps s sansHost _ _ fun c t => sansHost_closeSession t c cause true

theorem closeSession_ctl (c cause : Nat) (tell : Bool) (s : State) : (closeSession c cause tell s).ctl = s.ctl := by
  unfold closeSession
  split
  · rw [raise_ctl, freeContext_ctl]
    cases tell <;> rfl
  · rfl

theorem closeAll_ctl (cause : Nat) (s : State) : (closeAll cause s).ctl = s.ctl :=
  forAll_keeps s State.ctl _ _ fun c t => closeSession_ctl c cause true t

/-- The life cycle has moved, a flush is due, and the command waits. -/
def lifeCycleMoved (r : Req) (target : Nat) (s : State) : State :=
  let s := flushTrigger (defer r 0x0B02 s)
  modNv (fun n => { n with lcy := target, wipeFrom := n.lcy, wipePending := lcyWipes target })
    (modLcy (fun l => { l with debugEn := l.debugEn && s.nv.lcy != 3 }) s)

theorem lcySetRun_eq (r : Req) (target : Nat) (s : State) : lcySetRun r target s =
    if lcyWipes target then lifeCycleMoved r target s else lcyDone (lifeCycleMoved r target s) := rfl

theorem lifeCycleMoved_received (r : Req) (target : Nat) (s : State) : ∃ (x : Ses) (o : List Out),
    lifeCycleMoved r target (received r s) = { s with
      out := o, ses := x, nv := { s.nv with lcy := target, wipeFrom := s.nv.lcy, wipePending := lcyWipes target }
      lcy := { s.lcy with debugEn := s.lcy.debugEn && s.nv.lcy != 3 }
      recd := { s.recd with due := true, again := s.recd.again || s.recd.flushing } } := by
  obtain ⟨x, o, hx⟩ := deferred_received r 0x0B02 s
  exact ⟨x, o, by simp only [lifeCycleMoved, hx]; rfl⟩

/-- Nothing stands against an admitted transition. -/
theorem lcySetJudge_none {s : State} {x : Ses} {b : Byte} {w : Word} (hx : x.deferred = s.ses.deferred) (hstate : stateOk [1] s = true)
    (hadmits : lcyAdmits s.nv.lcy b.toNat = true) (hcond : lcyCond s b.toNat = true) (hconfirm : w = BitVec.ofNat 32 s.fac.serial)
    (hfree : deferredBusy 0x0B02 s = false) :
    (let u : State := { s with out := [], ses := x }
     ({ forbidden := !stateOk [1] u || (lcyAdmits u.nv.lcy b.toNat && !lcyCond u b.toNat)
        range := !lcyAdmits u.nv.lcy b.toNat || w != BitVec.ofNat 32 u.fac.serial
        busy := deferredBusy 0x0B02 u } : Judge)).first false = none := by
  refine Judge.first_none (hforbidden := ?_) (hrange := ?_) (hbusy := deferredBusy_beside hx hfree)
  · have hstate' : stateOk [1] { s with out := [], ses := x } = true := hstate
    have hcond' : lcyCond { s with out := [], ses := x } b.toNat = true := hcond
    simp [hstate', hcond']
  · simp [hadmits, hconfirm]

theorem exec_lcySet {r : Req} {s : State} {b : Byte} {w : Word} (h : heard r 0x0B02 3 s) (hstate : stateOk [1] s = true)
    (hadmits : lcyAdmits s.nv.lcy b.toNat = true) (hcond : lcyCond s b.toNat = true) (hconfirm : w = BitVec.ofNat 32 s.fac.serial)
    (hfree : deferredBusy 0x0B02 s = false) :
    exec (.lcySet r b w) s = .next (transmit s (condCheck (lcySetRun r b.toNat (received r s)))) := by
  obtain ⟨x, hx, hdeferred⟩ := received_cases r s
  refine exec_heardNoting rfl h ?_
  rw [hx]
  exact lcySetJudge_none hdeferred hstate hadmits hcond hconfirm hfree

/-- The state with the life cycle moved, as far as it lies beside the host's side. -/
def lifeCycleSet (target : Nat) (s : State) : State :=
  { s with
    nv := { s.nv with lcy := target, wipeFrom := s.nv.lcy, wipePending := lcyWipes target }
    lcy := { s.lcy with debugEn := s.lcy.debugEn && s.nv.lcy != 3 } }

theorem sansHost_lifeCycleMoved (r : Req) (target : Nat) (s : State) :
    sansHost (lifeCycleMoved r target (received r s)) = sansHost (lifeCycleSet target s) := by
  obtain ⟨x, o, hx⟩ := lifeCycleMoved_received r target s
  rw [hx]
  rfl

theorem lifeCycleMoved_ctl (r : Req) (target : Nat) (s : State) : (lifeCycleMoved r target (received r s)).ctl = s.ctl := by
  obtain ⟨x, o, hx⟩ := lifeCycleMoved_received r target s
  rw [hx]

theorem settled_lifeCycleMoved {s : State} (hset : settled s) (r : Req) (target : Nat) :
    settled (lifeCycleMoved r target (received r s)) := by
  obtain ⟨x, o, hx⟩ := lifeCycleMoved_received r target s
  rw [hx]
  exact settled_congr hset rfl rfl rfl rfl rfl

/-- A transition that wipes: its end is the end of the wipe. -/
theorem lcySet_wipes {r : Req} {s : State} (hset : settled s) {target : Nat} (hwipes : lcyWipes target = true) :
    ∃ t, transmit s (condCheck (lcySetRun r target (received r s))) = t ∧ sansHost t = sansHost (lifeCycleSet target s) ∧ t.ctl = s.ctl ∧
      Out.response r.ctx r.tag 0x0B02 stOk [] ∈ t.out ∧ (running 0x0B02 t).isSome = true ∧ t.ev = s.ev := by
  rw [lcySetRun_eq, if_pos hwipes, condCheck_of_settled _ (settled_lifeCycleMoved hset r target)]
  refine ⟨_, rfl, ?_, ?_, ?_, ?_, ?_⟩
  · rw [sansHost_of_still (still_transmit _ _), sansHost_lifeCycleMoved]
  · rw [transmit_ctl, lifeCycleMoved_ctl]
  · exact response_mem_defer r 0x0B02 (received r s)
  · exact running_deferred_last (s := received r s) rfl
  · exact (defer_frame r 0x0B02 (received r s)).1.trans (touch_ev _ r)

/-- The end of a transition, and what it leaves. -/
theorem lcyDone_ends {r : Req} {u s : State} (hnone : running 0x0B02 s = none) (hopen : (s.sess r.ctx.toNat).opened = true)
    (hses : u.ses = (defer r 0x0B02 s).ses) : Out.completion r.ctx r.tag 0x0B02 stOk [] ∈ (lcyDone u).out ∧ u.out <+: (lcyDone u).out ∧
      (∀ c, c < 256 → ((lcyDone u).sess c).opened = false) ∧ (lcyDone u).ctl = u.ctl ∧
      sansHost (lcyDone u) = sansHost (modNv (fun n => { n with lcyLast := stOk }) u) := by
  let v : State := modNv (fun n => { n with lcyLast := stOk }) u
  have hlast : lcyDone u = raise 0x02 0 (closeAll 4 (completeOp 0x0B02 stOk [] v)) := rfl
  rw [hlast]
  refine ⟨?_, ?_, fun c hc => ?_, ?_, ?_⟩
  · rw [raise_out]
    exact (out_prefix_closeAll 4 _).subset (completion_mem (u := v) hnone hopen hses stOk [])
  · rw [raise_out]
    exact (out_prefix_completeOp 0x0B02 stOk [] v).trans (out_prefix_closeAll 4 _)
  · rw [opened_of_still (still_raise _ _ _)]
    exact closeAll_opened _ 4 hc
  · rw [raise_ctl, closeAll_ctl, completeOp_ctl]
    rfl
  · rw [sansHost_raise, closeAll_sansHost, sansHost_completeOp]

theorem lcySet_ends {r : Req} {s : State} (h : heard r 0x0B02 3 s) (hfree : deferredBusy 0x0B02 s = false) {target : Nat}
    (hkeeps : lcyWipes target = false) : ∃ t, transmit s (condCheck (lcySetRun r target (received r s))) = t ∧
      sansHost t = sansHost (modNv (fun n => { n with lcyLast := stOk }) (lifeCycleSet target s)) ∧ t.ctl = s.ctl ∧
      Out.response r.ctx r.tag 0x0B02 stOk [] ∈ t.out ∧ Out.completion r.ctx r.tag 0x0B02 stOk [] ∈ t.out ∧
      ∀ c, c < 256 → (t.sess c).opened = false := by
  obtain ⟨y, hy, hdeferred⟩ := received_cases r s
  have hnone : running 0x0B02 (received r s) = none :=
    running_of_free (by decide) (by decide) (hy ▸ deferredBusy_beside hdeferred hfree)
  have hopen : ((received r s).sess r.ctx.toNat).opened = true := (touch_opened { s with out := [] } r _).trans h.2.1
  obtain ⟨hcompletion, hprefix, hclosed, hctl, hrest⟩ :=
    lcyDone_ends (u := lifeCycleMoved r target (received r s)) hnone hopen rfl
  have hrun : lcySetRun r target (received r s) = lcyDone (lifeCycleMoved r target (received r s)) := by
    rw [lcySetRun_eq, if_neg (Bool.eq_false_iff.mp hkeeps)]
  rw [hrun]
  generalize lcyDone (lifeCycleMoved r target (received r s)) = v at *
  refine ⟨_, rfl, ?_, ?_, ?_, ?_, fun c hc => ?_⟩
  · rw [sansHost_of_still (still_transmit _ _), sansHost_of_still (still_condCheck v), hrest]
    exact congrArg (modNv fun n => { n with lcyLast := stOk }) (sansHost_lifeCycleMoved r target s)
  · rw [transmit_ctl, condCheck_ctl, hctl, lifeCycleMoved_ctl]
  · rw [transmit_out]
    exact (out_prefix_condCheck v).subset (hprefix.subset (response_mem_defer r 0x0B02 (received r s)))
  · rw [transmit_out]
    exact (out_prefix_condCheck v).subset hcompletion
  · have hsame : ((condCheck v).sess c).opened = (v.sess c).opened := opened_of_still (still_condCheck v) c
    exact hsame.trans (hclosed c hc)

theorem lifeCycle_begins {r : Req} {s : State} (hset : settled s) {b : Byte} {w : Word} (h : heard r 0x0B02 3 s)
    (hstate : stateOk [1] s = true) (hadmits : lcyAdmits s.nv.lcy b.toNat = true) (hcond : lcyCond s b.toNat = true)
    (hconfirm : w = BitVec.ofNat 32 s.fac.serial) (hfree : deferredBusy 0x0B02 s = false) :
    ∃ t, exec (.lcySet r b w) s = .next t ∧ (Out.response r.ctx r.tag 0x0B02 stOk []) ∈ t.out ∧ t.nv.lcy = b.toNat ∧
      t.nv.active = s.nv.active ∧ t.nv.creds = s.nv.creds ∧ t.cfg = s.cfg ∧ sameMeasuring s t ∧ t.pro = s.pro ∧ t.ctl = s.ctl ∧
      (s.nv.lcy = 3 → t.lcy.debugEn = false) ∧
      ((b.toNat = 1 ∨ b.toNat = 4) → t.nv.wipePending = true ∧ t.nv.wipeFrom = s.nv.lcy ∧ (running 0x0B02 t).isSome = true ∧ t.ev = s.ev) ∧
      ((b.toNat = 2 ∨ b.toNat = 3) → t.nv.wipePending = false ∧ t.nv.lcyLast = 0 ∧
        (Out.completion r.ctx r.tag 0x0B02 stOk []) ∈ t.out ∧ ∀ c, c < 256 → (t.sess c).opened = false) := by
  have hexec := exec_lcySet h hstate hadmits hcond hconfirm hfree
  have hdebug (u : State) (hu : u.lcy = { s.lcy with debugEn := s.lcy.debugEn && s.nv.lcy != 3 }) (h3 : s.nv.lcy = 3) :
      u.lcy.debugEn = false := by
    rw [hu, h3]
    simp
  cases hwipes : lcyWipes b.toNat
  case true =>
    obtain ⟨t, ht, hrest, hctl, hresponse, hrunning, hev⟩ := lcySet_wipes (r := r) hset hwipes
    have hnv : t.nv = (lifeCycleSet b.toNat s).nv := (congrArg State.nv hrest :)
    have hmeasuring : sameMeasuring (lifeCycleSet b.toNat s) t := sameMeasuring_of_sansHost hrest
    refine ⟨t, ht ▸ hexec, hresponse, by rw [hnv]; rfl, by rw [hnv]; rfl, by rw [hnv]; rfl, (congrArg State.cfg hrest :), hmeasuring,
      (congrArg State.pro hrest :), hctl, hdebug t (congrArg State.lcy hrest :), fun _ => ⟨?_, by rw [hnv]; rfl, hrunning, hev⟩, ?_⟩
    · rw [hnv]
      exact hwipes
    · rintro (h2 | h3)
      · rw [h2] at hwipes
        exact absurd hwipes (by decide)
      · rw [h3] at hwipes
        exact absurd hwipes (by decide)
  case false =>
    obtain ⟨t, ht, hrest, hctl, hresponse, hcompletion, hclosed⟩ := lcySet_ends h hfree hwipes
    have hnv : t.nv = { (lifeCycleSet b.toNat s).nv with lcyLast := stOk } := (congrArg State.nv hrest :)
    have hmeasuring : sameMeasuring (modNv (fun n => { n with lcyLast := stOk }) (lifeCycleSet b.toNat s)) t := sameMeasuring_of_sansHost hrest
    refine ⟨t, ht ▸ hexec, hresponse, by rw [hnv]; rfl, by rw [hnv]; rfl, by rw [hnv]; rfl, (congrArg State.cfg hrest :), hmeasuring,
      (congrArg State.pro hrest :), hctl, hdebug t (congrArg State.lcy hrest :), ?_, fun _ => ⟨?_, by rw [hnv]; rfl, hcompletion, hclosed⟩⟩
    · rintro (h1 | h4)
      · rw [h1] at hwipes
        exact absurd hwipes (by decide)
      · rw [h4] at hwipes
        exact absurd hwipes (by decide)
    · rw [hnv]
      exact hwipes

/-! ### PAI_HANDOVER (R428) -/

theorem hasPai_of_hasStandby {s : State} (h : hasStandby s = true) : hasPai s = true := by
  simp only [hasStandby, inPair, Bool.and_eq_true] at h
  obtain ⟨⟨⟨hpai, -⟩, -⟩, -⟩ := h
  exact hpai

theorem paiHandover_begins {r : Req} {s : State} (hset : settled s) (h : heard r 0x0C02 1 s) (hstate : stateOk [3, 4] s = true)
    (hstandby : hasStandby s = true) (hnone : s.pai.handover = false) (hfree : deferredBusy 0x0C02 s = false) :
    ∃ t, exec (.paiHandover r) s = .next t ∧ t.out = [.response r.ctx r.tag 0x0C02 stOk []] ∧ t.ev = s.ev ∧
      t.pai = { s.pai with handover := true } ∧ (running 0x0C02 t).isSome = true ∧ sameStores s t ∧ sameMeasuring s t ∧
      t.pro = s.pro ∧ t.ctl = s.ctl ∧ t.pwr = s.pwr := by
  obtain ⟨x, hx, hdeferred⟩ := received_cases r s
  obtain ⟨y, o, hy⟩ := deferred_received r 0x0C02 s
  have hjudge : ({ absent := !hasPai (received r s), forbidden := !stateOk [3, 4] (received r s) || !hasStandby (received r s)
                   busy := deferredBusy 0x0C02 (received r s) || (received r s).pai.handover } : Judge).first false = none := by
    have hpai : hasPai { s with out := [], ses := x } = true := hasPai_of_hasStandby hstandby
    have hstate' : stateOk [3, 4] { s with out := [], ses := x } = true := hstate
    have hstandby' : hasStandby { s with out := [], ses := x } = true := hstandby
    rw [hx]
    exact Judge.first_none (habsent := congrArg not hpai) (hforbidden := by rw [hstate', hstandby']; rfl)
      (hbusy := by rw [deferredBusy_beside hdeferred hfree]; exact hnone)
  have hexec := exec_heard (c := .paiHandover r) rfl h hjudge
    (settled_congr (settled_defer (settled_received hset) r 0x0C02) rfl rfl rfl rfl rfl)
  have hout := (defer_frame r 0x0C02 (received r s)).2.2.1.trans (congrArg (· ++ _) (touch_out _ r))
  have hev := (defer_frame r 0x0C02 (received r s)).1.trans (touch_ev _ r)
  have hrunning : (running 0x0C02 (defer r 0x0C02 (received r s))).isSome = true := running_deferred_last rfl
  rw [hy] at hexec hout hev hrunning
  exact ⟨_, hexec, hout, hev, rfl, hrunning, ⟨rfl, rfl, rfl, rfl, rfl, rfl, rfl, rfl, rfl, rfl, rfl⟩, ⟨rfl, rfl, rfl, rfl, rfl, rfl, rfl⟩,
    rfl, rfl, rfl⟩

/-! ### The reset of the supervisor keeps the units, the flush that is due, and the messages sent -/

/-- Units, the flush that is due, messages, the commands deferred. -/
def resetKeeps (s : State) : List MUnit × Bool × List Out × List Deferred := (s.units, s.recd.due, s.out, s.ses.deferred)

theorem resetKeeps_of_sansXng {s t : State} (h : sansXng t = sansXng s) (hout : t.out = s.out) : resetKeeps t = resetKeeps s := by
  have hunits : t.units = s.units := (congrArg State.units h :)
  have hdue : t.recd.due = s.recd.due := (congrArg (fun u => u.recd.due) h :)
  have hdeferred : t.ses.deferred = s.ses.deferred := (congrArg (fun u => u.ses.deferred) h :)
  unfold resetKeeps
  rw [hunits, hdue, hout, hdeferred]

section keeps
variable (s : State)

@[simp] theorem resetKeeps_raise (e n : Nat) : resetKeeps (raise e n s) = resetKeeps s :=
  resetKeeps_of_sansXng (sansXng_of_still (still_raise s e n)) (raise_out s e n)
@[simp] theorem resetKeeps_ite {c : Prop} [Decidable c] (a b : State) :
    resetKeeps (if c then a else b) = if c then resetKeeps a else resetKeeps b := apply_ite resetKeeps c a b
@[simp] theorem resetKeeps_raiseIf (b : Bool) (e n : Nat) : resetKeeps (raiseIf b e n s) = resetKeeps s := by simp [raiseIf]
@[simp] theorem resetKeeps_modCtl (f : Ctl → Ctl) : resetKeeps (modCtl f s) = resetKeeps s := rfl
@[simp] theorem resetKeeps_modSmp (f : Smp → Smp) : resetKeeps (modSmp f s) = resetKeeps s := rfl
@[simp] theorem resetKeeps_modIns (f : Ins → Ins) : resetKeeps (modIns f s) = resetKeeps s := rfl
@[simp] theorem resetKeeps_modSess (c : Nat) (f : Sess → Sess) : resetKeeps (modSess c f s) = resetKeeps s := rfl
@[simp] theorem resetKeeps_modQ (q : Nat) (f : Queue → Queue) : resetKeeps (modQ q f s) = resetKeeps s := rfl
@[simp] theorem resetKeeps_disarmed : resetKeeps (disarmed s) = resetKeeps s := rfl

theorem refuse_out (x : Nat) : (refuse x s).out = s.out := by
  unfold refuse
  split
  · rfl
  · rw [raiseXng_out]
    rfl

theorem offer_out (x : Nat) (v : XVal) : (offer x v s).out = s.out := by
  unfold offer
  dsimp only
  split
  · rfl
  · split
    · split
      · rfl
      · exact refuse_out _ _
    · split <;> rfl

@[simp] theorem resetKeeps_offer (x : Nat) (v : XVal) : resetKeeps (offer x v s) = resetKeeps s :=
  resetKeeps_of_sansXng (sansXng_offer s x v) (offer_out s x v)
@[simp] theorem resetKeeps_tellEst : resetKeeps (tellEst s) = resetKeeps s := by simp [tellEst]
@[simp] theorem resetKeeps_insPass : resetKeeps (insPass s) = resetKeeps s := by simp [insPass]
@[simp] theorem resetKeeps_disarm : resetKeeps (disarm s) = resetKeeps s := by simp [disarm]
@[simp] theorem resetKeeps_zeroLapse : resetKeeps (zeroLapse s) = resetKeeps s := by simp [zeroLapse, onlyIf]
@[simp] theorem resetKeeps_insModeSettle : resetKeeps (insModeSettle s) = resetKeeps s := by simp [insModeSettle]

@[simp] theorem resetKeeps_takeThrottle : resetKeeps (takeThrottle s) = resetKeeps s := by
  unfold takeThrottle
  split <;> rfl

theorem resetKeeps_insChange (f : State → State) (h : ∀ t, resetKeeps (f t) = resetKeeps t) : resetKeeps (insChange f s) = resetKeeps s := by
  simp [insChange, onlyIf, h]

@[simp] theorem resetKeeps_unbindQueue (i : Nat) : resetKeeps (unbindQueue i s) = resetKeeps s := by simp [unbindQueue, flushQueue]

theorem resetKeeps_giveUpAll (c : Nat) : resetKeeps (giveUpAll c s) = resetKeeps s := by
  unfold giveUpAll
  exact forAll_keeps s resetKeeps _ _ fun i t => by simp [giveUp]

theorem resetKeeps_freeContext (c : Nat) : resetKeeps (freeContext c s) = resetKeeps s := by
  have hdropped (u : State) : resetKeeps (dropSession c u) = resetKeeps u := rfl
  rw [freeContext_eq, hdropped, resetKeeps_giveUpAll]

theorem resetKeeps_freeAll : resetKeeps (freeAll s) = resetKeeps s := by
  refine forAll_keeps s resetKeeps _ _ fun c t => ?_
  rw [resetKeeps_ite, resetKeeps_freeContext, ite_self]

@[simp] theorem resetKeeps_backFx : resetKeeps (backFx s) = resetKeeps s := by simp [backFx]
@[simp] theorem resetKeeps_srcTaken (n : Nat) : resetKeeps (srcTaken n s) = resetKeeps s := by simp [srcTaken]
@[simp] theorem resetKeeps_srcWatch (old : Nat) : resetKeeps (srcWatch old s) = resetKeeps s := by simp [srcWatch]
@[simp] theorem resetKeeps_haltEngine (st cause fault : Nat) : resetKeeps (haltEngine st cause fault s) = resetKeeps s := by
  simp [haltEngine]

@[simp] theorem resetKeeps_dropSnaps : resetKeeps (dropSnaps s) = resetKeeps s :=
  forAll_keeps (modRec (fun d => { d with snaps := [] }) s) resetKeeps _ _ fun _ t => by
    rw [resetKeeps_raise]
    rfl

variable (h : s.ses.deferred = [])
include h

theorem resetKeeps_parkEngine (cause : Nat) : resetKeeps (parkEngine cause s) = resetKeeps s := by
  have hhalt := resetKeeps_haltEngine s 1 cause 0
  have hnone : (haltEngine 1 cause 0 s).ses.deferred = [] := (congrArg (fun k => k.2.2.2) hhalt :).trans h
  have hdone : completeOp 0x0802 stOk [] (answerStart stForbidden [0, BitVec.ofNat 8 cause] (haltEngine 1 cause 0 s)) = haltEngine 1 cause 0 s := by
    rw [answerStart_of_none _ hnone, completeOp_of_none _ hnone]
  unfold parkEngine parkEngineWith
  simp only [raiseIf, Bool.false_eq_true, if_false, hdone, resetKeeps_ite, hhalt, ite_self]

theorem resetKeeps_stopSampling : resetKeeps (stopSampling s) = resetKeeps s := by
  unfold stopSampling
  rw [diagDrop_of_none s h, resetKeeps_insChange _ _ resetKeeps_insModeSettle, resetKeeps_disarm, resetKeeps_takeThrottle, resetKeeps_modSmp,
    resetKeeps_modCtl, ← resetKeeps_zeroLapse s]
  rfl

theorem resetKeeps_failTransition (st : Nat) : resetKeeps (failTransition st s) = resetKeeps s := by
  unfold failTransition
  rw [completeOp_of_none]
  · rfl
  · exact h

theorem resetKeeps_abandon : resetKeeps (abandon s) = resetKeeps s := by
  unfold abandon
  split
  · rfl
  · have hports : resetKeeps (if s.pwr.waitFirst then stopSampling s else s) = resetKeeps s := by
      rw [resetKeeps_ite, resetKeeps_stopSampling s h, ite_self]
    dsimp only
    rw [resetKeeps_raise]
    generalize (if s.pwr.waitFirst then stopSampling s else s) = u at hports ⊢
    have hnone : u.ses.deferred = [] := (congrArg (fun k => k.2.2.2) hports :).trans h
    rw [resetKeeps_failTransition u hnone, hports]

end keeps

/-- The units, the flush that is due and what was sent outlast the reset. -/
theorem spcResetFx_keeps (cause : Nat) (s : State) :
    (spcResetFx cause s).units = s.units ∧ (spcResetFx cause s).recd.due = s.recd.due ∧ (spcResetFx cause s).out = s.out := by
  have hfree := resetKeeps_freeAll s
  rw [spcResetFx_eq]
  generalize freeAll s = u at hfree ⊢
  have hnone : (hostParked (noRequests u)).ses.deferred = [] :=
    (congrArg (fun k => k.2.2.2) ((resetKeeps_modCtl _ _).trans (resetKeeps_parkEngine (noRequests u) rfl 4)) :)
  have hparked : resetKeeps (hostParked (noRequests u)) = resetKeeps (noRequests u) :=
    (resetKeeps_modCtl _ _).trans (resetKeeps_parkEngine (noRequests u) rfl 4)
  generalize hostParked (noRequests u) = v at hnone hparked ⊢
  have hdropped : resetKeeps (dropSnaps (abandon v)) = resetKeeps (noRequests u) := by
    rw [resetKeeps_dropSnaps, resetKeeps_abandon v hnone, hparked]
  generalize dropSnaps (abandon v) = w at hdropped ⊢
  have hunits : u.units = s.units := (congrArg (fun k => k.1) hfree :)
  have hdue : u.recd.due = s.recd.due := (congrArg (fun k => k.2.1) hfree :)
  have hout : u.out = s.out := (congrArg (fun k => k.2.2.1) hfree :)
  exact ⟨(congrArg (fun k => k.1) hdropped :).trans hunits, (congrArg (fun k => k.2.1) hdropped :).trans hdue,
    (congrArg (fun k => k.2.2.1) hdropped :).trans hout⟩

/-! ### UPD_ACTIVATE (R391, R396) -/

/-- The mark of an activation: the staged image, or the alternate one. -/
def activationMark (s : State) : Nat := if (stagedImage s).isSome then 1 else 2

/-- The mark is stored, the command waits, a flush is due. -/
def activationMarked (r : Req) (s : State) : State := flushTrigger (defer r 0x0A03 (modNv (fun n => { n with mark := activationMark s }) s))

theorem updActivateRun_eq (r : Req) (s : State) : updActivateRun r s =
    if inPair (activationMarked r s) && (activationMarked r s).pai.select then
      modPai (fun p => { p with handover := true, activate := true }) (activationMarked r s)
    else spcResetFx 2 (activationMarked r s) := rfl

theorem activationMarked_received (r : Req) (s : State) : ∃ (x : Ses) (o : List Out), activationMarked r (received r s) = { s with
    out := o, ses := x, nv := { s.nv with mark := activationMark s }
    recd := { s.recd with due := true, again := s.recd.again || s.recd.flushing } } := by
  obtain ⟨y, hy, -⟩ := received_cases r s
  obtain ⟨x, o, hdefer⟩ : ∃ (x : Ses) (o : List Out), defer r 0x0A03 (modNv (fun n => { n with mark := activationMark (received r s) }) (received r s)) =
      { modNv (fun n => { n with mark := activationMark (received r s) }) (received r s) with out := o, ses := x } := ⟨_, _, defer_eq ..⟩
  refine ⟨x, o, ?_⟩
  unfold activationMarked
  rw [hdefer, hy]
  rfl

theorem activationMarked_sent (r : Req) (s : State) : Out.response r.ctx r.tag 0x0A03 stOk [] ∈ (activationMarked r s).out ∧
    (running 0x0A03 (activationMarked r s)).isSome = true :=
  ⟨response_mem_defer r 0x0A03 _, running_deferred_last (s := modNv (fun n => { n with mark := activationMark s }) s) rfl⟩

theorem exec_updActivate {r : Req} {s : State} (h : heard r 0x0A03 3 s) (hlcy : s.nv.lcy ≠ 4) (hstate : stateOk awake s = true)
    (hengine : engineRuns s = false) (hmajor : stagedMajor s = true → s.pro.conn = 0)
    (himage : (stagedImage s).isSome = true ∨ s.nv.alternate.isSome = true) (hlearn : s.bal.learn = none)
    (hconn : s.pro.conn = 0 ∨ s.pro.conn = 5) (hfree : deferredBusy 0x0A03 s = false) :
    exec (.updActivate r) s = .next (transmit s (condCheck (updActivateRun r (received r s)))) := by
  obtain ⟨x, hx, hdeferred⟩ := received_cases r s
  refine exec_heardNoting rfl h ?_
  rw [hx]
  have hengine' : engineRuns { s with out := [], ses := x } = false := hengine
  have hstate' : stateOk awake { s with out := [], ses := x } = true := hstate
  have hmajor' : (stagedMajor { s with out := [], ses := x } && s.pro.conn != 0) = false := by
    cases hm : stagedMajor s
    · exact congrArg (· && s.pro.conn != 0) hm
    · rw [hmajor hm]
      exact Bool.and_false _
  have himage' : ((stagedImage { s with out := [], ses := x }).isNone && s.nv.alternate.isNone) = false := by
    have hsame : stagedImage { s with out := [], ses := x } = stagedImage s := rfl
    rw [hsame]
    rcases himage with hi | hi
    · rw [Option.isNone_eq_false_iff.mpr hi]
      rfl
    · rw [Option.isNone_eq_false_iff.mpr hi]
      exact Bool.and_false _
  refine Judge.first_none (hlocked := not_retired hlcy) (hforbidden := ?_) (hrange := himage') (hbusy := ?_)
  · rw [hengine', hstate']
    exact hmajor'
  · rw [deferredBusy_beside hdeferred hfree, Bool.or_false]
    rcases hconn with hc | hc <;> simp [hlearn, hc]

/-- Outside a pair, and on a standby, the supervisor goes into reset. -/
theorem activation_resets {r : Req} {s : State} (hhold : (inPair s && s.pai.select) = false) :
    ∃ t, transmit s (condCheck (updActivateRun r (received r s))) = t ∧ (Out.response r.ctx r.tag 0x0A03 stOk []) ∈ t.out ∧
      t.nv = { s.nv with mark := activationMark s } ∧ t.recd.due = true ∧ t.cfg = s.cfg ∧ t.units = s.units ∧
      t.pro.kA = s.pro.kA ∧ t.pro.kB = s.pro.kB ∧ t.lcy.spcDown = true ∧ t.lcy.spcCause = 2 ∧ t.ses.deferred = [] ∧ t.image = {} ∧
      t.ctl.spHost = 0 ∧ ∀ c, c < 256 → (t.sess c).opened = false := by
  obtain ⟨x, o, hx⟩ := activationMarked_received r s
  obtain ⟨hresponse, -⟩ := activationMarked_sent r (received r s)
  have hrun : updActivateRun r (received r s) = spcResetFx 2 (activationMarked r (received r s)) := by
    have hhold' : (inPair (activationMarked r (received r s)) && (activationMarked r (received r s)).pai.select) = false := by
      rw [hx]
      exact hhold
    rw [updActivateRun_eq, if_neg (Bool.eq_false_iff.mp hhold')]
  rw [hrun]
  generalize activationMarked r (received r s) = u at hx hresponse ⊢
  obtain ⟨hunits, hdue, hout⟩ := spcResetFx_keeps 2 u
  have hprefix := out_prefix_condCheck (spcResetFx 2 u)
  obtain ⟨t, ht⟩ : ∃ t, t = transmit s (condCheck (spcResetFx 2 u)) := ⟨_, rfl⟩
  have hstill : still t = still (spcResetFx 2 u) := by rw [ht, still_transmit, still_condCheck]
  obtain ⟨hdown, -, hcause, himage, hdeferred, -, hclosed, -, hhost, hkA, hkB, -, hcfg, hnv, -⟩ := spcResetFx_settles hstill
  refine ⟨t, ht.symm, ?_, ?_, ?_, ?_, ?_, ?_, ?_, hdown, hcause, hdeferred, himage, hhost, hclosed⟩
  · rw [ht, transmit_out]
    rw [← hout] at hresponse
    exact hprefix.subset hresponse
  · rw [hnv, hx]
  · rw [of_still (fun v => v.recd.due) (fun _ => rfl) hstill, hdue, hx]
  · rw [hcfg, hx]
  · rw [of_still State.units (fun _ => rfl) hstill, hunits, hx]
  · rw [hkA, hx]
  · rw [hkB, hx]

/-- The holder of a pair hands SELECT over first. -/
theorem activation_handsOver {r : Req} {s : State} (hset : settled s) (hpair : inPair s = true) (hselect : s.pai.select = true) :
    ∃ t, transmit s (condCheck (updActivateRun r (received r s))) = t ∧ (Out.response r.ctx r.tag 0x0A03 stOk []) ∈ t.out ∧
      t.nv = { s.nv with mark := activationMark s } ∧ t.recd.due = true ∧ t.cfg = s.cfg ∧
      t.pai = { s.pai with handover := true, activate := true } ∧ (running 0x0A03 t).isSome = true ∧ t.lcy = s.lcy ∧ t.ctl = s.ctl ∧
      t.pro = s.pro ∧ sameMeasuring s t := by
  obtain ⟨x, o, hx⟩ := activationMarked_received r s
  obtain ⟨hresponse, hrunning⟩ := activationMarked_sent r (received r s)
  have hrun : updActivateRun r (received r s) =
      modPai (fun p => { p with handover := true, activate := true }) (activationMarked r (received r s)) := by
    have hhold : (inPair (activationMarked r (received r s)) && (activationMarked r (received r s)).pai.select) = true := by
      rw [hx]
      exact Bool.and_eq_true_iff.mpr ⟨hpair, hselect⟩
    rw [updActivateRun_eq, if_pos hhold]
  rw [hrun]
  generalize activationMarked r (received r s) = u at hx hresponse hrunning ⊢
  subst hx
  have hsettled : settled (modPai (fun p => { p with handover := true, activate := true }) { s with
      out := o, ses := x, nv := { s.nv with mark := activationMark s }
      recd := { s.recd with due := true, again := s.recd.again || s.recd.flushing } }) := settled_congr hset rfl rfl rfl rfl rfl
  rw [condCheck_of_settled _ hsettled]
  exact ⟨_, rfl, hresponse, rfl, rfl, rfl, rfl, hrunning, rfl, rfl, rfl, ⟨rfl, rfl, rfl, rfl, rfl, rfl, rfl⟩⟩

/-- Settles O29: a wipe ends LCY_SET later, the other transitions end it at once; an activation resets or hands over. -/
theorem lifeCycleAndActivationBegin : Obligations.LifeCycleAndActivationBegin := by
  intro r s hset
  refine ⟨?lifeCycle, ?activation, fun h => paiHandover_begins hset h⟩
  case lifeCycle =>
    intro b w h hstate hadmits hcond hconfirm hfree
    exact lifeCycle_begins hset h hstate hadmits hcond hconfirm hfree
  case activation =>
    intro h hlcy hstate hengine hmajor himage hlearn hconn hfree
    have hexec := exec_updActivate h hlcy hstate hengine hmajor himage hlearn hconn hfree
    cases hhold : inPair s && s.pai.select
    case false =>
      obtain ⟨t, ht, hresponse, hnv, hdue, hcfg, hunits, hkA, hkB, hreset⟩ := activation_resets (r := r) hhold
      refine ⟨t, ht ▸ hexec, hresponse, hnv, hdue, hcfg, hunits, hkA, hkB, fun _ => hreset, fun hpair hselect => ?_⟩
      rw [hpair, hselect] at hhold
      exact Bool.noConfusion hhold
    case true =>
      obtain ⟨hpair, hselect⟩ := Bool.and_eq_true_iff.mp hhold
      obtain ⟨t, ht, hresponse, hnv, hdue, hcfg, hpai, hrunning, hlcy', hctl, hpro, hmeasuring⟩ := activation_handsOver (r := r) hset hpair hselect
      refine ⟨t, ht ▸ hexec, hresponse, hnv, hdue, hcfg, hmeasuring.2.1, by rw [hpro], by rw [hpro], fun hout => ?_,
        fun _ _ => ⟨hpai, hrunning, hlcy', hctl, hpro, hmeasuring⟩⟩
      rw [hpair] at hout
      exact Bool.noConfusion hout

end Sys2Proof.Machine
end

section
/-! REC_READ, ENUM_PORT, UNIT_DIAG, and opcodes that the table does not name (R62, R72, R74, R459, R460). -/

namespace Sys2Proof.Machine

open Sys2Proof

/-! ### REC_READ (R459, R460) -/

/-- EXPORT_MARK moves past the records read, where the first of them is not beyond it. -/
def exportedTo (l : List Record) (v : RecNv) : RecNv :=
  match l.head?, l.getLast? with
  | some x, some y => if x.index ≤ v.exportMark then { v with exportMark := y.index + 1 } else v
  | _, _ => v

theorem recReadRun_eq (r : Req) (first count : Nat) (s : State) : recReadRun r first count s =
    respond r 0x0902 stOk (le 8 (if (readRecords s (max first s.recNv.oldest) count).isEmpty then first else max first s.recNv.oldest) ++
        le 1 (readRecords s (max first s.recNv.oldest) count).length ++ [0, 0, 0] ++
        (readRecords s (max first s.recNv.oldest) count).flatMap recordBytes)
      (modRecNv (exportedTo (readRecords s (max first s.recNv.oldest) count)) s) := by
  unfold recReadRun
  dsimp only
  generalize readRecords s (max first s.recNv.oldest) count = l
  congr 1
  unfold exportedTo
  rcases l.head? with _ | a
  · rfl
  · rcases l.getLast? with _ | b
    · rfl
    · unfold modRecNv
      dsimp only
      split <;> rfl

theorem recRead_answers {r : Req} {s : State} (hset : settled s) {first : Nat} {n : Byte} (h : heard r 0x0902 0 s)
    (hstate : stateOk awake s = true) (hlow : 1 ≤ n.toNat) (hhigh : n.toNat ≤ 21) :
    answersDoing (.recRead r first n) r 0x0902
      (le 8 (if (readRecords s (max first s.recNv.oldest) n.toNat).isEmpty then first else max first s.recNv.oldest) ++
        le 1 (readRecords s (max first s.recNv.oldest) n.toNat).length ++ [0, 0, 0] ++
        (readRecords s (max first s.recNv.oldest) n.toNat).flatMap recordBytes)
      (modRecNv (exportedTo (readRecords s (max first s.recNv.oldest) n.toNat))) s := by
  refine answersDoing_beside rfl h (fun x _ => ?_) (fun _ => recReadRun_eq ..) (fun _ => settled_congr hset rfl rfl rfl rfl rfl)
    (fun _ _ => rfl) rfl rfl rfl
  have hzero : n ≠ 0 := by
    rintro rfl
    exact absurd hlow (by decide)
  exact Judge.first_none (hforbidden := congrArg not hstate) (hrange := by
    rw [beq_false_of_ne hzero, decide_eq_false (Nat.not_lt.mpr hhigh)]
    rfl)

/-! ### Opcodes without a name (R340) -/

theorem unknownOpcode_refused {r : Req} {s : State} (hset : settled s) {op : Half} (hnone : opcodes.contains op.toNat = false)
    (h : heard r op.toNat 0 s) : ∃ t, exec (.unknownOpcode r op) s = .next t ∧ t.out = [.response r.ctx r.tag op.toNat stFormat []] ∧
      t.ev = s.ev ∧ stillFor r.ctx t = stillFor r.ctx s := by
  have hheard : heard r op.toNat 0 { s with out := [] } := h
  have hrefused : request r op.toNat 0 (fun _ => { format := true }) (fun s => s) { s with out := [] } =
      respond r op.toNat stFormat [] (received r s) := request_refused hheard (fun _ => { format := true }) (fun s => s) rfl
  have hexec : exec (.unknownOpcode r op) s = act (request r op.toNat 0 (fun _ => { format := true }) fun s => s) s := by
    change execUnknownOpcode r op s = _
    simp only [execUnknownOpcode, hnone, Bool.false_eq_true, if_false, observer]
  refine ⟨_, hexec.trans (act_eq_next hrefused (settled_respond _ _ _ _ _ (settled_received hset))), ?_, ?_, ?_⟩
  · rw [transmit_out, respond_out]
    exact congrArg (· ++ _) (touch_out _ r)
  · exact (respond_frame _ _ _ _ _).1.trans (touch_ev _ r)
  · rw [stillFor_of_still _ (still_transmit _ _), stillFor_respond, stillFor_received]

/-! ### UNIT_DIAG (R62) -/

/-- The DIAG_READ of a unit waits in its port, and the command waits for its answer. -/
def diagAsked (r : Req) (u page : Byte) (s : State) : State :=
  { modPort (u.toNat / 4) (fun x => { x with waiting := x.waiting ++ [{ pri := 4, dst := u, opc := 0x50, data := [page] }] }) s with
    ses := { s.ses with deferred := s.ses.deferred ++ [{ op := 0x0E02, ctx := r.ctx, gen := (s.sess r.ctx.toNat).gen, tag := r.tag
                                                         at_ := s.smp.timeNs, arg := 3 * (u.toNat / 4) + u.toNat % 4 }] } }

theorem addrOf_parts (u : Byte) : addrOf (u.toNat / 4) (u.toNat % 4) = u := by
  have hwhole : 4 * (u.toNat / 4) + u.toNat % 4 = u.toNat := Nat.div_add_mod _ _
  rw [addrOf, hwhole, BitVec.ofNat_toNat, BitVec.setWidth_eq]

theorem diagRun_eq (r : Req) (u page : Byte) (s : State) : diagRun r (u.toNat / 4) (u.toNat % 4) page s = diagAsked r u page s := by
  unfold diagRun reqTo
  rw [addrOf_parts]
  rfl

theorem gen_received (r : Req) (c : Nat) (s : State) : ((received r s).sess c).gen = (s.sess c).gen := by
  unfold received touch
  split
  · refine sess_modSess_keeps Sess.gen r.ctx.toNat c ?_ { s with out := [] }
    exact fun _ => rfl
  · rfl

theorem diagAsked_received (r : Req) (u page : Byte) (s : State) : diagAsked r u page (received r s) = received r (diagAsked r u page s) := by
  have hgen := gen_received r r.ctx.toNat s
  unfold diagAsked
  rw [hgen]
  unfold received touch
  split <;> rfl

theorem unitDiag_asks {r : Req} {s : State} (hset : settled s) {u page : Byte} (h : heard r 0x0E02 0 s) (hstate : stateOk measuring s = true)
    (hu : u.toNat < 192) (hc : u.toNat % 4 < 3) (hport : portPresent s (u.toNat / 4) = true)
    (hunit : (s.pos (u.toNat / 4) (u.toNat % 4)).present = true) (hpage : page.toNat ≤ 1) (hlead : commands s = true)
    (hreach : ownReach s (3 * (u.toNat / 4) + u.toNat % 4) = true) :
    ∃ t, exec (.unitDiag r u page) s = .next t ∧ t.out = [] ∧ t.ev = s.ev ∧ stillFor r.ctx t = stillFor r.ctx (diagAsked r u page s) := by
  have hjudge : ({ absent := decide (u.toNat / 4 < 48) && !portPresent (received r s) (u.toNat / 4)
                   forbidden := !stateOk measuring (received r s)
                   range := decide (48 ≤ u.toNat / 4) || u.toNat % 4 == 3 || !((received r s).pos (u.toNat / 4) (u.toNat % 4)).present ||
                     decide (1 < page.toNat)
                   busy := !commands (received r s) || !ownReach (received r s) (slotOf (u.toNat / 4) (u.toNat % 4)) } : Judge).first false =
      none := by
    obtain ⟨x, hx, -⟩ := received_cases r s
    have hport' : portPresent { s with out := [], ses := x } (u.toNat / 4) = true := hport
    have hunit' : (State.pos { s with out := [], ses := x } (u.toNat / 4) (u.toNat % 4)).present = true := hunit
    have hlead' : commands { s with out := [], ses := x } = true := hlead
    have hreach' : ownReach { s with out := [], ses := x } (slotOf (u.toNat / 4) (u.toNat % 4)) = true := hreach
    have hnode : (u.toNat % 4 == 3) = false := beq_false_of_ne (Nat.ne_of_lt hc)
    have hrow : ¬ 48 ≤ u.toNat / 4 := by omega
    rw [hx]
    refine Judge.first_none (habsent := ?_) (hforbidden := congrArg not hstate) (hrange := ?_) (hbusy := ?_)
    · rw [hport']
      exact Bool.and_false _
    · rw [hunit', hnode, decide_eq_false hrow, decide_eq_false (Nat.not_lt.mpr hpage)]
      rfl
    · rw [hlead', hreach']
      rfl
  have hrun : diagRun r (u.toNat / 4) (u.toNat % 4) page (received r s) = received r (diagAsked r u page s) :=
    (diagRun_eq ..).trans (diagAsked_received ..)
  have hsettled : settled (received r (diagAsked r u page s)) := settled_received (settled_congr hset rfl rfl rfl rfl rfl)
  have hexec := exec_heard (c := .unitDiag r u page) rfl h hjudge (hrun ▸ hsettled)
  rw [hrun] at hexec
  refine ⟨_, hexec, ?_, ?_, ?_⟩
  · exact touch_out _ r
  · exact touch_ev _ r
  · rw [stillFor_of_still _ (still_transmit _ _), stillFor_received]

/-! ### A port begins service cycles (R71, R74) -/

/-- What the start of service cycles leaves beside the port: all but the balancing of its units, their tests, and the requests for diagnosis. -/
def enumLeaves (s : State) : State := { s with out := [], fresh := 0, ses := {}, prt := [], bal := {}, pro := { s.pro with units := [] } }

/-- The deferred commands that are no requests for diagnosis. -/
def otherDeferred (s : State) : List Deferred := s.ses.deferred.filter fun d => d.op != 0x0E02

theorem running_of_other {op : Nat} (hop : op ≠ 0x0E02) (s : State) : running op s = (otherDeferred s).find? fun d => d.op == op := by
  rw [running, otherDeferred, List.find?_filter]
  congr 1
  funext d
  by_cases hd : d.op = op
  · simp [hd, hop]
  · simp [beq_false_of_ne hd]

/-- What a port's operations keep: all beside the port, the ports themselves where they are not named, the other deferred commands, and the
messages sent before. -/
structure LeavesPorts (s t : State) : Prop where
  beside : enumLeaves t = enumLeaves s
  ports : t.prt = s.prt
  others : otherDeferred t = otherDeferred s
  sent : s.out <+: t.out

theorem LeavesPorts.rfl {s : State} : LeavesPorts s s := ⟨Eq.refl _, Eq.refl _, Eq.refl _, List.prefix_rfl⟩

theorem LeavesPorts.trans {s t u : State} (h : LeavesPorts s t) (h' : LeavesPorts t u) : LeavesPorts s u :=
  ⟨h'.beside.trans h.beside, h'.ports.trans h.ports, h'.others.trans h.others, h.sent.trans h'.sent⟩

theorem leavesPorts_respond (r : Req) (op st : Nat) (b : Bytes) (s : State) : LeavesPorts s (respond r op st b s) := by
  unfold respond
  dsimp only
  split <;> exact ⟨rfl, rfl, rfl, List.prefix_append _ _⟩

theorem leavesPorts_takeWord (s : State) : LeavesPorts s (takeWord s).2 := ⟨rfl, rfl, rfl, List.prefix_rfl⟩

theorem leavesPorts_erase {s : State} {d : Deferred} (hd : d.op = 0x0E02) : LeavesPorts s (withDeferred (s.ses.deferred.erase d) s) := by
  refine ⟨rfl, rfl, ?_, List.prefix_rfl⟩
  have hnot : d ∉ s.ses.deferred.filter fun d => d.op != 0x0E02 := fun hmem => by simp [hd] at hmem
  exact (List.erase_filter ..).symm.trans (List.erase_of_not_mem hnot)

theorem leavesPorts_diagAnswer (u : Nat) (b : Option Bytes) (s : State) : LeavesPorts s (diagAnswer u b s) := by
  unfold diagAnswer
  split
  · exact .rfl
  · rename_i d hfound
    have hd : d.op = 0x0E02 := by
      have hmatch := List.find?_some hfound
      exact beq_iff_eq.mp (Bool.and_eq_true_iff.mp hmatch).1
    refine (leavesPorts_erase hd).trans ?_
    dsimp only
    split
    · exact .rfl
    · split
      · exact leavesPorts_respond ..
      · exact (leavesPorts_takeWord _).trans (leavesPorts_respond ..)

theorem leavesPorts_forAll {α : Type} (l : List α) (f : α → State → State) (h : ∀ a s, LeavesPorts s (f a s)) (s : State) :
    LeavesPorts s (forAll l f s) := by
  induction l generalizing s with
  | nil => exact .rfl
  | cons a l ih => exact (h a s).trans (ih (f a s))

theorem leavesPorts_diagDrop (slots : Nat → Bool) (s : State) : LeavesPorts s (diagDrop slots s) :=
  leavesPorts_forAll _ _ (fun d t => by
    split
    · exact leavesPorts_diagAnswer ..
    · exact .rfl) s

theorem LeavesPorts.commands {s t : State} (h : LeavesPorts s t) : commands t = commands s :=
  (congrArg Machine.commands h.beside :)

theorem LeavesPorts.homeLane {s t : State} (h : LeavesPorts s t) (p : Nat) : homeLane t p = homeLane s p :=
  (congrArg (Machine.homeLane · p) h.beside :)

/-- A port at the start of service cycles: no unit is present, the walk is to come. -/
def Port.begun (lead : Bool) (lane : Lane) (x : Port) : Port :=
  { x with
    pos := x.pos.map fun y => { cseq := y.cseq, stale := y.stale, missRun := y.missRun }
    link := 1, cad := 3, ringDly := none, ringService := none, returns := [], badRun := 0, goodRun := 0
    tooLong := false, provisional := false, waiting := [], wasIncomplete := false
    svc := { phase := if lead then .lock else .follow, lane := lane } }

/-- The units of the port lose their timers and tests, and their diagnosis is answered. -/
def unitsBegun (p : Nat) (s : State) : State :=
  diagDrop (fun u => u / 3 == p) (forAll [0, 1, 2] (fun c s => testsEnd (slotOf p c) (unitRestarted (slotOf p c) s)) s)

theorem leavesPorts_modBal (f : Bal → Bal) (s : State) : LeavesPorts s (modBal f s) := ⟨rfl, rfl, rfl, List.prefix_rfl⟩
theorem leavesPorts_modSlot (u : Nat) (f : BalSlot → BalSlot) (s : State) : LeavesPorts s (modSlot u f s) := ⟨rfl, rfl, rfl, List.prefix_rfl⟩
theorem leavesPorts_modOw (u : Nat) (f : OwUnit → OwUnit) (s : State) : LeavesPorts s (modOw u f s) := ⟨rfl, rfl, rfl, List.prefix_rfl⟩

theorem leavesPorts_unitBegun (u : Nat) (s : State) : LeavesPorts s (testsEnd u (unitRestarted u s)) :=
  ((leavesPorts_modBal _ s).trans (leavesPorts_modSlot u _ _)).trans (leavesPorts_modOw u _ _)

theorem leavesPorts_unitsBegun (p : Nat) (s : State) : LeavesPorts s (unitsBegun p s) :=
  (leavesPorts_forAll [0, 1, 2] _ (fun c t => leavesPorts_unitBegun (slotOf p c) t) s).trans (leavesPorts_diagDrop _ _)

theorem beginEnum_eq (p : Nat) (s : State) :
    beginEnum p s = modPort p (Port.begun (commands s) (homeLane s p)) (unitsBegun p s) := by
  rw [← (leavesPorts_unitsBegun p s).commands, ← (leavesPorts_unitsBegun p s).homeLane]
  rfl

/-- What a start of service cycles keeps beside the port, and what it makes of the ports. -/
theorem beginEnum_ports (p : Nat) (s : State) : enumLeaves (beginEnum p s) = enumLeaves s ∧ otherDeferred (beginEnum p s) = otherDeferred s ∧
    s.out <+: (beginEnum p s).out ∧ (beginEnum p s).prt = s.prt.modify p (Port.begun (commands s) (homeLane s p)) := by
  obtain ⟨hbeside, hports, hothers, hsent⟩ := leavesPorts_unitsBegun p s
  rw [beginEnum_eq]
  generalize unitsBegun p s = t at *
  refine ⟨hbeside, hothers, hsent, ?_⟩
  rw [← hports]
  rfl

/-- The ports of a list begin service cycles, each once. -/
theorem bringUp_ports (l : List Nat) (hl : l.Nodup) (s : State) (hin : ∀ p ∈ l, p < s.prt.length) :
    enumLeaves (bringUp l s) = enumLeaves s ∧ otherDeferred (bringUp l s) = otherDeferred s ∧ s.out <+: (bringUp l s).out ∧
      ∀ p, (bringUp l s).port p = if p ∈ l then (s.port p).begun (commands s) (homeLane s p) else s.port p := by
  induction l generalizing s with
  | nil => exact ⟨rfl, rfl, List.prefix_rfl, fun p => (if_neg List.not_mem_nil).symm⟩
  | cons q l ih =>
    obtain ⟨hq, hl⟩ := List.nodup_cons.mp hl
    obtain ⟨hbeside, hothers, hsent, hports⟩ := beginEnum_ports q s
    have hrest : ∀ p ∈ l, p < (beginEnum q s).prt.length := by
      intro p hp
      rw [hports, List.length_modify]
      exact hin p (List.mem_cons_of_mem q hp)
    obtain ⟨hbeside', hothers', hsent', hports'⟩ := ih hl (beginEnum q s) hrest
    change enumLeaves (bringUp l (beginEnum q s)) = _ ∧ otherDeferred (bringUp l (beginEnum q s)) = _ ∧
      _ <+: (bringUp l (beginEnum q s)).out ∧ ∀ p, (bringUp l (beginEnum q s)).port p = _
    refine ⟨hbeside'.trans hbeside, hothers'.trans hothers, hsent.trans hsent', fun p => ?_⟩
    have hlead : commands (beginEnum q s) = commands s := (congrArg commands hbeside :)
    have hlane : homeLane (beginEnum q s) p = homeLane s p := (congrArg (homeLane · p) hbeside :)
    rw [hports' p, hlead, hlane, State.port, hports]
    by_cases hp : p = q
    · subst hp
      have hlt : p < s.prt.length := hin p List.mem_cons_self
      rw [if_neg hq, if_pos List.mem_cons_self]
      simp [State.port, List.getD_eq_getElem?_getD, List.getElem?_eq_getElem hlt]
    · have hsame : (s.prt.modify q (Port.begun (commands s) (homeLane s q))).getD p {} = s.port p := by
        simp [State.port, List.getD_eq_getElem?_getD, Ne.symm hp]
      have hmem : p ∈ q :: l ↔ p ∈ l := by simp [hp]
      simp only [hsame, hmem]

/-! ### ENUM_PORT (R74) -/

/-- The ports that the mask names. -/
def maskPorts (mask : BitVec 48) : List Nat := (List.range 48).filter fun p => mask.getLsbD p

theorem mem_maskPorts {mask : BitVec 48} {p : Nat} : p ∈ maskPorts mask ↔ p < 48 ∧ mask.getLsbD p = true := by
  simp [maskPorts]

theorem nodup_maskPorts (mask : BitVec 48) : (maskPorts mask).Nodup := List.Nodup.filter _ List.nodup_range

/-- The command waits, with the ports it names. -/
def enumAsked (r : Req) (mask : BitVec 48) (s : State) : State :=
  withDeferred ((defer r 0x0E01 s).ses.deferred.map fun d => if d.op = 0x0E01 then { d with arg := mask.toNat } else d) (defer r 0x0E01 s)

theorem enumPortRun_eq (r : Req) (mask : BitVec 48) (s : State) :
    enumPortRun r mask s = enumPortEnd (bringUp (maskPorts mask) (enumAsked r mask s)) := rfl

/-- The command as it waits. -/
def enumWaiting (r : Req) (mask : BitVec 48) (s : State) : Deferred :=
  { op := 0x0E01, ctx := r.ctx, gen := ((respond r 0x0E01 stOk [] s).sess r.ctx.toNat).gen, tag := r.tag
    at_ := (respond r 0x0E01 stOk [] s).smp.timeNs, arg := mask.toNat }

theorem enumAsked_deferred {r : Req} {mask : BitVec 48} {s : State} (hnone : running 0x0E01 s = none) :
    (enumAsked r mask s).ses.deferred = s.ses.deferred ++ [enumWaiting r mask s] := by
  have hother : s.ses.deferred.map (fun d => if d.op = 0x0E01 then { d with arg := mask.toNat } else d) = s.ses.deferred := by
    refine (List.map_congr_left fun d hd => ?_).trans (List.map_id _)
    have hop : d.op ≠ 0x0E01 := fun hop => List.find?_eq_none.mp hnone d hd (beq_iff_eq.mpr hop)
    exact if_neg hop
  have hlast : (defer r 0x0E01 s).ses.deferred = s.ses.deferred ++ [{ enumWaiting r mask s with arg := 0 }] :=
    congrArg (· ++ _) (respond_deferred r 0x0E01 stOk [] s)
  change (defer r 0x0E01 s).ses.deferred.map _ = _
  rw [hlast, List.map_append, hother]
  rfl

theorem enumAsked_leaves (r : Req) (mask : BitVec 48) (s : State) :
    enumLeaves (enumAsked r mask s) = enumLeaves s ∧ (enumAsked r mask s).prt = s.prt ∧
      (enumAsked r mask s).out = s.out ++ [.response r.ctx r.tag 0x0E01 stOk []] := by
  obtain ⟨hbeside, hports, -, -⟩ := leavesPorts_respond r 0x0E01 stOk [] s
  exact ⟨hbeside, hports, respond_out ..⟩

/-- The ports of a waiting ENUM_PORT, and whether they are ready. -/
theorem enumPortEnd_waits {s : State} {d : Deferred} (hrun : running 0x0E01 s = some d) {p : Nat} (hp : p < 48) (hnamed : d.arg.testBit p = true)
    (hbusy : portReady (s.port p) = false) : enumPortEnd s = s := by
  unfold enumPortEnd
  rw [hrun]
  refine if_neg fun hready => ?_
  have hmem : p ∈ (List.range 48).filter fun p => d.arg / 2 ^ p % 2 == 1 := by
    rw [Nat.testBit_eq_decide_div_mod_eq, decide_eq_true_iff] at hnamed
    simp [hp, hnamed]
  rw [List.all_eq_true.mp hready p hmem] at hbusy
  exact Bool.noConfusion hbusy

theorem completeOp_leaves (op st : Nat) (b : Bytes) (s : State) :
    enumLeaves (completeOp op st b s) = enumLeaves s ∧ (completeOp op st b s).prt = s.prt := by
  unfold completeOp
  split
  · unfold complete
    dsimp only
    split <;> exact ⟨rfl, rfl⟩
  · exact ⟨rfl, rfl⟩

theorem enumPortEnd_leaves (s : State) :
    enumLeaves (enumPortEnd s) = enumLeaves s ∧ (enumPortEnd s).prt = s.prt ∧ s.out <+: (enumPortEnd s).out := by
  unfold enumPortEnd
  split
  · exact ⟨rfl, rfl, List.prefix_rfl⟩
  · dsimp only
    split
    · obtain ⟨hbeside, hports⟩ := completeOp_leaves 0x0E01 stOk _ s
      exact ⟨hbeside, hports, out_prefix_completeOp ..⟩
    · exact ⟨rfl, rfl, List.prefix_rfl⟩

/-- With no port named the command ends at once. -/
theorem enumPortEnd_ends {s : State} {d : Deferred} (hrun : running 0x0E01 s = some d) (harg : d.arg = 0) :
    enumPortEnd s = completeOp 0x0E01 stOk [0, 0, 0, 0, 0, 0] s := by
  have hports : ((List.range 48).filter fun p => d.arg / 2 ^ p % 2 == 1) = [] := by
    rw [harg]
    decide
  unfold enumPortEnd
  rw [hrun]
  have hnone : le 6 0 = [0, 0, 0, 0, 0, 0] := by decide
  simp only [hports, List.all_nil, if_true, List.foldl_nil, hnone]

section enum
variable {r : Req} {s : State} {mask : BitVec 48}

/-- What ENUM_PORT leaves, and what it makes of the ports. -/
theorem enumPortRun_ports (hlen : s.prt.length = 48) : enumLeaves (enumPortRun r mask s) = enumLeaves s ∧
    s.out ++ [.response r.ctx r.tag 0x0E01 stOk []] <+: (enumPortRun r mask s).out ∧
      ∀ p, (enumPortRun r mask s).port p = if p ∈ maskPorts mask then (s.port p).begun (commands s) (homeLane s p) else s.port p := by
  obtain ⟨hbeside, hprt, hout⟩ := enumAsked_leaves r mask s
  have hin : ∀ p ∈ maskPorts mask, p < (enumAsked r mask s).prt.length := by
    intro p hp
    rw [hprt, hlen]
    exact (mem_maskPorts.mp hp).1
  obtain ⟨hbrought, -, hsent, hports⟩ := bringUp_ports _ (nodup_maskPorts mask) (enumAsked r mask s) hin
  obtain ⟨hended, hkept, hsent'⟩ := enumPortEnd_leaves (bringUp (maskPorts mask) (enumAsked r mask s))
  have hlead : commands (enumAsked r mask s) = commands s := (congrArg commands hbeside :)
  rw [enumPortRun_eq]
  refine ⟨hended.trans (hbrought.trans hbeside), hout ▸ hsent.trans hsent', fun p => ?_⟩
  have hlane : homeLane (enumAsked r mask s) p = homeLane s p := (congrArg (homeLane · p) hbeside :)
  have hsame : (enumAsked r mask s).port p = s.port p := congrArg (·.getD p {}) hprt
  rw [State.port, hkept, ← State.port, hports p, hlead, hlane, hsame]

variable (hfree : deferredBusy 0x0E01 s = false)
include hfree

theorem running_enumAsked : running 0x0E01 (enumAsked r mask s) = some (enumWaiting r mask s) := by
  have hnone := running_of_free (by decide) (by decide) hfree
  rw [running, enumAsked_deferred hnone, List.find?_append, show s.ses.deferred.find? (fun d => d.op == 0x0E01) = none from hnone]
  rfl

/-- ENUM_PORT of no port. -/
theorem enumPortRun_none (hopen : (s.sess r.ctx.toNat).opened = true) (hmask : mask = 0) :
    Out.completion r.ctx r.tag 0x0E01 stOk [0, 0, 0, 0, 0, 0] ∈ (enumPortRun r mask s).out := by
  subst hmask
  have hnone := running_of_free (by decide) (by decide) hfree
  have hports : maskPorts 0 = [] := by decide
  have hopened : ((enumAsked r 0 s).sess r.ctx.toNat).opened = true := (owner_respond r 0x0E01 stOk [] r.ctx.toNat s).1.trans hopen
  have hbrought : bringUp [] (enumAsked r 0 s) = enumAsked r 0 s := rfl
  rw [enumPortRun_eq, hports, hbrought, enumPortEnd_ends (running_enumAsked hfree) rfl,
    completeOp_last (d := enumWaiting r 0 s) (op := 0x0E01) (enumAsked_deferred hnone) rfl hnone hopened rfl]
  exact List.mem_append_right _ (List.mem_singleton.mpr rfl)

/-- ENUM_PORT of some port on a module that commands waits for the ports it names. -/
theorem enumPortRun_waits (hlen : s.prt.length = 48) (hmask : mask ≠ 0) (hlead : commands s = true) :
    (running 0x0E01 (enumPortRun r mask s)).map Deferred.arg = some mask.toNat := by
  obtain ⟨p, hp, hbit⟩ : ∃ p, p < 48 ∧ mask.getLsbD p = true := by
    by_contra hno
    refine hmask (BitVec.eq_of_getLsbD_eq fun p hp => ?_)
    refine Eq.trans ?_ BitVec.getLsbD_zero.symm
    exact Bool.eq_false_iff.mpr fun hbit => hno ⟨p, hp, hbit⟩
  obtain ⟨hbeside, hprt, -⟩ := enumAsked_leaves r mask s
  have hin : ∀ p ∈ maskPorts mask, p < (enumAsked r mask s).prt.length := by
    intro p hp
    rw [hprt, hlen]
    exact (mem_maskPorts.mp hp).1
  obtain ⟨-, hothers, -, hports⟩ := bringUp_ports _ (nodup_maskPorts mask) (enumAsked r mask s) hin
  have hrun : running 0x0E01 (bringUp (maskPorts mask) (enumAsked r mask s)) = some (enumWaiting r mask s) := by
    rw [running_of_other (by decide), hothers, ← running_of_other (by decide), running_enumAsked hfree]
  have hlead' : commands (enumAsked r mask s) = true := (congrArg commands hbeside :).trans hlead
  have hbusy : portReady ((bringUp (maskPorts mask) (enumAsked r mask s)).port p) = false := by
    rw [hports p, if_pos (mem_maskPorts.mpr ⟨hp, hbit⟩), hlead']
    rfl
  rw [enumPortRun_eq, enumPortEnd_waits hrun hp hbit hbusy, hrun]
  rfl

end enum

/-- A port at the start of service cycles, as the statement lists it. -/
theorem begun_fields (lead : Bool) (lane : Lane) (x : Port) : (x.begun lead lane).link = 1 ∧ (x.begun lead lane).waiting = [] ∧
    (x.begun lead lane).ringDly = none ∧ (x.begun lead lane).svc.phase = (if lead then .lock else .follow) ∧
    (x.begun lead lane).cseqAll = x.cseqAll ∧ (x.begun lead lane).cnt = x.cnt ∧ (x.begun lead lane).pos.length = x.pos.length ∧
    ∀ y ∈ (x.begun lead lane).pos, y.present = false ∧ y.dlyN = none ∧ y.dlyS = none := by
  refine ⟨rfl, rfl, rfl, rfl, rfl, rfl, List.length_map _, fun y hy => ?_⟩
  obtain ⟨z, -, rfl⟩ := List.mem_map.mp hy
  exact ⟨rfl, rfl, rfl⟩

/-- Beside the ports, ENUM_PORT leaves the configuration, NV, channels and engine. -/
theorem settled_of_enumLeaves {s t : State} (h : enumLeaves t = enumLeaves s) (hset : settled s) : settled t :=
  settled_congr hset (congrArg (fun u => u.pro.latched) h :) (congrArg (fun u => u.hkp.throttled) h :)
    (congrArg (fun u => u.smp.lowCad) h :) (congrArg (fun u => u.lcy.defaultsLocked) h :) (congrArg (fun u => u.pwr.conds) h :)

theorem enumPort_enumerates {r : Req} {s : State} (hset : settled s) (low : Word) (high : Half) (h : heard r 0x0E01 2 s)
    (hstate : stateOk [2, 4] s = true) (hfree : deferredBusy 0x0E01 s = false) (hlen : s.prt.length = 48)
    (hpresent : ∀ p, p < 48 → (portMask low high).getLsbD p = true → portPresent s p = true) :
    ∃ t, exec (.enumPort r low high) s = .next t ∧ (Out.response r.ctx r.tag 0x0E01 stOk []) ∈ t.out ∧
      (portMask low high = 0 → (Out.completion r.ctx r.tag 0x0E01 stOk [0, 0, 0, 0, 0, 0]) ∈ t.out) ∧
      (portMask low high ≠ 0 → commands s = true → (running 0x0E01 t).map Deferred.arg = some (portMask low high).toNat) ∧
      (t.cfg = s.cfg ∧ t.nv = s.nv ∧ t.pro.kA = s.pro.kA ∧ t.pro.kB = s.pro.kB ∧ t.ctl = s.ctl) ∧
      ∀ p, t.port p = if p ∈ maskPorts (portMask low high) then (s.port p).begun (commands s) (homeLane s p) else s.port p := by
  obtain ⟨x, hx, hdeferred⟩ := received_cases r s
  have hbusy : deferredBusy 0x0E01 (received r s) = false := hx ▸ deferredBusy_beside hdeferred hfree
  have hopen : ((received r s).sess r.ctx.toNat).opened = true := (touch_opened { s with out := [] } r _).trans h.2.1
  have hprt : (received r s).prt = s.prt := touch_prt _ r
  have hbeside : enumLeaves (received r s) = enumLeaves s := by
    rw [hx]
    rfl
  have hjudge : ({ absent := (List.range 48).any fun p => (portMask low high).getLsbD p && !portPresent (received r s) p
                   forbidden := !stateOk [2, 4] (received r s), busy := deferredBusy 0x0E01 (received r s) } : Judge).first false = none := by
    refine Judge.first_none (habsent := ?_) (hforbidden := ?_) (hbusy := hbusy)
    · refine List.any_eq_false.mpr fun p hp => ?_
      have hhere : portPresent (received r s) p = portPresent s p := by
        rw [hx]
        rfl
      rw [hhere]
      cases hbit : (portMask low high).getLsbD p
      · simp
      · simp [hpresent p (List.mem_range.mp hp) hbit]
    · rw [hx]
      exact congrArg not hstate
  obtain ⟨hleaves, hsent, hports⟩ := enumPortRun_ports (r := r) (s := received r s) (mask := portMask low high) (hprt ▸ hlen)
  have hcompletion := enumPortRun_none (r := r) (mask := portMask low high) hbusy hopen
  have hwaits := enumPortRun_waits (r := r) (mask := portMask low high) hbusy (hprt ▸ hlen)
  have hlead : commands (received r s) = commands s := (congrArg commands hbeside :)
  have hlane (p : Nat) : homeLane (received r s) p = homeLane s p := (congrArg (homeLane · p) hbeside :)
  have hport (p : Nat) : (received r s).port p = s.port p := congrArg (·.getD p {}) hprt
  have hkept := hleaves.trans hbeside
  have hexec := exec_heard (c := .enumPort r low high) (s := s) rfl h hjudge (settled_of_enumLeaves hkept hset)
  generalize enumPortRun r (portMask low high) (received r s) = v at *
  refine ⟨_, hexec, ?_, hcompletion, fun hmask hc => hwaits hmask (hlead.trans hc), ?_, fun p => ?_⟩
  · rw [transmit_out]
    exact hsent.subset (List.mem_append_right _ (List.mem_singleton.mpr rfl))
  · exact ⟨(congrArg State.cfg hkept :), (congrArg State.nv hkept :), (congrArg (fun u => u.pro.kA) hkept :),
      (congrArg (fun u => u.pro.kB) hkept :), (congrArg State.ctl hkept :)⟩
  · have hlast : (transmit s v).port p = v.port p := rfl
    rw [hlast, hports p, hlead, hlane, hport]

/-- Settles O30: records and refusals answer, ENUM_PORT takes up the ports it names, UNIT_DIAG waits for its unit. -/
theorem recordsPortsAndUnitsAnswerTheHost : Obligations.RecordsPortsAndUnitsAnswerTheHost := by
  intro r s hset
  refine ⟨?records, ?ports, ?units, fun op hnone h => unknownOpcode_refused hset hnone h⟩
  case records =>
    intro first n h hstate hlow hhigh a l
    exact recRead_answers hset h hstate hlow hhigh
  case ports =>
    intro low high mask h hstate hfree hlen hpresent
    obtain ⟨t, hexec, hresponse, hcompletion, hwaits, ⟨hcfg, hnv, hkA, hkB, hctl⟩, hports⟩ :=
      enumPort_enumerates hset low high h hstate hfree hlen hpresent
    refine ⟨t, hexec, hresponse, hcompletion, hwaits, hcfg, hnv, hkA, hkB, hctl, fun p hp => ⟨fun hout => ?_, fun hnamed => ?_⟩⟩
    · exact (hports p).trans (if_neg fun hmem => Bool.noConfusion ((mem_maskPorts.mp hmem).2.symm.trans hout))
    · have hmem : p ∈ maskPorts (portMask low high) := mem_maskPorts.mpr ⟨hp, hnamed⟩
      rw [hports p, if_pos hmem]
      exact begun_fields _ _ _
  case units =>
    intro u page h hstate hu hc hport hunit hpage hlead hreach
    exact unitDiag_asks hset h hstate hu hc hport hunit hpage hlead hreach

end Sys2Proof.Machine
end
